-- ==== Sys2Proof/Word.lean ====
section
/-! DEFINITION. The word types of the FW-1 and their plainest arithmetic (00_scope R3–R5, R11). -/

namespace Sys2Proof

/-- A general register's contents (R27). -/
abbrev Word := BitVec 64
/-- A vector register's contents (R28). -/
abbrev VWord := BitVec 512
/-- The smallest addressable unit of memory (R4). -/
abbrev Byte := BitVec 8
/-- A register field of an instruction body (R75). -/
abbrev Reg := BitVec 4
/-- A predicate field (R76). -/
abbrev Pred := BitVec 3

/-- A line, and a poison granule, is 64 bytes everywhere in the device (R5, R433). -/
abbrev lineBytes : Nat := 64

/-- All ones: the -1 that several instructions answer. -/
abbrev minusOne : Word := BitVec.allOnes 64

end Sys2Proof
end

