-- ==== Sys2Proof/Config.lean ====
section
/-! DEFINITION. What the FW1-A0 fixes once (zone points, tile types, token figures) and the FREE VALUES: constants
without a body that stand for values the spec leaves open, so that no proof can see what they are. -/

namespace Sys2Proof.Config

/-- The three operating points (R17). -/
inductive Point where
  | fast
  | medium
  | efficient
  deriving DecidableEq, Repr

/-- The operating point of a zone, by its zone column (R16, R17). -/
def zonePoint (zone : Nat) : Point :=
  match zone % 8 with
  | 0 => .efficient
  | 1 => .medium
  | 6 => .medium
  | 7 => .efficient
  | _ => .fast

/-- Core cycles in ten nanoseconds of wafer time (R6, R17). -/
def cyclesPer10ns : Point → Nat
  | .fast => 17
  | .medium => 13
  | .efficient => 9

/-- The four tile types (R18). -/
inductive TileType where
  | dense
  | sparse
  | attention
  | vector
  deriving DecidableEq, Repr

/-- The type of every tile of a tile row (R18). -/
def rowType (row : Nat) : TileType :=
  if row ≤ 4 then .dense else if row ≤ 6 then .sparse else if row ≤ 8 then .attention else .vector

/-- Tile-store rows of 256 bytes (R248, R325). -/
def storeRows : TileType → Nat
  | .dense => 2048
  | .sparse => 1024
  | .attention => 1024
  | .vector => 0

/-- TFULL: the tokens of full issue (R200). -/
def tfull : TileType → Point → Nat
  | .dense, .fast => 122 | .dense, .medium => 70 | .dense, .efficient => 34
  | .sparse, .fast => 41 | .sparse, .medium => 23 | .sparse, .efficient => 11
  | .attention, .fast => 61 | .attention, .medium => 35 | .attention, .efficient => 17
  | .vector, .fast => 33 | .vector, .medium => 19 | .vector, .efficient => 9

/-- TCORE: the part of TFULL that pays for fetch (R200). -/
def tcore : TileType → Point → Nat
  | .vector, p => tfull .vector p
  | _, .fast => 6
  | _, .medium => 4
  | _, .efficient => 2

/-- The engine share, 1.25 times as large for an FP64 product (R200, R203). -/
def engineShare (t : TileType) (p : Point) (fp64 : Bool) : Nat :=
  let e := tfull t p - tcore t p
  if fp64 then (5 * e + 3) / 4 else e

/-- The token pool at a PCAP given in 50 mW units: PCAP less the fixed consumers' 8.2 kW (R25, R206). -/
def pool (pcap : Nat) : Nat := pcap - 164000

/-- The pool at the lowest PCAP of R212. -/
def minPool : Nat := pool 180000

/-- HBM stacks, and the bytes of one (R24, R254). -/
def numStacks : Nat := 40
def hbmStackBytes : Nat := 2 ^ 36

/-- A FREE VALUE (R14's fused maps are not given): the fused ZDEF word of row `row` of zone `zone` (R402). It is fixed
at manufacture, and the spec gives no module's map. -/
opaque fusedZdef : Nat → Nat → BitVec 12
/-- A FREE VALUE: FWSVN as fused (R462). -/
opaque fusedSvn : BitVec 16
/-- A FREE VALUE: which of the four ways of a full set of an L1 gives up its line (R249 names no replacement). -/
opaque l1Victim : Nat → Nat
/-- A FREE VALUE: the payload bytes of an item of link traffic (R451 lays out none but those of R454). -/
opaque payload : Nat → List Byte
/-- A FREE VALUE: whether the predictor runs an AMO near (R287). The counter of State selects a fresh one. -/
opaque amoNear : Nat → Bool
/-- A FREE VALUE: TADDR of a trap that has no address to name, such as a misaligned byte count (R321, R396). -/
opaque openAddress : Nat → Word
/-- A FREE VALUE: the allocation, in tokens, at which a broker caps a zone that is too hot (R211). -/
opaque thermalCap : Nat → Nat
/-- A FREE VALUE: which of the cached lines that a home slice holds has its data at a granule of the slice, if any (R244). -/
opaque sliceLine : Nat → Nat
/-- A FREE VALUE: whether some core's L1 holds a dirty copy of a line when its home tile is quarantined (R438). -/
opaque dirtyInL1 : Nat → Bool
/-- A FREE VALUE: the digest of a measurement block with the contents that the module has of it (R470). -/
opaque measurement : Nat → Nat → BitVec 384
/-- A FREE VALUE: the digest of the certificate chain of a slot (R470). -/
opaque certDigest : Nat → BitVec 384
/-- FREE VALUES: CTExponent, DataTransferSize and MaxSPDMmsgSize, which R470 leaves to the device. -/
opaque ctExponent : Byte
opaque dataTransferSize : BitVec 32
opaque maxSpdmMessage : BitVec 32
/-- A FREE VALUE: the kind of component that measurement block `k` measures, as SPDM's DMTF specification numbers kinds (R470). -/
opaque measurementKind : Nat → BitVec 7
/-- A FREE VALUE: the summary of kind 1 or 0xFF over the measurement blocks that a CHALLENGE_AUTH carries (R470). -/
opaque measurementSummary : Nat → List Byte → BitVec 384
/-- A FREE VALUE: the nonce of a signed response (R470). -/
opaque nonce : Nat → BitVec 256
/-- A FREE VALUE: where an atelier core begins (R463): the spec names no entry of its firmware. -/
opaque atelierEntry : Nat → Word
/-- A FREE VALUE: a signature over a transcript (R470); the first argument is the certificate slot. -/
opaque signature : Nat → Nat → List Byte
/-- A FREE VALUE: bytes of a certificate chain (R470). -/
opaque certificate : Nat → List Byte
/-- A FREE VALUE: what the rim controller's self-test finds dead at a site (R464), by zone, row, column. -/
opaque selfTestDead : Nat → Nat → Nat → Bool
/-- FREE VALUES: HBM training and serial of a stack, and equalisation of a port, in the record that flash was shipped with (R464). -/
opaque shippedTraining : Nat → Word
opaque shippedSerial : Nat → Word
opaque shippedEqualisation : Nat → Word
/-- A FREE VALUE: what the rim controller makes of the bytes of the recovery window (R469, which lays out no image): whether the hash
matches, whether the RSA and the SLH-DSA signature verify, SVN, COMMIT and the hash. -/
opaque recoveryImage : List (Nat × Byte) → Bool × Bool × Bool × BitVec 16 × Bool × BitVec 384
/-- A FREE VALUE: the SHA-384 digest of a stored-results record (R470, which lays out none). -/
opaque recordDigest : List Nat → BitVec 384
/-- A FREE VALUE: the record that a report to the host takes in the PF ring (R460, which gives it no layout), by its number and its
object (log 52). -/
opaque hostReport : Nat → Word → BitVec 512
/-- A FREE VALUE: the count loaded into a wear counter from the stored record at power-good (R468). -/
opaque storedWear : Nat → BitVec 32

end Sys2Proof.Config
end

