-- ==== Sys2Proof/Machine/Map.lean ====
section
/-! DEFINITION. Finite maps and sets as plain sorted lists, and memory as a canonical list of Host.Cell: the containers
that State is built from. -/

namespace Sys2Proof.Machine

/-- A map from numbers, written as the list of its entries; a number with no entry maps to a default that the reader
names. -/
structure FMap (α : Type) where
  entries : List (Nat × α) := []
  deriving DecidableEq, Repr

def entryGet {α : Type} (k : Nat) : List (Nat × α) → Option α
  | [] => none
  | (j, x) :: t => if k = j then some x else entryGet k t

/-- Insert or replace, keeping the keys rising. -/
def entrySet {α : Type} (k : Nat) (x : α) : List (Nat × α) → List (Nat × α)
  | [] => [(k, x)]
  | (j, y) :: t => if k = j then (k, x) :: t else if k < j then (k, x) :: (j, y) :: t else (j, y) :: entrySet k x t

def FMap.find? {α : Type} (m : FMap α) (k : Nat) : Option α := entryGet k m.entries
def FMap.getD {α : Type} (m : FMap α) (k : Nat) (d : α) : α := (m.find? k).getD d
def FMap.set {α : Type} (m : FMap α) (k : Nat) (x : α) : FMap α := ⟨entrySet k x m.entries⟩
def FMap.erase {α : Type} (m : FMap α) (k : Nat) : FMap α := ⟨m.entries.filter fun e => e.1 != k⟩
/-- Keep the entries whose key passes `p`. -/
def FMap.keep {α : Type} (m : FMap α) (p : Nat → Bool) : FMap α := ⟨m.entries.filter fun e => p e.1⟩
def FMap.keys {α : Type} (m : FMap α) : List Nat := m.entries.map (·.1)
def FMap.values {α : Type} (m : FMap α) : List α := m.entries.map (·.2)
def FMap.mapValues {α : Type} (m : FMap α) (f : Nat → α → α) : FMap α := ⟨m.entries.map fun e => (e.1, f e.1 e.2)⟩

/-- A set of numbers as a rising list. -/
abbrev NatSet := List Nat

def setInsert (k : Nat) : NatSet → NatSet
  | [] => [k]
  | j :: t => if k = j then k :: t else if k < j then k :: j :: t else j :: setInsert k t
def setRemove (k : Nat) (s : NatSet) : NatSet := s.filter (· != k)

/-! Memory: rising addresses, no entry equal to the byte 0 that an unlisted address reads as. -/

abbrev Memory := List Host.Cell

def Memory.read : Memory → Nat → Byte
  | [], _ => 0#8
  | (b, x) :: t, a => if a = b then x else Memory.read t a

def Memory.insert (a : Nat) (x : Byte) : Memory → Memory
  | [] => [(a, x)]
  | (b, y) :: t => if a = b then (a, x) :: t else if a < b then (a, x) :: (b, y) :: t else (b, y) :: Memory.insert a x t

/-- Writing the byte that an unlisted address reads as removes the entry. -/
def Memory.write (m : Memory) (a : Nat) (x : Byte) : Memory :=
  if x = 0#8 then m.filter fun c => c.1 != a else Memory.insert a x m

/-- Every byte of [lo, lo + n) becomes 0. -/
def Memory.clear (m : Memory) (lo n : Nat) : Memory := m.filter fun c => !(lo ≤ c.1 && c.1 < lo + n)

/-- The canonical form. -/
def Memory.wf : Memory → Bool
  | [] => true
  | [(_, x)] => x != 0#8
  | (a, x) :: (b, y) :: t => x != 0#8 && a < b && Memory.wf ((b, y) :: t)

/-- `n` bytes from `a` as one little-endian number (R4). -/
def Memory.readN (m : Memory) (a : Nat) : Nat → Nat
  | 0 => 0
  | n + 1 => (m.read a).toNat + 256 * Memory.readN m (a + 1) n

/-- The low `n` bytes of `x` to `a`, little-endian (R4). -/
def Memory.writeN (m : Memory) (a : Nat) : Nat → Nat → Memory
  | 0, _ => m
  | n + 1, x => Memory.writeN (m.write a (BitVec.ofNat 8 x)) (a + 1) n (x / 256)

def Memory.readBytes (m : Memory) (a n : Nat) : List Byte := (List.range n).map fun i => m.read (a + i)
def Memory.writeBytes (m : Memory) (a : Nat) : List Byte → Memory
  | [] => m
  | x :: t => Memory.writeBytes (m.write a x) (a + 1) t

/-! Small arithmetic shared by the meanings. -/

def ceilDiv (a b : Nat) : Nat := (a + b - 1) / b
/-- Bits [lo + n − 1 : lo] of a number. -/
def bits (x lo n : Nat) : Nat := (x / 2 ^ lo) % 2 ^ n
def bitAt (x i : Nat) : Bool := bits x i 1 == 1
/-- A little-endian number from bytes. -/
def ofBytes : List Byte → Nat
  | [] => 0
  | b :: t => b.toNat + 256 * ofBytes t
def toBytes : Nat → Nat → List Byte
  | 0, _ => []
  | n + 1, x => BitVec.ofNat 8 x :: toBytes n (x / 256)
/-- x read as an n-bit two's complement number. -/
def signed (n x : Nat) : Int := if bitAt x (n - 1) then (x % 2 ^ n : Nat) - (2 ^ n : Nat) else (x % 2 ^ n : Nat)

end Sys2Proof.Machine
end

