-- ==== Sys2Proof/Machine/Input.lean ====
section
/-! DEFINITION. The operands of an event: the object a device step acts on, and what the outside supplies with it
(a host register value, a link flit, a firmware image, a sensor reading). State.input holds one while its event runs. -/

namespace Sys2Proof.Machine

/-- A strand's registers (R27–R30, R42–R44). An entry that is absent reads zero; GF and VF hold the full bits. -/
structure RegFile where
  g : FMap Word := ⟨[]⟩
  v : FMap VWord := ⟨[]⟩
  pw : BitVec 8 := 0x01#8
  fmt : BitVec 14 := 0#14
  stat : BitVec 6 := 0#6
  gf : BitVec 16 := BitVec.allOnes 16
  vf : BitVec 16 := BitVec.allOnes 16
  deriving DecidableEq, Repr

/-- What a firmware image offers the rim controller (R469). -/
structure FirmwareImage where
  hashOk : Bool
  rsaOk : Bool
  slhOk : Bool
  svn : BitVec 16
  commit : Bool
  /-- the image's SHA-384 hash -/
  hash : BitVec 384 := 0#384
  deriving DecidableEq, Repr

/-- What the rim controller finds of the stored-results record (R464). -/
structure StoredResults where
  sigOk : Bool
  defectsOk : Bool
  /-- stacks whose serial or data mismatch -/
  badStacks : List Nat
  /-- ports whose data mismatch -/
  badPorts : List Nat
  /-- the defect list that flash was shipped with: (zone, row, physical column) -/
  defects : List (Nat × Nat × Nat)
  deriving DecidableEq, Repr

/-- A link flit as it reaches a port (R451): its 256 bytes. -/
structure LinkFlit where
  bytes : List Byte
  deriving DecidableEq, Repr

/-- What a read of the background scrub or of the patrol finds (R431, R466, R487). -/
inductive ReadFinding where
  | clean
  | correctable
  | uncorrectable
  deriving DecidableEq, Repr

/-- How another module refuses what an engine asked of it (R449, R316, R371). -/
inductive FarFault where
  | prot
  | notPresent
  | ownerHost
  /-- its frame is in system space, or in host space for a combination -/
  | range
  deriving DecidableEq, Repr

/-- The operands of an event. Each event reads the fields that its meaning's docstring names; the others are ignored. -/
structure Input where
  strand : Nat := 0
  core : Nat := 0
  zone : Nat := 0
  site : Nat := 0
  part : Nat := 0
  queue : Nat := 0
  launch : Nat := 0
  group : Nat := 0
  task : Nat := 0
  tenant : Nat := 0
  stack : Nat := 0
  port : Nat := 0
  module : Nat := 0
  /-- an index into the list of pending accesses, operations, messages or packets -/
  index : Nat := 0
  /-- which part of an operation: a granule, an element, a tree node -/
  item : Nat := 0
  level : Nat := 0
  mbox : Nat := 0
  /-- a PCI function: 0 to 63 a virtual function, 64 the physical function -/
  fn : Nat := 0
  /-- a byte offset in a register page or a line or frame number -/
  off : Nat := 0
  /-- a value a register write carries -/
  value : Word := 0#64
  /-- the data that another module's answer carries -/
  wide : BitVec 512 := 0#512
  /-- where a granule that another module's transfer reads here goes on to (R314), and the module whose operation it belongs to, when
  another pushes it here -/
  dest : Word := 0#64
  issuer : Option Nat := none
  /-- the bytes of another module's contribution to a collective -/
  data : List Byte := []
  /-- a temperature in hundredths of a degree -/
  temp : Int := 0
  /-- a choice between the two forms of an event -/
  flag : Bool := false
  /-- a frame the host has copied a page to -/
  frame : Option Nat := none
  found : ReadFinding := .clean
  bad : List Nat := []
  flit : Option LinkFlit := none
  /-- the refusal that another module's answer carries -/
  far : Option FarFault := none
  /-- the registers that another module's migrating strand carries, and the record of a launch that is bound there alone -/
  regs : RegFile := {}
  launched : BitVec 1024 := 0#1024
  image : Option FirmwareImage := none
  record : Option StoredResults := none
  deriving DecidableEq, Repr

end Sys2Proof.Machine
end

