-- ==== Sys2Proof/Syntax.lean ====
section
/-! DEFINITION. The instructions and events of the FW-1 as data: one constructor per row of
spec/opcode_table.json. A row is either an instruction of the Ilunis encoding (04_pairs R78, R79, R82) or a
step the device takes by itself or at an outside agent's request (an EVENT: a completion, an arrival, a
dispatcher action, a host register write). Events have no encoding and no fields here: what an event acts on, and what the
outside supplies with it, stands in State.input (Machine/Input.lean) while it runs. -/

namespace Sys2Proof

/-- A register source with its T bit (R31, R76). -/
structure Src where
  r : Reg
  t : Bool
  deriving DecidableEq, Repr

/-- An immediate or displacement field of a body with the literal that extends it when X = 1 (R73, R77). -/
structure Ext (n : Nat) where
  short : BitVec n
  lit : Option (BitVec 32)
  deriving DecidableEq, Repr

/-- One constructor per row of the opcode table. -/
inductive Instr where
  -- C slot: control (R96–R102)
  | nopc
  | nopa
  | br (off : Ext 21)
  | brl (off : Ext 21)
  | jmp (a : Src)
  | jmpl (a : Src)
  | ret
  | dbnz (d : Reg) (off : Ext 17)
  | endStrand
  | yieldTurn
  | pause (a : Src)
  | hend
  | movl (d : Reg) (a : Src) (imm : Ext 12)
  | movi (d : Reg) (imm : BitVec 12)
  -- C slot: plain loads and stores (R103–R105)
  | ld (d : Reg) (base : Src) (sz : BitVec 2) (sg : Bool) (off : Ext 9)
  | st (s : Reg) (base : Src) (sz : BitVec 2) (off : Ext 9)
  | ldx (d : Reg) (base idx : Src) (sz : BitVec 2) (sg sc : Bool)
  | stx (s : Reg) (base idx : Src) (sz : BitVec 2) (sc : Bool)
  -- special registers and TRAP (R107–R109)
  | mfs (d : Reg) (num : BitVec 10)
  | mts (s : Reg) (num : BitVec 10)
  | trap (code : BitVec 8)
  -- A slot: integer (R110–R116)
  | add (d : Reg) (a b : Src)
  | sub (d : Reg) (a b : Src)
  | and (d : Reg) (a b : Src)
  | or (d : Reg) (a b : Src)
  | xor (d : Reg) (a b : Src)
  | andn (d : Reg) (a b : Src)
  | shl (d : Reg) (a b : Src)
  | shr (d : Reg) (a b : Src)
  | sar (d : Reg) (a b : Src)
  | rot (d : Reg) (a b : Src)
  | min (d : Reg) (a b : Src)
  | max (d : Reg) (a b : Src)
  | minu (d : Reg) (a b : Src)
  | maxu (d : Reg) (a b : Src)
  | mul (d : Reg) (a b : Src)
  | mulh (d : Reg) (a b : Src)
  | mulhu (d : Reg) (a b : Src)
  | div (d : Reg) (a b : Src)
  | divu (d : Reg) (a b : Src)
  | rem (d : Reg) (a b : Src)
  | remu (d : Reg) (a b : Src)
  | clz (d : Reg) (a : Src)
  | ctz (d : Reg) (a : Src)
  | popc (d : Reg) (a : Src)
  | brev (d : Reg) (a : Src)
  | bext (d : Reg) (a b : Src)
  | bdep (d : Reg) (a b : Src)
  | addi (d : Reg) (a : Src) (imm : BitVec 12)
  | andi (d : Reg) (a : Src) (imm : BitVec 12)
  | ori (d : Reg) (a : Src) (imm : BitVec 12)
  | xori (d : Reg) (a : Src) (imm : BitVec 12)
  | shli (d : Reg) (a : Src) (sh : BitVec 6)
  | shri (d : Reg) (a : Src) (sh : BitVec 6)
  | sari (d : Reg) (a : Src) (sh : BitVec 6)
  | lea (d : Reg) (a b : Src) (sh : BitVec 2)
  | cmp (cc : BitVec 4) (p : Pred) (a b : Src)
  | cmpi (cc : BitVec 4) (p : Pred) (a : Src) (imm : BitVec 12)
  | sel (d : Reg) (p : Pred) (n : Bool) (a b : Src)
  -- A slot: floating point (R117–R120)
  | fadd (et : BitVec 2) (d : Reg) (a b : Src)
  | fsub (et : BitVec 2) (d : Reg) (a b : Src)
  | fmul (et : BitVec 2) (d : Reg) (a b : Src)
  | ffma (et : BitVec 2) (d : Reg) (a b : Src)
  | fdiv (et : BitVec 2) (d : Reg) (a b : Src)
  | fmin (et : BitVec 2) (d : Reg) (a b : Src)
  | fmax (et : BitVec 2) (d : Reg) (a b : Src)
  | fsqrt (et : BitVec 2) (d : Reg) (a : Src)
  | fabs (et : BitVec 2) (d : Reg) (a : Src)
  | fneg (et : BitVec 2) (d : Reg) (a : Src)
  | ex2 (et : BitVec 2) (d : Reg) (a : Src)
  | lg2 (et : BitVec 2) (d : Reg) (a : Src)
  | rcp (et : BitVec 2) (d : Reg) (a : Src)
  | rsq (et : BitVec 2) (d : Reg) (a : Src)
  | fcmp (cc : BitVec 3) (et : BitVec 2) (p : Pred) (a b : Src)
  | fcvt (dst src : BitVec 4) (d : Reg) (a : Src)
  -- A slot: predicates and FMT (R121–R123)
  | pand (d a b : Pred)
  | por (d a b : Pred)
  | pxor (d a b : Pred)
  | pnot (d a : Pred)
  | pmov (d a : Pred)
  | fmtset (field : BitVec 4) (a : Src) (imm : BitVec 12)
  | fmtget (d : Reg)
  -- C slot: vector memory (R127)
  | ldv (d : Reg) (base : Src) (off : Ext 8)
  | stv (s : Reg) (base : Src) (off : Ext 8)
  | ldvb (d : Reg) (base : Src) (esz : BitVec 2) (off : Ext 8)
  -- A slot: vector (R129–R142)
  | vadd (et : BitVec 3) (d : Reg) (a b : Src) (bs sat : Bool)
  | vsub (et : BitVec 3) (d : Reg) (a b : Src) (bs sat : Bool)
  | vmul (et : BitVec 3) (d : Reg) (a b : Src) (bs sat : Bool)
  | vfma (et : BitVec 3) (d : Reg) (a b : Src) (bs sat : Bool)
  | vmin (et : BitVec 3) (d : Reg) (a b : Src) (bs sat : Bool)
  | vmax (et : BitVec 3) (d : Reg) (a b : Src) (bs sat : Bool)
  | vabs (et : BitVec 3) (d : Reg) (a : Src)
  | vneg (et : BitVec 3) (d : Reg) (a : Src)
  | vex2 (et : BitVec 3) (d : Reg) (a : Src)
  | vlg2 (et : BitVec 3) (d : Reg) (a : Src)
  | vrcp (et : BitVec 3) (d : Reg) (a : Src)
  | vrsq (et : BitVec 3) (d : Reg) (a : Src)
  | vand (et : BitVec 3) (d : Reg) (a b : Src)
  | vor (et : BitVec 3) (d : Reg) (a b : Src)
  | vxor (et : BitVec 3) (d : Reg) (a b : Src)
  | vshl (et : BitVec 3) (d : Reg) (a b : Src)
  | vshr (et : BitVec 3) (d : Reg) (a b : Src)
  | vcmp (cc : BitVec 3) (et : BitVec 3) (d : Reg) (a b : Src)
  | vsel (et : BitVec 3) (d : Reg) (a b : Src)
  | vshuf (et : BitVec 3) (d : Reg) (a b : Src)
  | vbcast (et : BitVec 3) (d : Reg) (a : Src)
  | vins (et : BitVec 3) (d : Reg) (a b : Src)
  | vext (et : BitVec 3) (d : Reg) (a b : Src)
  | viota (et : BitVec 3) (d : Reg)
  | vredAdd (et : BitVec 3) (d : Reg) (a : Src)
  | vredMin (et : BitVec 3) (d : Reg) (a : Src)
  | vredMax (et : BitVec 3) (d : Reg) (a : Src)
  | vredAnd (et : BitVec 3) (d : Reg) (a : Src)
  | vredOr (et : BitVec 3) (d : Reg) (a : Src)
  | vredXor (et : BitVec 3) (d : Reg) (a : Src)
  | vscanAdd (et : BitVec 3) (d : Reg) (a : Src)
  | vscanMin (et : BitVec 3) (d : Reg) (a : Src)
  | vscanMax (et : BitVec 3) (d : Reg) (a : Src)
  | vcvt (dst src : BitVec 3) (d : Reg) (a : Src)
  | vqnt (et : BitVec 3) (fp4 : Bool) (d : Reg) (a b : Src)
  | vdqnt (et : BitVec 3) (fp4 : Bool) (d : Reg) (a : Src) (d2 : Reg)
  | vdot (et : BitVec 3) (d : Reg) (a b : Src)
  -- C slot: scoped accesses, atomics, fences, cache (R293–R300)
  | lda (d : Reg) (base : Src) (sz : BitVec 2) (scope : BitVec 3) (off : Ext 6)
  | stl (s : Reg) (base : Src) (sz : BitVec 2) (scope : BitVec 3) (off : Ext 6)
  | amoAdd (d : Reg) (a b : Src) (w : Bool) (scope : BitVec 2)
  | amoAnd (d : Reg) (a b : Src) (w : Bool) (scope : BitVec 2)
  | amoOr (d : Reg) (a b : Src) (w : Bool) (scope : BitVec 2)
  | amoXor (d : Reg) (a b : Src) (w : Bool) (scope : BitVec 2)
  | amoMin (d : Reg) (a b : Src) (w : Bool) (scope : BitVec 2)
  | amoMax (d : Reg) (a b : Src) (w : Bool) (scope : BitVec 2)
  | amoMinu (d : Reg) (a b : Src) (w : Bool) (scope : BitVec 2)
  | amoMaxu (d : Reg) (a b : Src) (w : Bool) (scope : BitVec 2)
  | amoSwap (d : Reg) (a b : Src) (w : Bool) (scope : BitVec 2)
  | amoCas (d : Reg) (a b : Src) (w : Bool) (scope : BitVec 2)
  | fence (scope : BitVec 3) (kind : BitVec 2)
  | pref (a : Src) (scope : BitVec 3) (kind : BitVec 2)
  | flush (a : Src) (scope : BitVec 3)
  | inv (a : Src) (scope : BitVec 3)
  -- KV and page instructions (R301–R311)
  | kvfill (d : Reg) (a b : Src)
  | kvinv (d : Reg) (a b : Src)
  | kvprobe (d : Reg) (a : Src) (m : BitVec 32)
  | pgmig (d : Reg) (a b : Src)
  | pgownGive (d : Reg) (a : Src) (m : BitVec 32)
  | pgownTake (d : Reg) (a : Src) (m : BitVec 32)
  | plbinv (a : Src) (m : BitVec 32)
  -- transfers and completion (R314–R322)
  | xfer (d : Reg) (a b c : Src) (m : BitVec 32)
  | xfer2d (d : Reg) (a b c : Src) (m : BitVec 32)
  | xwait (d : Reg) (a b : Src)
  | xpoll (d : Reg) (a b : Src)
  -- matrix engine (R337–R346)
  | tsld (d : Reg) (a b c : Src) (m : BitVec 32)
  | tsst (d : Reg) (a b c : Src) (m : BitVec 32)
  | tscpy (d : Reg) (a b c : Src) (m : BitVec 32)
  | tszero (d : Reg) (a c : Src) (m : BitVec 32)
  | mma (d : Reg) (a b : Src) (m : BitVec 32)
  | bsmma (d : Reg) (a b : Src) (m : BitVec 32)
  | mmal (d : Reg) (a b c : Src) (m : BitVec 32)
  | gmm (d : Reg) (a : Src) (m : BitVec 32)
  | aczero (d : Reg) (m : BitVec 32)
  | acld (d : Reg) (a : Src) (m : BitVec 32)
  | acst (d : Reg) (a : Src) (m : BitVec 32)
  | semv (a : Src) (m : BitVec 32)
  | semp (d : Reg) (a : Src) (m : BitVec 32)
  | semq (d : Reg) (a : Src)
  -- attention engine (R352–R364)
  | atts (d : Reg) (a b : Src)
  | attm (d : Reg) (a : Src) (m : BitVec 32)
  | attn (d : Reg) (a b : Src) (m : BitVec 32)
  | kvnext (d : Reg) (a b : Src)
  | cbinit (d : Reg) (a : Src) (m : BitVec 32)
  | cbld (d : Reg) (a : Src) (m : BitVec 32)
  | cbst (d : Reg) (a : Src) (m : BitVec 32)
  -- gather, scatter, merge (R366–R388)
  | gath (d : Reg) (a b c : Src) (m : BitVec 32)
  | scat (d : Reg) (a b c : Src) (m : BitVec 32)
  | greplay (d : Reg) (a b : Src)
  | gcancel (d : Reg) (a b : Src) (m : BitVec 32)
  | fqpeek (d : Reg) (a b : Src) (m : BitVec 32)
  | smerge (d : Reg) (a b c : Src) (m : BitVec 32)
  | collAr (d : Reg) (a b c : Src) (m : BitVec 32)
  | collSr (d : Reg) (a b c : Src) (m : BitVec 32)
  | collBc (d : Reg) (a b c : Src) (m : BitVec 32)
  -- messages, handlers, migration (R222–R231, R170–R178)
  | send (d : Reg) (a b : Src) (m : BitVec 32)
  | sendReturned (d : Reg) (a : Src) (m : BitVec 32)
  | hop (a : Src) (m : BitVec 32)
  | spawn (d : Reg) (a b c : Src)
  | launch (d : Reg) (a : Src)
  | launchi (d : Reg) (a : Src)
  | launchQ (d : Reg) (a b : Src)
  | mbcfg (d : Reg) (a b : Src) (m : BitVec 32)
  -- event lines and groups (R232–R234, R161–R168)
  | evcfg (a b : Src)
  | evwait (d : Reg) (a : Src)
  | evsig (a b : Src) (m : BitVec 32)
  | evpoll (d : Reg) (a : Src)
  | grank (d : Reg) (a : Src)
  | gsize (d : Reg) (a : Src)
  | gmap (d : Reg) (a b : Src)
  | bar (d : Reg) (a : Src)
  -- ordered tasks (R179–R183, R235–R237)
  | tenq (a b c : Src)
  | tend (m : BitVec 32)
  | tself (d : Reg) (m : BitVec 32)
  -- tokens and the armature (R200–R214, R238)
  | tkreq (d : Reg) (a : Src)
  | tklend (d : Reg) (a : Src)
  | tkqry (d : Reg)
  -- atelier instructions (R405–R416)
  | resume (d : Reg) (a b : Src) (c : Reg) (m : BitVec 32)
  | kill (d : Reg) (a : Src) (m : BitVec 32)
  | mbxrd (d : Reg) (a : Src) (m : BitVec 32)
  | mbxack (d : Reg) (a : Src) (m : BitVec 32)
  | mapset (d : Reg) (a b : Src)
  | routesetSite (d : Reg) (a b : Src)
  | routesetPort (d : Reg) (a b : Src)
  | partctlCreate (d : Reg) (a b : Src) (c : Reg) (m : BitVec 32)
  | partctlResize (d : Reg) (a b : Src) (c : Reg) (m : BitVec 32)
  | partctlDestroy (d : Reg) (a b : Src) (c : Reg) (m : BitVec 32)
  | partctlFloor (d : Reg) (a b : Src) (c : Reg) (m : BitVec 32)
  | partctlQcreate (d : Reg) (a b : Src) (c : Reg) (m : BitVec 32)
  | partctlQdelete (d : Reg) (a b : Src) (c : Reg) (m : BitVec 32)
  | partctlSetreg (d : Reg) (a b : Src) (c : Reg) (m : BitVec 32)
  | partctlFreeze (d : Reg) (a b : Src) (c : Reg) (m : BitVec 32)
  | partctlRelease (d : Reg) (a b : Src) (c : Reg) (m : BitVec 32)
  | partctlReset (d : Reg) (a b : Src) (c : Reg) (m : BitVec 32)
  | partctlSavearea (d : Reg) (a b : Src) (c : Reg) (m : BitVec 32)
  | toksetCap (d : Reg) (a b : Src) (m : BitVec 32)
  | toksetClear (d : Reg) (a b : Src) (m : BitVec 32)
  | rft (m : BitVec 32)
  | diagnostic (body : BitVec 25)
  -- EVENTS from here on: steps that no encoding stands for, grouped by the chapter that gives them
  -- control (R96–R102)
  | pauseExpiry
  -- plain loads and stores (R103–R105)
  | accessCompletion
  | translationFaultReturn
  -- KV and page instructions (R301–R311)
  | shadowHandlerStart
  | pageMigration
  -- transfers and completion (R314–R322)
  | xferGranuleDelivery
  | engineOperationComplete
  -- attention engine (R352–R364)
  | attentionSweepStop
  -- gather, scatter, merge (R366–R388)
  | gatherElementArrival
  | scatterElementApply
  | mergeNode
  -- messages, handlers, migration (R222–R231, R170–R178)
  | messageArrival
  | messageReturn
  | mailboxFire
  | hopArrival
  | hopPacketReturn
  -- event lines and groups (R232–R234, R161–R168)
  | remoteSignalArrival
  | groupTreeArrival
  | groupTreeRelease
  -- ordered tasks (R179–R183, R235–R237)
  | taskDispatch
  | taskCommit
  | taskRollback
  | taskIrrevocable
  -- tokens and the armature (R200–R214, R238)
  | armatureCycle
  | tokhRaise
  | tokhLower
  | loanTermEnd
  -- the dispatcher (R192–R199, R149–R154)
  | dispatcherSelection
  | launchBinding
  | wakeFlood
  | launchCompletion
  | sealRead
  | stalePacketTimeout
  | dependencesSatisfied
  | kick
  | qctlResume
  | qctlDisable
  | qctlClrk
  -- watchdogs and gang switches (R417–R430)
  | watchdogExpiry
  | drainResetComplete
  | gangSwitchArm
  | gangSwitchStop
  | saveStart
  | saveComplete
  | restoreStart
  | restoreComplete
  -- errors (R431–R442, R487)
  | heartbeat
  | coreDead
  | atelierTakeover
  | zoneOutOfService
  | tileStateError
  | sramPatrolRead
  | sramBankSweep
  | meshFlitRetry
  | errorCounterClear
  | firstTouchZeroing
  | scrubZeroingPass
  | scrubReadPass
  | wearSensorSample
  | wearRecordWrite
  -- start-up (R463–R473)
  | powerGood
  | firmwareVerification
  | storedResultsCheck
  | hbmTrainingComplete
  | portTrainingComplete
  | atelierCoresStart
  | moduleReady
  | moduleReset
  -- host registers (R458–R462)
  | pcapWrite
  | shootdownGo
  | shootdownComplete
  | shctlClre
  | hreq
  | hrlostClear
  | eventRingTailWrite
  | eventRingConfigWrite
  | spanConfigWrite
  | registerWrite
  | priResponse
  -- spans and Thrumuth links (R443–R457, R215–R216)
  | spanLaunchSequence
  | spanShareComplete
  | flitReceive
  | nakReplay
  | idleFlit
  | linkFailure
  | linkReconciliation
  | spanBreak
  | laneShed
  | laneWiden
  | laneTrainingComplete
  -- attestation (R470)
  | getVersion
  | getCapabilities
  | negotiateAlgorithms
  | getDigests
  | getCertificate
  | challenge
  | getMeasurements
  -- further events (R452, R468, R218, R313, R357, R340)
  | laneFault
  | powerLoss
  | answerArrival
  | vfEnable
  | blockFold
  | engineMemoryGranule
  deriving DecidableEq, Repr

end Sys2Proof
end

