-- ==== Sys2Proof/Machine/State.lean ====
section
/-! DEFINITION. The state of the module as plain data: everything the spec gives the machine (INVENTORY.md lists it
field by field), the reasons a step can stop, and the state right after reset.

Numbers name objects as follows. A SITE is zone × 144 + row × 12 + physical column. A CORE is site × 2 + (0 SC, 1 CC); the
atelier cores are 18,432 + zone × 2 + k. A STRAND is core × 16 + slot, with slots 0–7 the core's strand slots and slot 8
of a CC the register set of its tile's shadow handler (R305). -/

namespace Sys2Proof.Machine

/-! ## One strand (02) -/

/-- Who asks for a host page (R458): a strand, an engine operation, a dispatcher; or one whose work has left the machine. -/
inductive Asker where
  | strand (k : Nat)
  | op (core ch : Nat) (id : BitVec 32)
  | dispatcher
  | nobody
  deriving DecidableEq, Repr

/-- A request to the host on behalf of one access, which waits for its answer (R262, R458). -/
structure PageRequest where
  /-- the function that asks: a tenant's VF, or 64, the PF -/
  fn : Nat
  /-- the host page, PA / 4096 -/
  page : Nat
  /-- whose access is held, its address, and its kind as R397 codes it -/
  asker : Asker
  slotA : Bool := false
  va : Word
  acc : Nat
  deriving DecidableEq, Repr

/-- What a trap reports (R48, R396). -/
structure TrapInfo where
  cause : BitVec 6
  addr : Word := 0#64
  info : Word := 0#64
  /-- the physical address of the poisoned granule, for a POISON that a handler meets (R396) -/
  granule : Nat := 0
  /-- MODEL'S OWN: what the fault leaves behind once it is taken: the marked frame, by an address in it, that a table search or a
  walk ended in, and which is zeroed (R465); the request whose refusal by the host it reports (R458) -/
  fresh : Option Nat := none
  refusal : Option PageRequest := none
  deriving DecidableEq, Repr

/-- What a WAITING strand waits for (R144). -/
inductive Wait where
  /-- a register to become full (R33) -/
  | register
  /-- the host's answer to a PRI page request (R458) -/
  | pri
  /-- another module's answer to an access of kind `acc` (R397) at a window address (R449) -/
  | remote (acc : Nat) (va : Word)
  /-- the answer of a deferred walk that found this fault (R260) -/
  | translation (slotA : Bool) (t : TrapInfo)
  /-- every access completed and every register full (R99, R176, R231, R236) -/
  | accesses
  /-- wafer time at which a PAUSE ends (R99) -/
  | pause (untilNs : Nat)
  /-- identifier `id` of channel `ch` to complete (R322) -/
  | completion (ch : Nat) (id : BitVec 32)
  /-- room on a channel or core for one more operation (R317) -/
  | channelRoom (ch : Nat)
  /-- room in an engine's queue (R332, R351) -/
  | engineRoom
  /-- a semaphore (R336) -/
  | semaphore (sem : Nat)
  /-- the event unit: EVWAIT or BAR, released by its grant (R218) -/
  | event
  /-- an answer that ANSWER_ARRIVAL brings (R218) -/
  | answer
  /-- space in the zone's task unit (R179) -/
  | taskSpace
  /-- to be the zone's oldest uncommitted task (R181) -/
  | oldest
  /-- an attention command's completion or held walk, or a shadow handler (R305, R353) -/
  | attention
  /-- a record in the atelier mailbox (R409) -/
  | record
  /-- a quarantined tile to be remapped (R438) -/
  | remap (site : Nat)
  /-- the end of a page's flip (R262) -/
  | page
  deriving DecidableEq, Repr

/-- Strand states (R144). -/
inductive StrandSt where
  | dormant
  | ready
  | waiting (w : Wait)
  | parked
  | migrating
  deriving DecidableEq, Repr

/-- How a strand was born (R143, R305, R391). -/
inductive Birth where
  | launch
  | spawn
  | handler
  | task
  | shadow
  | atelier
  deriving DecidableEq, Repr

/-- A message (R222). `target` is a core number; `srcCore` the sender's core, to which it returns. -/
structure Message where
  src : BitVec 22
  msgid : BitVec 32
  tag : BitVec 16
  payload : BitVec 384
  sts : BitVec 4 := 0#4
  srcCore : Nat
  target : Nat
  mbox : Nat
  /-- a module other than this one, when the message leaves it, and one when it came from there (R445) -/
  module : Option Nat := none
  origin : Option Nat := none
  /-- the site at whose interface it waits, or which it has found dead (R487, R488) -/
  held : Option Nat := none
  deriving DecidableEq, Repr

/-- What a running handler holds (R172, R173). -/
structure HandlerRun where
  mbox : Nat
  slots : List Nat
  msgs : List Message
  held : List Message
  deriving DecidableEq, Repr

/-- What a released wait delivers to its pair (R218). -/
structure Grant where
  value : BitVec 512
  p7 : Bool := false
  deriving DecidableEq, Repr

/-- One strand slot (R27–R48, R143, R247). -/
structure Strand where
  st : StrandSt := .dormant
  regs : RegFile := {}
  pc : Word := 0#64
  birth : Birth := .launch
  /-- the launch the strand belongs to (R143); 0 is none -/
  launch : Nat := 0
  /-- what SLOT reads (R45) -/
  index : BitVec 3 := 0#3
  ovfp : Word := 0#64
  /-- the carve-out: SRAM offset and size SPILL (R244, R247) -/
  carveBase : Nat := 0
  carveSize : Nat := 0
  msgid : BitVec 32 := 0#32
  tcause : BitVec 10 := 0#10
  taddr : Word := 0#64
  tinfo : Word := 0#64
  grant : Option Grant := none
  handler : Option HandlerRun := none
  /-- serial number of the task it runs (R179) -/
  task : Option Nat := none
  deriving DecidableEq, Repr

/-- Full at birth: R29's starting state. -/
def Strand.empty : Strand := {}

/-! ## Outstanding accesses (R37, R276) -/

/-- Which register an access fills. -/
inductive Dest where
  | none
  | g (r : Reg)
  | v (r : Reg)
  deriving DecidableEq, Repr

/-- What an outstanding access does when it completes. -/
inductive AccessKind where
  /-- read `n` bytes at completion, extended -/
  | load (isSigned : Bool)
  /-- read `n` bytes at completion, copied to every lane -/
  | bcast
  /-- write `data` at completion -/
  | store
  /-- deliver `data`, the value already read (LDA, AMO) -/
  | value
  /-- sample special register `data` at completion -/
  | special
  deriving DecidableEq, Repr

/-- An access that has issued and not completed. `pa` is a physical address. -/
structure Access where
  strand : Nat
  kind : AccessKind
  dest : Dest
  pa : Nat
  n : Nat
  data : Nat
  /-- the home and the virtual line of a cacheable one, and whom a store is charged to and through which L1 (R312) -/
  line : Option (Nat × Nat) := none
  tenant : Option Nat := none
  l1 : Option Nat := none
  /-- made through a window of the own module, whose accesses take effect in issue order (R450) -/
  window : Bool := false
  deriving DecidableEq, Repr

/-! ## Cores (R46, R47, R147, R258) -/

/-- A record slot (R318): the identifier it holds, and its word. -/
structure RecordSlot where
  id : BitVec 32
  word : Word
  deriving DecidableEq, Repr

/-- A region entry (R257), as the PLB holds it (R258). -/
structure Region where
  base : Nat
  lsz : Nat
  homes : BitVec 64
  r : Bool
  w : Bool
  x : Bool
  a : Bool
  deriving DecidableEq, Repr

/-- A spill carve-out: its launch, and its place in the tile's SRAM (R244, R247). -/
structure Carve where
  launch : Nat
  base : Nat
  size : Nat
  deriving DecidableEq, Repr

/-- A mailbox of a core (R169–R171). -/
structure Mailbox where
  launch : Nat
  hpc : Word
  thr : Nat
  ser : Bool
  ring : Word
  /-- messages not yet given to a handler, with their ring slots, oldest first -/
  waiting : List (Nat × Message) := []
  /-- ring slots given to handlers that have not ended -/
  given : List Nat := []
  /-- the next slot in ring order -/
  next : Nat := 0
  /-- strands that run or have trapped in one of its handlers -/
  handlers : List Nat := []
  deriving DecidableEq, Repr

/-- One core. The atelier fields (R402) are used by atelier cores alone. -/
structure Core where
  last : Nat := 7
  /-- the slots whose strands issue before the shadow handler's next pair, since it yielded (R99) -/
  yieldTo : NatSet := []
  /-- wafer time at core reset; CYC counts from it (R47) -/
  cycBase : Nat := 0
  cnext : FMap (BitVec 32) := ⟨[]⟩
  cdone : FMap (BitVec 32) := ⟨[]⟩
  /-- record slots, at 32 × channel + slot; an absent one has held nothing since its zone joined its partition and reads OLD = 1, or on
  an atelier core, which joins none, the reset value 0 (R317, R318) -/
  records : FMap RecordSlot := ⟨[]⟩
  sendSerial : BitVec 32 := 0#32
  returned : List Message := []
  mboxes : FMap Mailbox := ⟨[]⟩
  /-- the carve-outs of the bound launches, by strand slot (R244) -/
  carves : FMap Carve := ⟨[]⟩
  plb : List Region := []
  plbTenant : Nat := 0
  /-- stopped: quarantined, or an atelier core stopped under R403 or R435 -/
  stopped : Bool := false
  /-- one more than the number of the period of its last heartbeat, and whether it has been reported dead (R434) -/
  lastBeat : Nat := 0
  dead : Bool := false
  atvec : Word := 0#64
  atepc : Word := 0#64
  intrap : Bool := false
  deriving DecidableEq, Repr

/-! ## Event lines (R160–R165, R233) and semaphores (R336) -/

inductive LineMode where
  | off
  | barrier
  | mutex
  | flag
  deriving DecidableEq, Repr

/-- One event line. `arr` counts this generation's arrivals; `later` holds, in order, the arrivals that came after the
COUNT-th and before the release (R162): a waiting strand, or none for a signal. -/
structure Line where
  mode : LineMode := .off
  gv : Bool := false
  gs : BitVec 2 := 0#2
  ac : Bool := false
  count : Nat := 0
  set : Bool := false
  arr : Nat := 0
  gen : BitVec 32 := 0#32
  /-- waiting strands in order of arrival -/
  waiters : List Nat := []
  later : List (Option Nat) := []
  /-- the group and launch a group line combines over (R164) -/
  group : Option (Nat × Nat) := none
  deriving DecidableEq, Repr

/-! ## Token accounts (R208, R239) -/

inductive AcctSt where
  | held
  | requesting
  | lent
  | notice
  deriving DecidableEq, Repr

/-- A loan (R208): its tokens, the armature cycle at whose end its term ends, and whether a TKREQ has recalled it. -/
structure Loan where
  n : Nat
  termCycle : Nat
  recalled : Bool := false
  deriving DecidableEq, Repr

structure Account where
  st : AcctSt := .held
  prior : AcctSt := .held
  tokh : Nat := 0
  /-- the loans of TKLEND that have neither ended nor come back, oldest first -/
  loans : List Loan := []
  pend : Nat := 0
  /-- TOKH that the armature has allocated and not yet put into effect -/
  next : Nat := 0
  /-- tokens under notice at a lowering (R209) -/
  lowering : Nat := 0
  /-- tokens of TKREQ that the running cycle's demand has sampled -/
  asked : Nat := 0
  deriving DecidableEq, Repr

/-! ## Tile engines (14–16) -/

/-- Row metadata of a tile store (R326): ME, and ZR and FN per sector. -/
structure RowMeta where
  me : BitVec 3 := 0#3
  zr : BitVec 8 := 0#8
  fn : BitVec 8 := 0#8
  deriving DecidableEq, Repr

/-- A KVTB entry (R273). -/
structure KvEntry where
  part : Nat
  seq : Nat
  layer : Nat
  head : Nat
  block : Nat
  frame : Nat
  zone : Nat
  row : Nat
  col : Nat
  cow : Bool
  bsize : Nat
  dim : Nat
  kfmt : Nat
  vfmt : Nat
  kscl : Bool
  vscl : Bool
  deriving DecidableEq, Repr

/-- A fault-queue entry (R372): cause, channel, SCAT or GATH, issued by the CC or the SC, identifier, element, address. -/
structure FaultEntry where
  cause : Nat
  ch : Nat
  scat : Bool
  cc : Bool
  id : BitVec 32
  elem : Nat
  addr : Word
  deriving DecidableEq, Repr

/-- The shadow handler that runs on a tile (R305): the walk that started it, and the coordinate. -/
structure ShadowRun where
  coord : Word
  desc : BitVec 512
  /-- the walking operation's tenant, partition, core and strand -/
  tenant : Nat
  part : Nat
  core : Nat
  walker : Nat
  deriving DecidableEq, Repr

/-- One tile. Absent map entries read as reset leaves them. -/
structure Tile where
  s2 : Nat := 512 * 1024
  lines : FMap Line := ⟨[]⟩
  sems : FMap Nat := ⟨[]⟩
  /-- waiting strands with their n, oldest first (R336) -/
  semWait : FMap (List (Nat × Nat)) := ⟨[]⟩
  /-- tile-store bytes at 256 × row + column (R248) -/
  store : Memory := []
  rowMeta : FMap RowMeta := ⟨[]⟩
  /-- poisoned tile-store granules, 4 × row + column / 64 -/
  storePoison : NatSet := []
  /-- accumulator bytes at AC × 16,384 + offset, and poisoned rows at AC × 64 + row (R330) -/
  accs : Memory := []
  accPoison : NatSet := []
  /-- carry-store bytes at 8,192 × slot + offset (R348), and the slots whose block is valid -/
  carry : Memory := []
  carryValid : NatSet := []
  kvtb : List KvEntry := []
  shadow : Option ShadowRun := none
  faultq : List FaultEntry := []
  account : Account := {}
  /-- AFMT, BFMT and ACC of the MXE's last matrix instruction (R332) -/
  mxeFmt : BitVec 10 := 0#10
  /-- uncorrectable granules that a bank sweep has found, and SRAM failed (R487) -/
  sramBad : NatSet := []
  sramFailed : Bool := false
  deriving DecidableEq, Repr

/-! ## Zones: ordered tasks (R179–R183), brokers, mailboxes, errors, maquette -/

inductive TaskSt where
  | waiting
  | running (strand : Nat)
  /-- ended, awaiting its turn to commit -/
  | ended
  deriving DecidableEq, Repr

/-- A buffered store of a task (R180): `n` bytes at a physical address within the virtual line `line`, whose home is `home`,
made through the data L1 `l1`. -/
structure BufStore where
  pa : Nat
  n : Nat
  data : Nat
  home : Nat
  line : Nat
  l1 : Nat
  deriving DecidableEq, Repr

/-- A task of the zone's task unit. `order` is its enqueue order. -/
structure Task where
  order : Nat
  timestamp : Word
  hpc : Word
  args : List Word
  launch : Nat
  st : TaskSt := .waiting
  /-- the speculative task that enqueued it and has not committed (R180) -/
  parent : Option Nat := none
  irrevocable : Bool := false
  /-- it trapped while speculative and was rolled back: it runs again only when it may be irrevocable (R183) -/
  retry : Bool := false
  /-- buffered stores, newest last -/
  buffer : List BufStore := []
  /-- the lines read and written (R180) -/
  reads : NatSet := []
  writes : NatSet := []
  deriving DecidableEq, Repr

/-- A record in an atelier mailbox (R392, R394). -/
structure MbxRecord where
  slot : Nat
  index : Nat
  body : BitVec 512
  read : Bool := false
  deriving DecidableEq, Repr

/-- A report and the mailbox it goes to: zone, whether the standby's, slot (R392). `strand` is parked with it. -/
structure Report where
  zone : Nat
  standby : Bool
  slot : Nat
  body : BitVec 512
  deriving DecidableEq, Repr

structure Zone where
  tasks : List Task := []
  lastCommit : Word := 0#64
  throttle : BitVec 5 := 0#5
  /-- TOKSET's cap; 0 is none (R414) -/
  cap : Nat := 0
  /-- sensor conditions that cap the zone (R211): thermal, current -/
  hot : Bool := false
  overCurrent : Bool := false
  /-- THROTTLE bits that the running cycle's division sets when its allocations arrive (R211) -/
  reasons : BitVec 5 := 0#5
  /-- THROTTLE bits to clear at the next armature cycle (R414) -/
  clear : BitVec 5 := 0#5
  /-- map words of rows 0–11 (R411, R471) -/
  rows : FMap Word := ⟨[]⟩
  /-- rows that have taken a MAPSET that returned 0 since module reset (R471) -/
  mapped : NatSet := []
  zdef : FMap (BitVec 12) := ⟨[]⟩
  /-- QUARANTINED and RETIRED sites (R437), as row × 12 + column -/
  quarantined : NatSet := []
  retired : NatSet := []
  /-- which of the two atelier cores is the primary, and whether there is a standby (R435) -/
  primary : Nat := 0
  hasStandby : Bool := true
  outOfService : Bool := false
  /-- the records in the primary's and the standby's mailbox, in arrival order (R392, R409) -/
  mbx : List MbxRecord := []
  mbxStandby : List MbxRecord := []
  sramce : BitVec 32 := 0#32
  parrf : BitVec 32 := 0#32
  meshrt : BitVec 32 := 0#32
  meshrl : BitVec 32 := 0#32
  /-- mesh links retired, and failed retries in a row, by link (R431) -/
  deadLinks : NatSet := []
  linkFails : FMap Nat := ⟨[]⟩
  deriving DecidableEq, Repr

/-! ## Partitions, queues, launches (08, 07, 18) -/

inductive QueueSt where
  | off
  | idle
  | sealwait
  | depwait
  | headready
  | binding
  | faulted
  | frozen
  deriving DecidableEq, Repr

/-- A host queue (R187–R192). -/
structure Queue where
  st : QueueSt := .off
  /-- the state before FROZEN -/
  prior : QueueSt := .off
  base : Word := 0#64
  log2n : Nat := 4
  wdtUs : Nat := 0
  qprio : BitVec 3 := 0#3
  head : Nat := 0
  pend : Nat := 0
  fcode : BitVec 4 := 0#4
  kerr : Bool := false
  /-- wafer time of the first and of the next read of a mismatching seal (R192) -/
  firstRead : Option Nat := none
  nextRead : Nat := 0
  /-- the record read at DEPWAIT -/
  record : BitVec 1024 := 0#1024
  /-- the launch that it selected last, for which it is BINDING (R192, R198) -/
  binding : Nat := 0
  deriving DecidableEq, Repr

/-- A write of LID or STS into a ring slot that waits for its page or its home (R188, R438, R458). -/
structure SlotWrite where
  tenant : Nat
  part : Nat
  va : Word
  n : Nat
  data : Nat
  deriving DecidableEq, Repr

/-- A record of the direct queue (R197, R227). -/
structure DirectRecord where
  record : BitVec 1024
  indirect : Bool
  addr : Word
  /-- the watchdog of the host queue it descends from (R427), and that queue -/
  wdtUs : Nat
  queue : Nat
  /-- its dependences are satisfied; a LAUNCHI count that it read then, or the fault of that read (R149, R150) -/
  ready : Bool := false
  count : BitVec 32 := 0#32
  fault : Option TrapInfo := none
  deriving DecidableEq, Repr

/-- A node of a group's spanning tree (R157): a tile that holds members, and how many. A tile of this module is its logical
core / 2, one of another module 2^20 + CID / 2. Each combining counter holds what has arrived: for BAR the ranks of the tile's
members, for the event lines the tile itself, for both 2^21 + the number of a child node. -/
structure TreeNode where
  tile : Nat
  cores : Nat
  bar : NatSet := []
  line : NatSet := []
  deriving DecidableEq, Repr

/-- A group of a bound launch (R155–R158). Members are CID words in rank order. -/
structure Group where
  index : Nat
  members : List (BitVec 22)
  /-- the tree in rank order: node 0 is the root, node `i` feeds node (i − 1) / 2 -/
  tree : List TreeNode := []
  /-- BAR: completed generations, and the strands that wait (R168) -/
  barGen : BitVec 32 := 0#32
  barWaiters : List Nat := []
  /-- collectives issued so far, by rank (R384) -/
  collCount : FMap Nat := ⟨[]⟩
  /-- collectives, by number, that have ended on every member before their time, with the status: 3 LINK_LOST, 4 CANCELLED,
  5 RANGE (R384, R390) -/
  collEnd : FMap Nat := ⟨[]⟩
  quarantined : Bool := false
  /-- the collectives that members on other modules have told of as they issued them: number, rank and command (R384) -/
  heard : List (Nat × Nat × Nat) := []
  deriving DecidableEq, Repr

/-- A selected or bound launch. Cores are logical: ((zone × 12 + row) × 11 + column) × 2 + core. -/
structure Launch where
  part : Nat
  tenant : Nat
  /-- 0–31 a host queue, 32 the direct queue -/
  queue : Nat
  record : BitVec 1024
  indirect : Bool
  /-- address of the record, as a KIND 2 report names it (R394) -/
  addr : Word
  /-- slot of the ring, for the write of STS (R188) -/
  slotAddr : Option Word
  prio : BitVec 3
  ch : Nat
  lid : BitVec 32
  count : BitVec 32
  bound : Bool := false
  /-- every present core of the partition in CID order at binding (R153) -/
  cids : List Nat := []
  /-- before it is bound: the present cores when it was found to wait for a quarantined site (R489) -/
  awaits : List Nat := []
  /-- the core set, as CID numbers -/
  coreSet : List Nat := []
  groups : List Group := []
  /-- cores that the wake flood has not reached yet -/
  toWake : NatSet := []
  saved : Bool := false
  /-- status to post, when not OK -/
  sts : BitVec 4 := 0#4
  /-- deadline accounting (R427): time counted so far, and since when (none while it does not count) -/
  wdtUs : Nat := 0
  usedNs : Nat := 0
  since : Option Nat := none
  /-- span sequence number and the member modules whose share is incomplete (R446) -/
  spanSeq : Option Nat := none
  spanLeft : NatSet := []
  /-- member modules that have not bound their share (R446) -/
  spanUnbound : NatSet := []
  /-- it has been sent to the leader for its number -/
  spanAsked : Bool := false
  /-- the present cores of each other member's partition (R153, R445) -/
  spanCores : FMap Nat := ⟨[]⟩
  /-- cores of the core set on other modules (R445) -/
  remote : Nat := 0
  /-- the member module whose dispatcher selected it, when not this one (R446) -/
  origin : Option Nat := none
  /-- of a launch bound on module `origin` alone whose strands have come here: its number there, and how many have come (R445, R447) -/
  guest : Option (Nat × Nat) := none
  /-- strands that have left for another member and have not been reported to be gone or at home, by member (R154, R447) -/
  abroad : FMap Nat := ⟨[]⟩
  wdtQueue : Nat := 0
  deriving DecidableEq, Repr

inductive GangSt where
  | running
  | armed
  | stopping
  | saving
  | saved
  | restoring
  | draining
  deriving DecidableEq, Repr

/-- A tenant (R268, R313, R429, R460). -/
structure Tenant where
  ptroot : Word := 0#64
  frozen : Bool := false
  /-- wafer time of the freeze, from which timers are paused (R429) -/
  frozenSince : Nat := 0
  l2fill : Word := 0#64
  l2wb : Word := 0#64
  l2xhit : Word := 0#64
  l2wbf : Word := 0#64
  dirovf : Word := 0#64
  amonear : Word := 0#64
  amofar : Word := 0#64
  vfEnabled : Bool := false
  deriving DecidableEq, Repr

/-- An event ring (R460), one per function. -/
structure EventRing where
  base : Word := 0#64
  en : Bool := false
  log2n : Nat := 0
  head : BitVec 32 := 0#32
  tail : BitVec 32 := 0#32
  deriving DecidableEq, Repr

/-- An L2 line with its charging tags (R312), and the L1s that the directory has as its sharers (R249, R253): 2 × core for
a core's data, 2 × core + 1 for its instructions. -/
structure L2Line where
  /-- the frame's line, PA / 64: a hit needs no translation (R260) -/
  frame : Nat
  /-- the logical tile whose slice holds it (R251, R252) -/
  home : Nat
  filler : Nat
  dirtier : Option Nat
  sharers : NatSet := []
  /-- the frame's own granule is poisoned beneath the cached copy; a write-back clears that poison (R431, R433, R438) -/
  below : Bool := false
  /-- the home has the newest data: no L1 holds the line dirty (R249, R299) -/
  atHome : Bool := true
  deriving DecidableEq, Repr

/-! ## Engine operations (13–16) -/

/-- Status of an operation that has not ended normally (R319). -/
structure OpStatus where
  poisoned : Bool := false
  linkLost : Bool := false
  cancelled : Bool := false
  range : Bool := false
  overflow : Bool := false
  deriving DecidableEq, Repr

/-- Which engine runs an operation, with the operands captured at issue. -/
inductive OpKind where
  /-- XFER, XFER.2d (R321): operation, element type, sequenced -/
  | xfer (op et : Nat) (sq : Bool)
  /-- TSLD, TSST, TSCPY, TSZERO (R339–R341) -/
  | ts (op : Nat)
  /-- MMA, MMAL, BSMMA, GMM (R342–R345) -/
  | mma (op : Nat)
  /-- ACLD, ACST (R346) -/
  | acc (op : Nat)
  /-- ATTM, ATTN, CBLD, CBST (R359–R363) -/
  | att (op : Nat)
  /-- ATTS and KVNEXT, which take no channel (R353) -/
  | atts
  | kvnext
  /-- GATH, SCAT (R367–R370) -/
  | gath
  | scat
  /-- SMERGE (R379) -/
  | smerge
  /-- COLL.ar, .sr, .bc (R384–R390) -/
  | coll (op : Nat)
  deriving DecidableEq, Repr

/-- A segment: its window, whether dense, NV SF OF, its (offset, value) pairs in order, its size, and whether it is the
last; `poisoned` when a granule of it was. -/
structure Seg where
  win : Nat
  vt : Nat
  dense : Bool
  flags : Nat
  entries : List (Nat × Nat)
  size : Nat
  last : Bool
  poisoned : Bool
  deriving DecidableEq, Repr

/-- How a stream goes on after the segments known so far (R379): it has ended; a malformed segment at window `win`; a header that the
members of `ranks` have not read yet; or a header, read, of window `win`, whose body they have not. -/
inductive StreamEnd where
  | last
  | bad (win vt : Nat)
  | more (ranks : List Nat)
  | head (win vt : Nat) (ranks : List Nat)
  deriving DecidableEq, Repr
/-- A sorted stream as far as it is known. -/
structure Stream where
  segs : List Seg := []
  tail : StreamEnd := .more []
  deriving DecidableEq, Repr

/-- An operation in flight. `args` and `mod` are the captured operands. Its parts (granules, elements, tree nodes) are
numbered from 0 to `total` − 1; `done` holds those that have taken place, `held` those that wait for the atelier. -/
structure Op where
  core : Nat
  ch : Nat
  id : BitVec 32
  strand : Nat
  launch : Nat
  tenant : Nat
  part : Nat
  kind : OpKind
  mod : BitVec 32
  args : List Word
  fmt : BitVec 14
  /-- a captured descriptor -/
  desc : Nat := 0
  total : Nat := 0
  done : NatSet := []
  held : NatSet := []
  pcnt : Nat := 0
  dcnt : Nat := 0
  st : OpStatus := {}
  /-- a position of its own within its sweep, merge or product -/
  pos : Nat := 0
  /-- the destination register that the operation fills, and flags or results gathered for it (R353) -/
  dest : Reg := 0#4
  flags : Nat := 0
  psn : Bool := false
  /-- it has waited for the tile's shadow handler (R306) -/
  shadowed : Bool := false
  /-- bytes moved or values gathered so far, by part -/
  data : FMap Nat := ⟨[]⟩
  /-- the regions that its ranges lay in at issue: their HOMES stand for the whole operation (R251, R316) -/
  regions : List Region := []
  /-- of a COLL.sr: the members' streams as far as they have been read, by rank (R386) -/
  streams : FMap Stream := ⟨[]⟩
  /-- what it has asked of other modules: the data sent, by the element of the tag, 128 × part + a number within the part (R456) -/
  asked : FMap Nat := ⟨[]⟩
  deriving DecidableEq, Repr

/-- A strand in migration (R176–R178). -/
structure Packet where
  strand : Nat
  target : Nat
  cid : BitVec 22
  pc : Word
  regs : RegFile
  launch : Nat
  carry : Option (List Byte)
  before : Strand
  module : Option Nat := none
  minTime : Nat := 0
  deriving DecidableEq, Repr

/-- A remote signal on its way to a line (R167), or an arrival on its way up a group tree (R157). -/
structure Signal where
  src : Nat
  site : Nat
  line : Nat
  /-- another module, when the signal leaves this one (R445) -/
  module : Option Nat := none
  deriving DecidableEq, Repr

structure TreeMsg where
  launch : Nat
  group : Nat
  bar : Bool
  /-- the tree node whose counter it raises, and what arrives: as in TreeNode -/
  node : Nat
  item : Nat
  deriving DecidableEq, Repr

/-- The tag of a part of an engine's operation: core, channel, identifier and element (R456). -/
structure OpPart where
  core : Nat
  ch : Nat
  id : BitVec 32
  elem : Nat
  deriving DecidableEq, Repr
/-- Traffic for another module that no port has taken yet (R444): the partition whose route it takes, the member, its class
(R451), and what it is: the kind of access, message or other item with its words, or the payload bytes where the spec lays
them out (R454). -/
structure Outgoing where
  part : Nat
  module : Nat
  cls : Nat
  what : List Nat
  bytes : Option (List Byte) := none
  /-- a part of an operation of this module: when it is lost its operation answers for it, and it is not sent again (R455) -/
  op : Option OpPart := none
  /-- an answer to another module's engine, or a granule pushed for it, which is not sent again either (R455) -/
  toEngine : Bool := false
  deriving DecidableEq, Repr

/-- What can be on its way when a gang switch stops a partition (R419). -/
inductive FalloutItem where
  | message (m : Message)
  | packet (k : Packet)
  | signal (g : Signal)
  | tree (m : TreeMsg)
  deriving DecidableEq, Repr

/-- A record of the fallout: class, source, destination, and its number within that pair (R419). -/
structure Fallout where
  cls : Nat
  src : Nat
  dst : Nat
  seq : Nat
  item : FalloutItem
  deriving DecidableEq, Repr

/-- What a gang switch saved (R419, R420, R422). Carve-outs, tile stores, carry stores, accumulators and message payloads come
back from the save area; of the parts for which R422 fixes no layout the contents stand here and a free value in the area. Cores
and strands go by the place where they were saved, tiles by zone × 132 + row × 11 + column. -/
structure Saved where
  sprio : BitVec 3 := 0#3
  launches : List Nat := []
  underPcap : Bool := false
  /-- the dispatcher has selected the saved set (R425) -/
  selected : Bool := false
  /-- where each logical core was when it was saved: (core, logical core) -/
  places : List (Nat × Nat) := []
  strands : FMap Strand := ⟨[]⟩
  cores : FMap Core := ⟨[]⟩
  tiles : FMap Tile := ⟨[]⟩
  /-- the logical tiles of the saved launches -/
  used : List Nat := []
  /-- where the carve-outs of each tile began: its USZ (R244, R422) -/
  starts : FMap Nat := ⟨[]⟩
  ops : List Op := []
  /-- the ring slots of messages that wait or that a handler holds, with their poison, by core × 2^22 + scratch offset (R422) -/
  rings : FMap Nat := ⟨[]⟩
  /-- the fallout (R419), and messages that a KILL with DROP has returned since -/
  fallout : List Fallout := []
  dropped : List Message := []
  /-- the parts of the save area for which the spec gives no layout: address, bytes and contents as saved (R422, R424) -/
  blocks : List (Nat × Nat × Nat) := []
  /-- uncommitted tasks and the last commit, by zone -/
  tasks : FMap (List Task) := ⟨[]⟩
  commits : FMap Word := ⟨[]⟩
  deriving DecidableEq, Repr

/-- A partition (R185, R186, R193, R268, R304, R418, R444). -/
structure Partition where
  tenant : Nat := 0
  zones : BitVec 64 := 0#64
  /-- whether it exists -/
  live : Bool := false
  floor : Nat := 0
  /-- the floor as R214 scaled it, while it is scaled -/
  scaled : Option Nat := none
  saveBase : Nat := 0
  saveSize : Nat := 0
  kvroot : Word := 0#64
  ovbase : Word := 0#64
  ovstr : Word := 0#64
  kvsh : Word := 0#64
  kvsharg : Word := 0#64
  spcfg : Word := 0#64
  routes : FMap Word := ⟨[]⟩
  queues : FMap Queue := ⟨[]⟩
  direct : List DirectRecord := []
  lnext : FMap (BitVec 32) := ⟨[]⟩
  ldone : FMap (BitVec 32) := ⟨[]⟩
  /-- identifiers completed above LDONE, as channel × 2^32 + identifier (R193) -/
  early : NatSet := []
  /-- the queue selected last, by priority (R196) -/
  lastSel : FMap Nat := ⟨[]⟩
  nextSelect : Nat := 0
  gang : GangSt := .running
  frozen : Bool := false
  stamp : Nat := 0
  /-- switches completed (R423 GEN) -/
  gen : BitVec 32 := 0#32
  saved : Option Saved := none
  /-- the switch was asked for by R214 -/
  pcapSwitch : Bool := false
  /-- the launch for which the switch was armed (R199), and the one that a drain leaves waiting (R427) -/
  requester : Nat := 0
  spared : Nat := 0
  /-- the leader's next span sequence number, and the numbers that have bound here or are gone (R446) -/
  nextSpan : Nat := 1
  spanSettled : NatSet := []
  /-- a drain posts this status (R428, R457) -/
  drainSts : BitVec 4 := 4#4
  /-- a PARTCTL RESET waits for its answer (R413, R421) -/
  resetDue : Bool := false
  deriving DecidableEq, Repr

/-! ## Links (20) -/

inductive Lanes where
  | x1
  | x2
  | x4
  deriving DecidableEq, Repr

inductive LaneSt where
  | steady
  | narrowing
  | widening
  deriving DecidableEq, Repr

/-- One direction of a port (R215, R452, R453). -/
structure LinkDir where
  lanes : Lanes := .x4
  st : LaneSt := .steady
  goodLanes : Nat := 4
  /-- the last wafer time at which its queue is known to have passed the threshold, or at which it narrowed -/
  aboveAt : Nat := 0
  deriving DecidableEq, Repr

/-- A Thrumuth port (R412, R451–R453). -/
structure Port where
  up : Bool := false
  trained : Bool := false
  threshold : Nat := 8
  noshed : Bool := false
  tx : LinkDir := {}
  rx : LinkDir := {}
  /-- the SEQ of the next flit sent, and the flits sent and not acknowledged, oldest first -/
  seq : BitVec 12 := 0#12
  replay : List LinkFlit := []
  /-- the items whose last flit is not acknowledged, with its SEQ (R455) -/
  sent : List (BitVec 12 × Outgoing) := []
  /-- a NAK has come: replay is due -/
  replayDue : Bool := false
  /-- the SEQ of the next flit expected, whether a NAK is owed, and how often that flit has failed in a row -/
  expect : BitVec 12 := 0#12
  nakOwed : Bool := false
  fails : Nat := 0
  /-- flits delivered onward, in order -/
  delivered : List LinkFlit := []
  lastArrival : Nat := 0
  lastSent : Nat := 0
  /-- wafer time of its failure, and the partitions and members whose traffic has been settled since, as partition × 64 + module
  (R455, R457) -/
  failedAt : Option Nat := none
  settled : NatSet := []
  deriving DecidableEq, Repr

/-! ## The module (21) -/

/-- MSTAT.BOOT (R462). -/
inductive BootSt where
  | verifying
  | training
  | building
  | running
  deriving DecidableEq, Repr

/-- A wear sensor (R467). -/
structure Sensor where
  c : BitVec 32 := 0#32
  high : Bool := false
  x : Option Int := none
  deriving DecidableEq, Repr

/-- One copy of the stored-results record in module flash (R464): HBM training and serial per stack, equalisation per port (96 and 97
the PCIe ports), the defect list, the wear counts. -/
structure FlashRecord where
  training : FMap Word := ⟨[]⟩
  serials : FMap Word := ⟨[]⟩
  equalisation : FMap Word := ⟨[]⟩
  defects : NatSet := []
  wear : FMap (BitVec 32) := ⟨[]⟩
  deriving DecidableEq, Repr

structure Module where
  pcap : Nat := 400000
  bootSt : BootSt := .verifying
  ready : Bool := false
  fwfail : Bool := false
  hrlost : Bool := false
  shva : Nat := 0
  shcnt : Nat := 0
  shBusy : Bool := false
  shErr : Bool := false
  shPlb : Bool := false
  portsel : Word := 0#64
  fwsvn : BitVec 16 := Config.fusedSvn
  pgroot : Word := 0#64
  /-- steps of R463 that have been done -/
  powered : Bool := false
  fwOk : Bool := false
  recordChecked : Bool := false
  ateliersStarted : Bool := false
  /-- the period whose end the heartbeat count starts from, as Core.lastBeat counts (R434) -/
  beatFrom : Nat := 0
  stacksTrained : NatSet := []
  /-- stacks and ports that must train in full (R464) -/
  fullTrain : NatSet := []
  fullTrainPorts : NatSet := []
  /-- sites of the stored defect list (R473) -/
  defects : NatSet := []
  /-- COMMIT and SVN of the verified image, and the hash of the image last judged (R469) -/
  commitSvn : Option (BitVec 16) := none
  imageHash : Option (BitVec 384) := none
  /-- PCIe ports, 0 and 1, whose link is up (R458, R463) -/
  pcieUp : NatSet := []
  /-- HBM training and serial of each stack, equalisation of each port, as they stand in use (R464) -/
  training : FMap Word := ⟨[]⟩
  serials : FMap Word := ⟨[]⟩
  equalisation : FMap Word := ⟨[]⟩
  /-- the stored-results record in flash, newest copy first, at most two (R464); none: flash holds what it was shipped with -/
  copies : List FlashRecord := []
  /-- the record copies written so far -/
  recordWrites : Nat := 0
  sensors : FMap Sensor := ⟨[]⟩
  /-- next frame of each stack's zeroing pass (R466) -/
  scrubNext : FMap Nat := ⟨[]⟩
  scrubErrors : Nat := 0
  /-- armature (R205–R214): the cycle that runs or comes next, how far it is (0 not begun, 1 divided, 2 raised), the PCAP
  that governs it, and the tokens granted above the floors last -/
  cycle : Nat := 0
  armPhase : Nat := 0
  divPcap : Nat := 400000
  granted : Nat := 0
  floorBreach : NatSet := []
  /-- SPDM: version agreed, capabilities agreed, algorithms agreed (R470) -/
  spdmVersion : Bool := false
  spdmCaps : Bool := false
  spdmAlgs : Bool := false
  deriving DecidableEq, Repr

/-- What the module hands to the outside (R446, R452, R460, R470): interrupts fired, SPDM responses, link flits, reports to
the host or to another module; newest last. -/
inductive Output where
  /-- MSI-X vector 0 of a function, on the PCIe port that carries it (R458, R460) -/
  | msix (port fn : Nat)
  | spdm (index : Nat) (bytes : List Byte)
  | flit (port : Nat) (flit : LinkFlit)
  | report (text : Nat) (value : Word)
  /-- a PRI page request of a function, on a PCIe port (R458) -/
  | pageRequest (port fn page : Nat)
  deriving DecidableEq, Repr

/-! ## Issue, and the order of events -/

/-- MODEL'S OWN: the pair that is issuing. `before` is its strand as it stood before the pair (R35, R37). -/
structure Issue where
  strand : Nat := 0
  before : Strand := {}
  slotA : Bool := false
  /-- the pair has trapped, or waits: nothing more of it runs -/
  stopped : Bool := false
  trapped : Bool := false
  /-- the pair's A slot is to trap: the C slot is judged for its own faults and does nothing (R37, R38) -/
  doomed : Bool := false
  /-- the regions that the pair's range checks have met, which its operation keeps (R251, R316) -/
  regions : List Region := []
  deriving DecidableEq, Repr

/-- MODEL'S OWN: who moves next. The spec leaves the order of agents open; this list fixes one, as plain data. -/
inductive Turn where
  /-- a core issues a pair (R147) -/
  | issue (core : Nat)
  /-- an event takes place, with its operands -/
  | event (i : Instr) (x : Input)
  /-- wafer time passes -/
  | advance (ns : Nat)
  /-- a home slice evicts a virtual line, or an L1 drops its copy of one: replacement, which R250 leaves open -/
  | evict (line : Nat)
  | dropCopy (line l1 : Nat)
  /-- the host stores `n` bytes at a physical address of its own memory or of HBM, within one 64-byte line -/
  | hostWrite (pa n x : Nat)
  deriving DecidableEq, Repr

structure State where
  /-- TIME in ns (R47) -/
  time : Nat
  mem : Memory
  /-- poisoned granules, by physical address / 64 (R433) -/
  poison : NatSet
  /-- HBM frames whose zero-pending mark is cleared, by physical address / 4096 (R465) -/
  zeroed : NatSet
  strands : FMap Strand
  cores : FMap Core
  tiles : FMap Tile
  zones : FMap Zone
  parts : FMap Partition
  tenants : FMap Tenant
  rings : FMap EventRing
  ports : FMap Port
  launches : FMap Launch
  /-- the number the next launch takes -/
  nextLaunch : Nat
  module : Module
  accesses : List Access
  ops : List Op
  messages : List Message
  packets : List Packet
  signals : List Signal
  treeMsgs : List TreeMsg
  /-- reports that wait for a free record (R392) -/
  reports : List Report
  /-- the dispatchers' writes of LID and STS that wait, oldest first (R188) -/
  slotWrites : List SlotWrite
  /-- placed pages: VA granule number to logical tile (R252) -/
  placed : FMap Nat
  /-- cached L2 lines by virtual line number (R312) -/
  l2 : FMap L2Line
  pri : List PageRequest
  /-- host pages that ATS reports as not resident to a function, as function × 2^40 + page (R458); the host's, an input -/
  hostAbsent : NatSet
  /-- refused requests whose access has yet to meet its refusal at its next try (R458) -/
  hostRefused : List PageRequest
  /-- what the module has handed to the outside -/
  outputs : List Output
  /-- traffic for other modules that waits for a port (R444, R452), oldest first -/
  outbox : List Outgoing
  nextOrder : Nat
  /-- end-to-end tags applied, with results, by source module × 2^64 + tag (R456), and the tag of the next control message from here -/
  tagLog : FMap Nat
  nextTag : Nat
  /-- MODEL'S OWN: selects the next free value (Config) -/
  free : Nat
  cur : Issue
  input : Input
  agenda : List Turn
  deriving DecidableEq, Repr

/-- Why the machine stops: nothing does. Every error that the spec names is a trap, a status, a report or poison, after which
the machine goes on; so no reason stands here. -/
inductive Fault where
  deriving DecidableEq, Repr

/-- Why a meaning is refused. -/
inductive Refusal where
  /-- raised by exec's arms that have no meaning yet. Safe. -/
  | notModelled (mnemonic : String)
  deriving DecidableEq, Repr

/-- Every row absent after module reset (R471). -/
def resetMapWord : Word := 0x007FF00000000000#64

def Zone.reset (z : Nat) : Zone :=
  { rows := ⟨(List.range 12).map fun r => (r, resetMapWord)⟩
    zdef := ⟨(List.range 12).map fun r => (r, Config.fusedZdef z r)⟩ }

/-- The module at power-good: TIME 0, nothing in memory, every core in reset, no partition (R47, R463, R471). -/
def State.reset : State :=
  { time := 0, mem := [], poison := [], zeroed := [], strands := ⟨[]⟩, cores := ⟨[]⟩, tiles := ⟨[]⟩
    zones := ⟨(List.range 64).map fun z => (z, Zone.reset z)⟩
    parts := ⟨[]⟩, tenants := ⟨[]⟩, rings := ⟨[]⟩, ports := ⟨[]⟩, launches := ⟨[]⟩, nextLaunch := 1
    module := {}, accesses := [], ops := [], messages := [], packets := [], signals := [], treeMsgs := []
    reports := [], placed := ⟨[]⟩, l2 := ⟨[]⟩, pri := [], hostAbsent := [], hostRefused := [], outputs := [], outbox := [], nextOrder := 0
    slotWrites := [], tagLog := ⟨[]⟩, nextTag := 0, free := 0, cur := {}, input := {}, agenda := [] }

end Sys2Proof.Machine
end

