-- ==== Sys2Proof/Machine/Ops.lean ====
section
/-! DEFINITION. The named operations over registers, memory, the maquette, reports and traps that every meaning is
written with. Taking a trap (R37, R48, R174, R183, R393, R403, R429) is `takeTrap`, once. -/

namespace Sys2Proof.Machine

open Host (Outcome)

/-- What a meaning answers. -/
abbrev Res := Outcome State Fault Refusal

/-! ## Numbering (R16, R18, R19) -/

def siteOf (zone row pcol : Nat) : Nat := zone * 144 + row * 12 + pcol
def siteZone (site : Nat) : Nat := site / 144
def siteRow (site : Nat) : Nat := site % 144 / 12
def siteCol (site : Nat) : Nat := site % 12
def coreSite (core : Nat) : Nat := core / 2
def coreIsCC (core : Nat) : Bool := core % 2 == 1
/-- The first atelier core's number. -/
abbrev atelierBase : Nat := 2 * 9216
def coreIsAtelier (core : Nat) : Bool := atelierBase ≤ core
def coreZone (core : Nat) : Nat := if coreIsAtelier core then (core - atelierBase) / 2 else siteZone (coreSite core)
def atelierCore (zone k : Nat) : Nat := atelierBase + 2 * zone + k
def strandOf (core slot : Nat) : Nat := core * 16 + slot
def strandCore (k : Nat) : Nat := k / 16
def strandSlot (k : Nat) : Nat := k % 16
def strandSite (k : Nat) : Nat := coreSite (strandCore k)
/-- The slot of a CC that is its tile's shadow handler's register set (R305). -/
abbrev shadowSlot : Nat := 8
def tileType (site : Nat) : Config.TileType := Config.rowType (siteRow site)
/-- A logical core: ((zone × 12 + row) × 11 + column) × 2 + core (R153). -/
def logicalOf (zone row col cc : Nat) : Nat := ((zone * 12 + row) * 11 + col) * 2 + cc

/-! ## The records of State -/

def State.strand (s : State) (k : Nat) : Strand := s.strands.getD k {}
def State.setStrand (s : State) (k : Nat) (x : Strand) : State := { s with strands := s.strands.set k x }
def State.core (s : State) (c : Nat) : Core := s.cores.getD c {}
def State.setCore (s : State) (c : Nat) (x : Core) : State := { s with cores := s.cores.set c x }
def State.tile (s : State) (t : Nat) : Tile := s.tiles.getD t {}
def State.setTile (s : State) (t : Nat) (x : Tile) : State := { s with tiles := s.tiles.set t x }
def State.zone (s : State) (z : Nat) : Zone := s.zones.getD z {}
def State.setZone (s : State) (z : Nat) (x : Zone) : State := { s with zones := s.zones.set z x }
def State.part (s : State) (p : Nat) : Partition := s.parts.getD p {}
def State.setPart (s : State) (p : Nat) (x : Partition) : State := { s with parts := s.parts.set p x }
def State.tenant (s : State) (n : Nat) : Tenant := s.tenants.getD n {}
def State.setTenant (s : State) (n : Nat) (x : Tenant) : State := { s with tenants := s.tenants.set n x }
def State.ring (s : State) (f : Nat) : EventRing := s.rings.getD f {}
def State.setRing (s : State) (f : Nat) (x : EventRing) : State := { s with rings := s.rings.set f x }
def State.port (s : State) (p : Nat) : Port := s.ports.getD p {}
def State.setPort (s : State) (p : Nat) (x : Port) : State := { s with ports := s.ports.set p x }
def State.setLaunch (s : State) (l : Nat) (x : Launch) : State := { s with launches := s.launches.set l x }
def State.setModule (s : State) (x : Module) : State := { s with module := x }
def State.setCur (s : State) (x : Issue) : State := { s with cur := x }

/-! ## Partitions and the maquette (R153, R185, R411, R442) -/

def Partition.hasZone (p : Partition) (z : Nat) : Bool := p.live && p.zones.getLsbD z
def Partition.zoneList (p : Partition) : List Nat := (List.range 64).filter fun z => p.hasZone z
/-- The partition that holds a zone. -/
def State.zonePart (s : State) (z : Nat) : Option Nat := s.parts.keys.find? fun p => (s.part p).hasZone z

/-- The physical site of a logical tile under a map word (R411). -/
def mapSite (word : Word) (zone row col : Nat) : Option Nat :=
  let w := word.toNat
  if col > 10 || row > 11 || bitAt w (44 + col) then none
  else
    let dir := bits w 62 2
    if dir ≠ 0 ∧ bits w 58 4 = col then
      if dir = 1 then (if row = 0 then none else some (siteOf zone (row - 1) 11))
      else if dir = 2 then (if row = 11 then none else some (siteOf zone (row + 1) 11)) else none
    else some (siteOf zone row (bits w (4 * col) 4))

def State.mapWord (s : State) (zone row : Nat) : Word := (s.zone zone).rows.getD row 0#64
/-- The site of a present logical tile, none when absent. -/
def State.site? (s : State) (zone row col : Nat) : Option Nat := mapSite (s.mapWord zone row) zone row col
/-- The logical row and column of a site in service, none when no map word names it. -/
def State.logical? (s : State) (site : Nat) : Option (Nat × Nat) :=
  let z := siteZone site
  let r := siteRow site
  let cands := [r, r + 1, r - 1].flatMap fun row => (List.range 11).map fun col => (row, col)
  cands.find? fun rc => s.site? z rc.1 rc.2 == some site
/-- The present logical tiles of a zone, in the order of R153. -/
def State.presentTiles (s : State) (zone : Nat) : List (Nat × Nat) :=
  ((List.range 12).flatMap fun r => (List.range 11).map fun c => (r, c)).filter fun rc => (s.site? zone rc.1 rc.2).isSome
/-- The present logical cores of a partition, in CID order (R153). -/
def State.presentCores (s : State) (p : Nat) : List Nat :=
  (s.part p).zoneList.flatMap fun z =>
    (s.presentTiles z).flatMap fun rc => [logicalOf z rc.1 rc.2 0, logicalOf z rc.1 rc.2 1]
/-- The core that a logical core now is. -/
def State.physCore? (s : State) (l : Nat) : Option Nat :=
  (s.site? (l / 264) (l / 22 % 12) (l / 2 % 11)).map fun site => 2 * site + l % 2
/-- The logical core at a core, none when its site is in no map. -/
def State.logCore? (s : State) (core : Nat) : Option Nat :=
  (s.logical? (coreSite core)).map fun rc => logicalOf (coreZone core) rc.1 rc.2 (core % 2)
def State.quarantined (s : State) (site : Nat) : Bool := (s.zone (siteZone site)).quarantined.contains (site % 144)

/-- Requests to the site wait for its remapping: it is quarantined (R438), or its SRAM has failed (R487). -/
def State.siteWaits (s : State) (site : Nat) : Bool := s.quarantined site || (s.tile site).sramFailed

/-- Is the site's state such that a message to it returns DEAD (R412, R438)? -/
def State.deadSite (s : State) (site : Nat) : Bool :=
  let z := s.zone (siteZone site)
  z.quarantined.contains (site % 144) || z.retired.contains (site % 144)
/-- A tile whose SRAM has failed takes nothing, and raises no record, until it is quarantined (R487, R488). -/
def State.silent (s : State) (site : Nat) : Bool := (s.tile site).sramFailed && !s.deadSite site
/-- The same of a strand's tile. -/
def State.silentStrand (s : State) (k : Nat) : Bool := !coreIsAtelier (strandCore k) && s.silent (strandSite k)

/-! ## The issuing strand -/

/-- The strand whose pair is issuing, as it now stands. -/
def State.self (s : State) : Strand := s.strand s.cur.strand
def State.setSelf (s : State) (x : Strand) : State := s.setStrand s.cur.strand x
/-- The strand as it stood before the pair: what every source reads (R35). -/
def State.before (s : State) : Strand := s.cur.before
def State.selfCore (s : State) : Nat := strandCore s.cur.strand
def State.selfSite (s : State) : Nat := coreSite s.selfCore
def State.selfZone (s : State) : Nat := coreZone s.selfCore
/-- Atelier mode is the mode of the atelier cores alone (R39). -/
def State.inAtelier (s : State) : Bool := coreIsAtelier s.selfCore
def Strand.inHandler (x : Strand) : Bool := x.birth == .handler
def Strand.inTask (x : Strand) : Bool := x.birth == .task
def Strand.inShadow (x : Strand) : Bool := x.birth == .shadow

def State.launch? (s : State) (l : Nat) : Option Launch := s.launches.find? l
/-- The launch a strand belongs to. -/
def State.launchOf (s : State) (k : Nat) : Option Launch := s.launch? (s.strand k).launch
def State.selfLaunch (s : State) : Option Launch := s.launch? s.cur.before.launch
def State.selfTenant (s : State) : Nat := (s.selfLaunch.map (·.tenant)).getD 0
def State.selfPart (s : State) : Nat := (s.selfLaunch.map (·.part)).getD 0
def State.tenantOf (s : State) (k : Nat) : Nat := ((s.launchOf k).map (·.tenant)).getD 0

/-! ## Registers (R27–R30, R36) -/

def RegFile.readG (r : RegFile) (i : Reg) : Word := if i = 0#4 then 0#64 else r.g.getD i.toNat 0#64
def RegFile.readV (r : RegFile) (i : Reg) : VWord := r.v.getD i.toNat 0#512
/-- p0 reads 1 (R29). -/
def RegFile.readP (r : RegFile) (i : Pred) : Bool := i == 0#3 || r.pw.getLsbD i.toNat
/-- A write to g0 is discarded (R27). -/
def RegFile.writeG (r : RegFile) (i : Reg) (x : Word) : RegFile := if i = 0#4 then r else { r with g := r.g.set i.toNat x }
def RegFile.writeV (r : RegFile) (i : Reg) (x : VWord) : RegFile := { r with v := r.v.set i.toNat x }
def setBit {n : Nat} (w : BitVec n) (i : Nat) (b : Bool) : BitVec n :=
  if b then w ||| BitVec.ofNat n (2 ^ i) else w &&& ~~~(BitVec.ofNat n (2 ^ i))
/-- A write to p0 is discarded (R29). -/
def RegFile.writeP (r : RegFile) (i : Pred) (b : Bool) : RegFile :=
  if i = 0#3 then r else { r with pw := setBit r.pw i.toNat b }
def RegFile.fullG (r : RegFile) (i : Reg) : Bool := i == 0#4 || r.gf.getLsbD i.toNat
def RegFile.fullV (r : RegFile) (i : Reg) : Bool := r.vf.getLsbD i.toNat
def RegFile.markG (r : RegFile) (i : Reg) (full : Bool) : RegFile :=
  if i = 0#4 then r else { r with gf := setBit r.gf i.toNat full }
def RegFile.markV (r : RegFile) (i : Reg) (full : Bool) : RegFile := { r with vf := setBit r.vf i.toNat full }

def State.mapRegs (s : State) (f : RegFile → RegFile) : State := s.setSelf { s.self with regs := f s.self.regs }
/-- g[A] as the pair found it (R35). -/
def State.g (s : State) (a : Src) : Word := s.cur.before.regs.readG a.r
def State.gr (s : State) (r : Reg) : Word := s.cur.before.regs.readG r
def State.vr (s : State) (r : Reg) : VWord := s.cur.before.regs.readV r
def State.p (s : State) (p : Pred) : Bool := s.cur.before.regs.readP p
def State.setG (s : State) (d : Reg) (x : Word) : State := s.mapRegs fun r => r.writeG d x
def State.setV (s : State) (d : Reg) (x : VWord) : State := s.mapRegs fun r => r.writeV d x
def State.setP (s : State) (d : Pred) (b : Bool) : State := s.mapRegs fun r => r.writeP d b
def State.setPc (s : State) (pc : Word) : State := s.setSelf { s.self with pc := pc }
/-- p7, which many engine instructions write (R218, R322). -/
def State.setP7 (s : State) (b : Bool) : State := s.setP 7#3 b

/-! ## Physical memory, zero-pending frames and poison (R254, R433, R465) -/

abbrev granuleOf (pa : Nat) : Nat := pa / 64
def paSpace (pa : Nat) : Nat := pa / 2 ^ 48
/-- A byte in service: HBM stacks 0–39 (R254). -/
def paIsHbm (pa : Nat) : Bool := pa < 40 * 2 ^ 36
def paIsScratch (pa : Nat) : Bool := paSpace pa == 1
def paIsHost (pa : Nat) : Bool := paSpace pa == 3
def paIsSystem (pa : Nat) : Bool := paSpace pa == 4
/-- Tile SRAM is held by physical site. -/
def sramPa (site off : Nat) : Nat :=
  2 ^ 48 + siteZone site * 2 ^ 42 + siteRow site * 2 ^ 38 + siteCol site * 2 ^ 34 + off
def paSite (pa : Nat) : Nat := siteOf (bits pa 42 6) (bits pa 38 4) (bits pa 34 4)

def State.marked (s : State) (frame : Nat) : Bool := paIsHbm (frame * 4096) && !s.zeroed.contains frame
/-- R465: zero a marked frame, clear its poison and its mark. -/
def State.zeroFrame (s : State) (frame : Nat) : State :=
  if s.marked frame then
    { s with
      mem := s.mem.clear (frame * 4096) 4096
      poison := s.poison.filter fun g => g / 64 != frame
      zeroed := setInsert frame s.zeroed }
  else s
/-- The first access to a marked frame zeroes it (R465). -/
def State.touch (s : State) (pa : Nat) : State := s.zeroFrame (pa / 4096)
def State.poisoned (s : State) (pa : Nat) : Bool := !s.marked (pa / 4096) && s.poison.contains (granuleOf pa)
def State.poisonedIn (s : State) (pa n : Nat) : Bool :=
  (List.range (granuleOf (pa + n - 1) + 1 - granuleOf pa)).any fun i => s.poisoned ((granuleOf pa + i) * 64)
def State.setPoison (s : State) (pa : Nat) : State := let s := s.touch pa; { s with poison := setInsert (granuleOf pa) s.poison }
def State.clearPoison (s : State) (pa : Nat) : State := { s with poison := setRemove (granuleOf pa) s.poison }
/-- What the bytes read as: a marked frame reads zero (R465). -/
def State.readPa (s : State) (pa n : Nat) : Nat := if s.marked (pa / 4096) then 0 else s.mem.readN pa n
/-- A write; one of all 64 bytes of a granule clears its poison (R433). -/
def State.writePa (s : State) (pa n x : Nat) : State :=
  let s := s.touch pa
  let s := { s with mem := s.mem.writeN pa n x }
  if n = 64 ∧ pa % 64 = 0 then s.clearPoison pa else s

/-! ## Reports and the atelier mailboxes (R392–R395) -/

/-- A record of R394. -/
def recordBody (kind part ten : Nat) (frz : Bool) (tc : Nat) (msgid : Nat) (tgt : Nat) (pc addr info detail : Word) : BitVec 512 :=
  BitVec.ofNat 512
    (info.toNat * 2 ^ 448 + addr.toNat * 2 ^ 384 + pc.toNat * 2 ^ 320 + tgt * 2 ^ 256 + msgid * 2 ^ 224 + tc * 2 ^ 214
      + (if frz then 2 ^ 213 else 0) + ten * 2 ^ 202 + part * 2 ^ 196 + kind * 2 ^ 192 + detail.toNat * 2 ^ 128)

/-- The mailbox slot of a core (R392). -/
def coreMbxSlot (core : Nat) : Nat := 2 * (coreSite core % 144) + core % 2

/-- The lowest free index of a slot's eight records. -/
def freeIndex (recs : List MbxRecord) (slot : Nat) : Option Nat :=
  (List.range 8).find? fun i => !recs.any fun r => r.slot == slot && r.index == i

/-- Put a report into its mailbox; one that finds its slot full waits (R392). -/
def State.report (s : State) (r : Report) : State :=
  let z := s.zone r.zone
  let useStandby := r.standby && z.hasStandby
  let recs := if useStandby then z.mbxStandby else z.mbx
  -- an earlier report of the same source still waits: keep their order
  let blocked := s.reports.any fun q => q.zone == r.zone && q.slot == r.slot && q.standby == r.standby
  match freeIndex recs r.slot with
  | some i =>
    if blocked then { s with reports := s.reports ++ [r] }
    else
      let recs := recs ++ [{ slot := r.slot, index := i, body := r.body }]
      s.setZone r.zone (if useStandby then { z with mbxStandby := recs } else { z with mbx := recs })
  | none => { s with reports := s.reports ++ [r] }

/-- The target word of a strand (R404). -/
def strandTarget (k : Nat) : Nat :=
  let c := strandCore k
  let site := coreSite c
  siteRow site * 2 ^ 12 + siteCol site * 2 ^ 8 + (c % 2) * 16 + strandSlot k % 8
/-- The target word of an operation (R404). -/
def opTarget (core ch : Nat) (id : BitVec 32) : Nat :=
  let site := coreSite core
  id.toNat * 2 ^ 32 + 2 ^ 31 + ch * 2 ^ 16 + siteRow site * 2 ^ 12 + siteCol site * 2 ^ 8 + (core % 2) * 16

/-! ## Freezing a tenant (R429) -/

def Queue.freeze (q : Queue) : Queue :=
  if q.st == .off || q.st == .frozen then q else { q with st := .frozen, prior := q.st }
def Partition.freeze (p : Partition) : Partition :=
  { p with frozen := true, queues := p.queues.mapValues fun _ q => q.freeze }
/-- Time counted towards a launch's deadline stops (R427). -/
def Launch.pause (l : Launch) (now : Nat) : Launch :=
  match l.since with
  | some t => { l with usedNs := l.usedNs + (now - t), since := none }
  | none => l
def Launch.unpause (l : Launch) (now : Nat) : Launch :=
  if l.bound && l.since.isNone && l.guest.isNone then { l with since := some now } else l
/-! What `Op.data` keeps of an element of a GATH or SCAT (R369, R372, R376). -/

/-- The index of an element in flight, with bit 64 for a poisoned one. -/
def idxKey (k : Nat) : Nat := k
def srcKey (k : Nat) : Nat := 2 ^ 32 + k
def lineKey (k j : Nat) : Nat := 2 ^ 33 + 128 * k + j
/-- Marks of a replayed element, of one that is to be formed again, and of one that waits at a full fault queue. -/
def replayKey (k : Nat) : Nat := 2 ^ 41 + k
def reformKey (k : Nat) : Nat := 2 ^ 42 + k
def waitKey (k : Nat) : Nat := 2 ^ 43 + k
/-- Elements in flight. -/
def Op.flying (o : Op) : List Nat := o.data.keys.filter fun q => q < 2 ^ 32
/-- Number `n` within part `k`, as the element of a tag; what has been asked for part `k`, and a part whose asking is over (R456). -/
def tagElem (k n : Nat) : Nat := 128 * k + n
def Op.sentFor (o : Op) (k : Nat) : Option Nat := (o.asked.entries.find? fun e => e.1 / 128 == k).map fun e => e.2
def Op.unask (o : Op) (k : Nat) : Op := { o with asked := o.asked.keep fun e => e / 128 != k }
/-- Forget what was kept of an element. -/
def Op.forget (o : Op) (k : Nat) : Op :=
  let o := o.unask k
  { o with data := o.data.keep fun q =>
      q != idxKey k && q != srcKey k && q != reformKey k && q != waitKey k && !(lineKey k 0 ≤ q && q < lineKey k 0 + 128) }
/-- Every element has been formed, and none is in flight. -/
def Op.allFormed (o : Op) : Bool := o.pos == o.total && o.flying.isEmpty && !o.data.keys.any fun q => reformKey 0 ≤ q && q < reformKey (2 ^ 32)
/-- An operation stops at a boundary: a part whose answer has not come is still owed, and goes out again with its tag (R316, R456); an
element of a GATH or SCAT that is neither delivered nor parked is formed again (R375). -/
def Op.atBoundary (o : Op) : Op :=
  let o := { o with asked := ⟨[]⟩ }
  if o.kind == .gath || o.kind == .scat then
    o.flying.foldl (fun o k => { o.forget k with data := (o.forget k).data.set (reformKey k) 1 }) o
  else o

/-- Every partition of the tenant enters FROZEN (R429); a frozen tenant stays as it is. Its engine operations stop at their
boundaries. -/
def State.freezeTenant (s : State) (t : Nat) : State :=
  if (s.tenant t).frozen then s
  else
    { s.setTenant t { s.tenant t with frozen := true, frozenSince := s.time } with
      parts := s.parts.mapValues fun _ p => if p.live && p.tenant == t then p.freeze else p
      launches := s.launches.mapValues fun _ l => if l.tenant == t then l.pause s.time else l
      ops := s.ops.map fun o => if o.tenant == t && !coreIsAtelier o.core then o.atBoundary else o }
def State.frozen (s : State) (t : Nat) : Bool := (s.tenant t).frozen

/-! ## Ordered tasks: rollback (R182) -/

def Zone.task? (z : Zone) (o : Nat) : Option Task := z.tasks.find? fun t => t.order == o
def Zone.mapTask (z : Zone) (o : Nat) (f : Task → Task) : Zone :=
  { z with tasks := z.tasks.map fun t => if t.order == o then f t else t }

/-- A task's starting registers (R143). -/
def taskRegs (t : Task) : RegFile :=
  { g := ⟨(t.args.mapIdx fun i x => (i + 1, x)) ++ [(5, t.timestamp)]⟩ }

/-- Every uncommitted descendant of a speculative task, to a depth of `fuel`. -/
def descendants (tasks : List Task) : Nat → List Nat → List Nat
  | 0, os => os
  | fuel + 1, os =>
    let more := (tasks.filter fun t => match t.parent with
      | some p => os.contains p && !os.contains t.order
      | none => false).map (·.order)
    if more.isEmpty then os else descendants tasks fuel (os ++ more)

/-- The strand of a task as it starts, in a core's slot (R143, R180, R247). -/
def taskStrand (t : Task) (slot : Nat) : Strand :=
  { st := .ready, regs := taskRegs t, pc := t.hpc, birth := .task, launch := t.launch, index := BitVec.ofNat 3 slot
    task := some t.order }
/-- R182: the task's buffer, signatures and enqueued tasks are discarded, and it restarts at its handler PC as it began. -/
def State.rollback (s : State) (zone order : Nat) : State :=
  let z := s.zone zone
  match z.task? order with
  | none => s
  | some t =>
    let kids := (descendants z.tasks z.tasks.length [order]).filter (· != order)
    let z := { z with tasks := z.tasks.filter fun x => !kids.contains x.order }
    let st := match t.st with
      | .running k => TaskSt.running k
      | _ => .waiting
    let z := z.mapTask order fun x => { x with buffer := [], reads := [], writes := [], st := st }
    let s := s.setZone zone z
    match t.st with
    | .running k =>
      { s.setStrand k (taskStrand t (strandSlot k)) with
        accesses := s.accesses.filter fun a => a.strand != k
        cur := if s.cur.strand = k then { s.cur with stopped := true } else s.cur }
    | _ => s

/-! ## Taking a trap (R37, R48, R174, R183, R393, R398, R403) -/

/-- The pc of the pair that is issuing. -/
def State.pairPc (s : State) : Word := s.cur.before.pc

def Mailbox.giveBack (m : Mailbox) (h : HandlerRun) : Mailbox :=
  { m with waiting := (h.slots.zip h.msgs) ++ m.waiting, given := m.given.filter fun i => !h.slots.contains i }

/-- R174: the handler is aborted, its held sends are discarded and its messages stand at the head of the mailbox. -/
def State.abortHandler (s : State) (core : Nat) (h : HandlerRun) : State :=
  let c := s.core core
  match c.mboxes.find? h.mbox with
  | some m => s.setCore core { c with mboxes := c.mboxes.set h.mbox (m.giveBack h) }
  | none => s

/-- A trap of an atelier strand (R403): its registers, ATEPC and INTRAP are set and it goes on at ATVEC; while INTRAP is
1, the core stops and a KIND 5 record goes to the other atelier core's mailbox. -/
def State.atelierTrap (s : State) (slotA : Bool) (t : TrapInfo) : State :=
  let k := s.cur.strand
  let core := strandCore k
  let c := s.core core
  let zone := coreZone core
  if c.intrap then
    let s := s.setStrand k s.cur.before
    let s := s.setCore core { c with stopped := true }
    let other := (core - atelierBase) % 2 == (s.zone zone).primary
    s.report
      { zone := zone, standby := other, slot := 290
        body := recordBody 5 0 0 false 0x38 0 0 0#64 0#64 (BitVec.ofNat 64 t.cause.toNat) 0#64 }
  else
    let b := s.cur.before
    let s := s.setStrand k
      { b with
        pc := c.atvec, grant := none, taddr := t.addr, tinfo := t.info
        tcause := BitVec.ofNat 10 ((if slotA then 256 else 0) + t.cause.toNat) }
    s.setCore core { c with atepc := b.pc, intrap := true }

/-- Causes by name (R396). -/
def causeIllegal : BitVec 6 := 0x01#6
def causePriv : BitVec 6 := 0x02#6
def causePairConflict : BitVec 6 := 0x03#6
def causeEmptyOperand : BitVec 6 := 0x04#6
def causeMisaligned : BitVec 6 := 0x05#6
def causeProt : BitVec 6 := 0x08#6
def causePageNotPresent : BitVec 6 := 0x09#6
def causeOwnerHost : BitVec 6 := 0x0A#6
def causePoison : BitVec 6 := 0x0B#6
def causeKvNotPresent : BitVec 6 := 0x0C#6
def causeFmtInvalid : BitVec 6 := 0x10#6
def causeTsRange : BitVec 6 := 0x11#6
def causeSemOverflow : BitVec 6 := 0x12#6
def causeGroupNotMember : BitVec 6 := 0x18#6
def causeHopTargetAbsent : BitVec 6 := 0x19#6
def causeMailboxFull : BitVec 6 := 0x1A#6
def causeLaunchGroupOverflow : BitVec 6 := 0x1B#6
def causeTaskAbort : BitVec 6 := 0x20#6
def causeWatchdog : BitVec 6 := 0x30#6
def causeHwUncorrectable : BitVec 6 := 0x38#6
def causeBreak : BitVec 6 := 0x3F#6

/-- TINFO of SHADOWTRAP: reason 8, access 6, LVL 7 and the handler's own cause (R306, R396, R397). -/
def shadowTrapInfo (inner : BitVec 6) : Word :=
  BitVec.ofNat 64 (8 * 2 ^ 56 + 6 * 2 ^ 48 + 7 * 2 ^ 45 + inner.toNat * 2 ^ 39)
/-- A POISON that a load has met: TINFO's access is 0 (R397, R398). -/
def TrapInfo.loadPoison (t : TrapInfo) : Bool := t.cause == causePoison && t.info.extractLsb' 48 8 == 0#8
/-- What a strand of pinned code reports of a poisoned granule (R396, R398). -/
def TrapInfo.hardware (t : TrapInfo) : TrapInfo :=
  { cause := 0x38#6, addr := BitVec.ofNat 64 t.granule, info := BitVec.ofNat 64 t.cause.toNat }
/-- Its KIND 5 record, to the standby: TC is TCAUSE[9:0], and no message is named (R394). -/
def State.hardwareReport (s : State) (k tc : Nat) (t : TrapInfo) : State :=
  s.report
    { zone := coreZone (strandCore k), standby := true, slot := coreMbxSlot (strandCore k)
      body := recordBody 5 (((s.launchOf k).map (·.part)).getD 0) (s.tenantOf k) false tc 0 (strandTarget k) 0#64 t.addr t.info 0#64 }
/-- The same of a tile's shadow handler. -/
def State.shadowError (s : State) (k : Nat) (run : ShadowRun) (t : TrapInfo) : State :=
  s.report
    { zone := coreZone (strandCore k), standby := true, slot := coreMbxSlot (strandCore k)
      body := recordBody 5 run.part run.tenant false 0x38 0 (strandTarget k) 0#64 t.addr t.info 0#64 }
/-- The shadow handler's trap ends it; the operation that walked takes KV_NOT_PRESENT, reason SHADOWTRAP, and is held
(R306). The fills it has made stay, and its loads that are still outstanding fill nothing. A load's POISON is reported to the
standby besides (R398). A PROT freezes the tenant as every PROT does (R429). -/
def State.endShadow (s : State) (k : Nat) (t : TrapInfo) : State :=
  let site := strandSite k
  let tl := s.tile site
  let s := { s.setStrand k {} with accesses := s.accesses.filter fun a => a.strand != k || a.kind == .store }
  match tl.shadow with
  | none => s
  | some run =>
    let s := s.setTile site { tl with shadow := none }
    let s := if t.loadPoison then s.shadowError k run t.hardware else s
    let frz := t.cause == causeProt
    let s := if frz then s.freezeTenant run.tenant else s
    let s := { s with ops := s.ops.map fun (o : Op) =>
      if o.strand == run.walker && o.shadowed then { o with shadowed := false, held := [0] } else o }
    s.report
      { zone := siteZone site, standby := false, slot := coreMbxSlot run.core
        body := recordBody 1 run.part run.tenant frz causeKvNotPresent.toNat 0 (opTarget run.core 0 0#32) 0#64 run.coord
          (shadowTrapInfo t.cause) t.addr }

/-- What a fault leaves behind: a marked frame that was read is zeroed (R465), and a refusal has been met (R458). -/
def State.faultMet (s : State) (t : TrapInfo) : State :=
  let s := match t.fresh with
    | some pa => s.touch pa
    | none => s
  match t.refusal with
  | some k => { s with hostRefused := s.hostRefused.filter fun r => r != k }
  | none => s
/-- A pair traps. The strand is put back as it stood before the pair; nothing else of the pair takes effect, since a
meaning calls this on the state it was given (R37). -/
def State.takeTrap (s : State) (slotA : Bool) (t : TrapInfo) : State :=
  let k := s.cur.strand
  let core := strandCore k
  let b := s.cur.before
  let stop (s : State) : State := s.setCur { s.cur with stopped := true, trapped := true }
  let s := s.faultMet t
  if coreIsAtelier core then stop (s.atelierTrap slotA t)
  else if b.inShadow then stop (s.endShadow k t)
  else
    let zone := coreZone core
    let ztask := b.task.bind fun o => (s.zone zone).task? o
    match ztask with
    | some tk =>
      if !tk.irrevocable then
        -- R183: rolled back before it is reported; it runs again when it is the oldest
        let s := s.setStrand k b
        let s := s.rollback zone tk.order
        stop (s.setZone zone ((s.zone zone).mapTask tk.order fun x => { x with retry := true }))
      else stop (park s k core zone b slotA t)
    | none => stop (park s k core zone b slotA t)
where
  /-- The trap registers, the PARKED state, the record, the abort of a handler and the freeze of a PROT. -/
  park (s : State) (k core zone : Nat) (b : Strand) (slotA : Bool) (t : TrapInfo) : State :=
    let h := b.inHandler
    -- a POISON that pinned code's load meets goes to the standby (R398)
    let hw := h && t.loadPoison
    let t := if hw then t.hardware else t
    let tc := (if h then 512 else 0) + (if slotA then 256 else 0) + t.cause.toNat
    let msgid := match b.handler with
      | some run => (run.msgs.head?.map (·.msgid)).getD 0#32
      | none => b.msgid
    let s := match b.handler with
      | some run => s.abortHandler core run
      | none => s
    let s := s.setStrand k
      { b with
        st := .parked, grant := none, tcause := BitVec.ofNat 10 tc, taddr := t.addr, tinfo := t.info
        msgid := if h then msgid else b.msgid
        handler := b.handler.map fun run => { run with slots := [], held := [] } }
    let ten := s.tenantOf k
    let frz := t.cause == causeProt
    let s := if frz then s.freezeTenant ten else s
    let part := ((s.launchOf k).map (·.part)).getD 0
    if hw then s.hardwareReport k tc t
    else
      s.report
        { zone := zone, standby := false, slot := coreMbxSlot core
          body := recordBody 0 part ten frz tc (if h then msgid.toNat else 0) (strandTarget k) b.pc t.addr t.info 0#64 }

/-- A meaning's trap in its own slot. -/
def State.trap (s : State) (t : TrapInfo) : Res := .next (s.takeTrap s.cur.slotA t)
def State.trapAt (s : State) (cause : BitVec 6) (addr : Word) : Res := s.trap { cause := cause, addr := addr }
def State.trapWith (s : State) (cause : BitVec 6) (addr info : Word) : Res := s.trap { cause := cause, addr := addr, info := info }
def State.illegal (s : State) : Res := s.trap { cause := causeIllegal }

/-- RFT's return (R415): INTRAP clears and the strand goes on at ATEPC, or at the pair after it. -/
def State.returnFromTrap (s : State) (next : Bool) : State :=
  let core := s.selfCore
  let c := s.core core
  (s.setCore core { c with intrap := false }).setPc (if next then c.atepc + 8#64 else c.atepc)

/-! ## Waiting and its release (R144, R218) -/

/-- The pair waits: it has done nothing, and is examined again once the wait is over. -/
def State.hold (s : State) (w : Wait) : State :=
  let s := s.setSelf { s.self with st := .waiting w, pc := s.cur.before.pc }
  s.setCur { s.cur with stopped := true }
/-- A deferred walk's fault: the strand waits for the answer, which TRANSLATION_FAULT_RETURN brings (R260). -/
def State.deferFault (s : State) (t : TrapInfo) : Res :=
  .next ((s.faultMet t).hold (.translation s.cur.slotA { t with fresh := none, refusal := none }))
/-- Release a held strand with the value its pair delivers. -/
def State.release (s : State) (k : Nat) (gr : Grant) : State :=
  s.setStrand k { s.strand k with st := .ready, grant := some gr }
/-- Wake a strand whose wait is over; its pair is examined again. -/
def State.wake (s : State) (k : Nat) : State :=
  s.setStrand k { s.strand k with st := .ready }
/-- The PCIe port that carries a function's requests (R458, R462). -/
def State.fnPort (s : State) (fn : Nat) : Nat := if fn < 64 && s.module.portsel.getLsbD fn then 1 else 0
/-- The grant that this pair's wait ended with. -/
def State.grant (s : State) : Option Grant := s.cur.before.grant
def State.useGrant (s : State) : State := s.setSelf { s.self with grant := none }

end Sys2Proof.Machine
end

