-- ==== Sys2Proof/Machine/System.lean ====
section
/-! DEFINITION. System space and the registers the host reaches through the physical function (21 R460–R462, R432, R444,
R468): each register's read, and each write's effect, once for atelier cores and host alike. -/

namespace Sys2Proof.Machine

/-! ## The event rings (R460). Function 0–63 is a virtual function, 64 the physical one. -/

abbrev physicalFn : Nat := 64
def EventRing.enabled (r : EventRing) : Bool := r.en && 4 ≤ r.log2n && r.log2n ≤ 12
def EventRing.ctl (r : EventRing) : Nat := (if r.enabled then 16 else 0) + r.log2n
def EventRing.full (r : EventRing) : Bool := !r.enabled || (r.head - r.tail).toNat ≥ 2 ^ r.log2n
/-- Writing EVBASE or EVCTL while HEAD ≠ TAIL resets both counters to HEAD. -/
def EventRing.resync (r : EventRing) : EventRing := { r with tail := r.head }
def EventRing.writeBase (r : EventRing) (v : Word) : EventRing := { r.resync with base := v &&& ~~~0xFFF#64 }
def EventRing.writeCtl (r : EventRing) (v : Word) : EventRing :=
  { r.resync with en := v.getLsbD 4, log2n := (v.extractLsb' 0 4).toNat }
/-- A TAIL beyond HEAD is ignored; the counters wrap, and one is beyond that is less than 2³¹ ahead of HEAD. DEDUCED (log 102). -/
def EventRing.writeTail (r : EventRing) (v : Word) : EventRing :=
  let t : BitVec 32 := v.extractLsb' 0 32
  if (r.head - t).toNat < 2 ^ 31 then { r with tail := t } else r
def EventRing.readReg (r : EventRing) (off : Nat) : Nat :=
  match off with
  | 0 => r.base.toNat
  | 8 => r.ctl
  | 16 => r.head.toNat
  | 24 => r.tail.toNat
  | _ => 0

/-- Where a byte of a host bus address stands in memory: in space 3, which shows 2^48 bytes of the host bus (R254), or beyond every
physical address. -/
def hostBus (b : Nat) : Nat := if b < 2 ^ 48 then 3 * 2 ^ 48 + b else 2 ^ 64 + b
/-- Append a record to a ring that is not full: the record stands before HEAD advances, then MSI-X vector 0 fires. -/
def State.ringPush (s : State) (fn : Nat) (body : BitVec 512) : State :=
  let r := s.ring fn
  let s := s.writePa (hostBus ((r.base.toNat + 64 * (r.head.toNat % 2 ^ r.log2n)) % 2 ^ 64)) 64 body.toNat
  { s.setRing fn { r with head := r.head + 1 } with outputs := s.outputs ++ [.msix (s.fnPort fn) fn] }
/-- A report to the host: it leaves the module, and reaches the PF ring while that has room (R460, logs 52 and 102). -/
def State.hostReport (s : State) (what : Nat) (v : Word) : State :=
  let s := { s with outputs := s.outputs ++ [.report what v] }
  if (s.ring physicalFn).full then s else s.ringPush physicalFn (Config.hostReport what v)

/-- A ring register write at its offset within 0xE00–0xE1F. -/
def State.ringWrite (s : State) (fn off : Nat) (v : Word) : State :=
  let r := s.ring fn
  match off with
  | 0 => s.setRing fn (r.writeBase v)
  | 8 => s.setRing fn (r.writeCtl v)
  | 24 => s.setRing fn (r.writeTail v)
  | _ => s

/-! ## What answers the host (R458, R459, R463, R469) -/

/-- What still answers after a failed verification: the module page and the recovery window (R469). -/
def answersUnverified (off : Nat) : Bool := off < 0x1000 || (0x10000000 ≤ off && off < 0x14000000)
/-- A function's pages answer: the PF's on either PCIe port that is up, a VF's on the one that carries it, and after a failed
verification not at all. -/
def State.answers (s : State) (fn : Nat) : Bool :=
  if fn < 64 then s.module.pcieUp.contains (s.fnPort fn) && !s.module.fwfail else !s.module.pcieUp.isEmpty
/-- A tenant owns some partition: only then does its VF have pages that take writes (R459). -/
def State.ownsPart (s : State) (fn : Nat) : Bool := s.parts.values.any fun p => p.live && p.tenant == fn
/-- A function's event ring takes its host's writes. -/
def State.ringAnswers (s : State) (fn : Nat) : Bool := s.answers fn && (fn == physicalFn || (decide (fn < 64) && s.ownsPart fn))

/-! ## The module page (R462) -/

def BootSt.code : BootSt → Nat
  | .verifying => 0
  | .training => 1
  | .building => 2
  | .running => 3
def b2n (b : Bool) : Nat := if b then 1 else 0

def Module.mstat (m : Module) : Nat :=
  b2n m.hrlost * 16 + b2n m.ready * 8 + m.bootSt.code * 2 + b2n m.fwfail

def State.moduleReg (s : State) (off : Nat) : Nat :=
  let m := s.module
  match off with
  | 0x00 => m.pcap
  | 0x08 => m.mstat
  | 0x10 => m.shva
  | 0x18 => m.shcnt
  | 0x20 => b2n m.shBusy * 2 ^ 63 + b2n m.shErr * 2 ^ 62
  | 0x28 => m.portsel.toNat
  | 0x30 => m.fwsvn.toNat
  | _ => 0

/-- PCAP is clamped to 180,000–400,000 (R212, R462). A write keeps its bits [18:0]: R212 does not say what one with reserved
bits does. DESIGN CHOICE (log 81). -/
def clampPcap (v : Nat) : Nat := max 180000 (min 400000 v)
def State.writePcap (s : State) (v : Word) : State := s.setModule { s.module with pcap := clampPcap v.toNat }
/-- MSTAT.HRLOST is w1c. -/
def State.writeMstat (s : State) (v : Word) : State :=
  if v.getLsbD 4 then s.setModule { s.module with hrlost := false } else s

/-- The lines [lo, hi) are written back, each charged to its last dirtier, and leave every cache (R261, R262, R312); poison
beneath a clean one shows again in its frame (R433). -/
def State.dropLines (s : State) (lo hi : Nat) : State :=
  let inRange (line : Nat) : Bool := lo ≤ line && line < hi
  let hit := s.l2.entries.filter fun e => inRange e.1
  let s := hit.foldl (fun s e => match e.2.dirtier with
    | some t => s.setTenant t { s.tenant t with l2wbf := (s.tenant t).l2wbf + 1#64 }
    | none => if e.2.below then s.setPoison (64 * e.2.frame) else s) s
  { s with l2 := s.l2.keep fun k => !inRange k }
/-- The completion of R261 for a range that no access stands in the way of; with PLB every PLB is dropped. -/
def State.finishShootdown (s : State) : State :=
  let m := s.module
  let s := s.dropLines (m.shva / 64) (m.shva / 64 + m.shcnt * 64)
  let s := if m.shPlb then { s with cores := s.cores.mapValues fun _ c => { c with plb := [] } } else s
  s.setModule { m with shBusy := false, shPlb := false }

/-- SHCTL: CLRE clears ERR; GO starts a shootdown, or sets ERR while one is in progress; COUNT = 0 completes at once. -/
def State.shctlGo (s : State) (v : Word) : State :=
  let m := s.module
  if v.getLsbD 0 then
    if m.shBusy then s.setModule { m with shErr := true }
    else
      let s := s.setModule { m with shBusy := true, shPlb := v.getLsbD 1 }
      if m.shcnt = 0 then s.finishShootdown else s
  else s
def State.shctlClear (s : State) (v : Word) : State :=
  if v.getLsbD 2 then s.setModule { s.module with shErr := false } else s
def State.writeShva (s : State) (v : Word) : State :=
  if s.module.shBusy then s.setModule { s.module with shErr := true }
  else s.setModule { s.module with shva := bits v.toNat 12 45 * 4096 }
def State.writeShcnt (s : State) (v : Word) : State :=
  if s.module.shBusy then s.setModule { s.module with shErr := true }
  else s.setModule { s.module with shcnt := bits v.toNat 0 45 }

/-- HREQ: a KIND 6 record to slot 289 of the zone's primary; dropped with HRLOST before the atelier cores start or when
the slot is full (R462). -/
def State.hostRequest (s : State) (v : Word) : State :=
  let zone := bits v.toNat 58 6
  if !s.module.ateliersStarted || (freeIndex (s.zone zone).mbx 289).isNone then
    s.setModule { s.module with hrlost := true }
  else
    s.report
      { zone := zone, standby := false, slot := 289
        body := recordBody 6 0 0 false 0 0 0 0#64 0#64 0#64 (BitVec.ofNat 64 (bits v.toNat 0 58)) }

def State.moduleWrite (s : State) (off : Nat) (v : Word) : State :=
  match off with
  | 0x00 => s.writePcap (BitVec.ofNat 64 (bits v.toNat 0 19))
  | 0x08 => s.writeMstat v
  | 0x10 => s.writeShva v
  | 0x18 => s.writeShcnt v
  | 0x20 => (s.shctlClear v).shctlGo v
  | 0x28 => s.setModule { s.module with portsel := v }
  | 0x38 => s.hostRequest v
  | _ => if 0xE00 ≤ off ∧ off < 0xE20 then s.ringWrite physicalFn (off - 0xE00) v else s

/-! ## Error pages and wear counters (R432, R468) -/

def State.errorReg (s : State) (zone off : Nat) : Nat :=
  let z := s.zone zone
  match off with
  | 0x00 => z.sramce.toNat
  | 0x08 => z.parrf.toNat
  | 0x10 => z.meshrt.toNat
  | 0x18 => z.meshrl.toNat
  | _ => 0
def Zone.clearCounter (z : Zone) (off : Nat) : Zone :=
  match off with
  | 0x00 => { z with sramce := 0#32 }
  | 0x08 => { z with parrf := 0#32 }
  | 0x10 => { z with meshrt := 0#32 }
  | 0x18 => { z with meshrl := 0#32 }
  | _ => z
/-- A store of 0 clears a counter (R432). -/
def State.errorWrite (s : State) (zone off : Nat) (v : Word) : State :=
  if v = 0#64 then s.setZone zone ((s.zone zone).clearCounter off) else s
/-- Counters saturate at 2^32 − 1 (R432). -/
def satInc (c : BitVec 32) : BitVec 32 := if c = BitVec.allOnes 32 then c else c + 1#32

/-- Sensors 0–63 are the zones', 64–103 the stacks'. -/
def State.wearReg (s : State) (off : Nat) : Nat :=
  let i := off / 8
  let sensor := if i < 64 then some i else if 0x200 ≤ off ∧ off < 0x200 + 8 * 40 then some (64 + (off - 0x200) / 8) else none
  match sensor with
  | some k => (s.module.sensors.getD k {}).c.toNat
  | none => 0

/-! ## Span configuration (R444) -/

def spcfgOk (v : Word) : Bool :=
  let x := v.toNat
  bits x 54 9 == 0 && bits x 6 26 == 0 && bits x 0 6 ≤ bits x 48 6
def portFieldOk (p : Nat) : Bool := p < 96 || p == 127
def routeOk (v : Word) : Bool :=
  let x := v.toNat
  bits x 28 35 == 0 && portFieldOk (bits x 0 7) && portFieldOk (bits x 7 7) && portFieldOk (bits x 14 7) && portFieldOk (bits x 21 7)
/-- A route entry's reset value: no ports (R444). -/
def routeReset : Word := 0x000000000FFFFFFF#64

def State.partBound (s : State) (p : Nat) : Bool := s.launches.values.any fun l => l.bound && l.part == p
def State.spanReg (s : State) (p off : Nat) : Nat :=
  if off = 0 then (s.part p).spcfg.toNat
  else if 0x100 ≤ off ∧ off < 0x300 then ((s.part p).routes.getD ((off - 0x100) / 8) routeReset).toNat else 0
/-- A write while a launch is bound, or one that breaks the table, is refused. -/
def State.spanWrite (s : State) (p off : Nat) (v : Word) : State :=
  let q := s.part p
  if s.partBound p || !q.live then s
  else if off = 0 then (if spcfgOk v then s.setPart p { q with spcfg := v, nextSpan := 1, spanSettled := [] } else s)
  else if 0x100 ≤ off ∧ off < 0x300 then
    (if routeOk v then s.setPart p { q with routes := q.routes.set ((off - 0x100) / 8) v } else s)
  else s

/-! ## System space (R461) -/

/-- Plain bytes in system space: the atelier cores' local memories and the recovery window. -/
def sysPlain (off : Nat) : Bool := (0x04000000 ≤ off && off < 0x08000000) || (0x10000000 ≤ off && off < 0x14000000)

/-- The 64-bit register at an 8-byte-aligned offset of PA[47:0]. -/
def State.sysReg (s : State) (off : Nat) : Nat :=
  if s.module.fwfail && !answersUnverified off then 0
  else if off < 0x1000 then (if 0xE00 ≤ off ∧ off < 0xE20 then (s.ring physicalFn).readReg (off - 0xE00) else s.moduleReg off)
  else if off < 0x2000 then s.wearReg (off - 0x1000)
  else if 0x100000 ≤ off ∧ off < 0x140000 then s.errorReg ((off - 0x100000) / 0x1000) (off % 0x1000)
  else if 0x200000 ≤ off ∧ off < 0x240000 then s.spanReg ((off - 0x200000) / 0x1000) (off % 0x1000)
  else 0

/-- A read of `n` ≤ 8 naturally aligned bytes of system space. -/
def State.sysRead (s : State) (pa n : Nat) : Nat :=
  let off := pa % 2 ^ 48
  if s.module.fwfail && !answersUnverified off then 0
  else if sysPlain off then s.readPa pa n else bits (s.sysReg (off - off % 8)) (8 * (off % 8)) (8 * n)

/-- A write of `n` ≤ 8 naturally aligned bytes; bytes of a register that the write does not cover count as 0.
DESIGN CHOICE (log 21). -/
def State.sysWrite (s : State) (pa n x : Nat) : State :=
  let off := pa % 2 ^ 48
  if s.module.fwfail && !answersUnverified off then s
  else if sysPlain off then s.writePa pa n x
  else
    let reg := off - off % 8
    let v : Word := BitVec.ofNat 64 ((x % 2 ^ (8 * n)) * 2 ^ (8 * (off % 8)))
    if reg < 0x1000 then s.moduleWrite reg v
    else if 0x100000 ≤ reg ∧ reg < 0x140000 then s.errorWrite ((reg - 0x100000) / 0x1000) (reg % 0x1000) v
    else if 0x200000 ≤ reg ∧ reg < 0x240000 then s.spanWrite ((reg - 0x200000) / 0x1000) (reg % 0x1000) v
    else s

end Sys2Proof.Machine
end

