-- ==== Sys2Proof/Machine/Link.lean ====
section
/-! DEFINITION. Link flits with their CRC, the port that traffic to another module takes, and what leaves this module
(20 R444, R450–R452). -/

namespace Sys2Proof.Machine

/-! ## Link flits (R451) -/

/-- One byte into the reflected CRC-64 register. -/
def crcByte (c : BitVec 64) (b : Byte) : BitVec 64 :=
  (List.range 8).foldl (fun c _ => if c.getLsbD 0 then (c >>> 1) ^^^ 0xC96C5795D7870F42#64 else c >>> 1) (c ^^^ b.setWidth 64)
/-- CRC-64/XZ (R451). -/
def crc64 (bs : List Byte) : BitVec 64 := ~~~(bs.foldl crcByte (BitVec.allOnes 64))

def LinkFlit.header (f : LinkFlit) : Nat := ofBytes (f.bytes.take 8)
def LinkFlit.seq (f : LinkFlit) : BitVec 12 := BitVec.ofNat 12 (bits f.header 52 12)
def LinkFlit.ack (f : LinkFlit) : BitVec 12 := BitVec.ofNat 12 (bits f.header 40 12)
def LinkFlit.nak (f : LinkFlit) : Bool := bitAt f.header 39
def LinkFlit.cls (f : LinkFlit) : Nat := bits f.header 36 3
def LinkFlit.dmod (f : LinkFlit) : Nat := bits f.header 30 6
def LinkFlit.smod (f : LinkFlit) : Nat := bits f.header 24 6
def LinkFlit.span (f : LinkFlit) : Nat := bits f.header 8 16
def LinkFlit.len (f : LinkFlit) : Nat := bits f.header 0 8
/-- 256 bytes whose CRC holds, of a valid class and length. -/
def LinkFlit.good (f : LinkFlit) : Bool :=
  f.bytes.length == 256 && crc64 (f.bytes.take 248) == BitVec.ofNat 64 (ofBytes (f.bytes.drop 248)) && f.cls != 7 && f.len ≤ 240

/-! ## The route to a module (R444) -/

/-- The ports of a route entry, in their order. -/
def routePorts (v : Word) : List Nat := [bits v.toNat 0 7, bits v.toNat 7 7, bits v.toNat 14 7, bits v.toNat 21 7]
/-- The number of a partition's span. -/
def State.spanNo (s : State) (p : Nat) : Nat := bits (s.part p).spcfg.toNat 32 16
def State.route (s : State) (p m : Nat) : List Nat := routePorts ((s.part p).routes.getD m routeReset)
/-- The port that traffic to a module uses: the first that is up (R444). -/
def State.routePort (s : State) (p m : Nat) : Option Nat := (s.route p m).find? fun k => k < 96 && (s.port k).up

/-! ## What leaves (R451, R452) -/

/-- A flit that port `p` sends next: its header, `len` payload bytes, the CRC. -/
def Port.frame (p : Port) (cls dmod smod span : Nat) (payload : List Byte) : LinkFlit :=
  let used := payload.take 240
  let h := p.seq.toNat * 2 ^ 52 + (p.expect - 1#12).toNat * 2 ^ 40 + (if p.nakOwed then 2 ^ 39 else 0) + cls * 2 ^ 36
    + dmod * 2 ^ 30 + smod * 2 ^ 24 + span * 2 ^ 8 + used.length
  let body := toBytes 8 h ++ used ++ List.replicate (240 - used.length) 0#8
  { bytes := body ++ toBytes 8 (crc64 body).toNat }
/-- An idle flit: no payload, addressed to no module. -/
def idleOf (p : Port) : LinkFlit := p.frame 6 0 0 0 []
/-- A port sends a flit, and keeps it until it is acknowledged. -/
def State.sendFlit (s : State) (k : Nat) (f : LinkFlit) : State :=
  let p := s.port k
  { s.setPort k { p with seq := p.seq + 1#12, replay := p.replay ++ [f], lastSent := s.time } with
    outputs := s.outputs ++ [Output.flit k f] }
/-- Traffic to module `m` of a span in a port's replay buffer. -/
def Port.holds (p : Port) (span m : Nat) : Bool := p.replay.any fun f => f.dmod == m && f.span == span && f.cls != 6
/-- A failed port of the route has traffic to the module in doubt (R455). -/
def State.inDoubt (s : State) (p m : Nat) : Bool :=
  (s.route p m).any fun k => k < 96 && (s.port k).failedAt.isSome && (s.port k).holds (s.spanNo p) m
/-- The port that can take an item of `n` flits to a module now: its route's, with room among the 1,024 that may be unacknowledged, and
nothing in doubt that new traffic could overtake (R452, R455). -/
def State.openPort (s : State) (p m n : Nat) : Option Nat :=
  if s.inDoubt p m then none else (s.routePort p m).filter fun k => (s.port k).replay.length + n ≤ 1024
/-- The flits that carry `n` bytes (R451). -/
def flitsOf (n : Nat) : Nat := max 1 ((n + 239) / 240)
/-- An item leaves on port `k` in flits of its class; one that a flit does not hold goes on in the next (R451). -/
def State.sendNow (s : State) (x : Outgoing) (b : List Byte) (k : Nat) : State :=
  let s := (List.range (flitsOf b.length)).foldl
    (fun s i => s.sendFlit k ((s.port k).frame x.cls x.module (bits (s.part x.part).spcfg.toNat 0 6) (s.spanNo x.part) ((b.drop (240 * i)).take 240))) s
  let p := s.port k
  s.setPort k { p with sent := p.sent ++ [(p.seq - 1#12, { x with bytes := some b })] }
/-- Traffic to another module goes on the first port of its route that is up (R444), behind what waits for the same module. Where the
spec lays out no payload, its bytes are a free value. -/
def State.transmit (s : State) (x : Outgoing) : State :=
  let b := x.bytes.getD ((Config.payload s.free).take (240 * 1024))
  if s.outbox.any fun y => y.part == x.part && y.module == x.module then { s with outbox := s.outbox ++ [x] }
  else match s.openPort x.part x.module (flitsOf b.length) with
    | some k => { s with free := s.free + 1 }.sendNow x b k
    | none => { s with outbox := s.outbox ++ [x] }
/-- A control message leaves for a member (R451), behind a tag of its own (R456). -/
def State.control5 (s : State) (p m : Nat) (what : List Nat) : Outgoing := { part := p, module := m, cls := 5, what := s.nextTag :: what }
def State.sendControl (s : State) (p m : Nat) (what : List Nat) : State := { s with nextTag := s.nextTag + 1 }.transmit (s.control5 p m what)
/-- What a span's control message says: a launch, its number, a bound share, that all have bound, a share's completion with its
status, a rejection, a switch's stamp, the last flit that a failed port delivered, and strands of a launch that are gone or at home. -/
abbrev ctlLaunch : Nat := 0
abbrev ctlNumber : Nat := 1
abbrev ctlBound : Nat := 2
abbrev ctlAllBound : Nat := 3
abbrev ctlDone : Nat := 4
abbrev ctlReject : Nat := 5
abbrev ctlStamp : Nat := 6
abbrev ctlDelivered : Nat := 7
abbrev ctlGone : Nat := 8
/-- What waits leaves, in order, as far as ports can take it. -/
def State.flush (s : State) : State :=
  s.outbox.foldl (fun s x => s.transmit x) { s with outbox := [] }

/-! ## What another module has sent before (R456) -/

/-- A tag of module `m` of a span. -/
def tagKey (span m : Nat) (tag : Word) : Nat := (span * 64 + m) * 2 ^ 64 + tag.toNat
/-- The log of one source module is full. -/
def State.logFull (s : State) (span m : Nat) : Bool :=
  4096 ≤ (s.tagLog.keys.filter fun k => k / 2 ^ 64 == span * 64 + m).length
/-- The tag, in `input.index`, of a control message that module `input.module` has sent to partition `p`. -/
def State.controlTag (s : State) (p : Nat) : Nat := tagKey (s.spanNo p) s.input.module (BitVec.ofNat 64 s.input.index)
/-- The answer to a control message: its tag. -/
def State.answerControl (s : State) (p : Nat) : State :=
  s.transmit { part := p, module := s.input.module, cls := 1, what := [s.input.index, 0] }
/-- A control message's effect `f` on partition `p`: once, with its tag in the log and its answer on its way. One whose tag is in the log
is answered from it, and one that finds the log full waits (R456). -/
def State.controlled (s : State) (p : Nat) (f : State → State) : State :=
  if (s.tagLog.find? (s.controlTag p)).isSome then s.answerControl p
  else if s.logFull (s.spanNo p) s.input.module then s
  else (f { s with tagLog := s.tagLog.set (s.controlTag p) 0 }).answerControl p

end Sys2Proof.Machine
end

