-- ==== Sys2Proof/Machine/Translate.lean ====
section
/-! DEFINITION. From a virtual address to the byte it names: apertures, stack window, protection, page walk, home
(10_memory_levels R241–R263, 17 R391, 20 R449). -/

namespace Sys2Proof.Machine

/-- The kinds of access of R397. -/
inductive Acc where
  | load
  | store
  | fetch
  | amo
  | engineRead
  | engineWrite
  | walk
  deriving DecidableEq, Repr

def Acc.code : Acc → Nat
  | .load => 0
  | .store => 1
  | .fetch => 2
  | .amo => 3
  | .engineRead => 4
  | .engineWrite => 5
  | .walk => 6
def Acc.writes : Acc → Bool
  | .store => true
  | .amo => true
  | .engineWrite => true
  | _ => false

/-- TINFO of a reason cause (R397). -/
def reasonInfo (reason : Nat) (acc : Acc) : Word := BitVec.ofNat 64 (reason * 2 ^ 56 + acc.code * 2 ^ 48)
def protAt (reason : Nat) (acc : Acc) (va : Word) : TrapInfo := { cause := causeProt, addr := va, info := reasonInfo reason acc }

/-- The agent on whose behalf an access is made: its strand, core, tenant and partition, and the engine operation that makes it, by
channel and number. -/
structure Who where
  strand : Nat
  core : Nat
  tenant : Nat
  part : Nat
  op : Option (Nat × BitVec 32) := none
  deriving DecidableEq, Repr

def State.who (s : State) : Who := { strand := s.cur.strand, core := s.selfCore, tenant := s.selfTenant, part := s.selfPart }

/-! ## Protection (R256–R258) -/

def regionOf (x : Nat) : Region :=
  { base := bits x 23 41 * 2 ^ 16, lsz := bits x 17 6, homes := BitVec.ofNat 64 (x / 2 ^ 64)
    r := bitAt x 0, w := bitAt x 1, x := bitAt x 2, a := bitAt x 3 }
def Region.size (r : Region) : Nat := 2 ^ r.lsz
def Region.covers (r : Region) (va : Nat) : Bool := r.base ≤ va && va < r.base + r.size
def Region.allows (r : Region) : Acc → Bool
  | .load => r.r
  | .store => r.w
  | .fetch => r.x
  | .amo => r.r && r.w && r.a
  | .engineRead => r.r
  | .engineWrite => r.w
  | .walk => r.r

/-- The zones that a tenant's partitions hold. -/
def State.tenantZones (s : State) (t : Nat) : BitVec 64 :=
  s.parts.values.foldl (fun m p => if p.live && p.tenant == t then m ||| p.zones else m) 0#64

/-- The fields of an entry alone (R257). -/
def regionOk (zones : BitVec 64) (x : Nat) : Bool :=
  let r := regionOf x
  16 ≤ r.lsz && r.lsz ≤ 40 && r.base % r.size == 0 && bits x 4 13 == 0 && r.homes != 0#64 && r.homes &&& ~~~zones == 0#64

/-- What a search of the protection table ends with. -/
inductive Lookup where
  | found (r : Region)
  | missing
  /-- a malformed entry; when its frame is still marked, which reads as zeros, an address in that frame (R465) -/
  | badtab (fresh : Option Nat)
  deriving DecidableEq, Repr

/-- The frame of an address, if it is still to be zeroed (R465). -/
def State.freshFrame (s : State) (pa : Nat) : Option Nat := if s.marked (pa / 4096) then some pa else none
/-- The binary search of R258 over entries [lo, hi): at most `fuel` reads, each entry judged with the bounds of those
already read on the path. -/
def State.searchTable (s : State) (base : Nat) (zones : BitVec 64) (va : Nat) : Nat → Nat → Nat → Nat → Nat → Lookup
  | 0, _, _, _, _ => .missing
  | fuel + 1, lo, hi, floor, ceil =>
    if hi ≤ lo then .missing
    else
      let mid := (lo + hi) / 2
      let x := s.readPa (base + 16 * mid) 16
      let r := regionOf x
      if !regionOk zones x || r.base < floor || r.base + r.size > ceil then .badtab (s.freshFrame (base + 16 * mid))
      else if va < r.base then s.searchTable base zones va fuel lo mid floor r.base
      else if r.base + r.size ≤ va then s.searchTable base zones va fuel (mid + 1) hi (r.base + r.size) ceil
      else .found r

/-- The walk of a tenant's table (R256, R258). -/
def State.lookupRegion (s : State) (tenant va : Nat) : Lookup :=
  let w := (s.tenant tenant).ptroot.toNat
  s.searchTable (bits w 4 48 * 16) (s.tenantZones tenant) va 13 0 (w / 2 ^ 52) 0 (2 ^ 57)

/-- The PLB holds 64 entries; a new one replaces the oldest. DESIGN CHOICE (log 20). -/
def Core.fillPlb (c : Core) (tenant : Nat) (r : Region) : Core :=
  let old := if c.plbTenant = tenant then c.plb else []
  { c with plbTenant := tenant, plb := (r :: old).take 64 }

/-- The PLB check (R258): a hit that allows passes; otherwise the table is walked, and only what the walk denies traps. It
answers the region that the access lies in. -/
def State.protect (s : State) (w : Who) (acc : Acc) (va : Word) : Except TrapInfo (Region × State) :=
  let c := s.core w.core
  let hit := if c.plbTenant = w.tenant then c.plb.find? fun r => r.covers va.toNat && r.allows acc else none
  match hit with
  | some r => .ok (r, s)
  | none =>
    match s.lookupRegion w.tenant va.toNat with
    | .found r =>
      let c := { c with plb := c.plb.filter fun q => !q.covers va.toNat }
      if r.allows acc then .ok (r, s.setCore w.core (c.fillPlb w.tenant r)) else .error (protAt 0 acc va)
    | .missing => .error (protAt 0 acc va)
    | .badtab m => .error { protAt 1 acc va with fresh := m }

/-! ## The page walk (R255, R259, R260) -/

/-- A frame that R255 forbids: space 1, a reserved space, or HBM outside stacks 0–39. -/
def badFrame (pa : Nat) : Bool :=
  match paSpace pa with
  | 0 => !paIsHbm pa
  | 3 => false
  | 4 => false
  | _ => true

/-- A leaf that a walk found. -/
structure Leaf where
  pa : Nat
  size : Nat
  entryPa : Nat
  pin : Bool
  own : Bool
  deriving DecidableEq, Repr

inductive WalkResult where
  | leaf (l : Leaf)
  /-- PAGE_NOT_PRESENT with a reason of R397; where the entry's frame is still marked, an address in it (R465) -/
  | notPresent (reason : Nat) (fresh : Option Nat)
  deriving DecidableEq, Repr

/-- The walk from level `6 − fuel` down, each entry judged as it is read: R260 ranks its conditions and does not say whether
an entry further down comes before one that has been read. DESIGN CHOICE (log 97). -/
def State.walkFrom (s : State) (va : Nat) : Nat → Nat → WalkResult
  | 0, _ => .notPresent 0 none
  | fuel + 1, table =>
    let level := 5 - fuel
    let shift := 12 + 9 * fuel
    let entryPa := table + 8 * bits va shift 9
    let e := s.readPa entryPa 8
    let isLeaf := level == 5 || bitAt e 7
    let frame := bits e 12 40 * 4096
    let size := 2 ^ shift
    if !bitAt e 0 then .notPresent 0 (s.freshFrame entryPa)
    else if bits e 52 10 ≠ 0 ∨ bits e 8 4 ≠ 0 ∨ bits e 1 4 ≠ 0 ∨ (isLeaf && level < 3) ∨ (isLeaf && frame % size != 0) then
      .notPresent 3 none
    else if badFrame frame then .notPresent 4 none
    else if isLeaf then .leaf ⟨frame, size, entryPa, bitAt e 62, bitAt e 63⟩
    else s.walkFrom va fuel frame

def State.walk (s : State) (va : Word) : WalkResult := s.walkFrom va.toNat 5 (bits s.module.pgroot.toNat 12 40 * 4096)

/-- The issuing strand's task, as conflicts name it. -/
def State.selfTag (s : State) : Option (Nat × Nat) := s.cur.before.task.map fun o => (s.selfZone, o)
/-- An access from outside any task, or by a task unbuffered, touches a line: speculative tasks that have read or written it are
rolled back (R182). -/
def State.touchLine (s : State) (self : Option (Nat × Nat)) (line : Nat) : State :=
  s.zones.keys.foldl
    (fun s z =>
      let hit := (s.zone z).tasks.filter fun t =>
        !t.irrevocable && self != some (z, t.order) && (t.writes.contains line || t.reads.contains line)
      hit.foldl (fun s t => s.rollback z t.order) s) s
/-- A write becomes visible: speculative tasks that have accessed its line are rolled back, but for the writer's own. -/
def State.writeShared (s : State) (self : Option (Nat × Nat)) (pa n x : Nat) : State :=
  (s.touchLine self (pa / 64)).writePa pa n x
/-- ACC, and DIRTY where asked, are set in the leaf by an access of task `self` (R259): a write as any other is (R290). -/
def State.markLeaf (s : State) (self : Option (Nat × Nat)) (l : Leaf) (dirty : Bool) : State :=
  let e := s.readPa l.entryPa 1
  let want := e ||| 2 ^ 5 ||| (if dirty then 2 ^ 6 else 0)
  if e = want then s else s.writeShared self l.entryPa 1 want

/-- Does the walk for this access set DIRTY? A store to a cached line sets it when it takes place (`markDirty`). -/
def Leaf.dirties (l : Leaf) (acc : Acc) : Bool := acc == .engineWrite || (acc == .store && paIsSystem l.pa)
/-- Translation of an address already checked (R260): the physical address, or the deferred fault. An AMO's frame in system
space comes first (R296, steps 4 and 5). -/
def State.translate (s : State) (acc : Acc) (va : Word) : Except TrapInfo (Nat × State) :=
  match s.walk va with
  | .notPresent r m => .error { cause := causePageNotPresent, addr := va, info := reasonInfo r acc, fresh := m }
  | .leaf l =>
    if acc == .amo && paIsSystem l.pa then .error (protAt 2 acc va)
    else if !l.own then .error { cause := causeOwnerHost, addr := va, info := reasonInfo 0 acc }
    else .ok (l.pa + va.toNat % l.size, s.markLeaf s.selfTag l (l.dirties acc))
/-- DIRTY is set in the leaf of a virtual line before a store to it by task `self` becomes visible (R259). -/
def State.markDirty (s : State) (self : Option (Nat × Nat)) (line : Nat) : State :=
  match s.walk (BitVec.ofNat 64 (64 * line)) with
  | .leaf l => s.markLeaf self l true
  | .notPresent _ _ => s
/-- Where an address lies (R260): a line that a cache holds needs no translation; only a miss walks. -/
def State.locate (s : State) (acc : Acc) (va : Word) : Except TrapInfo (Nat × State) :=
  match s.l2.find? (va.toNat / 64) with
  | some x => .ok (64 * x.frame + va.toNat % 64, if acc == .engineWrite then s.markDirty s.selfTag (va.toNat / 64) else s)
  | none => s.translate acc va

/-! ## Homes (R251, R252) -/

/-- The logical tiles of a zone mask in the order of R251, each as zone × 132 + row × 11 + column. -/
def homeZones (homes : BitVec 64) : List Nat := (List.range 64).filter fun z => homes.getLsbD z

def State.tileNumberPresent (s : State) (t : Nat) : Bool := (s.site? (t / 132) (t / 11 % 12) (t % 11)).isSome

/-- The present tile at or next after place `k` of the zones' tiles, in the order of R251, wrapping. -/
def State.presentFrom (s : State) (zs : List Nat) (k : Nat) : Nat :=
  let n := 132 * zs.length
  let tileAt (i : Nat) : Nat := (zs.getD (i % n / 132) 0) * 132 + i % n % 132
  let cands := (List.range n).map fun i => tileAt (k + i)
  (cands.find? fun t => s.tileNumberPresent t).getD (tileAt k)
/-- The hashed home of a line (R251), as a logical tile zone × 132 + row × 11 + column. -/
def State.hashedHome (s : State) (homes : BitVec 64) (va : Nat) : Nat :=
  let q := va / 4096
  let h := (bits q 0 15) ^^^ (bits q 15 15) ^^^ (bits q 30 15)
  let zs := homeZones homes
  if zs.isEmpty then 0 else s.presentFrom zs (h % (132 * zs.length))
/-- The home: the placed one where PGMIG has placed the granule (R252). An absent tile has no lines (R442): the next present one
in R251's order has those of a page that is placed on it. DESIGN CHOICE (log 131). -/
def State.homeOf (s : State) (homes : BitVec 64) (va : Nat) : Nat :=
  match s.placed.find? (va / 4096) with
  | some t =>
    let zs := homeZones (homes ||| BitVec.ofNat 64 (2 ^ (t / 132)))
    s.presentFrom zs (132 * zs.idxOf (t / 132) + t % 132)
  | none => s.hashedHome homes va
/-- Where a cached line is homed as the machine now stands, in its filler's region. -/
def State.newHome (s : State) (line : Nat) (x : L2Line) : Nat :=
  match s.lookupRegion x.filler (64 * line) with
  | .found r => s.homeOf r.homes (64 * line)
  | _ => s.homeOf (s.tenantZones x.filler) (64 * line)
/-- The cached lines that `p` names pass to the home that they now have, with their directory state (R251, R263). -/
def State.rehome (s : State) (p : Nat → L2Line → Bool) : State :=
  { s with l2 := s.l2.mapValues fun k x => if p k x then { x with home := s.newHome k x } else x }

/-- The quarantined site of a home: requests for its lines wait until a MAPSET (R438). -/
def State.homeHeld (s : State) (home : Nat) : Option Nat :=
  (s.site? (home / 132) (home / 11 % 12) (home % 11)).bind fun site => if s.siteWaits site then some site else none

/-! ## From an address to a place -/

/-- What an address names for one agent. -/
inductive Place where
  /-- bytes at a physical address; a cacheable line also has its home, a logical tile, and its virtual line number -/
  | phys (pa : Nat) (cached : Option (Nat × Nat))
  /-- a byte of another module (R449) -/
  | remote (module : Nat) (va : Word)
  /-- a tile that is quarantined: the access waits for its remapping (R438) -/
  | held (site : Nat)
  /-- a page whose flip to the device is under way: the access waits at its home (R262) -/
  | busy
  deriving DecidableEq, Repr

abbrev Resolved := Except TrapInfo (Place × State)

def windowOf (va : Word) : Nat := va.toNat / 2 ^ 48 % 512
/-- An address in a remote window (R449). -/
def inWindow (va : Word) : Bool := va.toNat < 2 ^ 57 && 0x100 ≤ windowOf va && windowOf va < 0x180

/-- USZ of a tile: the user scratch that the aperture reaches (R244). Bytes that carve-outs covered read, once their launch has completed,
as they did before it was bound. DESIGN CHOICE (log 108). -/
def State.userScratch (s : State) (site : Nat) : Nat :=
  let carve := s.launches.values.foldl
    (fun n l =>
      let spc := bits l.record.toNat 561 3 + 1
      let here := l.coreSet.any fun i => (s.physCore? (l.cids.getD i 0)).map coreSite == some site
      if l.bound && !l.saved && here then n + 2 * spc * bits l.record.toNat 512 32 else n) 0
  3 * 2 ^ 20 - (s.tile site).s2 - carve

/-- The site and offset of a scratch-aperture address that an agent of partition `p` may reach (R243). -/
def State.scratchTarget (s : State) (zoneOk : Nat → Bool) (a : Nat) : Option (Nat × Nat) :=
  let zone := bits a 42 6
  let off := bits a 0 22
  match s.site? zone (bits a 38 4) (bits a 34 4) with
  | none => none
  | some site =>
    if !zoneOk zone || bits a 22 12 ≠ 0 || off ≥ 0x300000 || off ≥ s.userScratch site then none else some (site, off)

def State.resolveScratch (s : State) (p : Nat) (acc : Acc) (va : Word) : Resolved :=
  match s.scratchTarget (fun z => (s.part p).hasZone z) va.toNat with
  | none => .error (protAt 0 acc va)
  | some (site, off) => if s.siteWaits site then .ok (.held site, s) else .ok (.phys (sramPa site off) none, s)

/-- This module's index in a partition's span; a partition of none is a span of one, with MOD 0 (R443). -/
def State.ownModule (s : State) (p : Nat) : Nat := let c := (s.part p).spcfg.toNat; if bitAt c 63 then bits c 0 6 else 0
/-- The span member that a window names, if it can be reached (R449). -/
def State.reachable (s : State) (p m : Nat) : Bool :=
  let q := s.part p
  let cfg := q.spcfg.toNat
  m == s.ownModule p || (bitAt cfg 63 && m ≤ bits cfg 48 6 && bitAt (q.routes.getD m 0#64).toNat 63)

/-- A shootdown that covers the page ends a flip or migration of it: it is still under way (R262, R309). -/
def State.pageBusy (s : State) (va : Word) : Bool :=
  let m := s.module
  let page := va.toNat / 4096
  m.shBusy && m.shva / 4096 ≤ page && page < m.shva / 4096 + m.shcnt
/-- Where an address whose region has HOMES `homes` lies, once its rights are judged: the walk, then the home. -/
def State.settle (s : State) (acc : Acc) (va : Word) (homes : BitVec 64) (report : Word) : Resolved :=
  if s.pageBusy va then .ok (.busy, s)
  else
    match s.locate acc va with
    | .error t => .error { t with addr := report }
    | .ok (pa, s) =>
      if paIsSystem pa then .ok (.phys pa none, s)
      else
        let home := s.homeOf homes va.toNat
        match s.homeHeld home with
        | some site => .ok (.held site, s)
        | none => .ok (.phys pa (some (home, va.toNat / 64)), s)
/-- An ordinary address, or a window's inner address on this module: protection, then the walk. The home is that of the region
which the PLB holds (R251, R258). -/
def State.resolveVirtual (s : State) (w : Who) (acc : Acc) (va : Word) (report : Word) : Resolved :=
  match s.protect w acc va with
  | .error t => .error { t with addr := report }
  | .ok (r, s) => s.settle acc va r.homes report

def State.resolveWindow (s : State) (w : Who) (acc : Acc) (va : Word) : Resolved :=
  let k := windowOf va
  let m := k % 64
  let inner : Word := va &&& 0x0000FFFFFFFFFFFF#64
  if acc == .fetch || !s.reachable w.part m then .error (protAt 0 acc va)
  else if m ≠ s.ownModule w.part then .ok (.remote m va, s)
  else if k < 0x140 then s.resolveVirtual w acc inner va
  else match s.resolveScratch w.part acc (0x01FF000000000000#64 ||| inner) with
    | .error t => .error { t with addr := va }
    | r => r

/-- Everything below the stack window (R241, R242, R449). -/
def State.resolveOrdinary (s : State) (w : Who) (acc : Acc) (va : Word) : Resolved :=
  if va.toNat ≥ 2 ^ 57 then .error (protAt 0 acc va)
  else
    let k := windowOf va
    if k = 0x1FF then (if acc == .fetch then .error (protAt 0 acc va) else s.resolveScratch w.part acc va)
    else if 0x100 ≤ k ∧ k < 0x180 then s.resolveWindow w acc va
    else s.resolveVirtual w acc va va

abbrev swin : Word := 0x01FE000000000000#64

def inStack (va : Word) : Bool := windowOf va == 0x1FE && va.toNat < 2 ^ 57
/-- The ordinary address of a byte beyond a strand's carve-out (R247). -/
def Strand.overflowVa (x : Strand) (va : Word) : Word := x.ovfp + BitVec.ofNat 64 ((va - swin).toNat - x.carveSize)
/-- The stack window of the issuing strand (R247). -/
def State.resolveStack (s : State) (w : Who) (acc : Acc) (va : Word) : Resolved :=
  let x := s.strand w.strand
  let o := (va - swin).toNat
  if acc == .fetch then .error (protAt 0 acc va)
  else if o < x.carveSize then .ok (.phys (sramPa (coreSite w.core) (x.carveBase + o)) none, s)
  else if x.ovfp = 0#64 then .error (protAt 0 acc va)
  else
    let t := x.overflowVa va
    let k := windowOf t
    if t.toNat ≥ 2 ^ 57 ∨ k = 0x1FE ∨ k = 0x1FF ∨ (0x140 ≤ k ∧ k < 0x180) then .error (protAt 0 acc t)
    else s.resolveOrdinary w acc t

/-- The address that a fault of the access reports: in the overflow area the ordinary one (R247). -/
def State.reported (s : State) (w : Who) (va : Word) : Word :=
  let x := s.strand w.strand
  if !coreIsAtelier w.core && inStack va && x.carveSize ≤ (va - swin).toNat && x.ovfp != 0#64 then x.overflowVa va else va

/-- The virtual lines under which caches hold a physical line, PA / 64 (R260). -/
def State.linesOf (s : State) (frame : Nat) : List Nat := (s.l2.entries.filter fun e => e.2.frame == frame).map (·.1)
/-- A home and virtual line under which a cache holds a physical line. -/
def State.cachedAt (s : State) (pa : Nat) : Option (Nat × Nat) :=
  (s.l2.entries.find? fun e => e.2.frame == pa / 64).map fun e => (e.2.home, e.1)
/-- The quarantined site at which one of some cached lines is held (R438). -/
def State.heldLine (s : State) (lines : List Nat) : Option Nat :=
  lines.findSome? fun k => (s.l2.find? k).bind fun x => s.homeHeld x.home

/-- Do requests wait for any site? -/
def State.anySiteWaits (s : State) : Bool :=
  (s.zones.values.any fun z => !z.quarantined.isEmpty) || s.tiles.values.any (·.sramFailed)
/-- The virtual addresses that the tables below `table` map, from level `6 − fuel` on: one for each entry that memory lists. -/
def State.mappedFrom (s : State) : Nat → Nat → Nat → List Nat
  | 0, _, _ => []
  | fuel + 1, table, va =>
    let idx := ((s.mem.filter fun c => table ≤ c.1 && c.1 < table + 4096).map fun c => (c.1 - table) / 8).dedup
    idx.flatMap fun i =>
      let e := s.readPa (table + 8 * i) 8
      let v := va + i * 2 ^ (12 + 9 * fuel)
      if !bitAt e 0 then []
      else if fuel = 0 || bitAt e 7 then [v] else s.mappedFrom fuel (bits e 12 40 * 4096) v
/-- The virtual lines through which pages of the device map a physical address (R481). -/
def State.mappedLines (s : State) (pa : Nat) : List Nat :=
  (s.mappedFrom 5 (bits s.module.pgroot.toNat 12 40 * 4096) 0).filterMap fun v =>
    match s.walk (BitVec.ofNat 64 v) with
    | .leaf l => if l.own && l.pa ≤ pa && pa < l.pa + l.size then some ((v + (pa - l.pa)) / 64) else none
    | .notPresent _ _ => none
/-- A home of a virtual line in some tenant's regions. -/
def State.lineHome (s : State) (line : Nat) : Option Nat :=
  s.tenants.keys.findSome? fun t => match s.lookupRegion t (64 * line) with
    | .found r => some (s.homeOf r.homes (64 * line))
    | _ => none
/-- A line that is mapped to a physical address and whose home waits for a MAPSET: an atelier's access takes its place there, as the
tenant's would (R438, R481). -/
def State.mappedHeld (s : State) (pa : Nat) : Option Nat :=
  if s.anySiteWaits then (s.mappedLines pa).findSome? fun k => (s.lineHome k).bind s.homeHeld else none
/-- An address of an atelier strand is physical (R391). A line that a cache holds is served by its home (R249, R283). -/
def State.resolvePhysical (s : State) (acc : Acc) (va : Word) : Resolved :=
  let pa := va.toNat
  if pa ≥ 2 ^ 52 then .error (protAt 0 acc va)
  else if paIsScratch pa then
    match s.scratchTarget (fun _ => true) pa with
    | none => .error (protAt 0 acc va)
    | some (site, off) => if s.siteWaits site then .ok (.held site, s) else .ok (.phys (sramPa site off) none, s)
  else if badFrame pa then .error (protAt 0 acc va)
  else
    match (s.heldLine (s.linesOf (pa / 64))).orElse fun _ => s.mappedHeld pa with
    | some site => .ok (.held site, s)
    | none => .ok (.phys pa (s.cachedAt pa), s)

/-- An address that an agent forms (R39, R241). -/
def State.resolve (s : State) (w : Who) (acc : Acc) (va : Word) : Resolved :=
  if coreIsAtelier w.core then s.resolvePhysical acc va
  else if inStack va then s.resolveStack w acc va
  else s.resolveOrdinary w acc va

/-- Must an access to host space ask ATS? A cached line is served by its cache (R260, R458). -/
def State.asksHost (s : State) (pa : Nat) (cached : Option (Nat × Nat)) : Bool :=
  paIsHost pa && !(cached.any fun c => (s.l2.find? c.2).isSome)

/-- System space as a user strand sees it: nothing below 0x1400_0000 (R461). -/
def systemDenied (w : Who) (pa : Nat) : Bool := paIsSystem pa && !coreIsAtelier w.core && pa % 2 ^ 48 < 0x14000000

/-! ## Page requests (R458) -/

/-- The function that an agent's accesses to host memory carry: its tenant's VF; an atelier core has none, and 64 is the PF. -/
def Who.fn (w : Who) : Nat := if coreIsAtelier w.core then 64 else w.tenant
/-- Who asks for the page of an access. -/
def Who.asker (w : Who) : Asker :=
  match w.op with
  | some (ch, id) => .op w.core ch id
  | none => .strand w.strand
/-- A function's page, as `hostAbsent` names it. -/
def hostKey (fn pa : Nat) : Nat := fn * 2 ^ 40 + pa / 4096
/-- The request for the page of an access. -/
def pageRequest (fn : Nat) (b : Asker) (acc : Acc) (va : Word) (pa : Nat) : PageRequest :=
  { fn := fn, page := pa / 4096, asker := b, va := va, acc := acc.code }
/-- Requests of work that is gone hold nothing any longer, and their refusals meet nothing. -/
def State.forgetRequests (s : State) (gone : Asker → Bool) : State :=
  { s with pri := s.pri.filter fun r => !gone r.asker, hostRefused := s.hostRefused.filter fun r => !gone r.asker }
/-- Does an asker work on one of these cores? -/
def Asker.onCore (b : Asker) (p : Nat → Bool) : Bool :=
  match b with
  | .strand k => p (strandCore k)
  | .op c _ _ => p c
  | _ => false
/-- A page request goes to the host. -/
def State.sendRequest (s : State) (r : PageRequest) : State :=
  { s with pri := s.pri ++ [r], outputs := s.outputs ++ [.pageRequest (s.fnPort r.fn) r.fn r.page] }
/-- The request of a held access, raised once. -/
def State.askPage (s : State) (r : PageRequest) : State := if s.pri.contains r then s else s.sendRequest r
/-- What an attempt that came to `t` and is abandoned leaves behind: the page requests that it raised. -/
def State.raised (s t : State) : State := (t.pri.filter fun r => !s.pri.contains r).foldl State.sendRequest s
/-- The fault of a page that the host has refused. -/
def refusedPage (acc : Acc) (va : Word) : TrapInfo := { cause := causePageNotPresent, addr := va, info := reasonInfo 4 acc }
/-- What the host says of an access that is held and tried again: an engine's, a dispatcher's, or one of a strand's walk. -/
inductive HostGate where
  | pass
  | refused (t : TrapInfo)
  /-- it has been asked, and has not answered yet -/
  | wait (s : State)
def State.hostGate (s : State) (fn : Nat) (b : Asker) (acc : Acc) (va : Word) (pa : Nat) (cached : Option (Nat × Nat)) : HostGate :=
  let r := pageRequest fn b acc va pa
  if !s.asksHost pa cached then .pass
  else if s.hostRefused.contains r then .refused { refusedPage acc va with refusal := some r }
  else if s.hostAbsent.contains (hostKey fn pa) then .wait (s.askPage r)
  else .pass

end Sys2Proof.Machine
end

