-- ==== Sys2Proof/Machine/Record.lean ====
section
/-! DEFINITION. The launch record (04 R90–R92), core numbers and group memberships (R45, R46, R153, R158, R445), and the
core that a CID operand names. -/

namespace Sys2Proof.Machine

/-! ## The launch record's fields (R90) -/

def recField (r : BitVec 1024) (lo n : Nat) : Nat := bits r.toNat lo n
def recEntry (r : BitVec 1024) : Word := r.extractLsb' 0 64
def recArg (r : BitVec 1024) : Word := r.extractLsb' 64 64
def recCount (r : BitVec 1024) : Word := r.extractLsb' 128 64
def recGtab (r : BitVec 1024) : Word := r.extractLsb' 192 64
def recDep (r : BitVec 1024) (i : Nat) : Word := r.extractLsb' (256 + 64 * i) 64
def recSpill (r : BitVec 1024) : Nat := recField r 512 32
def recL2sh (r : BitVec 1024) : Nat := recField r 548 4
def recCgrp (r : BitVec 1024) : Nat := recField r 552 8
def recCset (r : BitVec 1024) : Bool := recField r 560 1 == 1
/-- SPC: strands per core, 1–8. -/
def recSpc (r : BitVec 1024) : Nat := recField r 561 3 + 1
def recEclass (r : BitVec 1024) : Nat := recField r 565 3
def recPrio (r : BitVec 1024) : BitVec 3 := r.extractLsb' 568 3
def recPre (r : BitVec 1024) : Bool := recField r 571 1 == 1
def recDone (r : BitVec 1024) : Nat := recField r 572 4
def recGcnt (r : BitVec 1024) : Nat := recField r 576 9

/-! ## Core numbers (R45, R153, R445) -/

/-- CID.CORE of a core in a launch's numbering. -/
def State.cidIndex? (s : State) (l : Launch) (core : Nat) : Option Nat :=
  match s.logCore? core with
  | some x => let i := l.cids.idxOf x; if i < l.cids.length then some i else none
  | none => none
/-- The CID word of a core: MOD above CORE. -/
def State.cidWord (s : State) (l : Launch) (core : Nat) : Nat :=
  s.ownModule l.part * 2 ^ 16 + (s.cidIndex? l core).getD 0

/-- The member modules of a partition's span, but its own. -/
def State.otherMembers (s : State) (p : Nat) : NatSet :=
  let cfg := (s.part p).spcfg.toNat
  if bitAt cfg 63 then (List.range (bits cfg 48 6 + 1)).filter (· != bits cfg 0 6) else []

/-- What a CID operand names. -/
inductive Target where
  | here (core : Nat)
  /-- a core of another member module of the span -/
  | away (module : Nat)
  | absent
  deriving DecidableEq, Repr

/-- The core that g[A][21:0] names for a strand of a launch (R178, R223, R232, R445): how many cores another member has present is
known from its share of the launch; a launch bound here alone learns it from that member's answer. -/
def State.target (s : State) (l : Launch) (w : Nat) : Target :=
  let m := bits w 16 6
  if m = s.ownModule l.part then
    match l.cids[bits w 0 16]? with
    | some x => match s.physCore? x with
      | some c => .here c
      | none => .absent
    | none => .absent
  else if s.reachable l.part m && bits w 0 16 < l.spanCores.getD m (2 ^ 16) then .away m else .absent

/-- NCORE: the present cores of the launch's core set (R153), over every module of a span (R445). -/
def Launch.ncore (l : Launch) : Nat := l.coreSet.length + l.remote

/-! ## Memberships (R46, R158) -/

/-- The groups of a launch that hold a CID, the core-set group first. -/
def Launch.memberships (l : Launch) (cid : Nat) : List Group :=
  let mine := l.groups.filter fun g => g.members.any fun w => w.toNat == cid
  if recCset l.record then
    (mine.filter fun g => g.index == recCgrp l.record) ++ (mine.filter fun g => g.index != recCgrp l.record)
  else mine
def Group.rank? (g : Group) (cid : Nat) : Option Nat :=
  let i := g.members.idxOf (BitVec.ofNat 22 cid)
  if i < g.members.length then some i else none
/-- The membership in GSLOT[i] of a strand's core. -/
def State.gslot (s : State) (l : Launch) (core i : Nat) : Option Group := (l.memberships (s.cidWord l core))[i]?
/-- The register word of GSLOT[i]. -/
def State.gslotWord (s : State) (l : Launch) (core i : Nat) : Nat :=
  match s.gslot l core i with
  | none => 0
  | some g => 2 ^ 63 + g.members.length * 2 ^ 32 + ((g.rank? (s.cidWord l core)).getD 0) * 2 ^ 8 + g.index

def State.mapLaunch (s : State) (n : Nat) (f : Launch → Launch) : State :=
  match s.launches.find? n with
  | some l => s.setLaunch n (f l)
  | none => s
def Launch.mapGroup (l : Launch) (i : Nat) (f : Group → Group) : Launch :=
  { l with groups := l.groups.map fun g => if g.index == i then f g else g }

end Sys2Proof.Machine
end

