-- ==== Sys2Proof/Machine/Power.lean ====
section
/-! DEFINITION. Token figures of a tile: what it hosts, its demand, its floor share, FDUTY and MRATE, and the account
word (08 R200–R204, R208, R239). -/

namespace Sys2Proof.Machine

def sitePoint (site : Nat) : Config.Point := Config.zonePoint (siteZone site)
def siteTfull (site : Nat) : Nat := Config.tfull (tileType site) (sitePoint site)
def siteTcore (site : Nat) : Nat := Config.tcore (tileType site) (sitePoint site)
/-- The MXE's last format is FP64: AFMT code 8. -/
def Tile.fp64 (t : Tile) : Bool := (t.mxeFmt.extractLsb' 0 4).toNat == 8
def siteShare (site : Nat) (fp64 : Bool) : Nat := Config.engineShare (tileType site) (sitePoint site) fp64
/-- The clamp of a demand (R202). -/
def siteClamp (site : Nat) (fp64 : Bool) : Nat := if fp64 then siteTcore site + siteShare site true else siteTfull site

/-- FDUTY (R203). -/
def fdutyOf (site tokh : Nat) : Nat := if tokh = 0 then 0 else min 16 (max 1 (16 * tokh / siteTcore site))
/-- MRATE (R203). -/
def mrateOf (site tokh : Nat) (fp64 : Bool) : Nat :=
  if tokh = 0 ∨ tileType site = .vector then 0 else min 16 (max 1 (16 * (tokh - siteTcore site) / siteShare site fp64))
def State.fduty (s : State) (site : Nat) : Nat := fdutyOf site (s.tile site).account.tokh
def OpKind.isMxe : OpKind → Bool
  | .mma _ => true
  | .acc _ => true
  | _ => false
/-- Is FP64 the format of a tile's last matrix instruction? The one at the head of the MXE's queue has begun (R203, R331). -/
def State.mxeFp64 (s : State) (site : Nat) : Bool :=
  match s.ops.find? fun o => coreSite o.core == site && o.kind.isMxe with
  | some o => match o.kind with
    | .mma _ => o.fmt.toNat % 16 == 8
    | _ => (s.tile site).fp64
  | none => (s.tile site).fp64
def State.mrate (s : State) (site : Nat) : Nat := mrateOf site (s.tile site).account.tokh (s.mxeFp64 site)

/-! ## Hosting (R202) -/

def State.boundOn (s : State) (l : Launch) (site : Nat) : Bool :=
  l.bound && !l.saved && l.coreSet.any fun i => (s.physCore? (l.cids.getD i 0)).map coreSite == some site
/-- The launches that a tile hosts. -/
def State.hosted (s : State) (site : Nat) : List Nat :=
  s.launches.keys.filter fun n =>
    match s.launch? n with
    | none => false
    | some l =>
      s.boundOn l site
        || (s.strands.entries.any fun e => strandSite e.1 == site && e.2.launch == n && e.2.st != .dormant)
        || (s.ops.any fun o => coreSite o.core == site && o.launch == n)
def State.hosts (s : State) (site : Nat) : Bool := !(s.hosted site).isEmpty

/-! ## Floor shares (R204) -/

/-- The present sites of a partition, lowest zone, row and logical column first. -/
def State.partSites (s : State) (p : Nat) : List Nat :=
  (s.part p).zoneList.flatMap fun z => (s.presentTiles z).filterMap fun rc => s.site? z rc.1 rc.2
def Partition.floorNow (p : Partition) : Nat := p.scaled.getD p.floor
/-- The floor share of a site of a partition: one kept-back token where it hosts nothing, else its part of the rest. A floor
that R214 has scaled below one token a tile keeps its tokens for the tiles that host a launch first. -/
def State.floorShare (s : State) (site : Nat) : Nat :=
  match s.zonePart (siteZone site) with
  | none => 0
  | some p =>
    let sites := s.partSites p
    let hosting := sites.filter s.hosts
    let idle := sites.filter fun t => !hosting.contains t
    let n := (s.part p).floorNow
    let kept := min idle.length (n - hosting.length)
    if !sites.contains site then 0
    else if !hosting.contains site then (if idle.idxOf site < kept then 1 else 0)
    else
      let rest := n - kept
      max 1 (rest / hosting.length + (if hosting.idxOf site < rest % hosting.length then 1 else 0))

/-- The preferred point of an energy class, and the request of a launch on a tile (R201). -/
def preferred (eclass : Nat) : Config.Point := if eclass ≥ 5 then .fast else if eclass ≥ 2 then .medium else .efficient
def State.request (s : State) (l : Launch) (site : Nat) : Nat :=
  if sitePoint site = preferred (recEclass l.record) then ceilDiv (siteTfull site * (recEclass l.record + 1)) 8 else s.floorShare site
def loanSum (xs : List Loan) : Nat := xs.foldl (fun n l => n + l.n) 0
/-- Tokens out on loan (R208). -/
def Account.lent (a : Account) : Nat := loanSum a.loans
/-- A tile's demand (R202); a recalled loan counts as come back. -/
def State.demand (s : State) (site : Nat) : Nat :=
  let t := s.tile site
  let hosts := s.hosted site
  if hosts.isEmpty then 0
  else
    let req := (hosts.filterMap s.launch?).foldl (fun m l => max m (s.request l site)) 0
    min (siteClamp site (s.mxeFp64 site)) (req + t.account.pend - loanSum (t.account.loans.filter fun l => !l.recalled))

/-- A tile that begins to host with TOKH 0, or under a notice to 0, receives its kept-back token at once (R204). -/
def Account.keepOne (a : Account) : Account :=
  if a.tokh = 0 then { a with tokh := 1 } else { a with lowering := min a.lowering (a.tokh - 1) }
def State.beginHosting (s : State) (site : Nat) : State :=
  let t := s.tile site
  s.setTile site { t with account := t.account.keepOne }

/-! ## The account (R208, R209, R238, R239) -/

def AcctSt.code : AcctSt → Nat
  | .held => 0
  | .requesting => 1
  | .lent => 2
  | .notice => 3
def State.accountWord (s : State) (site : Nat) : Word :=
  let a := (s.tile site).account
  BitVec.ofNat 64
    (a.st.code * 2 ^ 56 + min a.lent 1023 * 2 ^ 46 + min a.pend 1023 * 2 ^ 36 + min (s.floorShare site) 1023 * 2 ^ 26
      + min (a.tokh - a.lowering) 1023 * 2 ^ 16 + min a.tokh 1023)

/-- TKREQ of m tokens (R208, R209): in LENT it recalls the loan; during a notice the tokens only wait. -/
def Account.ask (a : Account) (m : Nat) : Account :=
  if m = 0 then a
  else match a.st with
    | .held => { a with st := .requesting, pend := a.pend + m }
    | .requesting => { a with pend := a.pend + m }
    | .lent => { a with pend := a.pend + m, loans := a.loans.map fun (l : Loan) => { l with recalled := true } }
    | .notice => { a with pend := a.pend + m }
/-- How many of m tokens TKLEND lends. -/
def lendable (a : Account) (floor m : Nat) : Nat := min m (a.tokh - floor - a.lowering)
/-- TKLEND at `now`: a loan runs to the end of the next armature cycle, whatever other loans are out. R208 sends TKLEND to LENT and
does not say what one of no tokens does: the account stays as it is. DESIGN CHOICE (log 99). -/
def Account.lend (a : Account) (n now : Nat) : Account :=
  if n = 0 then a
  else
    let loan : Loan := { n := n, termCycle := now / 10000 + 1 }
    let a := { a with tokh := a.tokh - n, loans := a.loans ++ [loan] }
    if a.st = .notice then { a with prior := .lent } else { a with st := .lent }

/-! ## Remote special registers (R41, R49, R402) -/

/-- What a remote special register reads. An atelier core has no tile: a tile's registers read 0 there. -/
def State.sampleSpecial (s : State) (core num : Nat) : Nat :=
  let site := coreSite core
  let z := s.zone (coreZone core)
  let onTile := !coreIsAtelier core
  match num with
  | 0x070 => if onTile then (s.tile site).faultq.length else 0
  | 0x080 => if onTile then min (s.tile site).account.tokh 1023 else 0
  | 0x081 => if onTile then s.fduty site else 0
  | 0x082 => if onTile then s.mrate site else 0
  | 0x084 => z.throttle.toNat
  | 0x108 => s.module.pcap
  | _ => 0

end Sys2Proof.Machine
end

