-- ==== Sys2Proof/Machine/Named.lean ====
section
/-! DEFINITION. The scratch that an engine's operation is still to access (R286), with the fields of KV coordinates, sequence
descriptors and carry headers that it takes (R265, R267, R350). -/

namespace Sys2Proof.Machine

def coordSeq (c : Word) : Nat := bits c.toNat 40 24
def coordLayer (c : Word) : Nat := bits c.toNat 32 8
def coordHead (c : Word) : Nat := bits c.toNat 24 8
def coordPos (c : Word) : Nat := bits c.toNat 0 24
def withPos (c : Word) (p : Nat) : Word := BitVec.ofNat 64 (c.toNat / 2 ^ 24 * 2 ^ 24 + p % 2 ^ 24)

def descMaps (d : Nat) : Word := BitVec.ofNat 64 (bits d 448 64)
def descLen (d : Nat) : Nat := bits d 424 24
def descB (d : Nat) : Nat := 16 * 2 ^ bits d 380 2
def descDim (d : Nat) : Nat := bits d 382 2
def entryFrame (e : Nat) : Word := BitVec.ofNat 64 (bits e 77 51 * 64)

/-- The carry slot of a strand: its byte offset in the carry store. -/
def carryAt (k : Nat) : Nat := 8192 * strandSlot k
def hdrRows (h : Nat) : Nat := bits h 225 3 + 1
def hdrCmap (h : Nat) : Word := BitVec.ofNat 64 (bits h 384 64)
def hdrPmap (h : Nat) : Word := BitVec.ofNat 64 (bits h 448 64)
def hdrCstr (h : Nat) : Nat := bits h 300 20
def hdrQblk (h : Nat) : Nat := bits h 276 24
def Tile.cread (t : Tile) (k off n : Nat) : Nat := t.carry.readN (carryAt k + off) n
def Tile.header (t : Tile) (k : Nat) : Nat := t.cread k 0 64

def Op.who (o : Op) : Who := { strand := o.strand, core := o.core, tenant := o.tenant, part := o.part, op := some (o.ch, o.id) }
/-- The tile whose scratch an address of partition `p` names, as ZONE : ROW : COL, for another module with its number plus 1 above; an
atelier's addresses are physical. -/
def State.scratchNamed (s : State) (atelier : Bool) (p a : Nat) : Option Nat :=
  let k := a / 2 ^ 48
  if (if atelier then k == 1 else k == 0x1FF || k == 0x140 + s.ownModule p) then some (a / 2 ^ 34 % 2 ^ 14)
  else if !atelier && 0x140 ≤ k && k < 0x180 then some ((k % 64 + 1) * 2 ^ 14 + a / 2 ^ 34 % 2 ^ 14) else none
/-- The addresses of an operation's rows. -/
def Op.rowStarts (o : Op) (base stride : Nat) : List Word :=
  (List.range (o.args.getD 2 0#64).toNat).map fun r => o.args.getD base 0#64 + BitVec.ofNat 64 r * o.args.getD stride 0#64
def Op.coord (o : Op) : Word := o.args.getD 0 0#64
def Op.limit (o : Op) : Nat := min (o.args.getD 1 0#64).toNat (2 ^ 24)

/-- The structures and the frame that a walk of coordinate `c` reads, as they stand (R272). -/
def State.kvPath (s : State) (w : Who) (c : Word) : List Word × Nat :=
  let get (va : Word) (n : Nat) : Nat := match s.resolveOrdinary w .walk va with
    | .ok (.phys pa _, s) => s.readPa pa n
    | _ => 0
  let next (va : Word) (lo : Nat) : Word := BitVec.ofNat 64 (bits (get va 8) lo (57 - lo) * 2 ^ lo)
  let at_ (t : Word) (i : Nat) : Word := t + BitVec.ofNat 64 (8 * i)
  let l1 := at_ (BitVec.ofNat 64 (bits (s.part w.part).kvroot.toNat 15 42 * 2 ^ 15)) (coordSeq c / 4096)
  let l2 := at_ (next l1 15) (coordSeq c % 4096)
  let dva := next l2 6
  let d := get dva 64
  let n := coordPos c / descB d
  let root := at_ (descMaps d) (coordLayer c * (bits d 384 8 + 1) + coordHead c)
  let m1 := at_ (next root 12) (bits n 18 9)
  let m2 := at_ (next m1 12) (bits n 9 9)
  let leaf := next m2 13 + BitVec.ofNat 64 (16 * bits n 0 9)
  ([l1, l2, dva, root, m1, m2, leaf, entryFrame (get leaf 16)], d)
/-- What a sweep is still to read: the walk and the frame of each of its blocks, and the mask of an ATTS (R354, R355). -/
def State.sweepNamed (s : State) (o : Op) : List Word :=
  let w := o.who
  let d := (s.kvPath w o.coord).2
  let b := descB d
  let h := (s.tile (coreSite o.core)).header o.strand
  let p := if o.total = 0 then 0 else o.pos
  (List.range ((min o.limit (descLen d) + b - 1) / b - p / b)).flatMap fun j =>
    let n := p / b + j
    let mask := if o.kind == .atts then
        [hdrCmap h + BitVec.ofNat 64 (hdrQblk h * hdrCstr h + n / 4), hdrPmap h + BitVec.ofNat 64 ((hdrQblk h * 4 * hdrCstr h + n) * b)]
      else []
    (s.kvPath w (withPos o.coord (n * b))).1 ++ mask
/-- The tiles that a table of `n` bytes at `a` may reach, by one address in each. -/
def spread (a : Word) (n : Nat) : List Word :=
  (List.range (min ((a.toNat % 2 ^ 34 + n - 1) / 2 ^ 34 + 1) (2 ^ 14))).map fun j => a + BitVec.ofNat 64 (j * 2 ^ 34)
/-- Addresses in every tile that an operation is still to access, and perhaps in others (R286). Of a COLL.sr the root alone writes to
g[A] (R386), and of a COLL.bc it alone reads g[B] (R388). A GATH or SCAT whose elements are all
delivered or parked accesses none until its replay. -/
def State.opNamed (s : State) (o : Op) : List Word :=
  match o.kind with
  | .xfer _ _ _ => o.rowStarts 0 4 ++ o.rowStarts 1 5
  | .atts => s.sweepNamed o
  | .kvnext => s.sweepNamed o
  | .att 1 => (List.range (hdrRows o.desc)).map fun r => o.args.getD 0 0#64 + BitVec.ofNat 64 r * o.args.getD 1 0#64
  | .gath => if o.allFormed then [] else
      BitVec.ofNat 64 (bits o.desc 0 64) :: o.args.getD 0 0#64 :: spread (o.args.getD 1 0#64) (bits o.desc 128 64 * bits o.desc 96 32)
  | .scat => if o.allFormed then [] else
      BitVec.ofNat 64 (bits o.desc 0 64) :: o.args.getD 0 0#64 :: spread (o.args.getD 1 0#64) (bits o.desc 128 64 * bits o.desc 96 32)
  | .coll 1 => if o.args.getD 3 0#64 = 0#64 then o.args.take 2 else (o.args.take 2).drop 1
  | .coll 2 => if o.args.getD 3 0#64 = 0#64 then o.args.take 2 else o.args.take 1
  | .coll _ => o.args.take 2
  | _ => o.args
/-- The tiles whose scratch an operation accesses. -/
def State.opTiles (s : State) (o : Op) : List Nat :=
  (s.opNamed o).filterMap fun a => s.scratchNamed (coreIsAtelier o.core) o.part a.toNat

end Sys2Proof.Machine
end

