-- ==== Sys2Proof/Machine/Access.lean ====
section
/-! DEFINITION. A strand's memory accesses: the checks of R105, R128, R255 and R296 in their order, ordered tasks' buffers
and conflicts (R180–R182), the list of outstanding accesses with what orders them (R106, R276, R278, R286), their
completion, and the charging counters (R312). -/

namespace Sys2Proof.Machine

/-! ## Charging (R312) -/

/-- What an access wants of a line: to read it, to own it clean (PREF.write), or to store to it. -/
inductive LineUse where
  | read
  | own
  | store
  deriving DecidableEq, Repr

/-- The L1 alone serves an access when it holds the line, and for other than a read when no other L1 does. -/
def L2Line.inL1 (x : L2Line) (via : Option Nat) (how : LineUse) : Bool :=
  via.any fun c => x.sharers.contains c && (how == .read || x.sharers == [c])
/-- The sharers after an access through L1 `via`, or past every L1: only a read leaves the others their copies (R249). -/
def L2Line.share (x : L2Line) (via : Option Nat) (how : LineUse) : NatSet :=
  match via, how with
  | none, .read => x.sharers
  | some c, .read => setInsert c x.sharers
  | v, _ => v.toList
/-- Whether the home has the newest data after such an access: a store through an L1 leaves them there alone, and an access that reaches
the home brings them back to it (R249). -/
def L2Line.homeAfter (x : L2Line) (via : Option Nat) (how : LineUse) : Bool :=
  if how == .store then via.isNone else x.atHome || !x.inL1 via how
def one (b : Bool) : Word := if b then 1#64 else 0#64

/-- The lines of L1 `c` that share line `line`'s set: index VA[12:6] (R249). One whose home is quarantined is held until the MAPSET
(R438). -/
def State.l1Set (s : State) (c line : Nat) : List Nat :=
  (s.l2.entries.filter fun e =>
    e.1 != line && e.1 % 128 == line % 128 && e.2.sharers.contains c && (s.homeHeld e.2.home).isNone).map (·.1)
/-- The L1s that `gone` names drop their copies of a line. -/
def State.dropCopies (s : State) (line : Nat) (gone : Nat → Bool) : State :=
  match s.l2.find? line with
  | none => s
  | some x => { s with l2 := s.l2.set line { x with sharers := x.sharers.filter fun c => !gone c } }
/-- An L1 has 4 ways (R249): one that takes a fifth line of a set gives one up; which is a free value. -/
def State.fitL1 (s : State) (c line : Nat) : State :=
  let others := s.l1Set c line
  if others.length < 4 then s
  else { s.dropCopies (others.getD (Config.l1Victim s.free % others.length) 0) (· == c) with free := s.free + 1 }
def State.fitVia (s : State) (via : Option Nat) (line : Nat) : State :=
  match via with
  | some c => s.fitL1 c line
  | none => s

/-- A cacheable access by a tenant to a line, named with its home, of frame line `frame`: a fill on a miss; else, when it reaches the home, a hit on
another's line; a further sharer than four invokes the directory handler (R253); a store names the last dirtier (R312). -/
def State.count (s : State) (tenant : Nat) (c : Nat × Nat) (frame : Nat) (via : Option Nat) (how : LineUse) : State :=
  let t := s.tenant tenant
  let line := c.2
  match s.l2.find? line with
  | none =>
    { s.setTenant tenant { t with l2fill := t.l2fill + 1#64 } with
      l2 := s.l2.set line
        { frame := frame, home := c.1, filler := tenant, dirtier := if how = .store then some tenant else none, sharers := via.toList
          atHome := !(how == .store && via.isSome) } }
  | some x =>
    let further := how == .read && via.any fun c => !x.sharers.contains c && 4 ≤ x.sharers.length
    { s.setTenant tenant { t with
        l2xhit := t.l2xhit + one (!x.inL1 via how && x.filler != tenant), dirovf := t.dirovf + one further } with
      l2 := s.l2.set line
        { x with dirtier := if how = .store then some tenant else x.dirtier, sharers := x.share via how, atHome := x.homeAfter via how } }
/-- The same, and the L1 keeps to its ways. -/
def State.charge (s : State) (tenant : Nat) (c : Nat × Nat) (frame : Nat) (via : Option Nat) (how : LineUse) : State :=
  (s.count tenant c frame via how).fitVia via c.2
/-- An access of an atelier core is charged to no tenant: what it does is to the copies of a line that a cache holds (R249). -/
def State.meetLine (s : State) (line : Nat) (how : LineUse) : State :=
  match s.l2.find? line with
  | none => s
  | some x => { s with l2 := s.l2.set line { x with sharers := x.share none how, below := x.below && how != .store, atHome := true } }
/-- The same of every copy of a physical line, under whatever address it is held (R481). -/
def State.meetFrame (s : State) (frame : Nat) (how : LineUse) : State := (s.linesOf frame).foldl (fun s k => s.meetLine k how) s
/-- An access of a tenant, or of an atelier core, to a cacheable line. -/
def State.chargeFor (s : State) (payer : Option Nat) (c : Nat × Nat) (frame : Nat) (via : Option Nat) (how : LineUse) : State :=
  match payer with
  | some t => s.charge t c frame via how
  | none => s.meetFrame frame how

/-- A forced write-back of a dirty line is charged to its last dirtier (R312), and clears what poison its frame had beneath it
(R433). -/
def State.forceWriteBack (s : State) (line : Nat) : State :=
  match s.l2.find? line with
  | some x =>
    match x.dirtier with
    | none => s
    | some d =>
      let t := s.tenant d
      { s.setTenant d { t with l2wbf := t.l2wbf + 1#64 } with
        l2 := s.l2.set line { x with dirtier := none, below := false, atHome := true } }
  | none => s

/-! ## The checks of an access -/

/-- What the checks of one access decide. -/
inductive Checked where
  | trap (t : TrapInfo)
  /-- a fault that a deferred walk returns (R260) -/
  | defer (t : TrapInfo)
  | hold (w : Wait) (s : State)
  /-- a byte of another module, at a window address (R449) -/
  | remote (module : Nat) (va : Word) (s : State)
  | ok (pa : Nat) (cached : Option (Nat × Nat)) (s : State)

def accInfo (acc : Acc) : Word := reasonInfo 0 acc

/-- Does the strand itself replace the granule whole before it reads it: an aligned STV of its own, outstanding or in its
task's buffer (R106, R128)? -/
def State.ownWhole (s : State) (k pa : Nat) : Bool :=
  (s.accesses.any fun a => a.strand == k && a.kind == .store && a.n == 64 && a.pa / 64 == pa / 64)
    || ((s.strand k).task.any fun o =>
      ((s.zone (coreZone (strandCore k))).task? o).any fun t => t.buffer.any fun b => b.n == 64 && b.pa / 64 == pa / 64)

/-- A byte that the scratch aperture reaches; a carve-out's is its own strand's, which only R276 orders (R286). -/
def paIsShared (pa : Nat) : Bool := paIsScratch pa && bits pa 0 34 < 3 * 2 ^ 20
/-- Accesses from one core to one tile take effect in issue order, its engines' included (R286): an operation of the core that
is still to access the tile comes first. -/
def State.behindEngine (s : State) (w : Who) (pa : Nat) : Bool :=
  paIsShared pa && s.ops.any fun o => o.core == w.core && !(o.shadowed && strandSlot w.strand == shadowSlot) && (s.opTiles o).any fun t =>
    t < 2 ^ 14 && s.site? (t / 256) (t / 16 % 16) (t % 16) == some (paSite pa)

/-- The same of an address in another module's scratch: the engine's earlier accesses to that tile leave first. An access whose answer
has come is made already. -/
def State.behindRemote (s : State) (w : Who) (va : Word) : Bool :=
  s.grant.isNone && (s.scratchNamed false w.part va.toNat).any fun t => s.ops.any fun o =>
    o.core == w.core && !(o.shadowed && strandSlot w.strand == shadowSlot) && (s.opTiles o).contains t

/-- After translation: system space, host residence and poison. `va` is the address that a fault reports. -/
def State.checkPlace (s : State) (w : Who) (acc : Acc) (va : Word) (n : Nat) (pa : Nat) (cached : Option (Nat × Nat)) :
    Checked :=
  if paIsSystem pa && acc == .amo then .trap (protAt 2 acc va)
  else if paIsSystem pa && n > 8 then .trap (protAt 9 acc va)
  else if systemDenied w pa then .trap (protAt 0 acc va)
  else if s.asksHost pa cached && s.hostAbsent.contains (hostKey w.fn pa) then
    .hold .pri (s.sendRequest
      { pageRequest w.fn (.strand w.strand) acc va pa with slotA := s.cur.slotA })
  else if (acc == .load || acc == .amo) && s.poisonedIn pa n && !s.ownWhole w.strand pa then
    .trap { cause := causePoison, addr := va, info := accInfo acc, granule := pa / 64 * 64 }
  else if s.behindEngine w pa then .hold .accesses s
  else .ok pa cached s

/-- The checks of R105 (R128, R296) in their order. -/
def State.checkAs (s : State) (w : Who) (acc : Acc) (va : Word) (n : Nat) : Checked :=
  if va.toNat % n ≠ 0 then .trap { cause := causeMisaligned, addr := va }
  else
    match s.resolve w acc va with
    | .error t => if t.cause == causePageNotPresent || t.cause == causeOwnerHost then .defer t else .trap t
    | .ok (.held site, s) => .hold (.remap site) s
    | .ok (.busy, s) => .hold .page s
    | .ok (.remote m a, s) => if s.behindRemote w a then .hold .accesses s else .remote m a s
    | .ok (.phys pa cached, s) => s.checkPlace w acc (s.reported w va) n pa cached

def State.check (s : State) (acc : Acc) (va : Word) (n : Nat) : Checked := s.checkAs s.who acc va n

/-! ## Ordered tasks: buffer, signatures, conflicts (R180–R182) -/

/-- Earlier in commit order: timestamp, then enqueue order (R180). -/
def Task.before (t u : Task) : Bool := t.timestamp.ult u.timestamp || (t.timestamp == u.timestamp && t.order < u.order)

/-- A task is visible to the unit once no uncommitted speculative task is its parent (R180). -/
def Task.visible (t : Task) : Bool := t.parent.isNone
/-- The oldest uncommitted task of a zone. -/
def Zone.oldest (z : Zone) : Option Task :=
  (z.tasks.filter Task.visible).foldl
    (fun best t => match best with
      | none => some t
      | some b => if t.before b then some t else some b) none
def Zone.isOldest (z : Zone) (o : Nat) : Bool := (z.oldest.map (·.order)) == some o

def sharesLine (xs ys : NatSet) : Bool := xs.any fun x => ys.contains x

/-- The younger speculative task that an older one's writes conflict with, if any (R182). -/
def Zone.conflict? (z : Zone) : Option Nat :=
  (z.tasks.find? fun u =>
    !u.irrevocable && z.tasks.any fun t => t.before u && (sharesLine t.writes u.writes || sharesLine t.writes u.reads)).map (·.order)

/-- Roll back until no conflict is left; each rollback empties one task's sets. -/
def State.settleConflicts (s : State) (zone : Nat) : Nat → State
  | 0 => s
  | fuel + 1 =>
    match (s.zone zone).conflict? with
    | some o => (s.rollback zone o).settleConflicts zone fuel
    | none => s

def State.selfTask (s : State) : Option Task :=
  match s.cur.before.task with
  | some o => (s.zone s.selfZone).task? o
  | none => none
def State.speculative (s : State) : Bool := (s.selfTask.map fun t => !t.irrevocable).getD false

/-! ## Writes that become visible (R182, R283, R290) -/

/-- A store becomes visible: a cacheable line is charged to the tenant, which is its last dirtier (R312), and the page of the
tenant's address is dirty (R259). -/
def State.storeVisible (s : State) (payer : Option Nat) (self : Option (Nat × Nat)) (line : Option (Nat × Nat)) (via : Option Nat)
    (pa n x : Nat) : State :=
  match line with
  | none => s.writeShared self pa n x
  | some c =>
    let s := s.chargeFor payer c (pa / 64) via .store
    (if payer.isSome then s.markDirty self c.2 else s).writeShared self pa n x
/-- A buffered store becomes visible. -/
def State.commitStore (s : State) (tenant : Nat) (self : Option (Nat × Nat)) (b : BufStore) : State :=
  s.storeVisible (some tenant) self (some (b.home, b.line)) (some b.l1) b.pa b.n b.data
/-- A task's buffered stores become visible in one step. -/
def State.commitStores (s : State) (zone : Nat) (t : Sys2Proof.Machine.Task) : State :=
  let tenant := ((s.launch? t.launch).map (·.tenant)).getD 0
  t.buffer.foldl (fun s b => s.commitStore tenant (some (zone, t.order)) b) s

/-- The task becomes irrevocable: its buffered stores become visible at once (R181). The tasks that it enqueued before stay
hidden until its commit (R180). -/
def State.makeIrrevocable (s : State) (zone : Nat) (o : Nat) : State :=
  match (s.zone zone).task? o with
  | none => s
  | some t =>
    let s := s.commitStores zone t
    s.setZone zone ((s.zone zone).mapTask o fun x =>
      { x with irrevocable := true, retry := false, buffer := [], reads := [], writes := [] })

/-- A task's stores may become visible: none goes to a line that waits for a MAPSET (R438). -/
def State.mayPublish (s : State) (t : Sys2Proof.Machine.Task) : Bool := t.buffer.all fun b => (s.homeHeld b.home).isNone
/-- May a task become irrevocable: it is the oldest, and no irrevocable task runs (R181)? -/
def Zone.mayTurn (z : Zone) (o : Nat) : Bool := z.isOldest o && !z.tasks.any fun (t : Sys2Proof.Machine.Task) => t.irrevocable
/-- R181: before what a speculative task may not run, it waits until it is the oldest and then becomes irrevocable.
`none` when the pair must wait. -/
def State.irrevocably (s : State) : Option State :=
  match s.selfTask with
  | none => some s
  | some t =>
    if t.irrevocable then some s
    else if (s.zone s.selfZone).mayTurn t.order && s.mayPublish t then some (s.makeIrrevocable s.selfZone t.order) else none

/-- Run `f` once the task may not be rolled back any more (R181). -/
def State.gated (s : State) (f : State → Res) : Res :=
  match s.irrevocably with
  | some s => f s
  | none => .next (s.hold .oldest)

/-- Bytes as the task sees them: its own buffered stores over memory (R180). -/
def bufferRead (m : List BufStore) (s : State) (pa n : Nat) : Nat :=
  ofBytes ((List.range n).map fun i =>
    match m.reverse.find? fun b => b.pa ≤ pa + i && pa + i < b.pa + b.n with
    | some b => BitVec.ofNat 8 (b.data / 256 ^ (pa + i - b.pa))
    | none => BitVec.ofNat 8 (s.readPa (pa + i) 1))
def bufferLines (m : List BufStore) : NatSet := m.foldl (fun l b => setInsert (b.pa / 64) l) []

/-- An address in a window of the own module, the overflow area's included: its accesses are uncached at the issuer (R450). -/
def State.windowed (s : State) (va : Word) : Bool := !s.inAtelier && inWindow (s.reported s.who va)
/-- The issuing core's L1 of data. -/
def State.selfL1 (s : State) : Nat := 2 * s.selfCore
/-- The L1 that an access at `va` goes through: an atelier core's, and one through a window, goes to the home (R391, R450). -/
def State.viaAt (s : State) (va : Word) : Option Nat := if s.inAtelier || s.windowed va then none else some s.selfL1
/-- Whom the issuing strand's accesses are charged to (R312). -/
def State.payer (s : State) : Option Nat := if s.inAtelier then none else some s.selfTenant
/-- The cacheable line that an access at `va` may buffer in a task (R181): none through a window (R450). -/
def State.bufferLine (s : State) (va : Word) (cached : Option (Nat × Nat)) : Option (Nat × Nat) :=
  if s.windowed va then none else cached
/-- May a speculative task buffer this access? Only a cacheable HBM line whose home is in the zone (R181). -/
def bufferable (zone pa : Nat) (cached : Option (Nat × Nat)) : Bool :=
  match cached with
  | some (home, _) => paIsHbm pa && home / 132 == zone
  | none => false

/-! ## Outstanding accesses -/

def Access.overlaps (a b : Access) : Bool := a.n != 0 && b.n != 0 && a.pa < b.pa + b.n && b.pa < a.pa + a.n
/-- One destination tile or device (R278, R286). -/
def sameDevice (a b : Access) : Bool :=
  (paIsShared a.pa && paIsShared b.pa && paSite a.pa == paSite b.pa) || (paIsSystem a.pa && paIsSystem b.pa)
/-- `a`, issued before `b`, must complete before it: a common byte of one strand (R276, R278), or one core's accesses to
one tile or device (R286), or through the own module's window (R450). -/
def Access.orders (a b : Access) : Bool :=
  (a.strand == b.strand && a.overlaps b)
    || (strandCore a.strand == strandCore b.strand && a.n != 0 && b.n != 0 && (sameDevice a b || (a.window && b.window)))

/-- The lanes of LDVB: `n` bytes copied to every lane of that width (R127). -/
def broadcastBytes (n x : Nat) : Nat := (List.range (64 / n)).foldl (fun acc _ => acc * 2 ^ (8 * n) + x) 0

def Dest.write (d : Dest) (x : Nat) (r : RegFile) : RegFile :=
  match d with
  | .none => r
  | .g i => r.writeG i (BitVec.ofNat 64 x)
  | .v i => r.writeV i (BitVec.ofNat 512 x)
def Dest.mark (d : Dest) (full : Bool) (r : RegFile) : RegFile :=
  match d with
  | .none => r
  | .g i => r.markG i full
  | .v i => r.markV i full
/-- A register receives its value and becomes full (R30); a strand that waits for a register is examined again. An
access that completes while its strand's pair issues is part of the state before that pair. -/
def State.fill (s : State) (k : Nat) (d : Dest) (x : Nat) : State :=
  let st := s.strand k
  let f (r : RegFile) : RegFile := d.mark true (d.write x r)
  let waiting := match st.st with
    | .waiting .register => StrandSt.ready
    | w => w
  let s := s.setStrand k { st with regs := f st.regs, st := waiting }
  if s.cur.strand = k then { s with cur := { s.cur with before := { s.cur.before with regs := f s.cur.before.regs } } } else s
/-- A pair delivers an answer to its destination at once (R218). -/
def State.putDest (s : State) (d : Dest) (x : Nat) : State := s.mapRegs (d.write x)

def extendLoad (n : Nat) (sg : Bool) (x : Nat) : Nat := if sg then (BitVec.ofInt 64 (signed (8 * n) x)).toNat else x
/-- The bytes an access reads when it completes. -/
def State.sample (s : State) (a : Access) : Nat := if paIsSystem a.pa then s.sysRead a.pa a.n else s.readPa a.pa a.n
/-- An access completes: a read samples its bytes, a write becomes visible, and speculative tasks that it conflicts with are
rolled back (R182). -/
def State.perform (s : State) (a : Access) : State :=
  match a.kind with
  | .load sg => ((s.touch a.pa).touchLine none (a.pa / 64)).fill a.strand a.dest (extendLoad a.n sg (s.sample a))
  | .bcast => ((s.touch a.pa).touchLine none (a.pa / 64)).fill a.strand a.dest (broadcastBytes a.n (s.sample a))
  | .store => if paIsSystem a.pa then s.sysWrite a.pa a.n a.data else s.storeVisible a.tenant none a.line a.l1 a.pa a.n a.data
  | .value => s.fill a.strand a.dest a.data
  | .special => s.fill a.strand a.dest (s.sampleSpecial (strandCore a.strand) a.data)

/-- Strands that wait for their last access are examined again. -/
def State.wakeDrained (s : State) (k : Nat) : State :=
  if (s.strand k).st == .waiting .accesses && !s.accesses.any (fun a => a.strand == k) then s.wake k else s

/-- The access at position `i` completes. -/
def State.completeAt (s : State) (i : Nat) : State :=
  match s.accesses[i]? with
  | none => s
  | some a => (State.perform { s with accesses := s.accesses.eraseIdx i } a).wakeDrained a.strand
/-- A request to a site that is quarantined, or whose SRAM has failed, or to a line that is homed there, waits for a MAPSET
(R438, R487). -/
def State.accessWaits (s : State) (a : Access) : Bool :=
  (a.n != 0 && paIsScratch a.pa && (s.siteWaits (paSite a.pa) || s.deadSite (paSite a.pa)))
    || a.line.any fun c => (s.homeHeld c.1).isSome
/-- The site for which something in the virtual lines [lo, hi) waits: a copy that is held until the MAPSET, or a request (R438). What
writes lines back and takes them out of the caches waits with it. -/
def State.heldIn (s : State) (lo hi : Nat) : Option Nat :=
  let within (k : Nat) : Bool := lo ≤ k && k < hi
  ((s.l2.entries.filter fun e => within e.1).findSome? fun e => s.homeHeld e.2.home).orElse fun _ =>
    (s.accesses.filterMap (·.line)).findSome? fun c => if within c.2 then s.homeHeld c.1 else none
/-- May the access at position `i` complete? Nothing older holds it back, and it waits for no MAPSET. -/
def State.mayComplete (s : State) (i : Nat) : Bool :=
  s.accesses[i]?.any fun a => !s.accessWaits a && !(s.accesses.take i).any fun b => b.orders a
/-- The access at position `i` completes, if it may. -/
def State.completeAccess (s : State) (i : Nat) : State := if s.mayComplete i then s.completeAt i else s
/-- At most `fuel` outstanding accesses that `p` names complete, oldest first. -/
def State.drainWhere (p : Access → Bool) : Nat → State → State
  | 0, s => s
  | fuel + 1, s =>
    match s.accesses.findIdx? p with
    | some i => State.drainWhere p fuel (s.completeAt i)
    | none => s
/-- Complete a strand's outstanding accesses in program order. -/
def State.drainStrand (s : State) (k : Nat) : State := State.drainWhere (fun a => a.strand == k) s.accesses.length s
/-- Before an ordering instruction or a command: the core's earlier accesses complete (R279, R286, R291). -/
def State.drainCore (s : State) (c : Nat) : State := State.drainWhere (fun a => strandCore a.strand == c) s.accesses.length s
/-- Those of a core's that wait for no MAPSET complete. -/
def State.drainFree (s : State) (c : Nat) : State :=
  State.drainWhere (fun a => strandCore a.strand == c && !s.accessWaits a) s.accesses.length s
/-- Every outstanding access completes, but for those that wait for a MAPSET: before what changes where addresses lead (R261–R263,
R438). -/
def State.drainAll (s : State) : State :=
  (s.accesses.map fun a => strandCore a.strand).dedup.foldl (fun s c => s.drainFree c) s
/-- Run `f` after the core's earlier accesses have completed, unless one of them has rolled the task back that issues. -/
def State.afterDrain (s : State) (f : State → Res) : Res :=
  let s := s.drainCore s.selfCore
  if s.cur.stopped then .next s else f s
/-- Poison comes to a granule (R433): reads that issued before it have returned, and a task that has accessed it starts
again. -/
def State.poisonAt (s : State) (pa : Nat) : State :=
  let late := (s.accesses.filter fun a => a.n != 0 && a.pa / 64 == pa / 64).map fun a => strandCore a.strand
  let s := late.dedup.foldl (fun s c => s.drainFree c) s
  (s.touchLine none (pa / 64)).setPoison pa
/-- A line leaves the caches: poison beneath it in its frame shows again, unless the copy was dirty and has been written back whole
(R433). -/
def State.uncover (s : State) (x : L2Line) : State :=
  if x.below && x.dirtier.isNone then s.poisonAt (64 * x.frame) else s
/-- The home slice evicts a line: a dirty one is written back, charged to its last dirtier (R312), and the line is in no
cache any more. A line of a quarantined slice waits for the MAPSET (R438). -/
def State.evict (s : State) (line : Nat) : State :=
  match s.l2.find? line with
  | none => s
  | some x =>
    if (s.homeHeld x.home).isSome then s
    else
    let s := match x.dirtier with
      | some d => s.setTenant d { s.tenant d with l2wb := (s.tenant d).l2wb + 1#64 }
      | none => s
    State.uncover { s with l2 := s.l2.erase line } x
/-- An L1 gives a copy up; one of a line whose home is quarantined is held (R438). -/
def State.giveUp (s : State) (line l1 : Nat) : State :=
  if (s.l2.find? line).any fun x => (s.homeHeld x.home).isSome then s else s.dropCopies line (· == l1)
/-- Every speculative task that has accessed a line starts again, as its signatures may always ask (R182). -/
def State.restartTasks (s : State) : State :=
  s.zones.keys.foldl
    (fun s z => ((s.zone z).tasks.filter fun t => !t.irrevocable && !(t.reads.isEmpty && t.writes.isEmpty)).foldl
      (fun s t => s.rollback z t.order) s) s
/-- Before a page changes its frame or its owner: accesses under the old mapping have taken place, and buffered ones begin
again under the new one (R261–R263). -/
def State.settlePages (s : State) : State := s.drainAll.restartTasks
def State.outstanding (s : State) (k : Nat) : Bool := s.accesses.any fun a => a.strand == k

/-- Issue an access: its destination becomes empty (R30). -/
def State.issueAccess (s : State) (a : Access) : State :=
  { s.mapRegs (a.dest.mark false) with accesses := s.accesses ++ [a] }

/-! ## Plain loads and stores (R103–R105, R127) -/

def destG (d : Reg) : Dest := if d = 0#4 then .none else .g d

def useOf (write : Bool) : LineUse := if write then .store else .read
/-- The issuing strand's access to a cacheable line, through L1 `via`, is charged (R312). -/
def State.accountVia (s : State) (via : Option Nat) (pa : Nat) (cached : Option (Nat × Nat)) (how : LineUse) : State :=
  match cached with
  | none => s
  | some c => s.chargeFor s.payer c (pa / 64) via how
/-- The same, of an access at `va`. -/
def State.account (s : State) (va : Word) (pa : Nat) (cached : Option (Nat × Nat)) (how : LineUse) : State :=
  s.accountVia (s.viaAt va) pa cached how
/-- A change of the issuing strand's task. -/
def State.mapSelfTask (s : State) (o : Nat) (f : Sys2Proof.Machine.Task → Sys2Proof.Machine.Task) : State :=
  s.setZone s.selfZone ((s.zone s.selfZone).mapTask o f)
/-- Conflicts of the zone's tasks after the issuing task's access. -/
def State.settleSelf (s : State) : State := s.settleConflicts s.selfZone (s.zone s.selfZone).tasks.length

/-- A window access to another module: the request leaves (class 0: its tag, which names the strand's access by its time, what is asked,
where, operands), and the pair waits for the answer (R449, R450, R456). Where the pair's A slot is to trap, the request asks for its checks alone (log 91). -/
def State.askRemote (s : State) (m : Nat) (acc : Acc) (va : Word) (words : List Nat) : Res :=
  let what := s.selfCore :: s.cur.strand :: s.time :: acc.code :: va.toNat :: (if s.cur.doomed then [0] else words)
  .next ((s.transmit { part := s.selfPart, module := m, cls := 0, what := what }).hold (.remote acc.code va))

/-- What a load of `n` bytes delivers. -/
def AccessKind.deliver (k : AccessKind) (n x : Nat) : Nat :=
  match k with
  | .load sg => extendLoad n sg x
  | .bcast => broadcastBytes n x
  | _ => x
/-- An access whose value is at hand: the destination is empty until it completes (R30). -/
def State.issueValue (s : State) (dest : Dest) (x : Nat) : State :=
  s.issueAccess { strand := s.cur.strand, kind := .value, dest := dest, pa := 0, n := 0, data := x }
/-- The answer to a window access fills its destination (R449). -/
def State.answerRemote (s : State) (dest : Dest) (gr : Grant) (f : Nat → Nat) : Res :=
  .next ((s.issueValue dest (f gr.value.toNat)).useGrant)

/-- A speculative task's load (R180): its own stores over memory, and the line enters its read set. -/
def State.loadBuffered (s : State) (t : Sys2Proof.Machine.Task) (kind : AccessKind) (dest : Dest) (va : Word) (pa n : Nat)
    (cached : Option (Nat × Nat)) : State :=
  let s := (s.touch pa).account va pa cached .read
  let x := kind.deliver n (bufferRead t.buffer s pa n)
  let s := s.mapSelfTask t.order fun u => { u with reads := setInsert (pa / 64) u.reads }
  (s.issueValue dest x).settleSelf
/-- A read of `n` bytes that issues, and samples its bytes when it completes. -/
def State.issueRead (s : State) (kind : AccessKind) (dest : Dest) (va : Word) (pa n : Nat) (cached : Option (Nat × Nat)) : State :=
  ((s.touch pa).account va pa cached .read).issueAccess
    { strand := s.cur.strand, kind := kind, dest := dest, pa := pa, n := n, data := 0, line := cached, window := s.windowed va }
/-- A store of `n` bytes that issues, and becomes visible when it completes. -/
def State.issueStore (s : State) (va : Word) (pa n x : Nat) (cached : Option (Nat × Nat)) : State :=
  (s.touch pa).issueAccess
    { strand := s.cur.strand, kind := .store, dest := .none, pa := pa, n := n, data := x, line := cached, tenant := s.payer
      l1 := s.viaAt va, window := s.windowed va }
/-- A load of `n` bytes at `va` into `dest`. -/
def State.load (s : State) (kind : AccessKind) (dest : Dest) (va : Word) (n : Nat) : Res :=
  match s.check .load va n with
  | .trap t => s.trap t
  | .defer t => s.deferFault t
  | .hold w s => .next (s.hold w)
  | .remote m a s =>
    match s.grant with
    | some gr => s.answerRemote dest gr fun x => kind.deliver n (x % 2 ^ (8 * n))
    | none => s.gated fun s => s.askRemote m .load a [n]
  | .ok pa cached s =>
    match s.selfTask.filter fun t => !t.irrevocable && bufferable s.selfZone pa (s.bufferLine va cached) with
    | some t => .next (s.loadBuffered t kind dest va pa n cached)
    | none => s.gated fun s => .next (s.issueRead kind dest va pa n cached)

/-- A speculative task's store (R180): it enters the buffer and the write set, and its line is owned clean. -/
def State.storeBuffered (s : State) (t : Sys2Proof.Machine.Task) (b : BufStore) (va : Word) (cached : Option (Nat × Nat)) : State :=
  let s := s.account va b.pa cached .own
  let s := s.mapSelfTask t.order fun u => { u with buffer := u.buffer ++ [b], writes := setInsert (b.pa / 64) u.writes }
  s.settleSelf
/-- A store of the low `n` bytes of `x` at `va`. -/
def State.store (s : State) (va : Word) (n : Nat) (x : Nat) : Res :=
  match s.check .store va n with
  | .trap t => s.trap t
  | .defer t => s.deferFault t
  | .hold w s => .next (s.hold w)
  | .remote m a s =>
    match s.grant with
    | some _ => .next s.useGrant
    | none => s.gated fun s => s.askRemote m .store a [n, x % 2 ^ (8 * n)]
  | .ok pa cached s =>
    let c := cached.getD (0, 0)
    let b : BufStore := { pa := pa, n := n, data := x % 2 ^ (8 * n), home := c.1, line := c.2, l1 := s.selfL1 }
    match s.selfTask.filter fun t =>
        !t.irrevocable && bufferable s.selfZone pa (s.bufferLine va cached) && (bufferLines (t.buffer ++ [b])).length ≤ 64 with
    | some t => .next (s.storeBuffered t b va cached)
    | none => s.gated fun s => .next (s.issueStore va pa n (x % 2 ^ (8 * n)) cached)

/-! ## Structures that an instruction reads (R220) -/

/-- A command's own read of items of `w` bytes, as loads in order; the first failing address is reported. Earlier
stores of the strand are seen, since the caller drains them first. -/
inductive ReadBack where
  | stop (r : Res)
  | data (x : Nat) (s : State)

/-- In a speculative task what the task may not buffer makes it irrevocable first (R181), and the rest enters its read set
(R182). A structure is not read through another module's window: R450 lists no such instruction; the trap is DESIGN CHOICE
(log 78). -/
def State.readItems (s0 : State) (va : Word) (w : Nat) : Nat → Nat → Nat → State → ReadBack
  | 0, _, acc, s => .data acc s
  | k + 1, i, acc, s =>
    let a := va + BitVec.ofNat 64 (w * i)
    match s.check .load a w with
    | .trap t => .stop (s0.trap t)
    | .defer t => .stop (s0.deferFault t)
    | .hold h s => .stop (.next (State.hold { s0 with pri := s.pri, outputs := s.outputs } h))
    | .remote _ a _ => .stop (s0.trap (protAt 0 .load a))
    | .ok pa cached s =>
      match s.selfTask.filter fun t => !t.irrevocable && bufferable s.selfZone pa (s.bufferLine a cached) with
      | some t =>
        let s := (s.touch pa).account a pa cached .read
        let s := s.mapSelfTask t.order fun u => { u with reads := setInsert (pa / 64) u.reads }
        s0.readItems va w k (i + 1) (acc + bufferRead t.buffer s pa w * 2 ^ (8 * w * i)) s
      | none =>
        match s.irrevocably with
        | none => .stop (.next (s0.hold .oldest))
        | some s =>
          let s := ((s.touch pa).account a pa cached .read).touchLine s.selfTag (pa / 64)
          let x := if paIsSystem pa then s.sysRead pa w else s.readPa pa w
          s0.readItems va w k (i + 1) (acc + x * 2 ^ (8 * w * i)) s

/-- `n` items of `w` bytes at `va` (R220). A conflict that the read uncovers rolls the task back, and the pair with it. -/
def State.readBack (s : State) (va : Word) (w n : Nat) : ReadBack :=
  if s.cur.stopped then .stop (.next s)
  else match s.readItems va w n 0 0 s with
    | .stop r => .stop r
    | .data x s => let s := s.settleSelf; if s.cur.stopped then .stop (.next s) else .data x s
/-- `n` doublewords at `va` as one little-endian number (R220). -/
def State.readStruct (s : State) (va : Word) (n : Nat) (f : Nat → State → Res) : Res :=
  match s.readBack va 8 n with
  | .stop r => r
  | .data x s => f x s

end Sys2Proof.Machine
end

