-- ==== Sys2Proof/Machine/Control.lean ====
section
/-! DEFINITION. Control flow: branches, jumps, DBNZ, END, YIELD, PAUSE and its expiry (05 R96–R99, R242). -/

namespace Sys2Proof.Machine

/-- An instruction that handlers, tasks, atelier strands or shadow handlers may not run traps ILLEGAL there
(R173, R183, R306, R391). -/
def State.barred (s : State) (handler task atelier shadow : Bool) : Bool :=
  (handler && s.before.inHandler) || (task && s.before.inTask) || (atelier && s.inAtelier) || (shadow && s.before.inShadow)
def State.unless (s : State) (bar : Bool) (r : Res) : Res := if bar then s.illegal else r

/-- The target checks of R96; `aligned` for the register jumps. -/
def State.checkTarget (s : State) (t : Word) (aligned : Bool) (r : Res) : Res :=
  if aligned && t.extractLsb' 0 3 != 0#3 then s.trapAt causeMisaligned t
  else if t.extractLsb' 57 7 != 0#7 then s.trap (protAt 0 .fetch t)
  else r

/-- t of the BRN and LOOP forms: pairs from the branch's own pair (R77, R96, R98). -/
def branchTarget {n : Nat} (pc : Word) (off : Ext n) : Word :=
  let d : Word := match off.lit with
    | none => off.short.signExtend 64
    | some l => (l ++ off.short).signExtend 64
  pc + 8#64 * d
/-- PC + 8, as BRL and JMPL write it to g15. -/
def State.linkPc (s : State) : Word := s.pairPc + 8#64

/-- BR (R96). -/
def execBr (off : Ext 21) (s : State) : Res :=
  let t := branchTarget s.pairPc off
  s.checkTarget t false (.next (s.setPc t))
/-- BRL (R96). -/
def execBrl (off : Ext 21) (s : State) : Res :=
  let t := branchTarget s.pairPc off
  s.checkTarget t false (.next ((s.setG 15#4 s.linkPc).setPc t))
/-- JMP (R96). -/
def execJmp (a : Src) (s : State) : Res := s.checkTarget (s.g a) true (.next (s.setPc (s.g a)))
/-- JMPL (R96): reads the old g15, writes the new one. -/
def execJmpl (a : Src) (s : State) : Res := s.checkTarget (s.g a) true (.next ((s.setG 15#4 s.linkPc).setPc (s.g a)))
/-- RET (R96). -/
def execRet (s : State) : Res := s.checkTarget (s.gr 15#4) true (.next (s.setPc (s.gr 15#4)))
/-- DBNZ (R98): the target is checked only when the branch is taken. -/
def execDbnz (d : Reg) (off : Ext 17) (s : State) : Res :=
  let n := s.gr d - 1#64
  let t := branchTarget s.pairPc off
  if n = 0#64 then .next (s.setG d n) else s.checkTarget t false (.next ((s.setG d n).setPc t))

/-- A retired strand leaves its slot free and nothing behind (R145). -/
def State.retire (s : State) (k : Nat) : State :=
  { s.setStrand k {} with accesses := s.accesses.filter fun a => a.strand != k }
/-- Every access of the strand has completed and every register is full (R99, R176, R231, R236). -/
def State.drained (s : State) (k : Nat) : Bool :=
  !s.outstanding k && (s.strand k).regs.gf == BitVec.allOnes 16 && (s.strand k).regs.vf == BitVec.allOnes 16
def State.onceDrained (s : State) (r : Res) : Res :=
  if s.drained s.cur.strand then r else .next (s.hold .accesses)

/-- The DORMANT slots of a core, lowest first. -/
def State.dormantSlots (s : State) (core : Nat) : List Nat :=
  (List.range 8).filter fun i => (s.strand (strandOf core i)).st == .dormant
/-- Strands that bound launches have yet to start on a core. -/
def State.promised (s : State) (core : Nat) : Nat :=
  s.launches.values.foldl
    (fun n l => if l.bound && !l.saved && l.toWake.any (fun i => s.physCore? (l.cids.getD i 0) == some core) then n + recSpc l.record else n) 0
/-- The lowest DORMANT strand slot of a core, while it has more of them than are promised to launches that have bound: those a
launch birth never finds taken (R146). -/
def State.freeSlot (s : State) (core : Nat) : Option Nat :=
  if (s.dormantSlots core).length ≤ s.promised core then none else (s.dormantSlots core).head?
/-- A birth or arrival in a slot. A tile that hosted nothing receives its kept-back token (R184, R204). The birth of a strand in a
CC slot clears its carry slot's valid bit (R348). -/
def State.birth (s : State) (core slot : Nat) (x : Strand) : State :=
  let s := if coreIsAtelier core || s.hosts (coreSite core) then s else s.beginHosting (coreSite core)
  let s := s.setStrand (strandOf core slot) x
  if coreIsAtelier core || !coreIsCC core then s
  else
    let t := s.tile (coreSite core)
    s.setTile (coreSite core) { t with carryValid := setRemove slot t.carryValid }

/-- END (R99). -/
def execEndStrand (s : State) : Res :=
  s.unless (s.barred true true false true) (s.onceDrained (.next (s.retire s.cur.strand)))
/-- YIELD (R99). The strand keeps READY; a core takes its slots in rotation from the one after the last to issue (R147),
so every other READY strand issues a pair before this one's next. A shadow handler, which else issues ahead of the core's
strands (R305), leaves the turn to each of them that is READY. -/
def State.yieldTurn (s : State) : State :=
  if s.before.inShadow then
    let core := s.selfCore
    let ready := (List.range 8).filter fun i => (s.strand (strandOf core i)).st == .ready
    s.setCore core { s.core core with yieldTo := ready }
  else s
def execYieldTurn (s : State) : Res := .next s.yieldTurn

/-- The nanoseconds in which `n` core cycles of a zone have passed (R6, R17). -/
def cyclesNs (zone n : Nat) : Nat := ceilDiv (10 * n) (Config.cyclesPer10ns (Config.zonePoint zone))
/-- PAUSE (R99): at most 2^24 core cycles; a count of 0 yields. -/
def execPause (a : Src) (s : State) : Res :=
  s.unless (s.barred true true false false)
    (let n := min (s.g a).toNat (2 ^ 24)
     if n = 0 then .next s.yieldTurn
     else .next (s.setSelf { s.self with st := .waiting (.pause (s.time + cyclesNs s.selfZone n)) }))
/-- PAUSE_EXPIRY (R99): the paused strand `input.strand` becomes READY once its time is reached; while its tenant is frozen the pause
stands still (R429). -/
def execPauseExpiry (s : State) : Res :=
  let x := s.strand s.input.strand
  match x.st with
  | .waiting (.pause t) => if t ≤ s.time && !s.frozen (s.tenantOf s.input.strand) then .next (s.wake s.input.strand) else .next s
  | _ => .next s

end Sys2Proof.Machine
end

