-- ==== Sys2Proof/Machine/Engine.lean ====
section
/-! DEFINITION. What the engines share: channels, identifiers and completion records (13 R317–R319), the checks of a
range at issue (R321), an engine's own accesses, and engine-fault reports (R316, R395). -/

namespace Sys2Proof.Machine

/-! ## Channels and identifiers (R317) -/

def Core.next (c : Core) (ch : Nat) : BitVec 32 := c.cnext.getD ch 0#32
def Core.low (c : Core) (ch : Nat) : BitVec 32 := c.cdone.getD ch 0#32
/-- An operation counts as outstanding until the watermark has passed it. -/
def Core.outstanding (c : Core) (ch : Nat) : Nat := (c.next ch - c.low ch).toNat
def Core.outstandingAll (c : Core) : Nat := (List.range 16).foldl (fun n ch => n + c.outstanding ch) 0
def Core.room (c : Core) (ch : Nat) : Bool := c.outstanding ch < 32 && c.outstandingAll < 64
def issuedId (c : Core) (ch : Nat) (i : BitVec 32) : Bool := (c.next ch - i - 1#32).toNat < 2 ^ 31
def completeId (c : Core) (ch : Nat) (i : BitVec 32) : Bool := (c.low ch - i - 1#32).toNat < 2 ^ 31

/-! ## Records (R318, R319) -/

def recordWord (sts pcnt dcnt : Nat) : Word := BitVec.ofNat 64 (sts * 2 ^ 61 + pcnt % 2 ^ 26 * 2 ^ 32 + dcnt % 2 ^ 32)
/-- The first status of R318's list that applies. -/
def OpStatus.code (t : OpStatus) : Nat :=
  if t.cancelled then 4 else if t.linkLost then 3 else if t.range then 5 else if t.poisoned then 1
  else if t.overflow then 6 else 0

/-- The watermark after `fuel` identifiers at most: the oldest one that an operation still holds. -/
def advanceLow (busy : BitVec 32 → Bool) (next : BitVec 32) : Nat → BitVec 32 → BitVec 32
  | 0, low => low
  | fuel + 1, low => if low = next ∨ busy low then low else advanceLow busy next fuel (low + 1#32)

/-- ATTS and KVNEXT take no channel: they report in g[D] (R352). -/
def OpKind.onChannel : OpKind → Bool
  | .atts => false
  | .kvnext => false
  | _ => true
/-- Is this the operation that holds an identifier? -/
def Op.is (o : Op) (core ch : Nat) (id : BitVec 32) : Bool := o.kind.onChannel && o.core == core && o.ch == ch && o.id == id

/-- Identifier `id` of a channel completes with a record word; CDONE advances over all that are done (R317). -/
def State.complete (s : State) (core ch : Nat) (id : BitVec 32) (word : Word) : State :=
  let s := { s with ops := s.ops.filter fun o => !o.is core ch id }
  let c := s.core core
  let busy (i : BitVec 32) : Bool := s.ops.any fun o => o.is core ch i
  s.setCore core
    { c with
      records := c.records.set (32 * ch + id.toNat % 32) { id := id, word := word }
      cdone := c.cdone.set ch (advanceLow busy (c.next ch) 64 (c.low ch)) }

/-- An operation ends with its own status. -/
def State.finishOp (s : State) (o : Op) : State := s.complete o.core o.ch o.id (recordWord o.st.code o.pcnt o.dcnt)

/-- Replace an operation of the list. -/
def State.setOp (s : State) (i : Nat) (o : Op) : State := { s with ops := s.ops.set i o }

/-! ## Issue -/

/-- The channel that a modifier word names. -/
def modCh (m : BitVec 32) : Nat := (m.extractLsb' 0 4).toNat
/-- An operation of the issuing strand on channel `ch`, with its captured operands. -/
def State.newOp (s : State) (ch : Nat) (kind : OpKind) (m : BitVec 32) (args : List Word) : Op :=
  { core := s.selfCore, ch := ch, id := (s.core s.selfCore).next ch, strand := s.cur.strand, launch := s.cur.before.launch
    tenant := s.selfTenant, part := s.selfPart, kind := kind, mod := m, args := args, fmt := s.cur.before.regs.fmt }
/-- An operation's identifier is issued: CNEXT advances, and its record slot holds it, not complete (R317, R318). -/
def Core.issue (c : Core) (o : Op) : Core :=
  { c with cnext := c.cnext.set o.ch (o.id + 1#32), records := c.records.set (32 * o.ch + o.id.toNat % 32) { id := o.id, word := 0xE000000000000000#64 } }
/-- Take the identifier: g[D] := i. -/
def State.takeId (s : State) (d : Reg) (o : Op) : State :=
  (s.setCore o.core ((s.core o.core).issue o)).setG d (o.id.setWidth 64)
/-- The command waits while its channel or core is full (R317). -/
def State.withRoom (s : State) (ch : Nat) (r : Res) : Res :=
  if (s.core s.selfCore).room ch then r else .next (s.hold (.channelRoom ch))
/-- Fork an operation (R291): the core's earlier accesses come first. It keeps the regions that its checks have met (R251, R316). -/
def State.fork (s : State) (d : Reg) (o : Op) : Res :=
  let o := { o with regions := s.cur.regions }
  let s := s.drainCore s.selfCore
  .next { s.takeId d o with ops := (s.takeId d o).ops ++ [o] }
/-- RANGE, or OK, at issue: the identifier is taken and completes at once (R318, R321). -/
def State.atOnce (s : State) (d : Reg) (o : Op) (sts : Nat) : Res :=
  .next ((s.takeId d o).complete o.core o.ch o.id (recordWord sts 0 0))
/-- A trap whose TADDR the spec does not name. -/
def State.trapOpen (s : State) (cause : BitVec 6) : Res :=
  s.trapAt cause (Config.openAddress s.free)

/-! ## Range checks at issue (R321) -/

/-- Whether an address lies in the scratch aperture; a range may not mix it with other space. -/
def inScratch (a : Nat) : Bool := a / 2 ^ 48 == 0x1FF

/-- A region that the pair's operation lies in (R251, R316). -/
def State.noteRegion (s : State) (r : Region) : State :=
  if s.cur.regions.contains r then s else s.setCur { s.cur with regions := s.cur.regions ++ [r] }
/-- One address of a range. The first pass (`plb` false) judges the address itself, the second its rights. A window of the own
module is judged as what it names there (R449). -/
def State.checkPiece (s : State) (w : Who) (acc : Acc) (plb scratch windows : Bool) (a : Nat) : Except TrapInfo State :=
  let va : Word := BitVec.ofNat 64 a
  let bad : Except TrapInfo State := .error (protAt 0 acc va)
  let inPart (x : Nat) : Except TrapInfo State :=
    if (s.scratchTarget (fun z => (s.part w.part).hasZone z) x).isSome then .ok s else bad
  if coreIsAtelier w.core then
    (match s.resolvePhysical acc va with
     | .error t => .error t
     | .ok _ => .ok s)
  else if a ≥ 2 ^ 57 then bad
  else
    let k := a / 2 ^ 48
    if k = 0x1FE ∨ inScratch a ≠ scratch then bad
    else if scratch then inPart a
    else if 0x100 ≤ k ∧ k < 0x180 then
      (if !windows || !s.reachable w.part (k % 64) then bad
       else if k % 64 ≠ s.ownModule w.part then .ok s
       else if 0x140 ≤ k then inPart (0x1FF * 2 ^ 48 + a % 2 ^ 48)
       else if plb then
         (match s.protect w acc (BitVec.ofNat 64 (a % 2 ^ 48)) with
          | .error t => .error { t with addr := va }
          | .ok (r, s) => .ok (s.noteRegion r))
       else .ok s)
    else if plb then
      (match s.protect w acc va with
       | .error t => .error t
       | .ok (r, s) => .ok (s.noteRegion r))
    else .ok s

/-- The first failing address after good address `good` when `a` fails: rights change at 64 KiB, a tile's user scratch ends
anywhere. -/
def State.firstBad (s : State) (good a : Nat) : Nat :=
  match s.site? (bits a 42 6) (bits a 38 4) (bits a 34 4) with
  | some site =>
    let edge := a / 2 ^ 22 * 2 ^ 22 + s.userScratch site
    if good < edge && edge ≤ a then edge else a
  | none => a
/-- Does an address name scratch of this module, in the aperture or in the own module's window (R449)? -/
def State.ownScratch (s : State) (w : Who) (a : Nat) : Bool :=
  !coreIsAtelier w.core && (inScratch a || a / 2 ^ 48 == 0x140 + s.ownModule w.part)
/-- An address of a range that follows good address `good`. -/
def State.checkAfter (s : State) (w : Who) (acc : Acc) (plb scratch windows : Bool) (good a : Nat) : Except TrapInfo State :=
  match s.checkPiece w acc plb scratch windows a with
  | .error t => .error (if s.ownScratch w a then { t with addr := BitVec.ofNat 64 (s.firstBad good a) } else t)
  | .ok s => .ok s

/-- The pieces of a range from `a`: each next one starts at the next 64 KiB boundary, where a region may begin. -/
def State.checkPieces (w : Who) (acc : Acc) (plb scratch windows : Bool) (last : Nat) :
    Nat → Nat → Nat → State → Except TrapInfo State
  | 0, _, _, s => .ok s
  | fuel + 1, good, a, s =>
    match s.checkAfter w acc plb scratch windows good a with
    | .error t => .error t
    | .ok s =>
      let next := (a / 65536 + 1) * 65536
      if next > last then (if a = last then .ok s else s.checkAfter w acc plb scratch windows a last)
      else State.checkPieces w acc plb scratch windows last fuel a next s

/-- A range of an operation: the right it needs, its first address, its length, and whether it began in scratch. -/
structure RangeUse where
  acc : Acc
  a : Nat
  n : Nat
  scratch : Bool
  deriving DecidableEq, Repr
def use (acc : Acc) (a : Word) (n : Nat) : RangeUse := ⟨acc, a.toNat, n, inScratch a.toNat⟩

def State.checkPass (s : State) (w : Who) (windows plb : Bool) : List RangeUse → Except TrapInfo State
  | [] => .ok s
  | u :: t =>
    if u.n = 0 then s.checkPass w windows plb t
    else
      match State.checkPieces w u.acc plb u.scratch windows (u.a + u.n - 1) (u.n / 65536 + 2) u.a u.a s with
      | .error e => .error e
      | .ok s => s.checkPass w windows plb t
/-- Steps 2 and 3 of R321 over the ranges in order. -/
def State.checkRanges (s : State) (w : Who) (windows : Bool) (us : List RangeUse) : Except TrapInfo State :=
  match s.checkPass w windows false us with
  | .error e => .error e
  | .ok s => s.checkPass w windows true us

/-! ## An engine's own accesses -/

/-- Where an engine's access lands; protection was judged at issue (R316). -/
inductive Reach where
  | at (pa : Nat) (cached : Option (Nat × Nat)) (s : State)
  | fault (t : TrapInfo)
  /-- its tile is quarantined or absent, or the host has been asked and has not answered yet: the part waits -/
  | gone (s : State)
  | away (module : Nat)

/-- Host pages may be refused, or wait for the host's answer (R458). -/
def State.reachHost (s : State) (w : Who) (acc : Acc) (va : Word) (pa : Nat) (cached : Option (Nat × Nat)) : Reach :=
  match s.hostGate w.fn w.asker acc va pa cached with
  | .pass => .at pa cached s
  | .refused t => .fault t
  | .wait s => .gone s
/-- HOMES of the region that an operation's address lay in at issue; an address that no range named is judged by the table. -/
def State.opHomes (s : State) (o : Op) (va : Nat) : BitVec 64 :=
  match o.regions.find? fun r => r.covers va with
  | some r => r.homes
  | none => match s.lookupRegion o.tenant va with
    | .found r => r.homes
    | _ => 0#64
def State.reachPlace (s : State) (w : Who) (acc : Acc) (report : Word) (r : Resolved) : Reach :=
  match r with
  | .error t => .fault t
  | .ok (.phys pa c, s) => s.reachHost w acc report pa c
  | .ok (.remote m _, _) => .away m
  | .ok (.held _, _) => .gone s
  | .ok (.busy, _) => .gone s
/-- An ordinary address, whose rights were judged at issue; a fault reports `report`, which is the window's when one was used
(R449). -/
def State.reachVirtual (s : State) (o : Op) (acc : Acc) (va report : Word) : Reach :=
  s.reachPlace o.who acc report (s.settle acc va (s.opHomes o va.toNat) report)
/-- A scratch address, judged at issue for the whole operation: no part is refused for what is narrowed later, and where its tile is
gone meanwhile, the part waits for a MAPSET (R316). -/
def State.reachScratch (s : State) (a : Nat) : Reach :=
  match s.site? (bits a 42 6) (bits a 38 4) (bits a 34 4) with
  | none => .gone s
  | some site => if s.siteWaits site then .gone s else .at (sramPa site (bits a 0 22)) none s
/-- How another module refuses a part that it was asked for (R449). R316 gives a granule that is refused with PROT no fate, and R449
speaks of a trap at the issuer, which an operation is not: it is held and reported, and its tenant frozen. DEDUCED (log 129). -/
def State.farFault (s : State) (acc : Acc) (va : Word) : Option TrapInfo :=
  match s.input.far with
  | some .prot => some (protAt 0 acc va)
  | some .notPresent => some { cause := causePageNotPresent, addr := va, info := accInfo acc }
  | some .ownerHost => some { cause := causeOwnerHost, addr := va, info := accInfo acc }
  | _ => none
def State.reach (s : State) (o : Op) (acc : Acc) (va : Word) : Reach :=
  let k := windowOf va
  if coreIsAtelier o.core then
    (if paIsScratch va.toNat then s.reachScratch va.toNat else s.reachPlace o.who acc va (s.resolvePhysical acc va))
  else if k = 0x1FF then s.reachScratch va.toNat
  else if 0x100 ≤ k ∧ k < 0x180 then
    (if k % 64 ≠ s.ownModule o.part then .away (k % 64)
     else if k < 0x140 then s.reachVirtual o acc (va &&& 0x0000FFFFFFFFFFFF#64) va
     else s.reachScratch va.toNat)
  else s.reachVirtual o acc va va
/-- A granule with its poison mark, as `Op.data` keeps it. -/
def marked512 (x : Nat) (p : Bool) : Nat := x % 2 ^ 512 + b2n p * 2 ^ 512
/-- A part of an operation leaves for module `m` on class `cls`: its tag (the core, the channel, the identifier, the element, R456), and
what is done there. The operation keeps the data `x` until the answer comes, and a GREPLAY sends the same tag again. -/
def State.askModule (s : State) (o : Op) (m cls e : Nat) (what : List Nat) (x : Nat) : State :=
  let s := s.transmit { part := o.part, module := m, cls := cls, what := o.core :: o.ch :: o.id.toNat :: e :: what
                        op := some ⟨o.core, o.ch, o.id, e⟩ }
  { s with ops := s.ops.map fun p => if p.is o.core o.ch o.id then { p with asked := p.asked.set e x } else p }

/-- A read or write of an engine is charged to its tenant, and rolls speculative tasks back (R182, R312). -/
def State.engineTouch (s : State) (o : Op) (pa : Nat) (cached : Option (Nat × Nat)) (write : Bool) : State :=
  let s := s.touch pa
  let s := match cached with
    | none => s
    | some c => s.chargeFor (if coreIsAtelier o.core then none else some o.tenant) c (pa / 64) none (useOf write)
  s.touchLine none (pa / 64)

/-- The KIND 1 report of a held part (R316, R357, R395). -/
def State.engineFault (s : State) (o : Op) (t : TrapInfo) (detail : Word) : State :=
  let s := s.faultMet t
  let frz := t.cause == causeProt
  let s := if frz then s.freezeTenant o.tenant else s
  s.report
    { zone := coreZone o.core, standby := false, slot := coreMbxSlot o.core
      body := recordBody 1 o.part o.tenant frz t.cause.toNat 0 (opTarget o.core o.ch o.id) 0#64 t.addr t.info detail }
/-- Hold part `k` of operation `i`, reported once (R316). -/
def State.holdPart (s : State) (i : Nat) (o : Op) (k : Nat) (t : TrapInfo) : State :=
  if o.held.contains k then s else (s.engineFault o t 0#64).setOp i { o.unask k with held := setInsert k o.held }

/-! ## Deadlines (R427, R492) -/

/-- Time counted towards a launch's deadline at wafer time `t`. -/
def Launch.used (l : Launch) (t : Nat) : Nat := l.usedNs + (match l.since with
  | some b => t - b
  | none => 0)
/-- The last sample (R492). -/
def lastSample (now : Nat) : Nat := now / 1000 * 1000
/-- The launch is past its deadline at the last sample before `now`: its expiry comes before anything else (R492). -/
def Launch.expired (l : Launch) (now : Nat) : Bool :=
  l.bound && !l.saved && l.since.isSome && l.wdtUs * 1000 ≤ l.used (lastSample (now - 1))
/-- Does a launch's deadline run: is it bound and counted, and its partition able to drain (R427)? -/
def State.deadlineRuns (s : State) (l : Launch) : Bool :=
  let p := s.part l.part
  l.bound && !l.saved && l.since.isSome && !p.frozen && (p.gang == .running || p.gang == .armed || p.gang == .saved)
/-- The sample at which a launch expires: the first at or after its deadline (R492). -/
def Launch.dueAt (l : Launch) : Nat := (l.since.getD 0 + l.wdtUs * 1000 - l.usedNs + 999) / 1000 * 1000
/-- The launches that expire first, if any does by wafer time `t`: when, and which. -/
def State.expiries (s : State) (t : Nat) : Option (Nat × List Nat) :=
  let due := (s.launches.entries.filter fun e => s.deadlineRuns e.2 && e.2.dueAt ≤ t).map fun e => (max s.time e.2.dueAt, e.1)
  match due with
  | [] => none
  | d :: _ =>
    let first := due.foldl (fun m e => min m e.1) d.1
    some (first, (due.filter fun e => e.1 == first).map (·.2))
/-- A launch of the partition has expired. -/
def State.overdue (s : State) (p : Nat) : Bool := s.launches.values.any fun l => l.part == p && l.expired s.time

/-- Is operation `o` stopped: its partition's gang has stopped, or its tenant is frozen (R316, R419, R429)? -/
def State.partRuns (s : State) (p : Nat) : Bool :=
  let q := s.part p
  !q.frozen && !s.overdue p && (q.gang == .running || q.gang == .saved || (q.gang == .armed && s.time < q.stamp))
/-- An operation between two of its boundaries: a stop, a freeze's too, takes effect only at the next one (R419, R429). A TSST that
has taken a row from the tile store and not yet written all of it goes on to the end of the row, and ACLD and ACST complete (R335). An
element that has begun is formed again instead (`Op.atBoundary`, R375). -/
def Op.midStep (o : Op) : Bool :=
  !o.st.cancelled && (match o.kind with
    | .ts 1 =>
      let n := (o.args.getD 2 0#64).toNat
      (List.range n).any fun r => o.done.contains (4 * n + r) && !(List.range 4).all fun j => o.done.contains (4 * r + j)
    | .acc _ => true
    | _ => false)
/-- Of the MXE's queue, only the first instruction has begun (R331). -/
def State.midStep (s : State) (o : Op) : Bool :=
  o.midStep && (!o.kind.isMxe || ((s.ops.find? fun p => p.core == o.core && p.kind.isMxe).any fun p => p.ch == o.ch && p.id == o.id))
/-- A stop or a freeze lets an operation reach its next boundary (R419, R429). -/
def State.opRuns (s : State) (o : Op) : Bool :=
  let p := s.part o.part
  coreIsAtelier o.core
    || (!s.silent (coreSite o.core) && (s.partRuns o.part
      || ((p.gang == .running || p.gang == .armed || p.gang == .stopping || p.gang == .saved) && s.midStep o)))
/-- Accesses of one core to one tile's scratch take effect in issue order: an earlier operation of the core that is still to access
a tile of this one comes first (R286). -/
def State.tileTurn (s : State) (i : Nat) (o : Op) : Bool :=
  let mine := s.opTiles o
  mine.isEmpty || !((s.ops.take i).any fun p => p.core == o.core && (s.opTiles p).any fun t => mine.contains t)
/-- The operation at a place of the list, if it may run. -/
def State.runningOp? (s : State) (i : Nat) : Option Op :=
  match s.ops[i]? with
  | some o => if s.opRuns o && s.tileTurn i o then some o else none
  | none => none

end Sys2Proof.Machine
end

