-- ==== Sys2Proof/Machine/Message.lean ====
section
/-! DEFINITION. Messages, mailboxes and handlers: SEND, MBCFG, HEND and the events of R170 and R171
(07 R169–R175, 09 R222–R224, R230, R231, 17 R398–R400). -/

namespace Sys2Proof.Machine

/-! ## Messages (R222) -/

/-- The 64 bytes of a message in its ring slot. -/
def Message.body (m : Message) : Nat :=
  m.payload.toNat * 2 ^ 128 + m.msgid.toNat * 2 ^ 64 + m.sts.toNat * 2 ^ 48 + m.tag.toNat * 2 ^ 32 + m.src.toNat
/-- The message on its way back with a status (R170). -/
def Message.back (m : Message) (sts : BitVec 4) : Message := { m with sts := sts, target := m.srcCore }
/-- A message sets out. One to another module leaves on a port of its route (R444), and stays here until its fate is known. -/
def State.pushMessage (s : State) (m : Message) : State :=
  let s := { s with messages := s.messages ++ [m] }
  match m.module with
  | some mo =>
    if m.sts == 0#4 then
      s.transmit
        { part := (s.zonePart (coreZone m.srcCore)).getD 0, module := mo, cls := 2
          what := [m.target, m.mbox, m.body] }
    else s
  | none => s

/-- Send messages of a strand now; a handler's are held until HEND (R173). -/
def State.sendMessage (s : State) (m : Message) : State :=
  match s.self.handler with
  | some h => s.setSelf { s.self with handler := some { h with held := h.held ++ [m] } }
  | none => s.pushMessage m
/-- A handler's buffer of 16 sends is full (R173). -/
def State.sendBufferFull (s : State) : Bool :=
  match s.before.handler with
  | some h => 16 ≤ h.held.length
  | none => false

def sendMbox (m : BitVec 32) : Nat := (m.extractLsb' 0 3).toNat
def sendReturnedForm (m : BitVec 32) : Bool := m.getLsbD 3

/-- SEND after its target is known (R223). -/
def State.sendTo (s : State) (d : Reg) (b : Src) (m : BitVec 32) (l : Launch) (target : Nat) (module : Option Nat) : Res :=
  let finish (payload : Nat) (s : State) : Res :=
    if s.sendBufferFull then s.trapWith causeMailboxFull 0#64 16#64
    else
      let core := s.selfCore
      let c := s.core core
      let msg : Message :=
        { src := BitVec.ofNat 22 (s.cidWord l core), msgid := c.sendSerial, tag := m.extractLsb' 16 16
          payload := BitVec.ofNat 384 payload, srcCore := core, target := target, mbox := sendMbox m, module := module }
      let s := s.setCore core { c with sendSerial := c.sendSerial + 1#32 }
      .next ((s.sendMessage msg).setG d (c.sendSerial.setWidth 64))
  let s := s.drainCore s.selfCore
  if s.g b = 0#64 then finish 0 s else s.readStruct (s.g b) 6 finish

/-- SEND with RQ = 0 (R223). -/
def execSend (d : Reg) (a b : Src) (m : BitVec 32) (s : State) : Res :=
  s.unless (s.barred false false false true)
    (s.gated fun s =>
      let cid := (s.g a).toNat % 2 ^ 22
      let absent := s.trapWith causeHopTargetAbsent 0#64 (BitVec.ofNat 64 cid)
      if s.g b != 0#64 && !(multiple8 (s.g b)) then s.trapAt causeMisaligned (s.g b)
      else match s.selfLaunch with
        | none => absent
        | some l =>
          match s.target l cid with
          | .here c => s.sendTo d b m l c none
          | .away mo => s.sendTo d b m l (cid % 2 ^ 16) (some mo)
          | .absent => absent)
where
  multiple8 (x : Word) : Bool := x.toNat % 8 == 0

/-- SEND with RQ = 1 (R224): takes the oldest returned message. The address is judged whether or not there is one. DEDUCED (log 125). -/
def execSendReturned (d : Reg) (a : Src) (_ : BitVec 32) (s : State) : Res :=
  s.unless (s.barred false false false true)
    (s.gated fun s =>
      let core := s.selfCore
      let c := s.core core
      let va := s.g a
      if va.toNat % 64 ≠ 0 then s.trapAt causeMisaligned va
      else match c.returned with
        | [] => .next (s.setG d minusOne)
        | m :: rest =>
          match s.check .store va 64 with
          | .trap t => s.trap t
          | .defer t => s.deferFault t
          | .hold w s => .next (s.hold w)
          | .remote _ a _ => s.trap (protAt 0 .store a)
          | .ok pa cached s =>
            let s := (s.setCore core { s.core core with returned := rest }).issueStore va pa 64 m.body cached
            .next (s.setG d (m.sts.setWidth 64)))

/-! ## Arrival and return (R170) -/

def Mailbox.occupied (m : Mailbox) : Bool := (m.waiting.any fun e => e.1 == m.next) || m.given.contains m.next
/-- The physical address of a ring slot: the ring lies in its own tile's scratch. -/
def ringSlotPa (core : Nat) (m : Mailbox) (slot : Nat) : Nat := sramPa (coreSite core) (m.ring.toNat % 2 ^ 22 + 64 * slot)

/-- The message takes the next ring slot, or turns back; at a tile whose SRAM has failed it waits at the interface (R487). -/
def State.deliver (s : State) (m : Message) : State :=
  let site := coreSite m.target
  if s.deadSite site then s.pushMessage { m.back 3#4 with held := some site }
  else if s.silent site then s.pushMessage { m with held := some site }
  else
    let c := s.core m.target
    match c.mboxes.find? m.mbox with
    | none => s.pushMessage (m.back 2#4)
    | some b =>
      if b.occupied then s.pushMessage (m.back 1#4)
      else
        let s := s.writePa (ringSlotPa m.target b b.next) 64 m.body
        s.setCore m.target
          { c with mboxes := c.mboxes.set m.mbox { b with waiting := b.waiting ++ [(b.next, m)], next := (b.next + 1) % 64 } }

/-- The core that CORE number `i` of a launch bound here names, or of this member's partition for a launch bound on the other
module alone: what another member's request goes to (R445). -/
def State.memberCore (s : State) (part launch i : Nat) : Option Nat :=
  match s.launch? launch with
  | some l => if l.bound && !l.saved && !(s.otherMembers l.part).isEmpty then l.cids[i]?.bind s.physCore? else none
  | none => if (s.otherMembers part).isEmpty then none else (s.presentCores part)[i]?.bind s.physCore?
/-- A message of another member: its 64 bytes as R222 lays them out, its target here, and the module it came from. -/
def Message.received (body target mbox module : Nat) : Message :=
  { src := BitVec.ofNat 22 (bits body 0 22), msgid := BitVec.ofNat 32 (bits body 64 32), tag := BitVec.ofNat 16 (bits body 32 16)
    payload := BitVec.ofNat 384 (bits body 128 384), srcCore := target, target := target, mbox := mbox, origin := some module }
/-- A core whose strands a restore is about to lay back: until then nothing is born there (R426). -/
def State.restoring (s : State) (core : Nat) : Bool :=
  !coreIsAtelier core && ((s.zonePart (coreZone core)).map fun p => (s.part p).gang == .restoring).getD false
/-- What waits at the interface of a site that is quarantined returns DEAD, in the order in which it came (R488). -/
def State.turnAway (s : State) (site : Nat) : State :=
  let waits (m : Message) : Bool := m.sts == 0#4 && m.held == some site
  (s.messages.filter waits).foldl (fun s m => s.pushMessage (m.back 3#4)) { s with messages := s.messages.filter fun m => !waits m }
/-- An earlier message of the same core to the same mailbox is still on its way (R223). -/
def State.messageBlocked (s : State) (i : Nat) (m : Message) : Bool :=
  (s.messages.take i).any fun q =>
    q.sts == 0#4 && q.held.isNone && q.origin.isNone && q.srcCore == m.srcCore && q.target == m.target && q.mbox == m.mbox && q.module == m.module

/-- A message that the same dead site turned away before is still on its way back to the same core (R488). -/
def State.returnBlocked (s : State) (i : Nat) (m : Message) : Bool :=
  m.held.isSome && (s.messages.take i).any fun q => q.sts != 0#4 && q.held == m.held && q.srcCore == m.srcCore

/-- MESSAGE_ARRIVAL (R170): the message at place `input.index` reaches its mailbox. One that goes to another module is
delivered there, or with `input.flag` returned with the status `input.off` (R223, R445, R455). With `input.level` 1, the message
`input.wide` of member module `input.module` reaches mailbox `input.mbox` of core `input.core` of span launch `input.launch`. -/
def execMessageArrival (s : State) : Res :=
  let i := s.input.index
  if s.input.level = 1 then
    match s.memberCore s.input.part s.input.launch s.input.core with
    | none => .next s
    | some c => .next (s.deliver (Message.received s.input.wide.toNat c s.input.mbox s.input.module))
  else match s.messages[i]? with
  | none => .next s
  | some m =>
    if m.sts != 0#4 || m.held.isSome || s.messageBlocked i m then .next s
    else
      let s := { s with messages := s.messages.eraseIdx i }
      match m.module with
      | some _ => .next (if s.input.flag then s.pushMessage (m.back (BitVec.ofNat 4 s.input.off)) else s)
      | none => .next (s.deliver m)

/-- MESSAGE_RETURN (R170): the returned message at place `input.index` enters its sender's queue, or leaves for the module it
came from. -/
def execMessageReturn (s : State) : Res :=
  let i := s.input.index
  match s.messages[i]? with
  | none => .next s
  | some m =>
    if m.sts == 0#4 || s.returnBlocked i m then .next s
    else
      let c := s.core m.srcCore
      let s := { s with messages := s.messages.eraseIdx i }
      match m.origin with
      | some mo =>
        .next (s.transmit
          { part := (s.zonePart (coreZone m.srcCore)).getD 0, module := mo, cls := 2, what := [m.src.toNat, m.mbox, m.body] })
      | none => .next (s.setCore m.srcCore { c with returned := c.returned ++ [m] })

/-! ## Mailboxes (R169, R171, R175, R230, R400) -/

/-- Is the page at an address pinned? -/
def State.pinned (s : State) (va : Word) : Bool :=
  match s.walk va with
  | .leaf l => l.pin
  | .notPresent _ _ => false

/-- May a handler of this mailbox be born (R171)? -/
def Mailbox.ready (m : Mailbox) : Bool := m.thr ≤ m.waiting.length && (!m.ser || m.handlers.isEmpty)

/-- MAILBOX_FIRE (R171, R172, R400): mailbox `input.mbox` of core `input.core` starts a handler in a free slot. -/
def execMailboxFire (s : State) : Res :=
  let core := s.input.core
  let c := s.core core
  match c.mboxes.find? s.input.mbox with
  | none => .next s
  | some m =>
    let l := (s.launch? m.launch).getD
      { part := 0, tenant := 0, queue := 0, record := 0#1024, indirect := false, addr := 0#64, slotAddr := none
        prio := 0#3, ch := 0, lid := 0#32, count := 0#32 }
    if !m.ready || !s.partRuns l.part || s.deadSite (coreSite core) || s.silent (coreSite core) then .next s
    else if !s.pinned m.hpc then
      let s := s.setCore core { c with mboxes := c.mboxes.erase s.input.mbox }
      let s := m.waiting.foldl (fun s e => s.pushMessage (e.2.back 2#4)) s
      .next (s.report
        { zone := coreZone core, standby := false, slot := coreMbxSlot core
          body := recordBody 4 l.part l.tenant false 0 0 (strandTarget (strandOf core 0)) 0#64 0#64 0#64
            (BitVec.ofNat 64 s.input.mbox) })
    else match s.freeSlot core with
      | none => .next s
      | some slot =>
        let take := m.waiting.take m.thr
        let slots := take.map (·.1)
        let first := slots.headD 0
        let msgid := (take.map (·.2)).head?.map (·.msgid)
        let regs : RegFile :=
          { g := ⟨[(1, m.ring + BitVec.ofNat 64 (64 * first)), (2, BitVec.ofNat 64 m.thr), (3, BitVec.ofNat 64 s.input.mbox)]⟩ }
        let x : Strand :=
          { st := .ready, regs := regs, pc := m.hpc, birth := .handler, launch := m.launch, index := BitVec.ofNat 3 slot
            msgid := msgid.getD 0#32
            handler := some { mbox := s.input.mbox, slots := slots, msgs := take.map (·.2), held := [] } }
        let m := { m with waiting := m.waiting.drop m.thr, given := m.given ++ slots, handlers := m.handlers ++ [strandOf core slot] }
        let s := s.setCore core { c with mboxes := c.mboxes.set s.input.mbox m }
        .next (s.birth core slot x)

/-- The ring lies wholly in the core's own tile's user scratch, 4 KiB aligned, apart from every other ring of the tile
(R230). -/
def State.ringOk (s : State) (core mbox : Nat) (ring : Word) : Bool :=
  let a := ring.toNat
  let site := coreSite core
  let others := [2 * site, 2 * site + 1].flatMap fun c =>
    ((s.core c).mboxes.entries.filter fun e => !(c == core && e.1 == mbox)).map fun e => e.2.ring.toNat
  a % 4096 == 0 && inScratch a && s.scratchTarget (fun z => z == coreZone core) a == some (site, a % 2 ^ 22)
    && a % 2 ^ 22 + 4096 ≤ s.userScratch site && !others.contains a

/-- BUSY (R230). -/
def Mailbox.busy (m : Mailbox) (launch : Nat) : Bool :=
  !m.waiting.isEmpty || !m.given.isEmpty || !m.handlers.isEmpty || m.launch != launch

/-- The descriptor of R92 that MBCFG refuses as BADDESC. -/
def badDescriptor (x : Nat) : Bool :=
  bits x 72 56 != 0 || bits x 64 7 == 0 || 64 < bits x 64 7 || bits x 0 3 != 0 || bits x 57 7 != 0

/-- MBCFG (R230). A ring in a remote window traps PROT (R450). R230 does not say what becomes of a descriptor address that is 8-byte
but not 16-byte aligned: it traps MISALIGNED with that address. DESIGN CHOICE (log 98). The descriptor is read, with the traps of
that read, before BUSY is judged. DEDUCED (log 126). -/
def execMbcfg (d : Reg) (a b : Src) (m : BitVec 32) (s : State) : Res :=
  s.unless (s.barred false true true true)
    (let core := s.selfCore
     let mbox := sendMbox m
     let launch := s.before.launch
     let busy := (((s.core core).mboxes.find? mbox).map fun x => x.busy launch).getD false
     if a.r = 0#4 then
       (if busy then .next (s.setG d 3#64)
        else
          let c := s.core core
          .next ((s.setCore core { c with mboxes := c.mboxes.erase mbox }).setG d 0#64))
     else if (s.g a).toNat % 16 ≠ 0 then s.trapAt causeMisaligned (s.g a)
     else
       (s.drainCore core).readStruct (s.g a) 2 fun x s =>
         let hpc : Word := BitVec.ofNat 64 (bits x 0 64)
         if busy then .next (s.setG d 3#64)
         else if badDescriptor x then .next (s.setG d 4#64)
         else if !s.pinned hpc then .next (s.setG d 1#64)
         else if inWindow (s.g b) then s.trap (protAt 0 .store (s.g b))
         else if !s.ringOk core mbox (s.g b) then .next (s.setG d 2#64)
         else
           let c := s.core core
           let box : Mailbox := { launch := launch, hpc := hpc, thr := bits x 64 7, ser := bitAt x 71, ring := s.g b }
           .next ((s.setCore core { c with mboxes := c.mboxes.set mbox box }).setG d 0#64))

/-! ## HEND (R173, R231, R306) -/

/-- The mailbox forgets a handler: its strand and its ring slots. -/
def Mailbox.endHandler (m : Mailbox) (k : Nat) (h : HandlerRun) : Mailbox :=
  { m with given := m.given.filter (fun i => !h.slots.contains i), handlers := m.handlers.filter (· != k) }
def State.mapMailbox (s : State) (core mbox : Nat) (f : Mailbox → Mailbox) : State :=
  let c := s.core core
  match c.mboxes.find? mbox with
  | some m => s.setCore core { c with mboxes := c.mboxes.set mbox (f m) }
  | none => s

/-- HEND (R231): frees the ring slots, releases the held sends in issue order, retires. A shadow handler's HEND ends it
(R306); the operations that waited for it go on at their next step. -/
def execHend (s : State) : Res :=
  let k := s.cur.strand
  let core := s.selfCore
  if s.before.inShadow then
    s.onceDrained
      (let site := s.selfSite
       let s := s.setTile site { s.tile site with shadow := none }
       .next (s.retire k))
  else match s.before.handler with
    | none => s.illegal
    | some h =>
      s.onceDrained
        (let s := s.mapMailbox core h.mbox fun m => m.endHandler k h
         let s := h.held.foldl (fun s m => s.pushMessage m) s
         .next (s.retire k))

end Sys2Proof.Machine
end

