-- ==== Sys2Proof/Machine/Migrate.lean ====
section
/-! DEFINITION. HOP and its packet, and SPAWN (07 R143, R146, R176–R178, 09 R225, R226, 10 R247, 15 R348, R360). -/

namespace Sys2Proof.Machine

/-! ## What a HOP carries (R177) -/

/-- The registers of a strand after a HOP with VMASK. -/
def hopRegs (r : RegFile) (vmask : BitVec 8) : RegFile :=
  { g := r.g.keep fun i => 1 ≤ i && i ≤ 9
    v := r.v.keep fun i => i < 8 && vmask.getLsbD i
    pw := r.pw, fmt := r.fmt, stat := r.stat }

/-- OVFP of a slot of a core for a launch's strands (R247). -/
def State.slotOvfp (s : State) (l : Launch) (core slot : Nat) : Word :=
  let p := s.part l.part
  if p.ovbase = 0#64 then 0#64
  else p.ovbase + BitVec.ofNat 64 (8 * (s.cidIndex? l core).getD 0 + slot) * p.ovstr

/-- The strand as it stands after a HOP into a slot: CID, SLOT, OVFP and the carve-out are the slot's own. -/
def State.hopped (s : State) (core slot launch : Nat) (regs : RegFile) (pc : Word) (birth : Birth) : Strand :=
  let carve := (s.core core).carves.find? slot
  let mine := (carve.map fun c => c.launch == launch).getD false
  { st := .ready, regs := regs, pc := pc, birth := birth, launch := launch, index := BitVec.ofNat 3 slot
    ovfp := ((s.launch? launch).map fun l => s.slotOvfp l core slot).getD 0#64
    carveBase := if mine then (carve.map (·.base)).getD 0 else 0
    carveSize := if mine then (carve.map (·.size)).getD 0 else 0 }

/-- Has a core a carry store: the CC of an A tile (R347, R348)? -/
def hasCarry (core : Nat) : Bool := !coreIsAtelier core && coreIsCC core && tileType (coreSite core) == .attention

/-- A carry slot's bytes, if its block is valid. -/
def Tile.carryBlock (t : Tile) (slot : Nat) : Option (List Byte) :=
  if t.carryValid.contains slot then some (t.carry.readBytes (8192 * slot) 8192) else none
def Tile.clearCarry (t : Tile) (slot : Nat) : Tile :=
  { t with carryValid := setRemove slot t.carryValid }
def Tile.putCarry (t : Tile) (slot : Nat) (b : List Byte) : Tile :=
  { t with carry := t.carry.writeBytes (8192 * slot) b, carryValid := setInsert slot t.carryValid }

/-- Attention instructions of a strand that have not made their whole carry-side effect (R360). A CBST or an ATTN has
once it has captured the block, which sets `pos`. -/
def State.carryBusy (s : State) (k : Nat) : Bool :=
  s.ops.any fun o => o.strand == k && (match o.kind with
    | .att _ => o.pos == 0
    | .atts => true
    | _ => false)

/-! ## HOP (R176, R225) -/

/-- The strand leaves, or moves within its own core. -/
def State.hop (s : State) (cid : Nat) (m : BitVec 32) (target : Nat) (module : Option Nat) : Res :=
  let k := s.cur.strand
  let core := s.selfCore
  let x := s.before
  if !s.drained k then .next (s.hold .accesses)
  else if hasCarry core && s.carryBusy k then .next (s.hold .attention)
  else
    let regs := hopRegs x.regs (m.extractLsb' 0 8)
    let pc := x.pc + 8#64
    if module.isNone && target = core then
      .next (s.setSelf (s.hopped core (strandSlot k) x.launch regs pc x.birth))
    else
      let carry := if hasCarry core && (module.isSome || hasCarry target) then (s.tile s.selfSite).carryBlock (strandSlot k) else none
      let pkt : Packet :=
        { strand := k, target := target, cid := BitVec.ofNat 22 cid, pc := pc, regs := regs, launch := x.launch
          carry := carry, before := { x with st := .ready }, module := module, minTime := s.time }
      let s := { s.setSelf { x with st := .migrating } with packets := s.packets ++ [pkt] }
      .next (match module with
        | some mo => s.transmit { part := s.selfPart, module := mo, cls := 3, what := [k, cid, pc.toNat, s.time] }
        | none => s)

/-- HOP (R225). -/
def execHop (a : Src) (m : BitVec 32) (s : State) : Res :=
  s.unless (s.barred true true false true)
    (let cid := (s.g a).toNat % 2 ^ 22
     let absent := s.trapWith causeHopTargetAbsent 0#64 (BitVec.ofNat 64 cid)
     match s.selfLaunch with
     | none => absent
     | some l =>
       match s.target l cid with
       | .here c => s.hop cid m c none
       | .away mo => s.hop cid m (cid % 2 ^ 16) (some mo)
       | .absent => absent)

/-- The source slot after its strand has been admitted elsewhere; its carry block is gone from it. -/
def State.leave (s : State) (k : Nat) : State :=
  let s := s.retire k
  if hasCarry (strandCore k) then s.setTile (strandSite k) ((s.tile (strandSite k)).clearCarry (strandSlot k)) else s

/-- A packet's strand starts in a free slot of its target. -/
def State.takeIn (s : State) (p : Packet) (slot : Nat) : State :=
  let s := s.birth p.target slot (s.hopped p.target slot p.launch p.regs p.pc p.before.birth)
  let t := s.tile (coreSite p.target)
  match p.carry with
  | some b => if hasCarry p.target then s.setTile (coreSite p.target) (t.putCarry slot b) else s
  | none => s
/-- The launch of a strand that arrives from another member: one that has a number here, or one bound on that member alone, whose
identity comes with its strand (R177, R445): its record in `input.launched`, its count in `input.queue`, its present cores in
`input.item`, its number there in `input.tenant`. Its cores here are numbered as this member's partition is. -/
def State.guestLaunch (s : State) : Launch :=
  let i := s.input
  let r := i.launched
  { part := i.part, tenant := (s.part i.part).tenant, queue := 32, record := r, indirect := false, addr := 0#64, slotAddr := none
    prio := recPrio r, ch := recDone r, lid := 0#32, count := BitVec.ofNat 32 i.queue, bound := true, cids := s.presentCores i.part
    remote := i.item, origin := some i.module, guest := some (i.tenant, 0) }
/-- Its number here: the operand's, or that of an earlier strand's launch, or the next. -/
def State.guestNumber (s : State) : Nat :=
  let i := s.input
  if (s.launch? i.launch).isSome then i.launch
  else ((s.launches.entries.find? fun e => e.2.origin == some i.module && e.2.guest.any fun g => g.1 == i.tenant).map (·.1)).getD s.nextLaunch
/-- One more strand of a launch has come from member `m`: a guest counts it, any other is told of at once. -/
def State.strandCame (s : State) (n m : Nat) : State :=
  match s.launch? n with
  | some l => (match l.guest with
    | some (k, c) => s.setLaunch n { l with guest := some (k, c + 1) }
    | none => s.sendControl l.part m [ctlGone, s.input.tenant, 1, 0])
  | none => s
/-- A strand of another member of the span arrives at core `input.core` of launch `input.launch`, at `input.value`, with
registers `input.regs` and carry block `input.data`. It waits until TIME is at least the TIME `input.off` that the source
read (R447). -/
def State.admitForeign (s : State) : State :=
  let i := s.input
  let n := s.guestNumber
  match s.memberCore i.part n i.core with
  | none => s
  | some c =>
    if s.deadSite (coreSite c) || s.silent (coreSite c) || s.time < i.off || s.restoring c then s
    else match s.freeSlot c with
      | none => s
      | some slot =>
        let s := if (s.launch? n).isSome then s else { s.setLaunch n s.guestLaunch with nextLaunch := n + 1 }
        (s.takeIn
          { strand := 0, target := c, cid := 0#22, pc := i.value &&& ~~~7#64, regs := hopRegs i.regs (BitVec.allOnes 8), launch := n
            carry := if i.data.length = 8192 then some i.data else none, before := { birth := .spawn } } slot).strandCame n i.module

/-- HOP_ARRIVAL (R177, R426, R445, R447): the packet at place `input.index` is admitted into a DORMANT slot of its target. One that
goes to another module is admitted there. With `input.level` 1 a strand of another module arrives here. -/
def execHopArrival (s : State) : Res :=
  if s.input.level = 1 then .next s.admitForeign
  else match s.packets[s.input.index]? with
  | none => .next s
  | some p =>
    let gone := { s with packets := s.packets.eraseIdx s.input.index }
    match p.module with
    | some m => .next ((gone.mapLaunch p.launch fun l => { l with abroad := l.abroad.set m (l.abroad.getD m 0 + 1) }).leave p.strand)
    | none =>
      if s.deadSite (coreSite p.target) || s.silent (coreSite p.target) || s.time < p.minTime || s.restoring p.target then .next s
      else match s.freeSlot p.target with
        | none => .next s
        | some slot =>
          .next ((gone.leave p.strand).takeIn p slot)

/-- HOP_PACKET_RETURN (R178, R438, R455): the packet at place `input.index` finds its target absent, or with `input.flag`
its link failed; the strand is parked at the HOP pair as it stood before it. -/
def execHopPacketReturn (s : State) : Res :=
  match s.packets[s.input.index]? with
  | none => .next s
  | some p =>
    let absent := match p.module with
      | some _ => s.input.flag
      | none => s.deadSite (coreSite p.target) || (s.logCore? p.target).isNone
    if !absent || s.silentStrand p.strand then .next s
    else
      let s := { s with packets := s.packets.eraseIdx s.input.index, cur := { strand := p.strand, before := p.before } }
      .next (s.takeTrap false { cause := causeHopTargetAbsent, info := p.cid.setWidth 64 })

/-! ## SPAWN (R146, R226) -/

/-- SPAWN (R226). -/
def execSpawn (d : Reg) (a b c : Src) (s : State) : Res :=
  s.unless (s.barred true true false true)
    (s.checkTarget (s.g a) true
      (let core := s.selfCore
       match s.freeSlot core with
       | none => .next (s.setG d minusOne)
       | some slot =>
         let s := s.drainCore core
         let x : Strand :=
           { st := .ready, regs := { g := ⟨[(1, s.g b), (14, swin)]⟩ }, pc := s.g a
             birth := if coreIsAtelier core then .atelier else .spawn
             launch := s.before.launch, index := BitVec.ofNat 3 slot, ovfp := s.g c &&& ~~~0x3F#64 }
         .next ((s.birth core slot x).setG d (BitVec.ofNat 64 slot))))

end Sys2Proof.Machine
end

