-- ==== Sys2Proof/Machine/Event.lean ====
section
/-! DEFINITION. Event lines and groups: EVCFG, EVWAIT, EVSIG, EVPOLL, GRANK, GSIZE, GMAP, BAR and the group tree
(07 R155–R168, 09 R232–R234). -/

namespace Sys2Proof.Machine

/-! ## A line's word (R160, R233) -/

def LineMode.code : LineMode → Nat
  | .off => 0
  | .barrier => 1
  | .mutex => 2
  | .flag => 3
def modeOf (n : Nat) : LineMode :=
  match n with
  | 1 => .barrier
  | 2 => .mutex
  | 3 => .flag
  | _ => .off
/-- The line of a word that passes `lineOk`. -/
def lineOf (w : Nat) : Line :=
  { mode := modeOf (bits w 62 2), gv := bitAt w 61, gs := BitVec.ofNat 2 (bits w 59 2), ac := bitAt w 58, count := bits w 0 5 }
/-- The checks of R160. -/
def lineOk (w : Nat) : Bool :=
  let l := lineOf w
  bits w 5 53 == 0
    && (if l.mode == .barrier then 1 ≤ l.count && l.count ≤ 16 else l.count == 0)
    && (l.mode == .barrier || !l.gv) && (l.gv || l.gs == 0#2) && (l.mode == .flag || !l.ac)
def b2nat (b : Bool) : Nat := if b then 1 else 0
/-- The line-state word (R233). -/
def Line.word (l : Line) : Word :=
  BitVec.ofNat 64
    (l.mode.code * 2 ^ 62 + b2nat l.gv * 2 ^ 61 + l.gs.toNat * 2 ^ 59 + b2nat l.ac * 2 ^ 58 + b2nat l.set * 2 ^ 57
      + l.arr % 32 * 2 ^ 52 + (l.waiters.length + (l.later.filter Option.isSome).length) % 32 * 2 ^ 47 + l.gen.toNat)

def Tile.line (t : Tile) (i : Nat) : Line := t.lines.getD i {}
def State.line (s : State) (site i : Nat) : Line := (s.tile site).line i
def State.setLine (s : State) (site i : Nat) (l : Line) : State :=
  let t := s.tile site
  s.setTile site { t with lines := t.lines.set i l }

/-- What a released EVWAIT delivers (R163, R232). -/
def grantOk : Grant := { value := 0#512, p7 := true }
def grantBroken : Grant := { value := 1#512, p7 := false }
def State.releaseAll (s : State) (ks : List Nat) (g : Grant) : State := ks.foldl (fun s k => s.release k g) s

/-! ## Operations on a line (R161, R162) -/

/-- Arrivals on a barrier in order; the COUNT-th releases a local line, or sends the tile's arrival up the tree. Answers
the line, the strands released, and whether an arrival goes up. -/
def Line.arrive (l : Line) (a : Option Nat) : Line × List Nat × Bool :=
  if l.gv && l.count ≤ l.arr then ({ l with later := l.later ++ [a] }, [], false)
  else
    let l := { l with arr := l.arr + 1, waiters := l.waiters ++ a.toList }
    if l.arr < l.count then (l, [], false)
    else if l.gv then (l, [], true)
    else ({ l with arr := 0, gen := l.gen + 1#32, waiters := [] }, l.waiters, false)
/-- Arrivals one after another. -/
def Line.arriveAll (l : Line) : List (Option Nat) → Line × List Nat × Bool
  | [] => (l, [], false)
  | a :: t =>
    let r := l.arrive a
    let q := r.1.arriveAll t
    (q.1, r.2.1 ++ q.2.1, r.2.2 || q.2.2)
/-- The tree's release reaches a line that has arrived: this generation is freed and the held arrivals begin the next. -/
def Line.treeRelease (l : Line) : Line × List Nat × Bool :=
  let r := ({ l with arr := 0, gen := l.gen + 1#32, waiters := [], later := [] } : Line).arriveAll l.later
  (r.1, l.waiters ++ r.2.1, r.2.2)

def Launch.group? (l : Launch) (i : Nat) : Option Group := l.groups.find? fun g => g.index == i
/-- The node of a tile in a group's tree. -/
def Group.node? (g : Group) (tile : Nat) : Option Nat := g.tree.findIdx? fun n => n.tile == tile
/-- A site's logical tile, as a tree names it. -/
def State.treeTileOf (s : State) (site : Nat) : Nat := ((s.logCore? (2 * site)).getD (2 ^ 21)) / 2
/-- The tile's arrival for its line's group (R164). -/
def State.treeUp (s : State) (site : Nat) (l : Line) : State :=
  match l.group with
  | some (g, n) =>
    (match (s.launch? n).bind fun x => (x.group? g).bind fun x => x.node? (s.treeTileOf site) with
     | some i => { s with treeMsgs := s.treeMsgs ++ [{ launch := n, group := g, bar := false, node := i, item := s.treeTileOf site }] }
     | none => s)
  | none => s
/-- Put back what a line operation made of a line. -/
def State.putLine (s : State) (site i : Nat) (r : Line × List Nat × Bool) : State :=
  let s := s.setLine site i r.1
  let s := s.releaseAll r.2.1 grantOk
  if r.2.2 then s.treeUp site r.1 else s

/-- One signal on a line (R232). -/
def State.signal (s : State) (site i : Nat) : State :=
  let l := s.line site i
  match l.mode with
  | .off => s
  | .barrier => s.putLine site i (l.arrive none)
  | .mutex =>
    match l.waiters with
    | k :: rest => (s.setLine site i { l with waiters := rest }).release k grantOk
    | [] => s.setLine site i { l with set := false }
  | .flag =>
    if l.ac then
      match l.waiters with
      | k :: rest => (s.setLine site i { l with waiters := rest, set := false }).release k grantOk
      | [] => s.setLine site i { l with set := true }
    else (s.setLine site i { l with waiters := [], set := true }).releaseAll l.waiters grantOk

def lineIndex (x : Word) : Nat := x.toNat % 32
/-- The membership that a GSLOT operand names. -/
def State.selfGslot (s : State) (i : Nat) : Option Group := s.selfLaunch.bind fun l => s.gslot l s.selfCore i
def State.notMember (s : State) (i : Nat) : Res := s.trapWith causeGroupNotMember 0#64 (BitVec.ofNat 64 i)

/-- Another line of the tile combines over the same group (R164). -/
def State.groupLineElsewhere (s : State) (site i g launch : Nat) : Bool :=
  (s.tile site).lines.entries.any fun e => e.1 != i && e.2.group == some (g, launch)

/-- The new configuration: waiters are released BROKEN, and the line starts afresh (R165). An arrival that the old one has sent
up the tree still counts there for its tile. DEDUCED (log 83). -/
def State.configureLine (s : State) (site i : Nat) (l : Line) : State :=
  let old := s.line site i
  (s.setLine site i l).releaseAll (old.waiters ++ old.later.filterMap id) grantBroken

/-- EVCFG (R160, R164, R165, R232). -/
def execEvcfg (a b : Src) (s : State) : Res :=
  s.unless (s.barred false false true true)
    (s.gated fun s =>
      let site := s.selfSite
      let i := lineIndex (s.g a)
      let w := (s.g b).toNat
      let l := lineOf w
      if !lineOk w then s.illegal
      else if l.gv then
        match s.selfGslot l.gs.toNat with
        | none => s.notMember l.gs.toNat
        | some g =>
          let launch := s.before.launch
          if s.groupLineElsewhere site i g.index launch then s.illegal
          else .next (s.configureLine site i { l with group := some (g.index, launch) })
      else .next (s.configureLine site i l))

/-- D and p7 of an EVWAIT (R163, R232). -/
def State.putWait (s : State) (d : Reg) (g : Grant) : Res := .next ((s.setG d (g.value.setWidth 64)).setP7 g.p7)

/-- EVWAIT (R162, R232): an arrival is a release, so the core's earlier accesses come first. -/
def execEvwait (d : Reg) (a : Src) (s : State) : Res :=
  s.unless (s.barred true true true true)
    (match s.grant with
     | some g => s.useGrant.putWait d g
     | none =>
       let s := s.drainCore s.selfCore
       let site := s.selfSite
       let i := lineIndex (s.g a)
       let k := s.cur.strand
       let l := s.line site i
       match l.mode with
       | .off => s.putWait d { value := 2#512, p7 := false }
       | .barrier =>
         let r := l.arrive (some k)
         let others := r.2.1.filter (· != k)
         let s := s.putLine site i (r.1, others, r.2.2)
         if r.2.1.contains k then s.putWait d grantOk else .next (s.hold .event)
       | .mutex =>
         if l.set then .next ((s.setLine site i { l with waiters := l.waiters ++ [k] }).hold .event)
         else (s.setLine site i { l with set := true }).putWait d grantOk
       | .flag =>
         if l.set then (s.setLine site i { l with set := !l.ac }).putWait d grantOk
         else .next ((s.setLine site i { l with waiters := l.waiters ++ [k] }).hold .event))

/-- EVSIG (R167, R232). Without RM, B names no operand. -/
def execEvsig (a b : Src) (m : BitVec 32) (s : State) : Res :=
  s.unless (s.barred false false true true)
    (s.gated fun s =>
      let s := s.drainCore s.selfCore
      let i := lineIndex (s.g a)
      if !m.getLsbD 0 then .next (s.signal s.selfSite i)
      else
        let cid := (s.g b).toNat % 2 ^ 22
        let absent := s.trapWith causeHopTargetAbsent 0#64 (BitVec.ofNat 64 cid)
        match s.selfLaunch with
        | none => absent
        | some l =>
          match s.target l cid with
          | .here c => .next { s with signals := s.signals ++ [{ src := s.selfSite, site := coreSite c, line := i }] }
          | .away mo =>
            let g : Signal := { src := s.selfSite, site := cid, line := i, module := some mo }
            .next ({ s with signals := s.signals ++ [g] }.sendControl s.selfPart mo [cid, i])
          | .absent => absent)

/-- EVPOLL (R233). -/
def execEvpoll (d : Reg) (a : Src) (s : State) : Res :=
  s.unless (s.barred false false true true) (.next (s.setG d (s.line s.selfSite (lineIndex (s.g a))).word))

/-- REMOTE_SIGNAL_ARRIVAL (R167): the signal at place `input.index` reaches its line, after every earlier one from the same
tile to the same tile. With `input.level` 1 it is another member's, for line `input.item` of the tile of core `input.core` of
span launch `input.launch` (R445). -/
def execRemoteSignalArrival (s : State) : Res :=
  let i := s.input.index
  if s.input.level = 1 then
    match s.memberCore s.input.part s.input.launch s.input.core with
    | none => .next s
    | some c => .next (if s.silent (coreSite c) || s.deadSite (coreSite c) then s
        else s.controlled s.input.part fun s => s.signal (coreSite c) (s.input.item % 32))
  else match s.signals[i]? with
  | none => .next s
  | some g =>
    if (s.signals.take i).any fun q => q.src == g.src && q.site == g.site && q.module == g.module then .next s
    else if g.module.isNone && s.silent g.site then .next s
    else
      let s := { s with signals := s.signals.eraseIdx i }
      .next (if g.module.isSome || s.deadSite g.site then s else s.signal g.site g.line)

/-! ## The group tree (R157, R162, R164, R168) -/

def State.mapGroup (s : State) (launch i : Nat) (f : Group → Group) : State := s.mapLaunch launch fun l => l.mapGroup i f
/-- What arrives from a child node. -/
def childKey (i : Nat) : Nat := 2 ^ 21 + i
/-- The nodes that feed node `i`. -/
def Group.children (g : Group) (i : Nat) : List Nat := [2 * i + 1, 2 * i + 2].filter (· < g.tree.length)
def TreeNode.counter (n : TreeNode) (bar : Bool) : NatSet := if bar then n.bar else n.line
def TreeNode.raise (n : TreeNode) (bar : Bool) (x : Nat) : TreeNode :=
  if bar then { n with bar := setInsert x n.bar } else { n with line := setInsert x n.line }
/-- Node `i`'s own arrivals and both subtrees are there: every member core of its tile for BAR, its line otherwise (R164, R168). -/
def Group.full (g : Group) (bar : Bool) (i : Nat) : Bool :=
  match g.tree[i]? with
  | some n => (n.counter bar).length == (if bar then n.cores else 1) + (g.children i).length
  | none => false
def Group.count (g : Group) (m : TreeMsg) : Group := { g with tree := g.tree.modify m.node fun n => n.raise m.bar m.item }
/-- A released generation leaves every counter at zero. -/
def Group.cleared (g : Group) (bar : Bool) : Group :=
  { g with tree := g.tree.map fun n => if bar then { n with bar := [] } else { n with line := [] } }
/-- Is a node on this module, and which module holds it otherwise? -/
def TreeNode.here (n : TreeNode) : Bool := n.tile < 2 ^ 20
def TreeNode.module (n : TreeNode) : Nat := 2 * (n.tile - 2 ^ 20) / 2 ^ 16
/-- A node that has become full sends one arrival to the node that it feeds. -/
def State.sendUp (s : State) (g : Group) (m : TreeMsg) : State :=
  if m.node = 0 then s
  else
    let up : TreeMsg := { m with node := (m.node - 1) / 2, item := childKey m.node }
    match g.tree[up.node]? with
    | none => s
    | some n =>
      if n.here then { s with treeMsgs := s.treeMsgs ++ [up] }
      else match s.launch? m.launch with
        | none => s
        | some l => s.sendControl l.part n.module [l.spanSeq.getD 0, g.index, b2nat m.bar, up.node, up.item]
/-- An arrival raises its node's counter; when that makes it full, one goes further up (R157). -/
def State.countArrival (s : State) (m : TreeMsg) : State :=
  match (s.launch? m.launch).bind fun l => l.group? m.group with
  | none => s
  | some g =>
    let s := s.mapGroup m.launch m.group fun g => g.count m
    if !g.full m.bar m.node && (g.count m).full m.bar m.node then s.sendUp g m else s

/-- GROUP_TREE_ARRIVAL (R157, R164): the arrival at place `input.index` is counted. With `input.flag`, child node `input.item`,
which another module holds, has arrived at group `input.group` of launch `input.launch`, for BAR when `input.off` is 1. -/
def execGroupTreeArrival (s : State) : Res :=
  let i := s.input
  if i.flag then
    match s.launch? i.launch with
    | none => .next s
    | some l => .next (s.controlled l.part fun s => s.countArrival
        { launch := i.launch, group := i.group, bar := i.off == 1, node := (i.item - 1) / 2, item := childKey i.item })
  else match s.treeMsgs[i.index]? with
    | none => .next s
    | some m => .next ({ s with treeMsgs := s.treeMsgs.eraseIdx i.index }.countArrival m)

/-- The release of one generation of group lines on every tile of this module. -/
def State.releaseLines (s : State) (launch group : Nat) (sites : List Nat) : State :=
  sites.foldl
    (fun s site =>
      (s.tile site).lines.entries.foldl
        (fun s e =>
          if e.2.group == some (group, launch) && e.2.count ≤ e.2.arr then s.putLine site e.1 e.2.treeRelease else s) s) s

/-- May the root release? One on another module does it with `input.level` 1. -/
def State.rootReady (s : State) (g : Group) (bar : Bool) : Bool :=
  match g.tree.head? with
  | some n => if n.here then g.full bar 0 else s.input.level == 1
  | none => false
/-- The sites of a tree's nodes on this module. -/
def State.treeSites (s : State) (g : Group) : List Nat :=
  (g.tree.filter TreeNode.here).filterMap fun n => (s.physCore? (2 * n.tile)).map coreSite
/-- A root here tells the other modules of its tree. -/
def State.tellRelease (s : State) (l : Launch) (g : Group) (bar : Bool) : State :=
  match g.tree.head? with
  | some n =>
    if n.here then
      ((g.tree.filter fun n => !n.here).map TreeNode.module).dedup.foldl
        (fun s m => s.sendControl l.part m [l.spanSeq.getD 0, g.index, b2nat bar]) s
    else s
  | none => s
/-- Does the group's root stand in another module? -/
def Group.rootAway (g : Group) : Bool := g.tree.head?.any fun n => !n.here
/-- The release of one generation here, of BAR or of the group's lines. -/
def State.releaseTree (s : State) (n i : Nat) (g : Group) (bar : Bool) : State :=
  if bar then
    let gen := g.barGen + 1#32
    let s := s.mapGroup n i fun g => { g.cleared true with barGen := gen, barWaiters := [] }
    s.releaseAll g.barWaiters { value := gen.setWidth 512 }
  else (s.mapGroup n i fun g => g.cleared false).releaseLines n i (s.treeSites g)
/-- GROUP_TREE_RELEASE (R157, R162, R168): the root of group `input.group` of launch `input.launch` releases a generation, of BAR
with `input.flag`, once its own arrivals and both subtrees are there. A root on another module tells of it with `input.level` 1. -/
def execGroupTreeRelease (s : State) : Res :=
  let n := s.input.launch
  let i := s.input.group
  let bar := s.input.flag
  match s.launch? n with
  | none => .next s
  | some l =>
    match l.group? i with
    | none => .next s
    | some g =>
      if !s.rootReady g bar then .next s
      else if g.rootAway then .next (s.controlled l.part fun s => s.releaseTree n i g bar)
      else .next ((s.tellRelease l g bar).releaseTree n i g bar)

/-! ## Group instructions (R234) -/

/-- An instruction that names a GSLOT index. -/
def State.withGroup (s : State) (a : Src) (f : Group → Res) : Res :=
  let i := (s.g a).toNat % 4
  match s.selfGslot i with
  | some g => f g
  | none => s.notMember i
/-- Hold a pair until its answer arrives, then run `f` (R218). -/
def State.answered (s : State) (f : State → Res) : Res :=
  match s.grant with
  | some _ => f s.useGrant
  | none => .next (s.hold .answer)

/-- GRANK (R234). -/
def execGrank (d : Reg) (a : Src) (s : State) : Res :=
  s.unless (s.barred false false true true)
    (s.withGroup a fun g => .next (s.setG d (BitVec.ofNat 64 ((s.selfLaunch.bind fun l => g.rank? (s.cidWord l s.selfCore)).getD 0))))
/-- GSIZE (R234). -/
def execGsize (d : Reg) (a : Src) (s : State) : Res :=
  s.unless (s.barred false false true true) (s.withGroup a fun g => .next (s.setG d (BitVec.ofNat 64 g.members.length)))
/-- GMAP (R234). -/
def execGmap (d : Reg) (a b : Src) (s : State) : Res :=
  s.unless (s.barred false false true true)
    (s.withGroup a fun g =>
      s.answered fun s => .next (s.setG d ((g.members[(s.g b).toNat]?.map fun w => w.setWidth 64).getD minusOne)))
/-- Has a member core's arrival for this generation of BAR been counted? -/
def Group.arrived (g : Group) (rank : Nat) : Bool := g.tree.any fun n => n.bar.contains rank
/-- BAR (R168, R234): the core's first BAR of a generation makes its arrival. -/
def execBar (d : Reg) (a : Src) (s : State) : Res :=
  s.unless (s.barred true true true true)
    (s.withGroup a fun g =>
      match s.grant with
      | some r => .next (s.useGrant.setG d (r.value.setWidth 64))
      | none =>
        let s := s.drainCore s.selfCore
        let n := s.before.launch
        let rank := (s.selfLaunch.bind fun l => g.rank? (s.cidWord l s.selfCore)).getD 0
        let node := (g.node? (s.treeTileOf s.selfSite)).getD 0
        let m : TreeMsg := { launch := n, group := g.index, bar := true, node := node, item := rank }
        let s := if g.arrived rank || s.treeMsgs.contains m then s else { s with treeMsgs := s.treeMsgs ++ [m] }
        let k := s.cur.strand
        .next ((s.mapGroup n g.index fun g => { g with barWaiters := g.barWaiters ++ [k] }).hold .event))

end Sys2Proof.Machine
end

