-- ==== Sys2Proof/Machine/TaskUnit.lean ====
section
/-! DEFINITION. The ordered task unit: TENQ, TEND, TSELF and the unit's own steps (07 R179–R183, 09 R235–R237), and the
token instructions (08 R208, R209, 09 R238, R239). -/

namespace Sys2Proof.Machine

/-! ## TENQ (R235) -/

/-- The timestamps that the unit refuses: below the zone's last commit, and in a task below its own (R235). -/
def State.refusesTimestamp (s : State) (t : Word) : Bool :=
  t.ult (s.zone s.selfZone).lastCommit || (s.selfTask.map fun k => t.ult k.timestamp).getD false

/-- The task enters the unit; one of a speculative task stays hidden until its commit (R180). -/
def State.enqueue (s : State) (ts hpc : Word) (args : List Word) : State :=
  let z := s.zone s.selfZone
  let t : Sys2Proof.Machine.Task :=
    { order := s.nextOrder, timestamp := ts, hpc := hpc, args := args, launch := s.before.launch
      parent := if s.speculative then s.before.task else none }
  { s.setZone s.selfZone { z with tasks := z.tasks ++ [t] } with nextOrder := s.nextOrder + 1 }

/-- The task unit takes a task, or the pair waits while it holds 4,096 (R179). Those that a speculative task has enqueued count,
though no one may run them yet. DEDUCED (log 85). -/
def State.offerTask (s : State) (ts hpc : Word) (args : List Word) : Res :=
  if 4096 ≤ (s.zone s.selfZone).tasks.length then .next (s.hold .taskSpace)
  else if s.refusesTimestamp ts then s.trapWith causeTsRange 0#64 ts
  else .next (s.enqueue ts hpc args)

/-- TENQ (R235). -/
def execTenq (a b c : Src) (s : State) : Res :=
  s.unless (s.barred true false true true)
    (s.checkTarget (s.g b) true
      (if (s.g c).toNat % 8 ≠ 0 then s.trapAt causeMisaligned (s.g c)
       else
         s.afterDrain fun s =>
         if c.r = 0#4 then s.offerTask (s.g a) (s.g b) [0#64, 0#64, 0#64, 0#64]
         else s.readStruct (s.g c) 4 fun x s =>
           s.offerTask (s.g a) (s.g b) ((List.range 4).map fun i => BitVec.ofNat 64 (bits x (64 * i) 64))))

/-! ## TEND and TSELF (R236, R237) -/

/-- The task leaves the unit; its children become visible, and its timestamp is the last one committed. -/
def Zone.commit (z : Zone) (t : Sys2Proof.Machine.Task) : Zone :=
  { z with
    lastCommit := t.timestamp
    tasks := (z.tasks.filter fun (x : Sys2Proof.Machine.Task) => x.order != t.order).map fun x =>
      if x.parent == some t.order then { x with parent := none } else x }

/-- TEND (R236). -/
def execTend (m : BitVec 32) (s : State) : Res :=
  match s.selfTask with
  | none => s.illegal
  | some t =>
    if m.getLsbD 0 then s.trapWith causeTaskAbort 0#64 t.timestamp
    else
      s.onceDrained
        (let zone := s.selfZone
         let z := s.zone zone
         let z := if t.irrevocable then z.commit t else z.mapTask t.order fun x => { x with st := .ended }
         .next ((s.setZone zone z).retire s.cur.strand))

/-- TSELF (R237). -/
def execTself (d : Reg) (m : BitVec 32) (s : State) : Res :=
  match s.selfTask with
  | none => s.illegal
  | some t =>
    if m.getLsbD 0 then s.gated fun s => .next ((s.setG d t.timestamp).setP7 true)
    else .next ((s.setG d t.timestamp).setP7 t.irrevocable)

/-! ## The unit's steps -/

/-- Is a core one of a launch's cores? -/
def State.coreOf (s : State) (l : Launch) (core : Nat) : Bool :=
  match s.cidIndex? l core with
  | some i => l.coreSet.contains i
  | none => false

/-- An irrevocable task that comes later in commit order runs: an earlier one that has been enqueued since starts only after it, so
no task is rolled back by a younger one (R184). DEDUCED (log 100). -/
def Zone.irrevocableAfter (z : Zone) (t : Sys2Proof.Machine.Task) : Bool :=
  z.tasks.any fun (u : Sys2Proof.Machine.Task) => u.irrevocable && t.before u
/-- A speculative task is rolled back to an unstarted one (R182, R419). -/
def State.unstart (s : State) (zone : Nat) (t : Sys2Proof.Machine.Task) : State :=
  let s := s.rollback zone t.order
  match (s.zone zone).task? t.order with
  | some { st := .running k, .. } =>
    (s.setZone zone ((s.zone zone).mapTask t.order fun (x : Sys2Proof.Machine.Task) => { x with st := .waiting })).retire k
  | _ => s
def TaskSt.runsOn (x : TaskSt) (core : Nat) : Bool :=
  match x with
  | .running k => strandCore k == core
  | _ => false
/-- The zone's oldest task finds no free slot on a core: a younger speculative one there gives up its own, since the oldest always
commits (R184). DEDUCED (log 132). -/
def State.makeWay (s : State) (zone core : Nat) (t : Sys2Proof.Machine.Task) : State :=
  if (s.zone zone).isOldest t.order && t.st == .waiting && (s.freeSlot core).isNone then
    (match (s.zone zone).tasks.find? fun (u : Sys2Proof.Machine.Task) => !u.irrevocable && t.before u && u.st.runsOn core with
     | some u => s.unstart zone u
     | none => s)
  else s
/-- TASK_DISPATCH (R179): the zone's unit starts task `input.task` in a free slot of core `input.core`. A task that trapped
while speculative runs again as the oldest, irrevocably (R183). -/
def execTaskDispatch (s : State) : Res :=
  let zone := s.input.zone
  let core := s.input.core
  let before := s
  let s := match (s.zone zone).task? s.input.task with
    | some t => if coreZone core = zone then s.makeWay zone core t else s
    | none => s
  match (s.zone zone).task? s.input.task with
  | none => .next s
  | some t =>
    match s.launch? t.launch, s.freeSlot core with
    | some l, some slot =>
      let ok := t.st == .waiting && t.visible && coreZone core == zone && !coreIsAtelier core && s.coreOf l core && s.partRuns l.part
        && (!t.retry || (s.zone zone).mayTurn t.order) && !s.deadSite (coreSite core) && !s.silent (coreSite core)
        && !(s.zone zone).irrevocableAfter t
      if !ok then .next before
      else
        let s := if t.retry then s.makeIrrevocable zone t.order else s
        let s := s.setZone zone ((s.zone zone).mapTask t.order fun x => { x with st := .running (strandOf core slot) })
        .next (s.birth core slot (taskStrand t slot))
    | _, _ => .next before

/-- TASK_COMMIT (R180, R290): the oldest task of zone `input.zone`, if it has ended; its stores become visible in one
step. No task commits while an irrevocable one runs. -/
def execTaskCommit (s : State) : Res :=
  let zone := s.input.zone
  let z := s.zone zone
  match z.oldest with
  | none => .next s
  | some t =>
    if t.st != .ended || z.tasks.any (fun (x : Sys2Proof.Machine.Task) => x.irrevocable) || !s.mayPublish t then .next s
    else
      let s := s.commitStores zone t
      .next (s.setZone zone ((s.zone zone).commit t))

/-- TASK_ROLLBACK (R182): speculative task `input.task` of zone `input.zone` is rolled back. A signature may report a
conflict that did not happen. -/
def execTaskRollback (s : State) : Res :=
  match (s.zone s.input.zone).task? s.input.task with
  | none => .next s
  | some t => if t.irrevocable then .next s else .next (s.rollback s.input.zone t.order)

/-- TASK_IRREVOCABLE (R181): task `input.task` of zone `input.zone`, which waits to be the oldest, is now the oldest. -/
def execTaskIrrevocable (s : State) : Res :=
  let zone := s.input.zone
  match (s.zone zone).task? s.input.task with
  | none => .next s
  | some t =>
    match t.st with
    | .running k =>
      if (s.strand k).st == .waiting .oldest && (s.zone zone).mayTurn t.order && s.mayPublish t then .next ((s.makeIrrevocable zone t.order).wake k)
      else .next s
    | _ => .next s

/-! ## Tokens (R238) -/

def tokenCount (x : Word) : Nat := min x.toNat 1023
def State.mapAccount (s : State) (site : Nat) (f : Account → Account) : State :=
  let t := s.tile site
  s.setTile site { t with account := f t.account }

/-- TKREQ (R208, R238). -/
def execTkreq (d : Reg) (a : Src) (s : State) : Res :=
  s.unless (s.barred false false true true)
    (s.gated fun s =>
      let m := tokenCount (s.g a)
      .next ((s.mapAccount s.selfSite fun x => x.ask m).setG d (BitVec.ofNat 64 m)))
/-- TKLEND (R208, R209, R238). -/
def execTklend (d : Reg) (a : Src) (s : State) : Res :=
  s.unless (s.barred false false true true)
    (s.gated fun s =>
      let site := s.selfSite
      let n := lendable (s.tile site).account (s.floorShare site) (tokenCount (s.g a))
      .next ((s.mapAccount site fun x => x.lend n s.time).setG d (BitVec.ofNat 64 n)))
/-- TKQRY (R238, R239). -/
def execTkqry (d : Reg) (s : State) : Res :=
  s.unless (s.barred false false true true) (s.answered fun s => .next (s.setG d (s.accountWord s.selfSite)))

end Sys2Proof.Machine
end

