-- ==== Sys2Proof/Machine/Queues.lean ====
section
/-! DEFINITION. Host queues: the dispatcher's own accesses, seals, kicks, queue control, and the posting of launches
(08 R187–R195, 28 R491, R493). -/

namespace Sys2Proof.Machine

/-! ## The dispatcher's accesses: the tenant's own table, no PLB (R149, R155, R187, R188) -/

def State.dispRegion (s : State) (tenant : Nat) (acc : Acc) (va : Word) : Except TrapInfo Region :=
  match s.lookupRegion tenant va.toNat with
  | .found r => if r.allows acc then .ok r else .error (protAt 0 acc va)
  | .missing => .error (protAt 0 acc va)
  | .badtab m => .error { protAt 1 acc va with fresh := m }

/-- An access finds its place, meets a fault, or waits: for the host's answer, for the end of a flip, or for a home (R262, R438,
R458). -/
inductive DispReach where
  | place (pa : Nat) (cached : Option (Nat × Nat)) (s : State)
  | fault (t : TrapInfo)
  | later (w : Wait) (s : State)
/-- A place on which a partition's agent without a PLB has come. -/
def State.dispPlace (s : State) (tenant : Nat) (acc : Acc) (va : Word) (r : Resolved) : DispReach :=
  match r with
  | .error t => .fault t
  | .ok (.held site, _) => .later (.remap site) s
  | .ok (.busy, _) => .later .page s
  | .ok (.remote _ _, _) => .fault (protAt 0 acc va)
  | .ok (.phys pa c, s) =>
    match s.hostGate tenant .dispatcher acc va pa c with
    | .pass => .place pa c s
    | .refused t => .fault t
    | .wait s => .later .page s
/-- The byte that an address names for a partition's dispatcher, or for another member's access to it. It has no stack, and reaches
no other module. -/
def State.dispReach (s : State) (tenant part : Nat) (acc : Acc) (va : Word) : DispReach :=
  let k := windowOf va
  if va.toNat ≥ 2 ^ 57 ∨ k = 0x1FE ∨ (0x100 ≤ k ∧ k < 0x180) then .fault (protAt 0 acc va)
  else if k = 0x1FF then s.dispPlace tenant acc va (s.resolveScratch part acc va)
  else match s.dispRegion tenant acc va with
    | .error t => .fault t
    | .ok r => s.dispPlace tenant acc va (s.settle acc va r.homes va)
/-- The same for the dispatcher itself, which reaches no device. -/
def State.dispMemory (s : State) (tenant part : Nat) (acc : Acc) (va : Word) : DispReach :=
  match s.dispReach tenant part acc va with
  | .place pa c s => if paIsSystem pa then .fault (protAt 0 acc va) else .place pa c s
  | r => r

/-- A read ends with its data, with the fault it met, or waits. -/
inductive DispRead where
  | data (x : Nat) (s : State)
  | fault (t : TrapInfo)
  | later (s : State)
def State.dispRead (s : State) (tenant part : Nat) (va : Word) (n : Nat) : DispRead :=
  match s.dispMemory tenant part .load va with
  | .fault t => .fault t
  | .later _ s => .later s
  | .place pa _ s =>
    if s.poisonedIn pa n then .fault { cause := causePoison, addr := va, info := accInfo .load }
    else let s := (s.touch pa).touchLine none (pa / 64); .data (s.readPa pa n) s

/-- A write of the device itself becomes visible: other copies of its line are gone, and its page is dirty (R249, R259). -/
def State.deviceWrite (s : State) (pa : Nat) (cached : Option (Nat × Nat)) (n x : Nat) : State :=
  match cached with
  | some c => ((s.meetLine c.2 .store).markDirty none c.2).writeShared none pa n x
  | none => s.writeShared none pa n x
/-- What a write comes to. -/
inductive DispWrite where
  | done (s : State)
  | failed (s : State)
  | later (w : Wait) (s : State)
def State.dispWrite (s : State) (tenant part : Nat) (va : Word) (n x : Nat) : DispWrite :=
  match s.dispMemory tenant part .store va with
  | .fault t => .failed (s.faultMet t)
  | .later w s => .later w s
  | .place pa c s => .done (s.deviceWrite pa c n x)
/-- A write of LID or STS: one that fails is dropped (R188), one whose page or home it must wait for stands by (R438, R458). -/
def State.dispStore (s : State) (tenant part : Nat) (va : Word) (n x : Nat) : State :=
  match s.dispWrite tenant part va n x with
  | .done s => s
  | .failed s => s
  | .later _ s => { s with slotWrites := s.slotWrites ++ [{ tenant := tenant, part := part, va := va, n := n, data := x }] }
/-- The writes that stood by are tried again, after the host's answer, the end of a flip or a MAPSET. -/
def State.retryWrites (s : State) : State :=
  s.slotWrites.foldl (fun s w => s.dispStore w.tenant w.part w.va w.n w.data) { s with slotWrites := [] }

/-! ## Queues (R187–R192) -/

def State.queue (s : State) (p q : Nat) : Queue := (s.part p).queues.getD q {}
def State.setQueue (s : State) (p q : Nat) (x : Queue) : State :=
  let r := s.part p
  s.setPart p { r with queues := r.queues.set q x }
def Queue.size (q : Queue) : Nat := 2 ^ q.log2n
/-- The address of slot `k` mod N (R189). -/
def Queue.slotVa (q : Queue) (k : Nat) : Word := q.base + BitVec.ofNat 64 (256 * (k % q.size))
/-- The seal that packet `k` carries (R189). -/
def sealOf (k : Nat) : Nat := k % 65535 + 1
def QueueSt.code : QueueSt → Nat
  | .off => 0
  | .idle => 1
  | .sealwait => 2
  | .depwait => 3
  | .headready => 4
  | .binding => 5
  | .faulted => 6
  | .frozen => 7
/-- QSTAT (R190). -/
def Queue.qstat (q : Queue) : Nat :=
  q.fcode.toNat * 2 ^ 48 + q.st.code * 2 ^ 45 + (if q.kerr then 2 ^ 44 else 0) + q.head % 2 ^ 32
/-- The queue selector (R229). -/
def queueSelector (p q : Nat) : Nat := p * 32 + q

/-- SEALWAIT if PEND > 0, else IDLE. -/
def Queue.settled (q : Queue) : QueueSt := if 0 < q.pend then .sealwait else .idle
/-- The queue goes on with its next packet. -/
def Queue.next (q : Queue) : Queue := { q with st := q.settled, firstRead := none, nextRead := 0 }
/-- The head packet is consumed. -/
def Queue.consume (q : Queue) : Queue := { q with head := q.head + 1, pend := q.pend - 1 }
/-- Launch `n` has bound or is gone: a queue that was BINDING for it goes on (R192, R198, R428). -/
def Queue.leaveBinding (q : Queue) (n : Nat) : Queue :=
  if q.binding != n then q
  else if q.st == .binding then q.next
  else if q.st == .frozen && q.prior == .binding then { q with prior := q.settled, firstRead := none, nextRead := 0 } else q

/-- The zone whose primary receives a partition's dispatcher records (R491). -/
def State.lowZone (s : State) (p : Nat) : Nat := (s.part p).zoneList.headD 0
def State.dispReport (s : State) (p : Nat) (body : BitVec 512) : State :=
  s.report { zone := s.lowZone p, standby := false, slot := 288, body := body }
/-- The KIND 3 record of a queue (R395, R491). -/
def State.queueReport (s : State) (p q tc : Nat) : State :=
  s.dispReport p
    (recordBody 3 p (s.part p).tenant false tc 0 0 0#64 0#64 (BitVec.ofNat 64 (queueSelector p q))
      (BitVec.ofNat 64 (s.queue p q).qstat))
/-- A queue faults: once, with one report (R192). -/
def State.faultQueue (s : State) (p q : Nat) (code : BitVec 4) (tc : Nat) : State :=
  let x := s.queue p q
  if x.st == .off || x.st == .frozen then s
  else if x.st == .faulted then (if code = 4#4 then s.queueReport p q tc else s)
  else (s.setQueue p q { x with st := .faulted, fcode := code, firstRead := none, nextRead := 0 }).queueReport p q tc
abbrev fcodeStale : BitVec 4 := 1#4
abbrev fcodeBadPacket : BitVec 4 := 2#4
abbrev fcodeOverflow : BitVec 4 := 3#4
abbrev fcodeWatchdog : BitVec 4 := 4#4
abbrev fcodeRing : BitVec 4 := 5#4

/-- A packet header as the dispatcher judges it, its seal matching (R188, R192). -/
def headerBad (h : Nat) : Bool := bits h 64 448 != 0 || bits h 20 4 != 0 || 2 ≤ bits h 16 4
def headerNoop (h : Nat) : Bool := bits h 16 4 == 1

/-- The record of the head packet, read as two lines. -/
def State.readRecord (s : State) (tenant part : Nat) (va : Word) : DispRead :=
  match s.dispRead tenant part va 64 with
  | .data x s =>
    (match s.dispRead tenant part (va + 64#64) 64 with
     | .data y s => .data (x + y * 2 ^ 512) s
     | r => r)
  | r => r

/-- SEAL_READ (R189, R192): queue `input.queue` of partition `input.part` reads the header at its head. -/
def execSealRead (s : State) : Res :=
  let p := s.input.part
  let qn := s.input.queue
  let q := s.queue p qn
  let part := s.part p
  if q.st != .sealwait || s.time < q.nextRead then .next s
  else
    let va := q.slotVa q.head
    match s.dispRead part.tenant p va 64 with
    | .fault t => .next ((s.faultMet t).faultQueue p qn fcodeRing 0)
    | .later s => .next s
    | .data h s =>
      if bits h 0 16 ≠ sealOf q.head then
        .next (s.setQueue p qn
          { q with firstRead := some (q.firstRead.getD s.time), nextRead := s.time + 256 })
      else if headerBad h then .next (s.faultQueue p qn fcodeBadPacket 0)
      else if headerNoop h then .next (s.setQueue p qn q.consume.next)
      else match s.readRecord part.tenant p (va + 64#64) with
        | .fault t => .next ((s.faultMet t).faultQueue p qn fcodeRing 0)
        | .later s => .next s
        | .data x s =>
          .next (s.setQueue p qn { q with st := .depwait, record := BitVec.ofNat 1024 x, firstRead := none, nextRead := 0 })

/-- STALE_PACKET_TIMEOUT (R192): 64 µs of mismatches since the first read. -/
def execStalePacketTimeout (s : State) : Res :=
  let q := s.queue s.input.part s.input.queue
  match q.firstRead with
  | some t =>
    if q.st == .sealwait && t + 64000 ≤ s.time then .next (s.faultQueue s.input.part s.input.queue fcodeStale 0) else .next s
  | none => .next s

/-! ## Kicks and queue control (R190, R191) -/

def Queue.bad (q : Queue) : Queue := { q with kerr := true }
/-- A host write to KICK (R191). -/
def State.kick (s : State) (p qn : Nat) (v : Word) : State :=
  let q := s.queue p qn
  let n := v.toNat
  if 2 ^ 13 ≤ n ∨ n = 0 ∨ q.size < n ∨ q.st = .off then s.setQueue p qn q.bad
  else if q.st == .frozen then s
  else if q.size < q.pend + n then s.faultQueue p qn fcodeOverflow 0
  else
    let q := { q with pend := q.pend + n }
    s.setQueue p qn (if q.st == .idle then q.next else q)
/-- The host reaches a queue through its tenant's own kick page, of the VF that answers (R459). -/
def State.onQueue (s : State) (f : State → Nat → Nat → State) : Res :=
  .next (if (s.part s.input.part).live && s.answers (s.part s.input.part).tenant && s.input.queue < 32 then f s s.input.part s.input.queue else s)

/-- KICK (R191): the host writes `input.value` to KICK of queue `input.queue`, partition `input.part`. -/
def execKick (s : State) : Res := s.onQueue fun s p q => s.kick p q s.input.value

/-- DISABLE: the queue goes to OFF, PEND := 0 (R192). -/
def Queue.disable (q : Queue) : Queue := { q with st := .off, pend := 0, firstRead := none, nextRead := 0 }
/-- RESUME of a FAULTED queue; any other only sets KERR (R191, R192). -/
def Queue.resume (q : Queue) : Queue := if q.st == .faulted then { q.next with fcode := 0#4 } else q.bad
/-- A host write to QSTAT, whose fields are read-only: a reserved bit sets KERR (R190). -/
def Queue.writeStat (q : Queue) (v : Word) : Queue :=
  if bits v.toNat 52 12 != 0 || bits v.toNat 32 12 != 0 then q.bad else q
/-- A host write to QCTL (R190): a reserved bit refuses it all, and DISABLE goes before RESUME. R190 does not order CLRK: it clears
KERR first, so a stray RESUME beside it leaves KERR 1. DESIGN CHOICE (log 122). -/
def Queue.control (q : Queue) (v : Word) : Queue :=
  if 8 ≤ v.toNat then q.bad
  else
    let q := if v.getLsbD 2 then { q with kerr := false } else q
    if v.getLsbD 1 then q.disable else if v.getLsbD 0 then q.resume else q
def State.control (s : State) (bit : Nat) : Res :=
  s.onQueue fun s p q =>
    if s.input.value.getLsbD bit || 8 ≤ s.input.value.toNat then s.setQueue p q ((s.queue p q).control s.input.value) else s
/-- QCTL_RESUME (R190–R192): a host write of QCTL with RESUME set, or with a reserved bit. -/
def execQctlResume (s : State) : Res := s.control 0
/-- QCTL_DISABLE (R190, R192): a host write of QCTL with DISABLE set, or with a reserved bit. -/
def execQctlDisable (s : State) : Res := s.control 1
/-- QCTL_CLRK (R190): a host write of QCTL with CLRK set, or with a reserved bit. -/
def execQctlClrk (s : State) : Res := s.control 2

/-! ## Launch channels (R193–R195) -/

def Partition.lnextOf (p : Partition) (ch : Nat) : BitVec 32 := p.lnext.getD ch 0#32
def Partition.ldoneOf (p : Partition) (ch : Nat) : BitVec 32 := p.ldone.getD ch 0#32
/-- One dependence word (R90, R195). -/
def Partition.depMet (p : Partition) (d : Word) : Bool :=
  !d.getLsbD 63 || (p.ldoneOf (bits d.toNat 32 4) - d.extractLsb' 0 32).toNat < 2 ^ 31
def Partition.depsMet (p : Partition) (r : BitVec 1024) : Bool := (List.range 4).all fun i => p.depMet (recDep r i)

def doneKey (ch : Nat) (i : BitVec 32) : Nat := ch * 2 ^ 32 + i.toNat
/-- LDONE passes every identifier that has completed. -/
def advanceDone (ch : Nat) : Nat → BitVec 32 → NatSet → BitVec 32 × NatSet
  | 0, d, e => (d, e)
  | fuel + 1, d, e =>
    if e.contains (doneKey ch (d + 1#32)) then advanceDone ch fuel (d + 1#32) (setRemove (doneKey ch (d + 1#32)) e) else (d, e)
/-- Identifier `i` of a channel completes (R193). -/
def Partition.postDone (p : Partition) (ch : Nat) (i : BitVec 32) : Partition :=
  let e := setInsert (doneKey ch i) p.early
  let r := advanceDone ch e.length (p.ldoneOf ch) e
  { p with ldone := p.ldone.set ch r.1, early := r.2 }

/-! ## Posting (R150, R154, R188) -/

/-- The write of STS must wait for the host's page or for its home. -/
def State.stsWaits (s : State) (l : Launch) : Option State :=
  l.slotAddr.bind fun a => match s.dispWrite l.tenant l.part (a + 3#64) 1 0 with
    | .later _ s => some s
    | _ => none
/-- A span launch's number has bound here, or will not (R446). -/
def State.settleSpan (s : State) (l : Launch) : State :=
  match l.spanSeq with
  | some k => let p := s.part l.part; s.setPart l.part { p with spanSettled := setInsert k p.spanSettled }
  | none => s
/-- A control message to another member of the partition's span (R446, R448). -/
def State.tellMember (s : State) (p m : Nat) (what : List Nat) : State := s.sendControl p m what
def State.tellMembers (s : State) (p : Nat) (what : List Nat) : State :=
  (s.otherMembers p).foldl (fun s m => s.tellMember p m what) s
/-- A launch's completion is posted with a status: in its slot, and on its DONE channel. One that another module selected
is reported there (R446), and one bound there alone with how many of its strands had come here (R447). -/
def State.postLaunch (s : State) (n : Nat) (l : Launch) (sts : Nat) : State :=
  let s := match l.slotAddr with
    | some a => s.dispStore l.tenant l.part (a + 3#64) 1 sts
    | none => s
  let s := { s with launches := s.launches.erase n }.settleSpan l
  match l.origin with
  | some m => s.tellMember l.part m (match l.guest with
    | some (k, n) => [ctlGone, k, n, sts]
    | none => [ctlDone, l.spanSeq.getD 0, sts])
  | none => s.setPart l.part ((s.part l.part).postDone l.ch l.lid)

/-- Launch `n`'s queue, if it is a host queue, is done waiting for it. -/
def State.leaveBinding (s : State) (n : Nat) (l : Launch) : State :=
  if l.queue < 32 && l.origin.isNone then s.setQueue l.part l.queue ((s.queue l.part l.queue).leaveBinding n) else s

/-- R150: a rejected launch is posted with RANGE and reported with KIND 2; a PROT freezes the tenant. The other
members of a span launch hear of it (R446). -/
def State.reject (s : State) (n : Nat) (l : Launch) (t : TrapInfo) : State :=
  let s := (s.leaveBinding n l).postLaunch n l 5
  let s := if l.origin.isNone && l.spanSeq.isSome then s.tellMembers l.part [ctlReject, l.spanSeq.getD 0] else s
  let s := s.faultMet t
  let frz := t.cause == causeProt
  let s := if frz then s.freezeTenant l.tenant else s
  s.dispReport l.part (recordBody 2 l.part l.tenant frz t.cause.toNat 0 0 0#64 t.addr t.info l.addr)

end Sys2Proof.Machine
end

