-- ==== Sys2Proof/Machine/Dispatcher.lean ====
section
/-! DEFINITION. The dispatcher: dependences, selection, binding, the wake flood, completion, and the launch instructions
(07 R149–R158, 08 R193–R199, 09 R227–R229, 10 R244–R247, 20 R445, R446, 27 R489). -/

namespace Sys2Proof.Machine

/-! ## Dependences (R149, R192, R195) -/

/-- The read of a LAUNCHI count at the moment its dependences are met; a misaligned address is left to the record's own
check. One that waits for the host's answer or a home is asked for, and read at the next attempt (R438, R458). -/
def State.readCount (s : State) (p : Nat) (d : DirectRecord) : State × DirectRecord :=
  let a := recCount d.record
  if !d.indirect then (s, { d with ready := true, count := a.extractLsb' 0 32 })
  else if a.toNat % 4 ≠ 0 then (s, { d with ready := true })
  else match s.dispRead (s.part p).tenant p a 4 with
    | .data x s => (s, { d with ready := true, count := BitVec.ofNat 32 x })
    | .fault t => (s.faultMet t, { d with ready := true, fault := some { t with fresh := none, refusal := none } })
    | .later s => (s, d)

/-- DEPENDENCES_SATISFIED (R192, R195): queue `input.queue` of partition `input.part` leaves DEPWAIT; queue 32 is the head
of the direct queue. -/
def execDependencesSatisfied (s : State) : Res :=
  let p := s.input.part
  let part := s.part p
  if s.input.queue = 32 then
    match part.direct with
    | [] => .next s
    | d :: rest =>
      if d.ready || !part.depsMet d.record || part.frozen then .next s
      else let r := s.readCount p d; .next (r.1.setPart p { r.1.part p with direct := r.2 :: rest })
  else
    let q := s.queue p s.input.queue
    if q.st == .depwait && part.depsMet q.record then .next (s.setQueue p s.input.queue { q with st := .headready })
    else .next s

/-! ## Selection (R193, R196–R198, R425) -/

/-- Sum of the set floors of partitions, and the pool at the current PCAP (R206, R214). -/
def State.floorSum (s : State) : Nat := s.parts.values.foldl (fun n p => if p.live then n + p.floor else n) 0
def State.poolNow (s : State) : Nat := Config.pool s.module.divPcap

/-- Does a partition hold a floor now? One that a switch under R214 saved gives it up until it resumes. -/
def Partition.yielded (p : Partition) : Bool :=
  p.live && p.gang == .saved && (match p.saved with
    | some v => v.underPcap
    | none => false)
/-- A set saved under R214 is a candidate only when the pool holds its floor again (R425). -/
def State.poolHolds (s : State) (p : Nat) : Bool :=
  let others := s.parts.values.foldl (fun n (q : Partition) => if q.live && !q.yielded then n + q.floor else n) 0
  others + (s.part p).floor ≤ s.poolNow

/-- Does a selected launch of a partition wait to bind at a priority above `prio`? -/
def State.waitsAbove (s : State) (p : Nat) (prio : BitVec 3) : Bool :=
  s.launches.entries.any fun e => e.2.part == p && !e.2.bound && prio.ult e.2.prio
/-- The candidates for selection: their number and priority (R196, R425). -/
def State.candidates (s : State) (p : Nat) : List (Nat × Nat) :=
  let part := s.part p
  let hosted := (part.queues.entries.filter fun e => e.2.st == .headready).map fun e => (e.1, e.2.qprio.toNat)
  let direct := match part.direct with
    | d :: _ => if d.ready then [(32, (recPrio d.record).toNat)] else []
    | [] => []
  let saved := match part.saved with
    | some v =>
      if part.gang == .saved && !v.selected && (!v.underPcap || s.poolHolds p) && !s.waitsAbove p v.sprio then [(33, v.sprio.toNat)]
      else []
    | none => []
  hosted ++ direct ++ saved
/-- The candidate taken: highest priority, then the first after the one taken last at that priority. -/
def choose (last : FMap Nat) (cs : List (Nat × Nat)) : Option (Nat × Nat) :=
  let top := cs.foldl (fun m c => max m c.2) 0
  let mine := cs.filter fun c => c.2 == top
  match last.find? top with
  | some k => (mine.find? fun c => k < c.1).orElse fun _ => mine.head?
  | none => mine.head?

/-- The record's PRIO takes the queue's (R196). -/
def setPrio (r : BitVec 1024) (prio : BitVec 3) : BitVec 1024 :=
  (r &&& ~~~(BitVec.ofNat 1024 (7 * 2 ^ 568))) ||| BitVec.ofNat 1024 (prio.toNat * 2 ^ 568)

/-- The present cores, where one of them is on a quarantined site: a launch selected now may name it (R489). -/
def State.awaited (s : State) (p : Nat) : List Nat :=
  let cids := s.presentCores p
  if cids.any fun c => (s.physCore? c).any fun c => s.deadSite (coreSite c) then cids else []
/-- The next identifier of a launch's channel, and the launch's number. -/
def State.enrol (s : State) (p : Nat) (l : Launch) : State × Nat :=
  let part := s.part p
  let s := s.setPart p { part with lnext := part.lnext.set l.ch l.lid }
  ({ s.setLaunch s.nextLaunch { l with awaits := s.awaited p } with nextLaunch := s.nextLaunch + 1 }, s.nextLaunch)

/-- The head of a host queue is selected: consumed, its LID written (R188, R192). -/
def State.selectQueue (s : State) (p qn : Nat) : State :=
  let part := s.part p
  let q := s.queue p qn
  let va := q.slotVa q.head
  let r := setPrio q.record q.qprio
  let lid := part.lnextOf (recDone r) + 1#32
  let l : Launch :=
    { part := p, tenant := part.tenant, queue := qn, record := r, indirect := false, addr := va + 64#64, slotAddr := some va
      prio := q.qprio, ch := recDone r, lid := lid, count := (recCount r).extractLsb' 0 32, wdtUs := q.wdtUs, wdtQueue := qn }
  let r := s.enrol p l
  let s := r.1.setQueue p qn { q.consume with st := .binding, binding := r.2 }
  s.dispStore part.tenant p (va + 4#64) 4 lid.toNat

/-- The head of the direct queue is selected; one whose count could not be read is rejected now (R150). -/
def State.selectDirect (s : State) (p : Nat) : State :=
  let part := s.part p
  match part.direct with
  | [] => s
  | d :: rest =>
    let lid := part.lnextOf (recDone d.record) + 1#32
    let l : Launch :=
      { part := p, tenant := part.tenant, queue := 32, record := d.record, indirect := d.indirect, addr := d.addr, slotAddr := none
        prio := recPrio d.record, ch := recDone d.record, lid := lid, count := d.count, wdtUs := d.wdtUs, wdtQueue := d.queue }
    let s := s.setPart p { part with direct := rest }
    let r := s.enrol p l
    match d.fault with
    | some t => r.1.reject r.2 l t
    | none => r.1

/-- DISPATCHER_SELECTION (R196): the dispatcher of partition `input.part` selects one candidate. A drain or a restore holds
selection (R421, R493). -/
def execDispatcherSelection (s : State) : Res :=
  let p := s.input.part
  let part := s.part p
  if !part.live || part.frozen || part.gang == .draining || part.gang == .restoring || s.time < part.nextSelect then .next s
  else match choose part.lastSel (s.candidates p) with
    | none => .next s
    | some (k, prio) =>
      let s := s.setPart p { part with lastSel := part.lastSel.set prio k, nextSelect := s.time + 4 }
      .next
        (if k = 33 then
           let q := s.part p
           s.setPart p { q with saved := q.saved.map fun v => { v with selected := true } }
         else if k = 32 then s.selectDirect p else s.selectQueue p k)

/-! ## The checks of a record (R150, R156) -/

/-- What R150 judges in the record alone. -/
def recordBad (l : Launch) : Bool :=
  let r := l.record
  bits r.toNat 585 439 != 0 || recField r 564 1 != 0 || recField r 544 4 != 0
    || ((List.range 4).any fun i => bits (recDep r i).toNat 36 27 != 0)
    || (recEntry r).toNat % 8 != 0 || (recGtab r).toNat % 16 != 0
    || 256 < recGcnt r || (recGcnt r != 0 && recGtab r == 0#64)
    || recL2sh r == 0 || 5 < recL2sh r
    || recSpill r % 64 != 0 || 3 * 2 ^ 20 < 2 * recSpc r * recSpill r + recL2sh r * 2 ^ 19
    || (recCset r && recGcnt r ≤ recCgrp r)
    || (if l.indirect then (recCount r).toNat % 4 != 0 else bits (recCount r).toNat 32 32 != 0)

/-- What the read of the group table ends with. -/
inductive GroupRead where
  | groups (gs : List Group) (s : State)
  | bad (t : TrapInfo)
  | later (s : State)

/-- Is a member word that of a present core of the partition, or of a member of its span (R156)? What it names on another
module, that module's dispatcher judges (R446). -/
def State.memberOk (s : State) (p : Nat) (ncids : Nat) (w : Nat) : Bool :=
  let m := bits w 16 6
  w < 2 ^ 22 && (if m == s.ownModule p then bits w 0 16 < ncids else s.reachable p m)
def illegalInfo : TrapInfo := { cause := causeIllegal }

/-- `n` member words from `a`, each judged as it is read. -/
def State.readMembers (s : State) (tenant p ncids : Nat) : Nat → Word → List (BitVec 22) → GroupRead
  | 0, _, acc => .groups [{ index := 0, members := acc.reverse }] s
  | n + 1, a, acc =>
    match s.dispRead tenant p a 4 with
    | .fault t => .bad t
    | .later s => .later s
    | .data x s =>
      if !s.memberOk p ncids x || acc.contains (BitVec.ofNat 22 x) then .bad illegalInfo
      else s.readMembers tenant p ncids n (a + 4#64) (BitVec.ofNat 22 x :: acc)

/-- The entries from number `i` (R91, R155). -/
def State.readGroups (s : State) (tenant p ncids : Nat) (gtab : Word) : Nat → Nat → List Group → GroupRead
  | 0, _, acc => .groups acc.reverse s
  | n + 1, i, acc =>
    match s.dispRead tenant p (gtab + BitVec.ofNat 64 (16 * i)) 16 with
    | .fault t => .bad t
    | .later s => .later s
    | .data x s =>
      let size := bits x 64 24
      if bits x 88 40 ≠ 0 then .bad illegalInfo
      else if size = 0 then s.readGroups tenant p ncids gtab n (i + 1) acc
      else if x % 4 ≠ 0 then .bad illegalInfo
      else match s.readMembers tenant p ncids size (BitVec.ofNat 64 (bits x 0 64)) [] with
        | .bad t => .bad t
        | .later s => .later s
        | .groups gs s =>
          s.readGroups tenant p ncids gtab n (i + 1) ({ index := i, members := (gs.map (·.members)).headD [] } :: acc)

/-- The lowest CID of this module with a fifth membership (R150). -/
def State.fifth (s : State) (p ncids : Nat) (gs : List Group) : Option Nat :=
  ((List.range ncids).map fun i => s.ownModule p * 2 ^ 16 + i).find? fun w =>
    4 < (gs.filter fun g => g.members.contains (BitVec.ofNat 22 w)).length

/-- The core set of a record on this module, and how many of its cores lie on others. -/
def State.coreSetOf (s : State) (l : Launch) (cids : List Nat) (gs : List Group) : List Nat × Nat :=
  if !recCset l.record then (List.range cids.length, l.remote)
  else
    let ms := ((gs.filter fun g => g.index == recCgrp l.record).flatMap (·.members)).map (·.toNat)
    let here := ms.filter fun w => bits w 16 6 == s.ownModule l.part
    (here.map fun w => bits w 0 16, ms.length - here.length)

/-- A judged record: its cores, core set and groups. -/
structure Plan where
  cids : List Nat
  coreSet : List Nat
  remote : Nat
  groups : List Group
  deriving DecidableEq, Repr

inductive Judged where
  | plan (x : Plan) (s : State)
  | bad (t : TrapInfo)
  | later (s : State)

/-- Is it a span launch: does its core set lie on more than its own module (R446)? -/
def State.isSpan (s : State) (l : Launch) (remote : Nat) : Bool :=
  let cfg := (s.part l.part).spcfg.toNat
  l.origin.isSome || (bitAt cfg 63 && 0 < bits cfg 48 6 && (!recCset l.record || 0 < remote))
/-- R150 and R155 at binding. Only a span launch names cores of other modules (R156). -/
def State.judge (s : State) (l : Launch) : Judged :=
  if recordBad l then .bad illegalInfo
  else
    let cids := s.presentCores l.part
    match s.readGroups l.tenant l.part cids.length (recGtab l.record) (recGcnt l.record) 0 [] with
    | .bad t => .bad t
    | .later s => .later s
    | .groups gs s =>
      match s.fifth l.part cids.length gs with
      | some w => .bad { cause := causeLaunchGroupOverflow, info := BitVec.ofNat 64 w }
      | none =>
        if recCset l.record && !(gs.any fun g => g.index == recCgrp l.record) then .bad illegalInfo
        else
          let r := s.coreSetOf l cids gs
          let stray := gs.any fun g => g.members.any fun w => bits w.toNat 16 6 != s.ownModule l.part
          if stray && !s.isSpan l r.2 then .bad illegalInfo
          else .plan { cids := cids, coreSet := r.1, remote := r.2, groups := gs } s

/-! ## Does it fit (R151, R244, R245, R489)? -/

/-- The free slots of a core that are not promised. -/
def State.freeSlots (s : State) (core : Nat) : Nat :=
  (s.dormantSlots core).length - s.promised core
/-- A plan's cores as they now are. -/
def State.planCores (s : State) (x : Plan) : List Nat := x.coreSet.filterMap fun i => s.physCore? (x.cids.getD i 0)
def State.planSites (s : State) (x : Plan) : List Nat := ((s.planCores x).map coreSite).dedup
def State.othersOn (s : State) (site : Nat) : List Launch := s.launches.values.filter fun l => s.boundOn l site
def carveNeed (l : Launch) : Nat := 2 * recSpc l.record * recSpill l.record
/-- A tile's L2 slice can become `s2` bytes, and its scratch take `need` more. -/
def State.tileRoom (s : State) (site need s2 : Nat) : Bool :=
  let others := s.othersOn site
  (others.isEmpty || (s.tile site).s2 == s2) && others.foldl (fun n o => n + carveNeed o) need + s2 ≤ 3 * 2 ^ 20
def State.tileFits (s : State) (l : Launch) (site : Nat) : Bool := s.tileRoom site (carveNeed l) (recL2sh l.record * 2 ^ 19)
def State.fits (s : State) (l : Launch) (x : Plan) : Bool :=
  ((s.planCores x).all fun c => recSpc l.record ≤ s.freeSlots c && !s.deadSite (coreSite c))
    && ((s.planSites x).all fun t => s.tileFits l t)

/-- A zone's maquette is built: each of its rows has taken a MAPSET since module reset (R471). -/
def State.zonesBuilt (s : State) (p : Nat) : Bool :=
  (s.part p).zoneList.all fun z => (List.range 12).all fun r => (s.zone z).mapped.contains r

/-! ## Binding (R151–R153, R245) -/

/-- The dirty lines whose home slice passes `here` are written back and stay valid; a forced one is counted (R312). Copies that are held
for a quarantined home stay as they are until the MAPSET (R438). -/
def State.writeBackSlices (s : State) (here : Nat → Bool) (forced : Bool) : State :=
  let lines := s.l2.entries.filter fun e =>
    e.2.dirtier.isSome && here e.2.home && (s.homeHeld e.2.home).isNone
  lines.foldl
    (fun s e => if forced then s.forceWriteBack e.1 else { s with l2 := s.l2.set e.1 { e.2 with dirtier := none, below := false, atHome := true } }) s
/-- Bytes of a tile's SRAM from an offset on read zero, free of poison. -/
def State.zeroSram (s : State) (site off n : Nat) : State :=
  let lo := sramPa site off
  { s with
    mem := s.mem.clear lo n
    poison := s.poison.filter fun g => !(lo / 64 ≤ g && g < (lo + n) / 64) }

/-- The S2 of a tile changes: its slice's dirty lines are written back, and the bytes that pass over read zero (R245). -/
def State.resizeL2 (s : State) (site s2 : Nat) : State :=
  let old := (s.tile site).s2
  if old = s2 then s
  else
    let home := (s.logical? site).map fun rc => siteZone site * 132 + rc.1 * 11 + rc.2
    let s := s.writeBackSlices (fun t => some t == home) true
    (s.setTile site { s.tile site with s2 := s2 }).zeroSram site (3 * 2 ^ 20 - max old s2) (max old s2 - min old s2)

/-- A span launch waits for its number, and for every smaller one of the span (R446). -/
def State.spanReady (s : State) (l : Launch) (x : Plan) : Bool :=
  !s.isSpan l x.remote || (match l.spanSeq with
    | none => false
    | some k => (List.range k).all fun j => j == 0 || (s.part l.part).spanSettled.contains j)
/-- The leader's next number. -/
def State.takeNumber (s : State) (p : Nat) : State × Nat :=
  let q := s.part p
  (s.setPart p { q with nextSpan := q.nextSpan + 1 }, q.nextSpan)
/-- A launch selected here has its number: every other member takes its share. -/
def State.startSpan (s : State) (n : Nat) (l : Launch) (k : Nat) : State :=
  let others := s.otherMembers l.part
  (s.setLaunch n { l with spanSeq := some k, spanAsked := true, spanLeft := others, spanUnbound := others }).tellMembers l.part
    [ctlNumber, k, l.record.toNat, l.count.toNat, l.wdtUs]
/-- It goes to the leader for its number, once (R446). -/
def State.askNumber (s : State) (n : Nat) (l : Launch) : State :=
  if l.spanAsked then s
  else if s.ownModule l.part = 0 then let r := s.takeNumber l.part; r.1.startSpan n l r.2
  else (s.setLaunch n { l with spanAsked := true }).tellMember l.part 0 [ctlLaunch, l.record.toNat, l.count.toNat, l.wdtUs]
/-- A share has bound: its origin hears of it, or, when it is the origin's own and the last, every member. -/
def State.tellBound (s : State) (l : Launch) : State :=
  match l.spanSeq, l.origin with
  | none, _ => s
  | some k, some m => s.tellMember l.part m [ctlBound, k, l.cids.length]
  | some k, none => if l.spanUnbound.isEmpty then s.tellMembers l.part [ctlAllBound, k] else s

/-- In SAVED the waiting launches bind by priority, and the selected saved set comes back before a lower one binds (R421, R425). -/
def State.bindsFirst (s : State) (l : Launch) : Bool :=
  let p := s.part l.part
  p.gang != .saved || (!s.waitsAbove l.part l.prio && !(p.saved.any fun v => v.selected && l.prio.ult v.sprio))

/-- Where each node of a group's tree stands: the tile of a member (R157). -/
def treeTile (own : Nat) (cids : List Nat) (w : BitVec 22) : Nat :=
  if bits w.toNat 16 6 = own then cids.getD (bits w.toNat 0 16) 0 / 2 else 2 ^ 20 + w.toNat / 2
/-- A group's spanning tree: its tiles in rank order (R157). -/
def Group.planted (own : Nat) (cids : List Nat) (g : Group) : Group :=
  let tiles := g.members.map (treeTile own cids)
  let once := tiles.foldl (fun t x => if t.contains x then t else t ++ [x]) []
  { g with tree := once.map fun t => { tile := t, cores := tiles.count t } }
/-- The launch is bound: its numbering, groups and deadline are fixed, its tiles host it, its queue goes on. -/
def State.bind (s : State) (n : Nat) (l : Launch) (x : Plan) : State :=
  let sites := s.planSites x
  let s := sites.foldl (fun s t => s.resizeL2 t (recL2sh l.record * 2 ^ 19)) s
  let l :=
    { l with
      bound := true, cids := x.cids, coreSet := x.coreSet, remote := x.remote
      groups := x.groups.map fun g => g.planted (s.ownModule l.part) x.cids
      toWake := x.coreSet.foldl (fun t i => setInsert i t) [], since := some s.time, usedNs := 0 }
  let s := s.setLaunch n l
  let s := sites.foldl (fun s t => s.beginHosting t) s
  ((s.leaveBinding n l).settleSpan l).tellBound l

/-- May the dispatcher bind in this partition now? -/
def State.mayBind (s : State) (l : Launch) : Bool :=
  let p := s.part l.part
  s.module.ready && !p.frozen && (p.gang == .running || p.gang == .saved) && s.zonesBuilt l.part

/-- The launch waits for a quarantined site: the numbering under which it named that site's core is kept (R489). -/
def State.awaitSite (s : State) (n : Nat) (l : Launch) (x : Plan) : State :=
  if l.awaits.isEmpty && (s.planCores x).any fun c => s.deadSite (coreSite c) then s.setLaunch n { l with awaits := x.cids } else s
/-- A core that a group of the launch named while it waited is absent now (R489). -/
def State.lostMember (s : State) (l : Launch) (x : Plan) : Bool :=
  x.groups.any fun g => g.members.any fun w => bits w.toNat 16 6 == s.ownModule l.part
    && (match l.awaits[bits w.toNat 0 16]? with
      | some c => (s.physCore? c).isNone
      | none => false)
/-- LAUNCH_BINDING (R150–R153, R446): selected launch `input.launch` binds, is rejected, goes for its span number, or waits. -/
def execLaunchBinding (s : State) : Res :=
  let n := s.input.launch
  match s.launch? n with
  | none => .next s
  | some l =>
    if l.bound || !s.mayBind l then .next s
    else match s.judge l with
      | .bad t =>
        (match s.stsWaits l with
         | some s => .next s
         | none => .next (s.reject n l t))
      | .later s => .next s
      | .plan x s =>
        if s.isSpan l x.remote && l.spanSeq.isNone then .next (s.askNumber n l)
        else if s.lostMember l x then
          (match s.stsWaits l with
           | some s => .next s
           | none => .next (s.reject n l illegalInfo))
        else if s.spanReady l x && s.bindsFirst l && s.fits l x then .next (s.bind n l x)
        else .next (s.awaitSite n l x)

/-! ## The wake flood (R143, R152, R246, R247) -/

/-- Where the carve-out of a slot stands in its tile's SRAM: places of their own beyond the addressable 3 MiB, since no
rule depends on the position (R244). -/
def carvePlace (core slot : Nat) : Nat := 2 ^ 23 * (1 + core % 2 * 8 + slot)
/-- A carve-out reads zero at its strand's birth. -/
def State.openCarve (s : State) (n core slot size : Nat) : State :=
  if size = 0 then s
  else
    let c := s.core core
    (s.setCore core { c with carves := c.carves.set slot { launch := n, base := carvePlace core slot, size := size } }).zeroSram
      (coreSite core) (carvePlace core slot) size
/-- One launch-born strand (R143): strand `i` of its core, CID.CORE `cid`. -/
def launchStrand (p : Partition) (n : Nat) (l : Launch) (core slot i cid : Nat) : Strand :=
  let size := recSpill l.record
  { st := .ready, regs := { g := ⟨[(14, swin)]⟩ }, pc := recEntry l.record, birth := .launch, launch := n, index := BitVec.ofNat 3 i
    ovfp := if p.ovbase = 0#64 then 0#64 else p.ovbase + BitVec.ofNat 64 (8 * cid + i) * p.ovstr
    carveBase := if size = 0 then 0 else carvePlace core slot, carveSize := size }
/-- SPC strands start on a core. -/
def State.startStrands (s : State) (n : Nat) (l : Launch) (core cid : Nat) : State :=
  let slots := (s.dormantSlots core).take (recSpc l.record)
  (slots.zip (List.range slots.length)).foldl
    (fun s e => (s.openCarve n core e.1 (recSpill l.record)).birth core e.1 (launchStrand (s.part l.part) n l core e.1 e.2 cid)) s

/-- WAKE_FLOOD (R152): the flood of launch `input.launch` reaches the core with CID.CORE `input.item`. -/
def execWakeFlood (s : State) : Res :=
  let n := s.input.launch
  let cid := s.input.item
  match s.launch? n with
  | none => .next s
  | some l =>
    match s.physCore? (l.cids.getD cid 0) with
    | none => .next s
    | some core =>
      if !l.toWake.contains cid || !l.spanUnbound.isEmpty || l.saved || !s.partRuns l.part || s.deadSite (coreSite core)
          || (s.dormantSlots core).length < recSpc l.record then .next s
      else .next ((s.startStrands n l core cid).setLaunch n { l with toWake := setRemove cid l.toWake })

/-! ## Completion (R154) -/

/-- Does anything of the launch still run on this module, or has a strand that left for another member not been heard of? -/
def State.launchLives (s : State) (n : Nat) (l : Launch) : Bool :=
  !l.toWake.isEmpty || !l.abroad.entries.isEmpty
    || (s.strands.values.any fun x => x.launch == n && x.st != .dormant)
    || (s.packets.any fun k => k.launch == n)
    || (s.ops.any fun o => o.launch == n)
    || (s.zones.values.any fun z => z.tasks.any fun t => t.launch == n)
/-- A launch's mailboxes are cleared, and their messages return NOBOX. R154 says so of those below threshold; the model does
the same with THR or more that have not fired yet. DEDUCED (log 82). -/
def State.clearMailboxes (s : State) (n : Nat) : State :=
  s.cores.keys.foldl
    (fun s c =>
      let mine := (s.core c).mboxes.entries.filter fun e => e.2.launch == n
      let s := mine.foldl (fun s e => e.2.waiting.foldl (fun s w => s.pushMessage (w.2.back 2#4)) s) s
      if mine.isEmpty then s
      else s.setCore c { s.core c with mboxes := (s.core c).mboxes.keep fun k => !(mine.any fun e => e.1 == k) }) s
/-- Its carve-outs are freed, and its trees are gone. -/
def State.releaseLaunch (s : State) (n : Nat) : State :=
  { s with
    cores := s.cores.mapValues fun _ c => { c with carves := ⟨c.carves.entries.filter fun e => e.2.launch != n⟩ }
    treeMsgs := s.treeMsgs.filter fun m => m.launch != n }

/-- LAUNCH_COMPLETION (R154, R492): bound launch `input.launch` has nothing left to do, and no sample has found it past its deadline. -/
def execLaunchCompletion (s : State) : Res :=
  let n := s.input.launch
  match s.launch? n with
  | none => .next s
  | some l =>
    if !l.bound || l.saved || !s.partRuns l.part || l.expired s.time || s.launchLives n l || !l.spanLeft.isEmpty then .next s
    else match s.stsWaits l with
      | some s => .next s
      | none => .next (((s.clearMailboxes n).releaseLaunch n).postLaunch n l l.sts.toNat)

/-! ## LAUNCH, LAUNCHI, LAUNCH.Q (R227–R229) -/

/-- The launch instructions read their record; placing it is a release. A launch cannot be taken back, so a speculative
task first becomes irrevocable. -/
def State.withRecord (s : State) (va : Word) (f : BitVec 1024 → State → Res) : Res :=
  if va.toNat % 128 ≠ 0 then s.trapAt causeMisaligned va
  else
    s.gated fun s =>
      (s.drainCore s.selfCore).readStruct va 16 fun x s => f (BitVec.ofNat 1024 x) s
/-- Steps 2 and 3 of R227. -/
def State.placeDirect (s : State) (d : Reg) (va : Word) (indirect : Bool) (r : BitVec 1024) : Res :=
  let p := s.part s.selfPart
  if 64 ≤ p.direct.length then .next (s.setG d minusOne)
  else
    let w := s.selfLaunch.map fun l => (l.wdtUs, l.wdtQueue)
    let x : DirectRecord :=
      { record := r, indirect := indirect, addr := va, wdtUs := (w.map (·.1)).getD 0, queue := (w.map (·.2)).getD 0 }
    .next ((s.setPart s.selfPart { p with direct := p.direct ++ [x] }).setG d 0#64)

/-- LAUNCH (R227). -/
def execLaunch (d : Reg) (a : Src) (s : State) : Res :=
  s.unless (s.barred true false true true) (s.withRecord (s.g a) fun r s => s.placeDirect d (s.g a) false r)
/-- LAUNCHI (R227). -/
def execLaunchi (d : Reg) (a : Src) (s : State) : Res :=
  s.unless (s.barred true false true true) (s.withRecord (s.g a) fun r s => s.placeDirect d (s.g a) true r)

/-- One write after another; the first that does not take place decides. -/
def DispWrite.bind (w : DispWrite) (f : State → DispWrite) : DispWrite :=
  match w with
  | .done s => f s
  | w => w
/-- The words of a packet, header last. -/
def State.packetWrite (s : State) (tenant p : Nat) (va : Word) (k : Nat) (r : BitVec 1024) : DispWrite :=
  ((s.dispWrite tenant p (va + 64#64) 64 (bits r.toNat 0 512)).bind
      fun s => s.dispWrite tenant p (va + 128#64) 64 (bits r.toNat 512 512)).bind
    fun s => s.dispWrite tenant p va 64 (sealOf k)
/-- PEND rises by one, as by a kick of 1. -/
def State.onePacket (s : State) (p qn : Nat) : State :=
  let q := { s.queue p qn with pend := (s.queue p qn).pend + 1 }
  s.setQueue p qn (if q.st == .idle then q.next else q)

/-- LAUNCH.Q (R229). -/
def execLaunchQ (d : Reg) (a b : Src) (s : State) : Res :=
  s.unless (s.barred true false true true)
    (s.withRecord (s.g a) fun r s =>
      let sel := (s.g b).toNat
      let p := bits sel 5 6
      let qn := bits sel 0 5
      let part := s.part p
      let q := s.queue p qn
      if 2 ^ 11 ≤ sel || !part.live || part.tenant != s.selfTenant || q.st == .off || q.st == .faulted || q.st == .frozen then
        .next (s.setG d (minusOne - 1#64))
      else if q.pend = q.size then .next (s.setG d minusOne)
      else
        let k := q.head + q.pend
        let va := q.slotVa k
        let put (s : State) : State := (s.onePacket p qn).setG d (BitVec.ofNat 64 (k % 2 ^ 32))
        match s.packetWrite part.tenant p va k r with
        | .done s => .next (put s)
        | .failed s => .next ((put s).faultQueue p qn fcodeRing 0)
        | .later w v => .next (State.hold { s with pri := v.pri, outputs := v.outputs } w))

end Sys2Proof.Machine
end

