-- ==== Sys2Proof/Machine/Gang.lean ====
section
/-! DEFINITION. Gang switches, watchdogs, drain and reset (18 R417–R428, 28 R491–R493). A drain is `drainReset`, once. -/

namespace Sys2Proof.Machine

/-! ## Drain and reset (R428) -/

/-- Is a core one of the partition's? -/
def State.inPart (s : State) (p core : Nat) : Bool := !coreIsAtelier core && (s.part p).hasZone (coreZone core)
/-- The partition begins to drain: its cores stop at a pair boundary, and the status to post is fixed. -/
def State.startDrain (s : State) (p : Nat) (sts : BitVec 4) : State :=
  s.setPart p { s.part p with gang := .draining, drainSts := sts, pcapSwitch := false, spared := 0 }

/-- Step 1 and part of 5: the strands become DORMANT, their outstanding accesses and packets are gone. -/
def State.drainStrands (s : State) (p : Nat) : State :=
  let mine (k : Nat) : Bool := s.inPart p (strandCore k)
  { s with
    strands := s.strands.keep fun k => !mine k
    accesses := s.accesses.filter fun a => !mine a.strand
    packets := s.packets.filter fun x => !mine x.strand }.forgetRequests (·.onCore (s.inPart p))
/-- Step 2: every engine operation ends CANCELLED, CDONE becomes CNEXT. -/
def State.drainOps (s : State) (p : Nat) : State :=
  let mine := s.ops.filter fun o => s.inPart p o.core
  let s := mine.foldl
    (fun s o => if o.kind.onChannel then s.complete o.core o.ch o.id (recordWord 4 o.pcnt o.dcnt) else s) s
  { s with
    ops := s.ops.filter fun o => !s.inPart p o.core
    cores := s.cores.mapValues fun c x =>
      if s.inPart p c then { x with cdone := x.cnext, returned := [], mboxes := ⟨[]⟩, carves := ⟨[]⟩ } else x }
/-- Step 3: messages and signals in flight within the partition are dropped. -/
def State.drainMessages (s : State) (p : Nat) : State :=
  { s with
    messages := s.messages.filter fun m => !(s.inPart p m.srcCore || (m.module.isNone && s.inPart p m.target))
    signals := s.signals.filter fun g => !(s.inPart p (2 * g.src) || (g.module.isNone && s.inPart p (2 * g.site))) }
/-- The share of a span launch that another module waits for, or that waits for others, ends here (R448). -/
def Launch.endShare (l : Launch) (sts : BitVec 4) : Launch :=
  { l with sts := sts, bound := true, toWake := [], coreSet := [], groups := [], since := none, saved := false, spanUnbound := [] }
/-- A record of the direct queue takes its identifier and completes with it. -/
def Partition.cancelDirect (q : Partition) (d : DirectRecord) : Partition :=
  let ch := recDone d.record
  let id := q.lnextOf ch + 1#32
  { q with lnext := q.lnext.set ch id }.postDone ch id
/-- Step 4: bound and waiting launches, but the one that the drain leaves waiting (R427), are posted with the drain's status,
and so are the records of the direct queue. A span launch waits for its other members, but not where the span has broken: a bound one is
then posted LINK_LOST (R457). -/
def State.drainLaunches (s : State) (p : Nat) (sts : BitVec 4) : State :=
  let spared := (s.part p).spared
  let mine := s.launches.entries.filter fun e => e.2.part == p && (e.1 != spared || e.2.bound)
  let s := mine.foldl
    (fun s e =>
      let s := (s.leaveBinding e.1 e.2).releaseLaunch e.1
      let own := if sts = 3#4 ∧ (e.2.spanSeq.isNone ∨ !e.2.bound) then 4#4 else sts
      if e.2.spanLeft.isEmpty || sts = 3#4 then s.postLaunch e.1 e.2 own.toNat else (s.settleSpan e.2).setLaunch e.1 (e.2.endShare own)) s
  let q := s.part p
  s.setPart p (q.direct.foldl Partition.cancelDirect { q with direct := [], saved := none })
/-- What step 5 leaves of a tile; step 6 keeps user scratch and tile stores. -/
def Tile.drained (t : Tile) : Tile :=
  { t with accs := [], accPoison := [], carry := [], carryValid := [], sems := ⟨[]⟩, semWait := ⟨[]⟩, lines := ⟨[]⟩
           shadow := none, faultq := [] }
/-- Step 5. The write-backs are none of the forced ones that R312 names. -/
def State.drainTiles (s : State) (p : Nat) : State :=
  let carved := s.cores.entries.flatMap fun e =>
    if s.inPart p e.1 then e.2.carves.values.map fun c => (coreSite e.1, c) else []
  let s := carved.foldl (fun s c => s.zeroSram c.1 c.2.base c.2.size) s
  let s := s.writeBackSlices (fun t => (s.part p).hasZone (t / 132)) false
  { s with
    tiles := s.tiles.mapValues fun t x => if (s.part p).hasZone (siteZone t) then x.drained else x
    zones := s.zones.mapValues fun z x => if (s.part p).hasZone z then { x with tasks := [] } else x }
/-- A zone in no partition holds no tokens (R185). -/
def State.leaveZone (s : State) (z : Nat) : State :=
  { s with tiles := s.tiles.mapValues fun t x => if siteZone t == z then { x with account := {} } else x }
/-- A zone that has gone out of service leaves its partition once that has been reset (R435). -/
def State.dropZones (s : State) (p : Nat) : State :=
  let out := (s.part p).zoneList.filter fun z => (s.zone z).outOfService
  let s := out.foldl (fun s z => s.leaveZone z) s
  s.setPart p { s.part p with zones := out.foldl (fun m z => setBit m z false) (s.part p).zones }
/-- The whole of R428 on partition `p`. -/
def State.drainReset (s : State) (p : Nat) : State :=
  let sts := (s.part p).drainSts
  let s := s.drainTiles p
  let s := ((s.drainStrands p).drainMessages p).drainOps p
  let s := s.drainLaunches p sts
  let s := s.dropZones p
  s.setPart p { s.part p with gang := .running, drainSts := 4#4, spared := 0, resetDue := false }

/-- DRAIN_RESET_COMPLETE (R428, R493): the drain of partition `input.part` completes. -/
def execDrainResetComplete (s : State) : Res :=
  let p := s.input.part
  if (s.part p).live && (s.part p).gang == .draining then .next (s.drainReset p) else .next s

/-- The partition is to drain: at once, or when a save that has begun is complete, a frozen one's after its release (R421, R430). -/
def State.orderDrain (s : State) (p : Nat) (sts : BitVec 4) : State :=
  let q := s.part p
  if q.gang == .draining then s
  else if q.gang == .saving || q.gang == .stopping then s.setPart p { q with resetDue := true, drainSts := sts }
  else s.startDrain p sts

/-! ## Watchdogs (R427, R492) -/

/-- WATCHDOG_EXPIRY (R427, R492): launch `input.launch` is past its deadline at a sample. Its queue, for a direct launch
the host queue it descends from, faults, and its partition drains, also one that holds a saved set. An expiry in ARMED leaves the
requester of the switch to bind afterwards. -/
def execWatchdogExpiry (s : State) : Res :=
  let n := s.input.launch
  match s.launch? n with
  | none => .next s
  | some l =>
    let p := s.part l.part
    if !s.deadlineRuns l || l.used (lastSample s.time) < l.wdtUs * 1000 then .next s
    else
      let q := s.queue l.part l.wdtQueue
      let s := if l.origin.isSome then s else if q.st == .off then s.queueReport l.part l.wdtQueue causeWatchdog.toNat
        else s.faultQueue l.part l.wdtQueue fcodeWatchdog causeWatchdog.toNat
      let s := s.startDrain l.part 4#4
      .next (s.setPart l.part { s.part l.part with spared := if p.gang == .armed then p.requester else 0 })

/-! ## Arming a switch (R199, R214, R417, R418, R448) -/

/-- The bytes that a save area of `z` zones needs (R422). -/
def zoneRegionBytes : Nat := 544 * 2 ^ 20 + 65536
def saveNeed (z : Nat) : Nat := 65536 + z * zoneRegionBytes
def Partition.saveOk (p : Partition) : Bool := saveNeed p.zoneList.length ≤ p.saveSize
def State.boundIn (s : State) (p : Nat) : List (Nat × Launch) := s.launches.entries.filter fun e => e.2.part == p && e.2.bound
/-- Every bound launch may be pre-empted. -/
def State.preemptible (s : State) (p : Nat) : Bool :=
  (s.part p).saveOk && !(s.boundIn p).isEmpty && (s.boundIn p).all fun e => recPre e.2.record
/-- The selected launch lacks slots on some core of its core set. -/
def State.lacksSlots (s : State) (l : Launch) : Bool :=
  match s.judge l with
  | .plan x s => (s.planCores x).any fun c => s.freeSlots c < recSpc l.record
  | _ => false
def State.spanBound (s : State) (p : Nat) : Bool := (s.boundIn p).any fun e => e.2.spanSeq.isSome

/-- The partition is armed with a stamp (R418). -/
def State.armWith (s : State) (p stamp requester : Nat) : State :=
  s.setPart p { s.part p with gang := .armed, stamp := stamp, requester := requester }
/-- The stamp that the leader sends for a span: its TIME + 4,000 ns + the largest link latency `lat`, or the one that it has sent before
and not reached. -/
def State.leaderStamp (s : State) (p lat : Nat) : Nat := if (s.part p).gang == .armed then (s.part p).stamp else s.time + 4000 + lat
/-- A span's switch reaches partition `p` (R448): at the leader a member's wish, which it answers with the stamp for every member,
whatever its own partition does; at another member the stamp `input.off`, on its own time base, by the offset `input.value` that the
link layer measures. The partition itself stops only as R417 allows. -/
def State.armTold (s : State) (p : Nat) : State :=
  let part := s.part p
  let arms := part.live && !part.frozen && part.gang == .running && ((s.boundIn p).isEmpty || s.preemptible p)
  let leads := s.ownModule p == 0
  let stamp := if leads then s.leaderStamp p s.input.off else (s.input.off + s.input.value.toInt).toNat
  let s := if arms then s.armWith p stamp 0 else s
  if leads then s.tellMembers p [ctlStamp, stamp] else s
/-- GANG_SWITCH_ARM (R199, R418): partition `input.part` is switched for selected launch `input.launch`, or because the root
asked for it (R214). One that holds part of a span launch takes its stamp from the leader (R448): another member asks the
leader, and with `input.flag` a member's wish or the leader's stamp arrives from `input.module`. At the leader `input.off` is the largest
link latency. -/
def execGangSwitchArm (s : State) : Res :=
  let p := s.input.part
  let part := s.part p
  if s.input.flag && !(s.otherMembers p).isEmpty then .next (s.controlled p fun s => s.armTold p)
  else
    let want := match s.launch? s.input.launch with
      | some l =>
        l.part == p && !l.bound && s.lacksSlots l && (s.boundIn p).all fun e => e.2.prio.ult l.prio
      | none => false
    let span := s.spanBound p
    let leads := s.ownModule p == 0
    if !part.live || part.frozen || part.gang != .running || !(s.preemptible p && (want || part.pcapSwitch)) then .next s
    else if span && !leads then .next (s.tellMember p 0 [ctlStamp])
    else
      let stamp := s.time + 4000 + (if span then s.input.off else 0)
      let s := s.armWith p stamp (if want then s.input.launch else 0)
      .next (if span then s.tellMembers p [ctlStamp, stamp] else s)

/-- The speculative tasks of a zone are rolled back to unstarted tasks (R419). -/
def State.unstartTasks (s : State) (zone : Nat) : State :=
  let mine := (s.zone zone).tasks.filter fun (t : Sys2Proof.Machine.Task) => !t.irrevocable
  mine.foldl (fun s t => s.unstart zone t) s

/-- GANG_SWITCH_STOP (R418, R419): TIME has reached the stamp of partition `input.part`. With no bound launch left the switch
ends at once. -/
def execGangSwitchStop (s : State) : Res :=
  let p := s.input.part
  let part := s.part p
  if !part.live || part.frozen || part.gang != .armed || s.time < part.stamp then .next s
  else if (s.boundIn p).isEmpty then .next (s.setPart p { part with gang := .running, pcapSwitch := false })
  else
    let s := part.zoneList.foldl (fun s z => s.unstartTasks z) s
    let s := { s with
      launches := s.launches.mapValues fun _ l => if l.part == p then l.pause s.time else l
      ops := s.ops.map fun (o : Op) => if o.part == p && !coreIsAtelier o.core then o.atBoundary else o }
    .next (s.setPart p { s.part p with gang := .stopping })

/-- The logical tile of a site, as the save area numbers it. -/
def State.tileNo? (s : State) (site : Nat) : Option Nat :=
  (s.logical? site).map fun rc => siteZone site * 132 + rc.1 * 11 + rc.2
def State.siteOfTile? (s : State) (t : Nat) : Option Nat := s.site? (t / 132) (t % 132 / 11) (t % 11)
/-- The logical tile at which a saved core's image stands. -/
def Saved.tileNo? (v : Saved) (core : Nat) : Option Nat := (v.places.find? fun e => e.1 == core).map fun e => e.2 / 2

end Sys2Proof.Machine
end

