-- ==== Sys2Proof/Machine/Armature.lean ====
section
/-! DEFINITION. The armature: its cycle, the division of the pool down the tree, floors under a low PCAP, and a tile's
token account as allocations arrive (08 R201–R214). -/

namespace Sys2Proof.Machine

/-! ## One node's division (R206) -/

/-- One token each, in order, while any are left and the child wants one. -/
def shareLeft : Nat → List (Nat × Nat) → List Nat
  | _, [] => []
  | left, (g, d) :: t => if 0 < left ∧ g < d then (g + 1) :: shareLeft (left - 1) t else g :: shareLeft left t
def natSum (xs : List Nat) : Nat := xs.foldl (· + ·) 0
/-- R206: what each child gets of `avail`; a child is its floor and its demand. -/
def divide (avail : Nat) (cs : List (Nat × Nat)) : List Nat :=
  let cs := cs.map fun c => (c.1, max c.2 c.1)
  let rest := avail - natSum (cs.map (·.1))
  let want := natSum (cs.map fun c => c.2 - c.1)
  if want = 0 then cs.map fun c => min c.1 c.2
  else
    let gr := cs.map fun c => (c.1 + rest * (c.2 - c.1) / want, c.2)
    let left := avail - natSum (gr.map (·.1))
    (shareLeft left gr).zipWith (fun g c => min g c.2) cs

/-! ## Floors (R186, R204, R214) -/

/-- How many tiles of a partition host a launch. -/
def State.hostingCount (s : State) (p : Nat) : Nat := ((s.partSites p).filter s.hosts).length
/-- The floor that a partition counts with in this cycle: none once it has given way, one token a tile until then (R214). -/
def State.floorFor (s : State) (p : Nat) : Nat :=
  let q := s.part p
  if q.yielded then 0 else if q.pcapSwitch then (s.partSites p).length else q.floor
def State.livePartsOf (s : State) : List Nat := s.parts.keys.filter fun p => (s.part p).live
def State.floorsNow (s : State) : Nat := natSum (s.livePartsOf.map s.floorFor)
/-- The highest recorded priority of a partition's bound launches. -/
def State.topPrio (s : State) (p : Nat) : Nat := (s.boundIn p).foldl (fun m e => max m e.2.prio.toNat) 0
/-- The partition that the root asks next to give way: pre-emptible, running, the lowest highest priority first, and of equals
the lowest number, which R214 leaves open. DESIGN CHOICE (log 121). -/
def State.nextToYield (s : State) : Option Nat :=
  (s.livePartsOf.filter fun p => (s.part p).gang == .running && !(s.part p).pcapSwitch && s.preemptible p).foldl
    (fun best p => match best with
      | none => some p
      | some b => if s.topPrio p < s.topPrio b then some p else some b) none
/-- Stage 1 of R214: ask partitions, one after another, until the floors fit or none is left. -/
def State.askToYield (s : State) (pool : Nat) : Nat → State
  | 0 => s
  | fuel + 1 =>
    if s.floorsNow ≤ pool then s
    else match s.nextToYield with
      | none => s
      | some p => (s.setPart p { s.part p with pcapSwitch := true }).askToYield pool fuel

/-- The KIND 7 record of a scaled floor (R214, R395). -/
def State.breachReport (s : State) (p pool scaled : Nat) : State :=
  let q := s.part p
  s.dispReport p
    (recordBody 7 p q.tenant false 0 0 0 0#64 0#64 (BitVec.ofNat 64 (q.floor % 2 ^ 20 * 2 ^ 32 + scaled % 2 ^ 20))
      (BitVec.ofNat 64 (2 ^ 60 + s.floorSum % 2 ^ 20 * 2 ^ 32 + pool % 2 ^ 20)))
def throttleCap : BitVec 5 := 8#5
def State.addReason (s : State) (z : Nat) (b : BitVec 5) : State :=
  s.setZone z { s.zone z with reasons := (s.zone z).reasons ||| b }
/-- Stage 2 of R214 on one partition: its floor is scaled to its part of `avail`. -/
def State.scaleFloor (s : State) (pool avail total p : Nat) : State :=
  let q := s.part p
  let n := min q.floor (max (s.hostingCount p) (q.floor * avail / total))
  let s := if n < q.floor && !s.module.floorBreach.contains p then
      (s.breachReport p pool n).setModule { s.module with floorBreach := setInsert p s.module.floorBreach }
    else s
  let s := s.setPart p { s.part p with scaled := some n }
  q.zoneList.foldl (fun s z => s.addReason z throttleCap) s
/-- An ask whose switch has not begun holds for its cycle alone: it is taken back, and made again while it is needed. -/
def State.takeAsksBack (s : State) : State :=
  { s with parts := s.parts.mapValues fun _ q => if q.gang == .running then { q with pcapSwitch := false } else q }
/-- The floors of a cycle (R214). They return to their set values once the pool holds them. -/
def State.settleFloors (s : State) (pool : Nat) : State :=
  let s := s.takeAsksBack.askToYield pool s.livePartsOf.length
  let giving := s.livePartsOf.filter fun p => (s.part p).yielded || (s.part p).pcapSwitch
  let rest := s.livePartsOf.filter fun p => !giving.contains p
  let s := giving.foldl (fun s p => s.setPart p { s.part p with scaled := some (s.floorFor p) }) s
  if s.floorsNow ≤ pool then
    let s := rest.foldl (fun s p => s.setPart p { s.part p with scaled := none }) s
    s.setModule { s.module with floorBreach := s.module.floorBreach.filter fun p => !rest.contains p }
  else
    let given := natSum (giving.map s.floorFor)
    let total := natSum (rest.map fun p => (s.part p).floor)
    rest.foldl (fun s p => s.scaleFloor pool (pool - given) (max 1 total) p) s

/-! ## Sampling (R201, R202, R205) -/

/-- One tile as its broker reports it. -/
structure Figure where
  site : Nat
  hosts : Bool
  fl : Nat
  dm : Nat
  deriving DecidableEq, Repr

/-- The tiles of a zone, in order of row and logical column. A frozen partition asks for no more than its floor (R429). -/
def State.zoneFigures (s : State) (z : Nat) : List Figure :=
  match s.zonePart z with
  | none => []
  | some p =>
    let sites := (s.presentTiles z).filterMap fun rc => s.site? z rc.1 rc.2
    sites.map fun site =>
      { site := site, hosts := s.hosts site, fl := s.floorShare site, dm := if (s.part p).frozen then 0 else s.demand site }
def figFloor (fs : List Figure) : Nat := natSum (fs.map (·.fl))
def figDemand (fs : List Figure) : Nat := natSum (fs.map (·.dm))
def figPair (fs : List Figure) : Nat × Nat := (figFloor fs, figDemand fs)

/-- The zones of a column, in ascending number (R206). -/
def columnZones (c : Nat) : List Nat := (List.range 8).map fun k => 8 * k + c
/-- What each zone is granted out of `avail` at the root: (zone, tokens). -/
def State.divideZones (figs : Nat → List Figure) (avail : Nat) : List (Nat × Nat) :=
  let colPair (c : Nat) : Nat × Nat :=
    let zs := (columnZones c).map fun z => figPair (figs z)
    (natSum (zs.map (·.1)), natSum (zs.map (·.2)))
  let cols := divide avail ((List.range 8).map colPair)
  (List.range 8).flatMap fun c =>
    let zs := columnZones c
    zs.zip (divide (cols.getD c 0) (zs.map fun z => figPair (figs z)))
def grantOf (g : List (Nat × Nat)) (z : Nat) : Nat := ((g.find? fun e => e.1 == z).map (·.2)).getD 0

/-- The zone's caps (R211, R414): what its broker may allocate, never below its floors, and the reasons of those caps that
lower it. The thermal figure is a free value. -/
def State.capZone (s : State) (z floor gr : Nat) : Nat × BitVec 5 :=
  let x := s.zone z
  let lower (cap : Nat) (on : Bool) : Nat := if on then min gr (max cap floor) else gr
  let hot := lower (Config.thermalCap (2 * z)) x.hot
  let cur := lower (Config.thermalCap (2 * z + 1)) x.overCurrent
  let wear := lower x.cap (x.cap != 0)
  let bit (g : Nat) (b : BitVec 5) : BitVec 5 := if g < gr then b else 0#5
  (min hot (min cur wear), bit hot 1#5 ||| bit cur 2#5 ||| bit wear 16#5)

/-- A tile's allocation, and the tokens of TKREQ that its demand has counted. -/
def State.allocate (s : State) (site gr : Nat) : State :=
  s.mapAccount site fun a => { a with next := gr, asked := a.pend }

/-- One zone's broker divides its allocation among its tiles and notes why any got less than its demand. -/
def State.divideZone (s : State) (figs : List Figure) (z gr full pool demand : Nat) : State :=
  let floor := figFloor figs
  let cap := s.capZone z floor gr
  let tiles := divide cap.1 (figs.map fun f => (f.fl, f.dm))
  let s := (figs.zip tiles).foldl (fun s e => s.allocate e.1.site (if e.1.hosts then e.2 else 0)) s
  let short := (figs.zip tiles).any fun e => e.2 < e.1.dm
  let s := s.addReason z cap.2
  let s := if gr < full then s.addReason z 4#5 else s
  if short && pool < demand then s.addReason z throttleCap else s

/-- The whole division of one cycle (R206, R207). -/
def State.runDivision (s : State) : State :=
  let pool := s.poolNow
  let figs := s.zoneFigures
  let zones := (List.range 64).filter fun z => (s.zonePart z).isSome
  let floors := natSum (zones.map fun z => figFloor (figs z))
  let demand := natSum (zones.map fun z => max (figDemand (figs z)) (figFloor (figs z)))
  let full := State.divideZones figs pool
  let slewed := State.divideZones figs (min pool (floors + s.module.granted + 24000))
  let s' := zones.foldl (fun s z => s.divideZone (figs z) z (grantOf slewed z) (grantOf full z) pool demand) s
  s'.setModule { s'.module with granted := natSum (slewed.map (·.2)) - floors }

/-- Bits cleared by TOKSET go at the cycle's start (R414). -/
def Zone.startCycle (z : Zone) : Zone := { z with throttle := z.throttle &&& ~~~z.clear, clear := 0#5, reasons := 0#5 }
/-- Sensors as `input.bad` gives them: a zone's number when it is too hot, its number plus 64 when its current is too high;
a cap ends at the first start of a cycle whose reading is below the limit: R211's 'below the limit for one cycle' does not
say which. DESIGN CHOICE (log 80). -/
def State.readSensors (s : State) : State :=
  { s with zones := s.zones.mapValues fun z x => { x with hot := s.input.bad.contains z, overCurrent := s.input.bad.contains (z + 64) } }

def State.cycleStart (s : State) : Nat := 10000 * s.module.cycle

/-- ARMATURE_CYCLE (R205–R207, R214): the next cycle starts: demands are sampled and the pool is divided. -/
def execArmatureCycle (s : State) : Res :=
  if !s.module.ready || s.module.armPhase != 0 || s.time < s.cycleStart then .next s
  else
    let s := s.readSensors
    let s := { s with zones := s.zones.mapValues fun _ x => x.startCycle }
    let s := s.setModule { s.module with divPcap := s.module.pcap, armPhase := 1 }
    .next ((s.settleFloors s.poolNow).runDivision)

/-! ## Allocations arrive (R204, R205, R208–R211) -/

/-- Recalled loans have come back. -/
def Account.returnLoans (a : Account) : Account :=
  let left := a.loans.filter fun l => !l.recalled
  { a with loans := left, st := if a.st == .lent && left.isEmpty then (if 0 < a.pend then .requesting else .held) else a.st }
/-- The allocation of a tile arrives (R208); `hosts` says whether it hosts a launch by now. Tokens asked for count until an
allocation that is no lowering arrives. R208 has no row for a LENT tile whose allocation, divided before its TKLEND, arrives above TOKH:
TOKH rises to it, and the loan stays out. DESIGN CHOICE (log 120). -/
def Account.arrive (a : Account) (hosts : Bool) : Account :=
  let alloc := if hosts then max 1 a.next else a.next
  let a := if 0 < a.asked then a.returnLoans else a
  if alloc < a.tokh then { a with asked := 0, st := .notice, prior := a.st, lowering := a.tokh - alloc }
  else { a with pend := a.pend - a.asked, asked := 0, tokh := alloc, st := if a.st == .requesting then .held else a.st }
/-- Two microseconds after its notice, a tile stands at the lower TOKH in its prior state; one that hosts a launch keeps a
token (R204). -/
def Account.settle (a : Account) (hosts : Bool) : Account :=
  if a.st == .notice then
    { a with tokh := max (a.tokh - a.lowering) (if hosts then 1 else 0), lowering := 0, st := a.prior }
  else a

/-- TOKH_RAISE (R205, R208, R211): 6 µs into the cycle raised TOKH takes effect, notices go out, reasons are set. -/
def execTokhRaise (s : State) : Res :=
  if s.module.armPhase != 1 || s.time < s.cycleStart + 6000 then .next s
  else
    let s' := { s with
      tiles := s.tiles.mapValues fun site t => { t with account := t.account.arrive (s.hosts site) }
      zones := s.zones.mapValues fun _ z => { z with throttle := z.throttle ||| z.reasons, reasons := 0#5 } }
    .next (s'.setModule { s'.module with armPhase := 2 })
/-- TOKH_LOWER (R205, R208, R210): 8 µs into the cycle lowered TOKH takes effect. -/
def execTokhLower (s : State) : Res :=
  if s.module.armPhase != 2 || s.time < s.cycleStart + 8000 then .next s
  else
    let s' := { s with tiles := s.tiles.mapValues fun site t => { t with account := t.account.settle (s.hosts site) } }
    .next (s'.setModule { s'.module with armPhase := 0, cycle := s'.module.cycle + 1 })

/-- A loan whose term has run out and that no TKREQ has recalled (R208). -/
def Loan.over (l : Loan) (now : Nat) : Bool := !l.recalled && 10000 * (l.termCycle + 1) ≤ now
/-- Loans end: their tokens belong to the pool (R208). -/
def Account.endLoans (a : Account) (now : Nat) : Account :=
  let left := a.loans.filter fun l => !l.over now
  let freed (st : AcctSt) : AcctSt := if st == .lent && left.isEmpty then .held else st
  { a with loans := left, st := freed a.st, prior := if a.st == .notice then freed a.prior else a.prior }
/-- LOAN_TERM_END (R208): the loans of tile `input.site` that have run to the end of their last armature cycle end. -/
def execLoanTermEnd (s : State) : Res :=
  if (s.tile s.input.site).account.loans.any fun l => l.over s.time then
    .next (s.mapAccount s.input.site fun a => a.endLoans s.time)
  else .next s

end Sys2Proof.Machine
end

