-- ==== Sys2Proof/Machine/Fp.lean ====
section
/-! DEFINITION. Number formats, exact arithmetic and rounding (03_number_formats R50–R63). Every operation computes the
exact result and rounds once. Flags are a BitVec 6 in STAT's layout (R43): NV 0, DZ 1, OF 2, UF 3, NX 4, SF 5. -/

namespace Sys2Proof.Machine

abbrev Flags := BitVec 6
def flagNV : Flags := 0x01#6
def flagDZ : Flags := 0x02#6
def flagOF : Flags := 0x04#6
def flagUF : Flags := 0x08#6
def flagNX : Flags := 0x10#6
def flagSF : Flags := 0x20#6
def flagIf (b : Bool) (f : Flags) : Flags := if b then f else 0#6

/-- How a format spends its all-ones exponent (R51). -/
inductive Special where
  /-- infinities and NaNs -/
  | ieee
  /-- FP8 E4M3: 0x7F and 0xFF are NaN, no infinity -/
  | e4m3
  /-- E2M1: every pattern is finite -/
  | none
  deriving DecidableEq, Repr

/-- A floating-point format (R51). -/
structure Format where
  ebits : Nat
  mbits : Nat
  bias : Nat
  special : Special
  deriving DecidableEq, Repr

def Format.width (f : Format) : Nat := 1 + f.ebits + f.mbits
def fp64 : Format := ⟨11, 52, 1023, .ieee⟩
def fp32 : Format := ⟨8, 23, 127, .ieee⟩
def fp16 : Format := ⟨5, 10, 15, .ieee⟩
def bf16 : Format := ⟨8, 7, 127, .ieee⟩
def fp8e4m3 : Format := ⟨4, 3, 7, .e4m3⟩
def fp8e5m2 : Format := ⟨5, 2, 15, .ieee⟩
def fp4e2m1 : Format := ⟨2, 1, 1, .none⟩

/-- The magnitude code (no sign) of the largest finite value (R51). -/
def Format.maxCode (f : Format) : Nat :=
  match f.special with
  | .ieee => (2 ^ f.ebits - 1) * 2 ^ f.mbits - 1
  | .e4m3 => 2 ^ (f.ebits + f.mbits) - 2
  | .none => 2 ^ (f.ebits + f.mbits) - 1
def Format.signBit (f : Format) : Nat := 2 ^ (f.ebits + f.mbits)
/-- The infinity's magnitude code; E4M3 and E2M1 have none and callers do not ask. -/
def Format.infCode (f : Format) : Nat := (2 ^ f.ebits - 1) * 2 ^ f.mbits
/-- The canonical NaN (R55). -/
def Format.nan (f : Format) : Nat :=
  match f.special with
  | .ieee => f.infCode + 2 ^ (f.mbits - 1)
  | .e4m3 => 0x7F
  | .none => 0
def Format.hasInf (f : Format) : Bool := f.special == .ieee

/-- What a pattern stands for. A finite value is (−1)^neg × mant × 2^exp. -/
inductive Fp where
  | nan (signalling : Bool)
  | inf (neg : Bool)
  | fin (neg : Bool) (mant : Nat) (exp : Int)
  deriving DecidableEq, Repr

/-- The value of the low bits of `x` in format `f` (R51, R56). -/
def Fp.ofBits (f : Format) (x : Nat) : Fp :=
  let neg := bitAt x (f.ebits + f.mbits)
  let e := bits x f.mbits f.ebits
  let m := bits x 0 f.mbits
  let finite : Fp :=
    if e = 0 then .fin neg m (1 - (f.bias : Int) - f.mbits)
    else .fin neg (2 ^ f.mbits + m) ((e : Int) - f.bias - f.mbits)
  match f.special with
  | .ieee =>
    if e = 2 ^ f.ebits - 1 then
      if m = 0 then .inf neg else .nan (m < 2 ^ (f.mbits - 1))
    else finite
  | .e4m3 => if e = 15 ∧ m = 7 then .nan false else finite
  | .none => finite

def Fp.isNaN : Fp → Bool
  | .nan _ => true
  | _ => false
def Fp.isSNaN : Fp → Bool
  | .nan s => s
  | _ => false
def Fp.isInf : Fp → Bool
  | .inf _ => true
  | _ => false
def Fp.isZero : Fp → Bool
  | .fin _ m _ => m == 0
  | _ => false
def Fp.neg? : Fp → Bool
  | .nan _ => false
  | .inf n => n
  | .fin n _ _ => n
def Fp.negate : Fp → Fp
  | .nan s => .nan s
  | .inf n => .inf (!n)
  | .fin n m e => .fin (!n) m e

/-- A result pattern with the flags that making it raised. -/
structure FpRes where
  bits : Nat
  flags : Flags
  deriving DecidableEq, Repr

/-- FMT.RM (R42). -/
inductive RMode where
  | rne
  | rtz
  | rdn
  | rup
  deriving DecidableEq, Repr

def RMode.ofBits (b : BitVec 2) : RMode :=
  match b with
  | 0#2 => .rne
  | 1#2 => .rtz
  | 2#2 => .rdn
  | _ => .rup

/-- Whether a magnitude `m` with a dropped part is rounded away from zero; `cmpHalf` compares that part with one half. -/
def roundsUp (rm : RMode) (neg : Bool) (m : Nat) (cmpHalf : Ordering) (exact : Bool) : Bool :=
  if exact then false
  else match rm with
    | .rne => match cmpHalf with
      | .lt => false
      | .eq => m % 2 == 1
      | .gt => true
    | .rtz => false
    | .rdn => neg
    | .rup => !neg

/-- `mant × 2^exp` shifted to the unit 2^q: the kept integer after rounding, and whether it is exact. -/
def roundAt (rm : RMode) (neg : Bool) (mant : Nat) (exp q : Int) : Nat × Bool :=
  if exp ≥ q then (mant <<< (exp - q).toNat, true)
  else
    let s := (q - exp).toNat
    let k := mant >>> s
    let r := mant - (k <<< s)
    let half := 1 <<< (s - 1)
    let exact := r == 0
    (k + (if roundsUp rm neg k (compare r half) exact then 1 else 0), exact)

/-- What overflow delivers (R59 step 2): true for infinity, false for the largest finite value. -/
def overflowsToInf (rm : RMode) (neg : Bool) : Bool :=
  match rm with
  | .rne => true
  | .rtz => false
  | .rdn => neg
  | .rup => !neg

/-- Rounding with its pieces: the magnitude code without an upper bound on the exponent, and exactness (R59 step 1). -/
def roundCode (f : Format) (rm : RMode) (neg : Bool) (mant : Nat) (exp : Int) : Nat × Bool :=
  let qmin : Int := 1 - (f.bias : Int) - f.mbits
  let q : Int := max (exp + mant.log2 - f.mbits) qmin
  let (k, exact) := roundAt rm neg mant exp q
  ((q - qmin).toNat * 2 ^ f.mbits + k, exact)

def withSign (f : Format) (neg : Bool) (code : Nat) : Nat := code + (if neg then f.signBit else 0)

/-- R59 and R63 for a nonzero or zero exact magnitude `mant × 2^exp`. UF is raised when the exact value is nonzero, the
rounded magnitude is below the smallest normal one, zero included, and it is inexact (R63, R64's example EX2(−150)). -/
def roundTo (f : Format) (rm : RMode) (sat : Bool) (neg : Bool) (mant : Nat) (exp : Int) : FpRes :=
  if mant = 0 then ⟨withSign f neg 0, 0⟩
  else
    let (code, exact) := roundCode f rm neg mant exp
    if code > f.maxCode then
      let code' := if overflowsToInf rm neg && !sat then (if f.hasInf then some f.infCode else none) else some f.maxCode
      match code' with
      | some c => ⟨withSign f neg c, flagOF ||| flagNX⟩
      | none => ⟨f.nan, flagOF ||| flagNX⟩
    else ⟨withSign f neg code, flagIf (!exact) flagNX ||| flagIf (!exact && code < 2 ^ f.mbits) flagUF⟩

/-- `mant × 2^exp` with a nonzero remainder below its last unit, for a magnitude kept with bits to spare. -/
def stickyMant (mant : Nat) (sticky : Bool) : Nat := if sticky then 4 * mant + 1 else 4 * mant

def nanRes (f : Format) (flags : Flags) : FpRes := ⟨f.nan, flags⟩
def infRes (f : Format) (neg : Bool) (flags : Flags) : FpRes := ⟨withSign f neg f.infCode, flags⟩
def rne (f : Format) (neg : Bool) (mant : Nat) (exp : Int) : FpRes := roundTo f .rne false neg mant exp
def signalFlag (xs : List Fp) : Flags := flagIf (xs.any Fp.isSNaN) flagNV

/-- The mantissas of two finite values over one common exponent, as signed integers. -/
def alignPair (n1 : Bool) (m1 : Nat) (e1 : Int) (n2 : Bool) (m2 : Nat) (e2 : Int) : Int × Int × Int :=
  let e := min e1 e2
  let a : Int := ((m1 <<< (e1 - e).toNat : Nat) : Int)
  let b : Int := ((m2 <<< (e2 - e).toNat : Nat) : Int)
  (if n1 then -a else a, if n2 then -b else b, e)

/-- The sum of two values rounded once; a zero sum of unlike signs is +0 (R59). -/
def fpAddV (f : Format) (a b : Fp) : FpRes :=
  match a, b with
  | .nan _, _ => nanRes f (signalFlag [a, b])
  | _, .nan _ => nanRes f (signalFlag [a, b])
  | .inf n1, .inf n2 => if n1 = n2 then infRes f n1 0 else nanRes f flagNV
  | .inf n1, .fin _ _ _ => infRes f n1 0
  | .fin _ _ _, .inf n2 => infRes f n2 0
  | .fin n1 m1 e1, .fin n2 m2 e2 =>
    let (x, y, e) := alignPair n1 m1 e1 n2 m2 e2
    let s := x + y
    if s = 0 then ⟨withSign f (n1 && n2) 0, 0⟩ else rne f (s < 0) s.natAbs e

/-- The exact product, or what a product of special values is. -/
def fpMulX (a b : Fp) : Fp × Flags :=
  match a, b with
  | .nan _, _ => (.nan false, signalFlag [a, b])
  | _, .nan _ => (.nan false, signalFlag [a, b])
  | .inf n1, .inf n2 => (.inf (n1 != n2), 0)
  | .inf n1, .fin n2 m _ => if m = 0 then (.nan false, flagNV) else (.inf (n1 != n2), 0)
  | .fin n1 m _, .inf n2 => if m = 0 then (.nan false, flagNV) else (.inf (n1 != n2), 0)
  | .fin n1 m1 e1, .fin n2 m2 e2 => (.fin (n1 != n2) (m1 * m2) (e1 + e2), 0)

/-- A value delivered in format `f` by RNE. -/
def deliver (f : Format) (v : Fp) (flags : Flags) : FpRes :=
  match v with
  | .nan _ => nanRes f flags
  | .inf n => infRes f n flags
  | .fin n m e => let r := rne f n m e; ⟨r.bits, r.flags ||| flags⟩

def fpMulV (f : Format) (a b : Fp) : FpRes := let p := fpMulX a b; deliver f p.1 p.2
/-- a × b + c with one rounding (R117). -/
def fpFmaV (f : Format) (a b c : Fp) : FpRes :=
  let p := fpMulX a b
  let r := fpAddV f p.1 c
  ⟨r.bits, r.flags ||| p.2⟩

/-- Bits of quotient kept beyond what any format needs. -/
abbrev guardBits : Nat := 130

/-- a / b rounded once (R117). -/
def fpDivV (f : Format) (a b : Fp) : FpRes :=
  match a, b with
  | .nan _, _ => nanRes f (signalFlag [a, b])
  | _, .nan _ => nanRes f (signalFlag [a, b])
  | .inf _, .inf _ => nanRes f flagNV
  | .inf n1, .fin n2 _ _ => infRes f (n1 != n2) 0
  | .fin n1 _ _, .inf n2 => ⟨withSign f (n1 != n2) 0, 0⟩
  | .fin n1 m1 e1, .fin n2 m2 e2 =>
    if m2 = 0 then (if m1 = 0 then nanRes f flagNV else infRes f (n1 != n2) flagDZ)
    else if m1 = 0 then ⟨withSign f (n1 != n2) 0, 0⟩
    else
      let s := guardBits + m2.log2
      let num := m1 <<< s
      rne f (n1 != n2) (stickyMant (num / m2) (num % m2 != 0)) (e1 - e2 - s - 2)

/-- The integer square root, one result bit at a time from bit `k − 1` down. -/
def isqrtFrom (x : Nat) : Nat → Nat → Nat
  | 0, r => r
  | k + 1, r => let t := r + 2 ^ k; isqrtFrom x k (if t * t ≤ x then t else r)
def isqrt (x : Nat) : Nat := isqrtFrom x (x.log2 / 2 + 1) 0

/-- √a rounded once (R118). -/
def fpSqrtV (f : Format) (a : Fp) : FpRes :=
  match a with
  | .nan _ => nanRes f (signalFlag [a])
  | .inf n => if n then nanRes f flagNV else infRes f false 0
  | .fin n m e =>
    if m = 0 then ⟨withSign f n 0, 0⟩
    else if n then nanRes f flagNV
    else
      let s : Nat := 2 * guardBits + (if e % 2 = 0 then 0 else 1)
      let x := m <<< s
      let r := isqrt x
      rne f false (stickyMant r (r * r != x)) ((e - s) / 2 - 2)

/-- The order of two values that are not NaN; ±0 are equal. -/
def fpOrder (a b : Fp) : Ordering :=
  match a, b with
  | .inf n1, .inf n2 => if n1 = n2 then .eq else if n1 then .lt else .gt
  | .inf n1, _ => if n1 then .lt else .gt
  | _, .inf n2 => if n2 then .gt else .lt
  | .fin n1 m1 e1, .fin n2 m2 e2 => let (x, y, _) := alignPair n1 m1 e1 n2 m2 e2; compare x y
  | _, _ => .eq

/-- FMIN and FMAX: NaN propagates, −0 orders below +0 (R117). The operand's own pattern is the result. -/
def fpMinMax (f : Format) (wantMax : Bool) (x y : Nat) : FpRes :=
  let a := Fp.ofBits f x
  let b := Fp.ofBits f y
  if a.isNaN || b.isNaN then nanRes f (signalFlag [a, b])
  else
    let aLess := match fpOrder a b with
      | .lt => true
      | .gt => false
      | .eq => a.neg?
    ⟨(if aLess != wantMax then x else y) % 2 ^ f.width, 0⟩

/-- FCMP (R119): the condition and the NV flag. -/
def fpCompare (cc : BitVec 3) (a b : Fp) : Bool × Flags :=
  let un := a.isNaN || b.isNaN
  let sig := signalFlag [a, b]
  let any := flagIf un flagNV
  let o := fpOrder a b
  match cc with
  | 0#3 => (!un && o == .eq, sig)
  | 1#3 => (un || o != .eq, sig)
  | 2#3 => (!un && o == .lt, any)
  | 3#3 => (!un && o != .lt, any)
  | 4#3 => (!un && o != .gt, any)
  | 5#3 => (!un && o == .gt, any)
  | 6#3 => (un, sig)
  | _ => (!un, sig)

/-! Conversions (R60–R62, R120). -/

/-- The types of R81. -/
inductive NumType where
  | fp (f : Format)
  | int (w : Nat) (isSigned : Bool)
  deriving DecidableEq, Repr

def NumType.width : NumType → Nat
  | .fp f => f.width
  | .int w _ => w

/-- The type of a code 0 to 13 (R81). -/
def typeOf (code : Nat) : NumType :=
  match code with
  | 0 => .fp fp32
  | 1 => .fp bf16
  | 2 => .fp fp16
  | 3 => .fp fp64
  | 4 => .int 32 true
  | 5 => .int 16 true
  | 6 => .int 8 true
  | 7 => .int 8 false
  | 8 => .int 64 true
  | 9 => .int 64 false
  | 10 => .int 32 false
  | 11 => .int 16 false
  | 12 => .fp fp8e4m3
  | _ => .fp fp8e5m2

def intMin (w : Nat) (sg : Bool) : Int := if sg then -(2 ^ (w - 1) : Nat) else 0
def intMax (w : Nat) (sg : Bool) : Int := if sg then (2 ^ (w - 1) : Nat) - 1 else (2 ^ w : Nat) - 1
/-- The low `w` bits of an integer (R50). -/
def wrapInt (w : Nat) (x : Int) : Nat := (x % (2 ^ w : Nat)).toNat
def clampInt (w : Nat) (sg : Bool) (x : Int) : Int := max (intMin w sg) (min (intMax w sg) x)
/-- A result that saturates when `sat` holds, and wraps otherwise; SF when it was replaced (R50). -/
def satInt (w : Nat) (sg sat : Bool) (x : Int) : FpRes :=
  let c := clampInt w sg x
  if sat && c != x then ⟨wrapInt w c, flagSF⟩ else ⟨wrapInt w x, 0⟩
def intOf (w : Nat) (sg : Bool) (x : Nat) : Int := if sg then signed w x else ((x % 2 ^ w : Nat) : Int)

/-- FP to FP (R60). -/
def cvtFpFp (src dst : Format) (rm : RMode) (sat : Bool) (x : Nat) : FpRes :=
  let v := Fp.ofBits src x
  match v with
  | .nan s => nanRes dst (flagIf s flagNV)
  | .inf n =>
    if dst.hasInf then infRes dst n 0
    else if sat then ⟨withSign dst n dst.maxCode, flagNV⟩ else nanRes dst flagNV
  | .fin n m e => roundTo dst rm sat n m e

/-- FP to integer (R61). -/
def cvtFpInt (src : Format) (w : Nat) (sg : Bool) (rm : RMode) (sat : Bool) (x : Nat) : FpRes :=
  let v := Fp.ofBits src x
  let indefinite := 2 ^ (w - 1)
  match v with
  | .nan _ => if sat then ⟨0, flagNV ||| flagSF⟩ else ⟨indefinite, flagNV⟩
  | .inf n => if sat then ⟨wrapInt w (if n then intMin w sg else intMax w sg), flagNV ||| flagSF⟩ else ⟨indefinite, flagNV⟩
  | .fin n m e =>
    let (k, exact) := roundAt rm n m e 0
    let i : Int := if n then -(k : Int) else k
    if clampInt w sg i = i then ⟨wrapInt w i, flagIf (!exact) flagNX⟩
    else if sat then ⟨wrapInt w (clampInt w sg i), flagNV ||| flagSF⟩ else ⟨indefinite, flagNV⟩

/-- Integer to FP (R62). -/
def cvtIntFp (w : Nat) (sg : Bool) (dst : Format) (rm : RMode) (sat : Bool) (x : Nat) : FpRes :=
  let i := intOf w sg x
  roundTo dst rm sat (i < 0) i.natAbs 0

/-- Integer to integer (R62); a destination that holds every source value changes nothing. A negative source that goes to a wider
natural format keeps its value modulo 2^n when FMT.SAT = 0. DEDUCED (log 87). -/
def cvtIntInt (w : Nat) (sg : Bool) (w' : Nat) (sg' : Bool) (sat : Bool) (x : Nat) : FpRes :=
  satInt w' sg' sat (intOf w sg x)

/-- One conversion (R120, R138): the result at the destination's width. -/
def convert (src dst : NumType) (rm : RMode) (sat : Bool) (x : Nat) : FpRes :=
  if src = dst then
    match src with
    | .fp f =>
      match Fp.ofBits f x with
      | .nan s => nanRes f (flagIf s flagNV)
      | _ => ⟨x % 2 ^ f.width, 0⟩
    | .int w _ => ⟨x % 2 ^ w, 0⟩
  else
    match src, dst with
    | .fp a, .fp b => cvtFpFp a b rm sat x
    | .fp a, .int w sg => cvtFpInt a w sg rm sat x
    | .int w sg, .fp b => cvtIntFp w sg b rm sat x
    | .int w sg, .int w' sg' => cvtIntInt w sg w' sg' sat x

/-- A result extended to 64 bits under R94. -/
def extendTo64 (t : NumType) (x : Nat) : Word :=
  match t with
  | .int w true => BitVec.ofInt 64 (signed w x)
  | _ => BitVec.ofNat 64 (x % 2 ^ t.width)

/-! Operations on patterns of one format. -/

def fpAdd (f : Format) (x y : Nat) : FpRes := fpAddV f (Fp.ofBits f x) (Fp.ofBits f y)
def fpSub (f : Format) (x y : Nat) : FpRes := fpAddV f (Fp.ofBits f x) (Fp.ofBits f y).negate
def fpMul (f : Format) (x y : Nat) : FpRes := fpMulV f (Fp.ofBits f x) (Fp.ofBits f y)
def fpFma (f : Format) (x y z : Nat) : FpRes := fpFmaV f (Fp.ofBits f x) (Fp.ofBits f y) (Fp.ofBits f z)
def fpDiv (f : Format) (x y : Nat) : FpRes := fpDivV f (Fp.ofBits f x) (Fp.ofBits f y)
def fpSqrt (f : Format) (x : Nat) : FpRes := fpSqrtV f (Fp.ofBits f x)
def fpMin (f : Format) (x y : Nat) : FpRes := fpMinMax f false x y
def fpMax (f : Format) (x y : Nat) : FpRes := fpMinMax f true x y
/-- FABS and FNEG touch the sign bit alone (R118). -/
def fpAbsBits (f : Format) (x : Nat) : Nat := x % 2 ^ (f.width - 1)
def fpNegBits (f : Format) (x : Nat) : Nat := (x % 2 ^ f.width) ^^^ f.signBit

end Sys2Proof.Machine
end

