-- ==== Sys2Proof/Machine/Flags.lean ====
section
/-! DEFINITION. Every flag and condition computation: raising STAT flags (R36, R43, R63), the integer conditions (R80),
and FMT's fields (R42). -/

namespace Sys2Proof.Machine

/-- Raise sticky flags: OR into STAT, which never clears one (R43). An explicit write by the pair's C slot stands
already, so the OR gives R36's written value OR the raised flags. -/
def State.raise (s : State) (f : Flags) : State := s.mapRegs fun r => { r with stat := r.stat ||| f }

/-- The integer conditions of R80; codes above 9 do not decode. -/
def intCond (cc : BitVec 4) (a b : Word) : Bool :=
  match cc.toNat with
  | 0 => a == b
  | 1 => a != b
  | 2 => a.slt b
  | 3 => !a.slt b
  | 4 => !b.slt a
  | 5 => b.slt a
  | 6 => a.ult b
  | 7 => !a.ult b
  | 8 => !b.ult a
  | _ => b.ult a

/-- The integer lane conditions of VCMP, cc 0–5 (R132). -/
def laneCond (cc : BitVec 3) (a b : Int) : Bool :=
  match cc.toNat with
  | 0 => a == b
  | 1 => a != b
  | 2 => a < b
  | 3 => a ≥ b
  | 4 => a ≤ b
  | _ => a > b

/-! FMT as the pair found it (R35, R42, R58). -/

def State.fmt (s : State) : BitVec 14 := s.cur.before.regs.fmt
def fmtRm (f : BitVec 14) : RMode := RMode.ofBits (f.extractLsb' 10 2)
def fmtSat (f : BitVec 14) : Bool := f.getLsbD 12
def fmtZskip (f : BitVec 14) : Bool := f.getLsbD 13
def fmtA (f : BitVec 14) : Nat := (f.extractLsb' 0 4).toNat
def fmtB (f : BitVec 14) : Nat := (f.extractLsb' 4 4).toNat
def fmtAcc (f : BitVec 14) : Nat := (f.extractLsb' 8 2).toNat
/-- FMT as FMT_INVALID reports it (R396). -/
def fmtWord (f : BitVec 14) : Word := f.setWidth 64

end Sys2Proof.Machine
end

