-- ==== Sys2Proof/Machine/FpFun.lean ====
section
/-! DEFINITION. EX2, LG2, RCP and RSQ (03_number_formats R64–R66), and the three-step forms of other types (R65, R118). -/

namespace Sys2Proof.Machine

/-- The coefficients of R64, c[5] down to c[0]; the Horner form starts from c[6]. -/
def ex2Tail : List Nat := [0x3AA26970, 0x3C1EAAEC, 0x3D633F8F, 0x3E75FEFB, 0x3F317214, 0x3F800000]
def ex2Head : Nat := 0x39653FD1

/-- floor(m × 2^e) of a signed dyadic number. -/
def floorDyadic (m : Int) (e : Int) : Int := if e ≥ 0 then m * (2 ^ e.toNat : Nat) else m / ((2 ^ (-e).toNat : Nat) : Int)

/-- R64's procedure for a finite FP32 value ±mant × 2^exp. -/
def ex2Finite (neg : Bool) (mant : Nat) (exp : Int) : FpRes :=
  let x : Int := if neg then -(mant : Int) else mant
  -- y in units of 2^-200, exact: an FP32 exponent is never below -149
  let unit : Nat := 200
  let y0 : Int := floorDyadic x (exp + unit)
  let lo : Int := -150 * (2 ^ unit : Nat)
  let hi : Int := 128 * (2 ^ unit : Nat)
  let y := min (max y0 lo) hi
  let n := y / ((2 ^ unit : Nat) : Int)
  let f : Nat := ((y - n * (2 ^ unit : Nat)) / ((2 ^ (unit - 23) : Nat) : Int)).toNat
  let fv : Fp := .fin false f (-23)
  let p := ex2Tail.foldl (fun p c => (fpFmaV fp32 (Fp.ofBits fp32 p) fv (Fp.ofBits fp32 c)).bits) ex2Head
  match Fp.ofBits fp32 p with
  | .fin _ pm pe =>
    let r := rne fp32 false pm (pe + n)
    let nx := f != 0 || r.flags &&& flagNX != 0
    let small := r.bits < 2 ^ 23
    ⟨r.bits, (r.flags &&& flagOF) ||| flagIf nx flagNX ||| flagIf (nx && small) flagUF⟩
  | _ => ⟨fp32.nan, 0⟩

/-- EX2 of an FP32 pattern (R64). -/
def ex2 (x : Nat) : FpRes :=
  match Fp.ofBits fp32 x with
  | .nan s => nanRes fp32 (flagIf s flagNV)
  | .inf n => if n then ⟨0, 0⟩ else infRes fp32 false 0
  | .fin n m e => ex2Finite n m e

/-- Fraction bits of log₂ that the digit recurrence produces; what lies below them is nonzero for every x that is not a
power of two. DEDUCED (log 12): 100 bits decide every FP32 rounding. -/
abbrev lgBits : Nat := 100
abbrev lgPrec : Nat := 256

/-- The first `k` fraction bits of log₂ y, for y in [1, 2) held in units of 2^-lgPrec. -/
def lgFraction : Nat → Nat → Nat → Nat
  | 0, _, acc => acc
  | k + 1, y, acc =>
    let z := (y * y) >>> lgPrec
    if z ≥ 2 ^ (lgPrec + 1) then lgFraction k (z >>> 1) (2 * acc + 1) else lgFraction k z (2 * acc)

/-- LG2 of an FP32 pattern (R66). -/
def lg2 (x : Nat) : FpRes :=
  match Fp.ofBits fp32 x with
  | .nan s => nanRes fp32 (flagIf s flagNV)
  | .inf n => if n then nanRes fp32 flagNV else infRes fp32 false 0
  | .fin n m e =>
    if m = 0 then infRes fp32 true flagDZ
    else if n then nanRes fp32 flagNV
    else
      let l := m.log2
      let whole : Int := e + l
      if m = 2 ^ l then roundTo fp32 .rne false (whole < 0) whole.natAbs 0
      else
        let frac := lgFraction lgBits (m <<< (lgPrec - l)) 0
        let v : Int := whole * (2 ^ lgBits : Nat) + frac
        -- the exact value lies strictly between v and v + 1 units
        if v ≥ 0 then rne fp32 false (stickyMant v.natAbs true) (-(lgBits : Int) - 2)
        else rne fp32 true (stickyMant (v.natAbs - 1) true) (-(lgBits : Int) - 2)

/-- RCP of an FP32 pattern (R66): the division 1 / x. -/
def rcp (x : Nat) : FpRes := fpDivV fp32 (.fin false 1 0) (Fp.ofBits fp32 x)

/-- RSQ of an FP32 pattern (R66). -/
def rsq (x : Nat) : FpRes :=
  match Fp.ofBits fp32 x with
  | .nan s => nanRes fp32 (flagIf s flagNV)
  | .inf n => if n then nanRes fp32 flagNV else ⟨0, 0⟩
  | .fin n m e =>
    if m = 0 then infRes fp32 n flagDZ
    else if n then nanRes fp32 flagNV
    else
      -- m × 2^e with e even
      let m' := if e % 2 = 0 then m else 2 * m
      let e' := if e % 2 = 0 then e else e - 1
      let k : Nat := guardBits + m'.log2
      let r := isqrt ((1 <<< (2 * k)) / m')
      rne fp32 false (stickyMant r (r * r * m' != 1 <<< (2 * k))) (-(e' / 2) - k - 2)

/-- A form whose type is not FP32 (R65, R118): to FP32 with RNE, the FP32 procedure, back to the type with RNE. Every
type but FP64 widens exactly. -/
def viaFp32 (g : Nat → FpRes) (f : Format) (x : Nat) : FpRes :=
  if f = fp32 then g (x % 2 ^ 32)
  else
    let a := cvtFpFp f fp32 .rne false x
    let b := g a.bits
    let c := cvtFpFp fp32 f .rne false b.bits
    ⟨c.bits, a.flags ||| b.flags ||| c.flags⟩

end Sys2Proof.Machine
end

