-- ==== Sys2Proof/Machine/Transfer.lean ====
section
/-! DEFINITION. The bank transfer engine: XFER, XFER.2d, the delivery of a granule, XWAIT and XPOLL
(13_transfer_engines R314–R322). -/

namespace Sys2Proof.Machine

/-! ## The shape of a transfer (R314, R321). Arguments: destination, source, rows, row length, both strides. -/

structure Shape where
  dst : Word
  src : Word
  rows : Nat
  len : Nat
  dstr : Word
  sstr : Word
  deriving DecidableEq, Repr
def Shape.args (x : Shape) : List Word :=
  [x.dst, x.src, BitVec.ofNat 64 x.rows, BitVec.ofNat 64 x.len, x.dstr, x.sstr]
def Op.arg (o : Op) (i : Nat) : Word := o.args.getD i 0#64
def Op.shape (o : Op) : Shape := ⟨o.arg 0, o.arg 1, (o.arg 2).toNat, (o.arg 3).toNat, o.arg 4, o.arg 5⟩
def Shape.srcRow (x : Shape) (r : Nat) : Word := x.src + BitVec.ofNat 64 r * x.sstr
def Shape.dstRow (x : Shape) (r : Nat) : Word := x.dst + BitVec.ofNat 64 r * x.dstr
/-- 64-byte-aligned pieces of `n` bytes at `a`. -/
def pieces (a n : Nat) : Nat := if n = 0 then 0 else (a + n - 1) / 64 - a / 64 + 1
def Shape.granules (x : Shape) : Nat := (List.range x.rows).foldl (fun t r => t + pieces (x.srcRow r).toNat x.len) 0
/-- Piece `k` of a range: its address and length. -/
def pieceOf (a n k : Nat) : Nat × Nat :=
  let lo := if k = 0 then a else (a / 64 + k) * 64
  (lo, min (a + n) ((a / 64 + k + 1) * 64) - lo)
/-- Granule `k`: source address, destination address and bytes. -/
def Shape.granule (x : Shape) : Nat → Nat → Nat → Option (Word × Word × Nat)
  | 0, _, _ => none
  | fuel + 1, r, k =>
    let a := (x.srcRow r).toNat
    let c := pieces a x.len
    if k < c then
      let p := pieceOf a x.len k
      some (BitVec.ofNat 64 p.1, x.dstRow r + BitVec.ofNat 64 (p.1 - a), p.2)
    else x.granule fuel (r + 1) (k - c)

/-! ## Destination arithmetic (R320) -/

/-- ET's element size; ET 3 has none. -/
def elemSize (et : Nat) : Nat := if et = 2 then 2 else 4
/-- One combination, and whether it overflowed. -/
def combine (op et d s : Nat) : Nat × Bool :=
  if et = 0 then
    let x := signed 32 d
    let y := signed 32 s
    match op with
    | 1 =>
      let r := satInt 32 true true (x + y)
      (r.bits, x + y < -(2 ^ 31 : Int) || (2 ^ 31 : Int) - 1 < x + y)
    | 2 => (if x ≤ y then d else s, false)
    | _ => (if x ≤ y then s else d, false)
  else
    let f := if et = 2 then bf16 else fp32
    match op with
    | 1 => let r := fpAdd f d s; (r.bits, r.flags.getLsbD 2)
    | 2 => ((fpMin f d s).bits, false)
    | _ => ((fpMax f d s).bits, false)
/-- Elements of `n` bytes of destination and source, combined in ascending address. -/
def combineAll (op et : Nat) : Nat → Nat → Nat → Nat × Bool
  | 0, _, _ => (0, false)
  | n + 1, d, s =>
    let w := 8 * elemSize et
    let r := combine op et (d % 2 ^ w) (s % 2 ^ w)
    let t := combineAll op et n (d / 2 ^ w) (s / 2 ^ w)
    (r.1 + 2 ^ w * t.1, r.2 || t.2)

/-! ## A granule's delivery (R315, R316, R320) -/

/-- The destination pieces of `n` bytes at `d`: address, offset in the source data, length. -/
def destParts (d n : Nat) : List (Nat × Nat × Nat) :=
  (List.range (pieces d n)).map fun k => let p := pieceOf d n k; (p.1, p.1 - d, p.2)

/-- A place where every part of a destination lands, or what stands in the way. -/
def State.reachAll (s : State) (o : Op) (acc : Acc) : List (Nat × Nat × Nat) → List (Reach × Nat × Nat)
  | [] => []
  | (a, off, n) :: t => (s.reach o acc (BitVec.ofNat 64 a), off, n) :: s.reachAll o acc t
def reachFault (l : List (Reach × Nat × Nat)) : Option TrapInfo :=
  l.findSome? fun e => match e.1 with
    | .fault t => some t
    | _ => none
/-- What must wait, with the state in which the host has been asked. -/
def reachGone (l : List (Reach × Nat × Nat)) : Option State :=
  l.findSome? fun e => match e.1 with
    | .gone s => some s
    | _ => none
def reachSpace (l : List (Reach × Nat × Nat)) (f : Nat → Bool) : Bool :=
  l.any fun e => match e.1 with
    | .at pa _ _ => f pa
    | _ => false
def reachesAway (l : List (Reach × Nat × Nat)) : Bool :=
  l.any fun e => match e.1 with
    | .away _ => true
    | _ => false

/-- The tile of a scratch address, if the address is one. -/
def scratchTile (a : Word) : Option Nat := if inScratch a.toNat then some (a.toNat / 2 ^ 34 % 2 ^ 14) else none
/-- Are combinations of `p`, issued earlier by the same core, and of `o` both sequenced (R320)? -/
def transferOrders (p o : Op) : Bool :=
  match p.kind, o.kind with
  | .xfer op _ sq, .xfer op' _ sq' => p.core == o.core && sq && sq' && op != 0 && op' != 0
  | _, _ => false
/-- What an address of partition `p` names, by whichever way: a window of the own module names its own space (R449). -/
def State.ownName (s : State) (p a : Nat) : Nat :=
  let k := a / 2 ^ 48
  if k = 0x100 + s.ownModule p then a % 2 ^ 48 else if k = 0x140 + s.ownModule p then 0x1FF * 2 ^ 48 + a % 2 ^ 48 else a
/-- The destination granules of granule `k`, by their address / 64. -/
def State.destGranules (s : State) (o : Op) (k : Nat) : List Nat :=
  match o.shape.granule o.shape.rows 0 k with
  | some (_, d, n) => (List.range (pieces d.toNat n)).map fun j => s.ownName o.part (pieceOf d.toNat n j).1 / 64
  | none => []
/-- A granule of an earlier sequenced transfer that combines at one of the same places has not been applied yet: its home holds this
one (R320). -/
def State.transferHolds (s : State) (p o : Op) (k : Nat) : Bool :=
  transferOrders p o && (List.range p.total).any fun j =>
    !p.done.contains j && (s.destGranules p j).any fun g => (s.destGranules o k).contains g
/-- Does granule `j` of a transfer lie below granule `k` at the destination, or before it at the same place? -/
def Shape.below (x : Shape) (j k : Nat) : Bool :=
  match x.granule x.rows 0 j, x.granule x.rows 0 k with
  | some (_, a, _), some (_, b, _) => a.ult b || (a == b && j < k)
  | _, _ => false
/-- Within one transfer, scratch combinations take effect in ascending address (R320). -/
def State.inOrder (s : State) (o : Op) (k : Nat) : Bool :=
  match o.kind with
  | .xfer op _ _ =>
    op == 0 || (s.scratchNamed (coreIsAtelier o.core) o.part (o.arg 0).toNat).isNone
      || (List.range o.total).all fun j => o.done.contains j || !o.shape.below j k
  | _ => true

/-- A destination granule becomes or stays poisoned; it counts once, however many source granules meet there (R316, R318). `Op.data`
holds those that have counted. -/
def Op.poisonAtDest (o : Op) (g : Nat) : Op :=
  let o := { o with st := { o.st with poisoned := true } }
  let q := 2 ^ 60 + g
  if (o.data.find? q).isSome then o else { o with pcnt := o.pcnt + 1, data := o.data.set q 1 }
/-- Write one destination part, of number and address `at_`; answers the operation with its counts. Of a part at another
module, the part's digit of `input.level`, to base 4, says whether its destination was poisoned (1) or it overflowed (2). -/
def State.deliverPart (so : State × Op) (op et : Nat) (data : Nat) (poisoned : Bool) (at_ : Nat × Nat) (e : Reach × Nat × Nat) :
    State × Op :=
  let (s, o) := so
  let (r, off, n) := e
  let bad := o.poisonAtDest (at_.2 / 64)
  let x := bits data (8 * off) (8 * n)
  match r with
  | .at pa cached _ =>
    let s := s.engineTouch o pa cached true
    if poisoned then (s.poisonAt pa, bad)
    else if op = 0 then (s.writePa pa n x, o)
    else if s.poisoned pa then (s, bad)
    else
      let c := combineAll op et (n / elemSize et) (s.readPa pa n) x
      (s.writePa pa n c.1, if c.2 then { o with st := { o.st with overflow := true } } else o)
  | .away _ =>
    let far := bits s.input.level (2 * at_.1) 2
    if poisoned || (op != 0 && far == 1) then (s, bad)
    else (s, if op != 0 && far == 2 then { o with st := { o.st with overflow := true } } else o)
  | _ => (s, o)

/-- The leaf of a written page becomes DIRTY: translation runs again on the state at hand. -/
def State.markReach (s : State) (o : Op) (acc : Acc) (a : Nat) : State :=
  match s.reach o acc (BitVec.ofNat 64 a) with
  | .at _ _ s => s
  | _ => s

/-- The first part that lies in another module: its address, and how it is accessed. -/
def farPart (src : Word) (rs : Reach) (rd : List (Reach × Nat × Nat)) (parts : List (Nat × Nat × Nat)) : Acc × Word :=
  match rs with
  | .away _ => (.engineRead, src)
  | _ => match (rd.zip parts).find? fun e => reachesAway [e.1] with
    | some e => (.engineWrite, BitVec.ofNat 64 e.2.1)
    | none => (.engineWrite, src)
/-- Granule `k` leaves for other modules (R314): the owning BTE of a source there is asked to read it and to push it to its destination;
a source here is read, and pushed to the parts of the destination that lie there. -/
def State.sendGranule (s : State) (o : Op) (op et k : Nat) (src dst : Word) (n : Nat) (rs : Reach)
    (rd : List (Reach × Nat × Nat)) (parts : List (Nat × Nat × Nat)) : State :=
  match rs with
  | .away m => s.askModule o m 0 (tagElem k 0) [src.toNat, n, dst.toNat, op, et] 0
  | .at pa c _ =>
    let s := s.markReach o .engineRead src.toNat
    let x := s.readPa pa n
    let psn := s.poisonedIn pa n
    (rd.zip (parts.mapIdx fun j p => (j, p.1))).foldl (fun s e =>
      match e.1.1 with
      | .away m => s.askModule o m 1 (tagElem k (1 + e.2.1))
          [e.2.2, e.1.2.2, op, et, b2n psn, bits x (8 * e.1.2.1) (8 * e.1.2.2)] (marked512 x psn)
      | _ => s) (s.engineTouch o pa c false)
  | _ => s

/-- XFER_GRANULE_DELIVERY (R314–R316, R320): granule `input.item` of the transfer at place `input.index`. One that touches another
module goes out first, and is delivered with the answer: a source there comes in `input.wide`, `input.found` says whether it was
poisoned, `input.far` how it was refused, and `input.flag` that a link on the path failed. A cancelled transfer moves nothing more. -/
def execXferGranuleDelivery (s : State) : Res :=
  let i := s.input.index
  let k := s.input.item
  match s.runningOp? i with
  | none => .next s
  | some o =>
    match o.kind with
    | .xfer op et _ =>
      if o.st.cancelled || o.done.contains k || o.held.contains k || !s.inOrder o k || ((s.ops.take i).any fun p => s.transferHolds p o k) then .next s
      else
        match o.shape.granule o.shape.rows 0 k with
        | none => .next s
        | some (src, dst, n) =>
          let o' := { o with done := setInsert k o.done }
          let rs := s.reach o .engineRead src
          let parts := destParts dst.toNat n
          let rd := s.reachAll o .engineWrite parts
          let all := (rs, 0, n) :: rd
          let away := reachesAway all
          match reachFault all with
          | some t => .next (s.holdPart i o k t)
          | none =>
            if let some s := reachGone all then .next s
            else if reachSpace all paIsSystem || (op != 0 && reachSpace rd paIsHost) then
              .next (s.setOp i { o' with st := { o'.st with range := true } })
            else if away && (o.sentFor k).isNone then .next (s.sendGranule o op et k src dst n rs rd parts)
            else if away && s.input.flag then .next (s.setOp i { o' with st := { o'.st with linkLost := true } })
            else if away && s.input.far == some .range then .next (s.setOp i { o' with st := { o'.st with range := true } })
            else if let some t := if away then s.farFault (farPart src rs rd parts).1 (farPart src rs rd parts).2 else none then
              .next (s.holdPart i o k t)
            else
              let s := s.markReach o .engineRead src.toNat
              let s := parts.foldl (fun s p => s.markReach o .engineWrite p.1) s
              let read : Nat × Bool × State := match rs with
                | .at pa cached _ => (match o.sentFor k with
                  | some x => (x % 2 ^ 512, bitAt x 512, s)
                  | none => (s.readPa pa n, s.poisonedIn pa n, s.engineTouch o pa cached false))
                | .away _ => (s.input.wide.toNat, s.input.found == .uncorrectable, s)
                | _ => (0, false, s)
              let r := (rd.zip (parts.mapIdx fun j p => (j, p.1))).foldl
                (fun so e => State.deliverPart so op et read.1 read.2.1 e.2 e.1) (read.2.2, o')
              .next (r.1.setOp i { r.2 with dcnt := r.2.dcnt + n })
    | _ => .next s

/-! ## XFER and XFER.2d (R321) -/

def multiple (x : Word) (n : Nat) : Bool := x.toNat % n == 0

/-- The checks at issue of R321 after the shape is known, in their order. -/
def State.issueXfer (s : State) (d : Reg) (x : Shape) (m : BitVec 32) (two : Bool) (descBad : Bool) : Res :=
  let op := (m.extractLsb' 4 2).toNat
  let et := (m.extractLsb' 6 2).toNat
  let sz := elemSize et
  let total := x.rows * x.len
  if op ≠ 0 ∧ et ≠ 3 ∧ !multiple x.dst sz then s.trapAt causeMisaligned x.dst
  else if op ≠ 0 ∧ et ≠ 3 ∧ !multiple x.src sz then s.trapAt causeMisaligned x.src
  else if op ≠ 0 ∧ et ≠ 3 ∧ (x.len % sz ≠ 0 ∨ (two ∧ (!multiple x.sstr sz ∨ !multiple x.dstr sz))) then s.trapOpen causeMisaligned
  else
    let o : Op := { s.newOp (modCh m) (.xfer op et (m.getLsbD 8)) m x.args with total := x.granules }
    if total > 2 ^ 32 - 1 then s.withRoom o.ch (s.atOnce d o 5)
    else
      let rights : List Acc := if op = 0 then [.engineWrite] else [.engineRead, .engineWrite]
      let uses := (List.range x.rows).flatMap fun r =>
        ⟨.engineRead, (x.srcRow r).toNat, x.len, inScratch x.src.toNat⟩ ::
          rights.map fun a => ⟨a, (x.dstRow r).toNat, x.len, inScratch x.dst.toNat⟩
      match s.checkRanges s.who true uses with
      | .error t => s.trap t
      | .ok s =>
        s.withRoom o.ch
          (if m.extractLsb' 9 23 != 0#23 || descBad || (et = 3 && op != 0) then s.atOnce d o 5
           else if total = 0 then s.atOnce d o 0
           else s.fork d o)

/-- XFER (R321): one range of g[C] bytes. -/
def execXfer (d : Reg) (a b c : Src) (m : BitVec 32) (s : State) : Res :=
  s.unless (s.barred false false false true)
    (s.gated fun s => s.issueXfer d ⟨s.g a, s.g b, 1, (s.g c).toNat, 0#64, 0#64⟩ m false false)
/-- The shape descriptor is read as loads, through another module's window too (R321, R450). -/
def State.readShape (s : State) (va : Word) (f : Nat → State → Res) : Res :=
  if coreIsAtelier s.selfCore || !inWindow va || windowOf va % 64 == s.ownModule s.selfPart then s.readStruct va 4 f
  else match s.check .load va 8 with
    | .remote m a t => (match s.grant with
      | some g => f (bits g.value.toNat 0 256) t.useGrant
      | none => t.askRemote m .load a [32])
    | .trap t => s.trap t
    | .defer t => s.deferFault t
    | .hold w t => .next (t.hold w)
    | .ok _ _ _ => s.trap (protAt 0 .load va)
/-- XFER.2d (R321): a rectangle whose shape descriptor stands at g[C]. -/
def execXfer2d (d : Reg) (a b c : Src) (m : BitVec 32) (s : State) : Res :=
  s.unless (s.barred false false false true)
    (s.gated fun s =>
      if !multiple (s.g c) 8 then s.trapAt causeMisaligned (s.g c)
      else
        (s.drainCore s.selfCore).readShape (s.g c) fun x s =>
          s.issueXfer d
            ⟨s.g a, s.g b, bits x 32 32, bits x 0 32, BitVec.ofNat 64 (bits x 128 64), BitVec.ofNat 64 (bits x 64 64)⟩
            m true (bits x 192 64 != 0))

/-! ## XWAIT and XPOLL (R322) -/

/-- The record word of a completed identifier. -/
def State.recordOf (s : State) (core ch : Nat) (i : BitVec 32) : Word :=
  match (s.core core).records.find? (32 * ch + i.toNat % 32) with
  | some r => if r.id = i then r.word else 0x1000000000000000#64
  | none => if coreIsAtelier core then 0#64 else 0x1000000000000000#64
/-- g[D] := w, p7 := w is an OK record. -/
def State.putRecord (s : State) (d : Reg) (w : Word) : Res :=
  .next ((s.setG d w).setP7 (w.extractLsb' 60 4 == 0#4))

/-- XWAIT (R322). -/
def execXwait (d : Reg) (a b : Src) (s : State) : Res :=
  s.unless (s.barred false false false true)
    (s.gated fun s =>
      let ch := (s.g a).toNat % 16
      let i := (s.g b).setWidth 32
      let c := s.core s.selfCore
      if !issuedId c ch i then s.putRecord d 0xE000000000000000#64
      else if !completeId c ch i then .next (s.hold (.completion ch i))
      else s.putRecord d (s.recordOf s.selfCore ch i))
/-- XPOLL (R322): never waits. -/
def execXpoll (d : Reg) (a b : Src) (s : State) : Res :=
  s.unless (s.barred false false false true)
    (s.gated fun s =>
      let ch := (s.g a).toNat % 16
      let i := (s.g b).setWidth 32
      let c := s.core s.selfCore
      if issuedId c ch i && completeId c ch i then s.putRecord d (s.recordOf s.selfCore ch i)
      else s.putRecord d 0xE000000000000000#64)

end Sys2Proof.Machine
end

