-- ==== Sys2Proof/Machine/Granule.lean ====
section
/-! DEFINITION. One granule between memory and a tile's engine, with the fates of R316 (TS copies, MMAL, carry copies,
ATTN, SMERGE). -/

namespace Sys2Proof.Machine

/-- A granule read by an engine. -/
inductive Got where
  | data (x : Nat) (poisoned : Bool) (s : State)
  | fault (t : TrapInfo)
  | wait (s : State)
  | range
  | lost

/-- Read `n` bytes within a granule, element `e` of its operation's tag. What lies in another module is asked for once, and comes with a
later event: `input.wide`, poisoned when `input.found` says so; refused as `input.far` says, or lost with `input.flag`. -/
def State.fetchPiece (s : State) (o : Op) (e : Nat) (va : Word) (n : Nat) : Got :=
  match s.reach o .engineRead va with
  | .fault t => .fault t
  | .gone s => .wait s
  | .away m =>
    if (o.asked.find? e).isNone then .wait (s.askModule o m 0 e [va.toNat, n] 0)
    else if s.input.flag then .lost
    else if s.input.far = some .range then .range
    else match s.farFault .engineRead va with
      | some t => .fault t
      | none => .data s.input.wide.toNat (s.input.found == .uncorrectable) s
  | .at pa c s =>
    if paIsSystem pa then .range
    else let s := s.engineTouch o pa c false; .data (s.readPa pa n) (s.poisonedIn pa n) s

/-- A granule written by an engine. -/
inductive Put where
  | done (s : State)
  | fault (t : TrapInfo)
  | wait (s : State)
  | range
  | lost

def State.putPiece (s : State) (o : Op) (e : Nat) (va : Word) (n x : Nat) (poisoned : Bool) : Put :=
  match s.reach o .engineWrite va with
  | .fault t => .fault t
  | .gone s => .wait s
  | .away m =>
    if (o.asked.find? e).isNone then .wait (s.askModule o m 0 e [va.toNat, n, b2n poisoned, x] 0)
    else if s.input.flag then .lost
    else if s.input.far = some .range then .range
    else match s.farFault .engineWrite va with
      | some t => .fault t
      | none => .done s
  | .at pa c s =>
    if paIsSystem pa then .range
    else
      let s := s.engineTouch o pa c true
      .done (if poisoned then s.poisonAt pa else s.writePa pa n x)

def Op.endRange (o : Op) (k : Nat) : Op := { o with done := setInsert k o.done, st := { o.st with range := true } }
def Op.endLost (o : Op) (k : Nat) : Op := { o with done := setInsert k o.done, st := { o.st with linkLost := true } }
def Op.take (o : Op) (k x : Nat) : Op := { o with done := setInsert k o.done, data := o.data.set k x }
def Op.poisoned (o : Op) : Op := { o with pcnt := o.pcnt + 1, st := { o.st with poisoned := true } }

/-- Part `k` of operation `i` reads a granule; `f` gets the operation, its bytes and whether they are poisoned. -/
def State.granuleIn (s : State) (i : Nat) (o : Op) (k : Nat) (va : Word) (n : Nat) (f : State → Op → Nat → Bool → Op) : State :=
  match s.fetchPiece o (tagElem k 0) va n with
  | .fault t => s.holdPart i o k t
  | .wait s => s
  | .range => s.setOp i (o.endRange k)
  | .lost => s.setOp i (o.endLost k)
  | .data x psn s => s.setOp i (f s o x psn)
/-- Part `k` of operation `i` writes a granule; the operation becomes `o'`. -/
def State.granuleOut (s : State) (i : Nat) (o o' : Op) (k : Nat) (va : Word) (n x : Nat) (poisoned : Bool) : State :=
  match s.putPiece o (tagElem k 0) va n x poisoned with
  | .fault t => s.holdPart i o k t
  | .wait s => s
  | .range => s.setOp i (o.endRange k)
  | .lost => s.setOp i (o.endLost k)
  | .done s => s.setOp i (if poisoned then o'.poisoned else o')

/-- Is every part done? -/
def Op.allDone (o : Op) (n : Nat) : Bool := (List.range n).all fun k => o.done.contains k

end Sys2Proof.Machine
end

