-- ==== Sys2Proof/Machine/Kv.lean ====
section
/-! DEFINITION. The KV space: structures, the walk and its outcomes, the KVTB, KVPROBE, KVINV, KVFILL and the start of a
shadow handler (10 R264–R273, 12 R301–R307). -/

namespace Sys2Proof.Machine

/-! ## Reads of structures, frames and masks (R271, R272, R354, R450) -/

inductive KvRead where
  | data (x : Nat) (poisoned : Bool) (s : State)
  | fault (t : TrapInfo)
  /-- its tile is quarantined, or the host has been asked and has not answered yet -/
  | wait (s : State)

/-- An engine's read of a line: charged to its tenant at the home, and speculative tasks that have accessed it start again. -/
def State.readLine (s : State) (w : Who) (pa : Nat) (cached : Option (Nat × Nat)) : State :=
  let s := s.touch pa
  let s := match cached with
    | some c => s.charge w.tenant c (pa / 64) none .read
    | none => s
  s.touchLine none (pa / 64)
/-- One piece that lies within a granule: checked and translated as a load of the tenant. -/
def State.kvRead (s : State) (w : Who) (acc : Acc) (va : Word) (n : Nat) : KvRead :=
  let k := windowOf va
  if va.toNat ≥ 2 ^ 57 ∨ k = 0x1FE ∨ (0x100 ≤ k ∧ k < 0x180) then .fault (protAt 0 acc va)
  else
    match s.resolveOrdinary w acc va with
    | .error t => .fault t
    | .ok (.held _, s) => .wait s
    | .ok (.busy, s) => .wait s
    | .ok (.remote _ _, _) => .fault (protAt 0 acc va)
    | .ok (.phys pa cached, s) =>
      if systemDenied w pa then .fault (protAt 0 acc va)
      else match s.hostGate w.fn w.asker acc va pa cached with
      | .refused t => .fault t
      | .wait s => .wait s
      | .pass =>
        let s := s.readLine w pa cached
        .data (if paIsSystem pa then s.sysRead pa n else s.readPa pa n) (s.poisonedIn pa n) s

/-! ## The walk (R266–R272) -/

/-- How far a walk got. `res` and `lvl` are coded as KVPROBE's (R302); 15 in `res` is "go on". -/
structure KvWalk where
  res : Nat := 15
  lvl : Nat := 0
  addr : Word := 0#64
  /-- the fault of a structure's own translation or protection -/
  trap : Option TrapInfo := none
  wait : Bool := false
  desc : Option Nat := none
  descVa : Word := 0#64
  entry : Option Nat := none
  entryVa : Word := 0#64
  deriving DecidableEq, Repr

/-- Read a structure of level `lvl` and go on with its contents. -/
def KvWalk.read (k : KvWalk) (s : State) (w : Who) (va : Word) (n lvl : Nat) (f : Nat → State → KvWalk × State) : KvWalk × State :=
  match s.kvRead w .walk va n with
  | .fault t =>
    ({ k with res := if t.cause == causeProt then 5 else 1, lvl := lvl, addr := va, trap := some t }, s)
  | .wait s => ({ k with res := 1, lvl := lvl, addr := va, wait := true }, s)
  | .data x psn s => if psn then ({ k with res := 6, lvl := lvl, addr := va }, s) else f x s
/-- A pointer: V in bit 0, the address from bit `lo`, the other bits reserved (R266, R269). -/
def KvWalk.pointer (k : KvWalk) (s : State) (w : Who) (va : Word) (lvl lo : Nat) (f : Word → State → KvWalk × State) :
    KvWalk × State :=
  k.read s w va 8 lvl fun x s =>
    if !bitAt x 0 then ({ k with res := 1, lvl := lvl, addr := va }, s)
    else if bits x 57 7 ≠ 0 ∨ bits x 1 (lo - 1) ≠ 0 then ({ k with res := 2, lvl := lvl, addr := va }, s)
    else f (BitVec.ofNat 64 (bits x lo (57 - lo) * 2 ^ lo)) s

/-- R267's list of what makes a descriptor malformed. -/
def descMalformed (d : Nat) : Bool :=
  let bad (fmt : Nat) (scl : Bool) : Bool := fmt == 3 || (fmt == 0 && scl) || (fmt == 2 && !scl)
  bits d 402 22 != 0 || bits d 0 376 != 0 || 2 ≤ descDim d || bits d 448 3 != 0 || bits d 505 7 != 0
    || bad (bits d 378 2) (bitAt d 400) || bad (bits d 376 2) (bitAt d 401)

/-- The walk down to the descriptor, levels 0 to 3. -/
def State.kvDesc (s : State) (w : Who) (c : Word) (f : KvWalk → Nat → State → KvWalk × State) : KvWalk × State :=
  let root := (s.part w.part).kvroot.toNat
  if !bitAt root 0 then ({ res := 1, lvl := 0 }, s)
  else
    let l1 := BitVec.ofNat 64 (bits root 15 42 * 2 ^ 15 + 8 * (coordSeq c / 4096))
    KvWalk.pointer {} s w l1 1 15 fun t2 s =>
      KvWalk.pointer {} s w (t2 + BitVec.ofNat 64 (8 * (coordSeq c % 4096))) 2 6 fun dva s =>
        KvWalk.read {} s w dva 64 3 fun d s =>
          let k : KvWalk := { lvl := 3, addr := dva, desc := some d, descVa := dva }
          if descMalformed d || bits d 392 8 < coordLayer c || bits d 384 8 < coordHead c then ({ k with res := 2 }, s)
          else f k d s

def entryFill (e : Nat) : Nat := bits e 40 8
def entryZone (e : Nat) : Nat := bits e 56 6
def entryRow (e : Nat) : Nat := bits e 52 4
def entryCol (e : Nat) : Nat := bits e 48 4
/-- Is a named home a present A tile of the partition? -/
def State.kvHome? (s : State) (p zone row col : Nat) : Option Nat :=
  if (s.part p).hasZone zone && (row == 7 || row == 8) then
    (s.site? zone row col).filter fun site => tileType site == .attention
  else none
/-- What makes a block entry malformed in itself: a reserved bit, or FILL > B (R10, R270, R272). -/
def entryBad (b e : Nat) : Bool := bits e 62 15 != 0 || bits e 3 37 != 0 || b < entryFill e
/-- Orders 3 of R272 for a block entry. -/
def State.entryMalformed (s : State) (p b e : Nat) : Bool :=
  entryBad b e
    || (bitAt e 0 && !bitAt e 1 && (s.kvHome? p (entryZone e) (entryRow e) (entryCol e)).isNone)

/-- The whole walk. `held` says whether the walking tile's KVTB holds the block: then only LEN and FILL are taken from
the structures (R273). -/
def State.kvWalk (s : State) (w : Who) (c : Word) (held : Nat → Bool) : KvWalk × State :=
  s.kvDesc w c fun k d s =>
    let n := coordPos c / descB d
    let at_ (t : Word) (i : Nat) : Word := t + BitVec.ofNat 64 (8 * i)
    let root := descMaps d + BitVec.ofNat 64 (8 * (coordLayer c * (bits d 384 8 + 1) + coordHead c))
    k.pointer s w root 4 12 fun m1 s =>
      k.pointer s w (at_ m1 (bits n 18 9)) 5 12 fun m2 s =>
        k.pointer s w (at_ m2 (bits n 9 9)) 6 13 fun leaf s =>
          let eva := leaf + BitVec.ofNat 64 (16 * bits n 0 9)
          k.read s w eva 16 7 fun e s =>
            let k := { k with lvl := 7, addr := eva, entry := some e, entryVa := eva }
            let beyond := descLen d ≤ coordPos c || entryFill e ≤ coordPos c % descB d
            let usable := if beyond then 4 else 0
            if held n then ({ k with res := if entryBad (descB d) e then 2 else usable }, s)
            else if s.entryMalformed w.part (descB d) e then ({ k with res := 2 }, s)
            else if bitAt e 1 then ({ k with res := 3 }, s)
            else if !bitAt e 0 then ({ k with res := 1 }, s)
            else ({ k with res := usable }, s)

/-! ## The KVTB (R273) -/

def KvEntry.is (x : KvEntry) (p : Nat) (c : Word) (n : Nat) : Bool :=
  x.part == p && x.seq == coordSeq c && x.layer == coordLayer c && x.head == coordHead c && x.block == n
/-- The entry that a block entry and a descriptor make. -/
def kvEntryOf (p : Nat) (c : Word) (n d e : Nat) : KvEntry :=
  { part := p, seq := coordSeq c, layer := coordLayer c, head := coordHead c, block := n
    frame := (entryFrame e).toNat, zone := entryZone e, row := entryRow e, col := entryCol e, cow := bitAt e 2
    bsize := descB d, dim := descDim d, kfmt := bits d 378 2, vfmt := bits d 376 2, kscl := bitAt d 400, vscl := bitAt d 401 }
def Tile.kvFind (t : Tile) (p : Nat) (c : Word) (n : Nat) : Option KvEntry := t.kvtb.find? fun x => x.is p c n
/-- A new entry replaces one of the same block; the oldest of more than 256 is evicted. DESIGN CHOICE (log 22). -/
def Tile.kvInstall (t : Tile) (x : KvEntry) : Tile :=
  { t with kvtb := (x :: t.kvtb.filter fun y =>
      !(y.part == x.part && y.seq == x.seq && y.layer == x.layer && y.head == x.head && y.block == x.block)).take 256 }

/-- The A tile that walks for a core (R302). In a zone without a present A tile there is none, and HIT reads 0. DESIGN CHOICE (log 109). -/
def State.probeTile (s : State) (core : Nat) : Option Nat :=
  let site := coreSite core
  let zone := coreZone core
  if tileType site == .attention then some site
  else
    match (s.logical? site).bind fun rc => (s.site? zone 7 rc.2).filter fun t => tileType t == .attention with
    | some t => some t
    | none =>
      let col := ((s.logical? site).map (·.2)).getD 0
      let tiles := s.presentTiles zone
      let later := tiles.filter fun rc => 7 * 11 + col < rc.1 * 11 + rc.2
      (((later ++ tiles).filterMap fun rc => s.site? zone rc.1 rc.2).find? fun t => tileType t == .attention)

/-! ## KVPROBE (R302) -/

def probeWord (k : KvWalk) (hit : Bool) : Nat :=
  let e := k.entry.getD 0
  let d := k.desc.getD 0
  let top := k.res * 2 ^ 60 + k.lvl * 2 ^ 57 + b2n hit * 2 ^ 56
  let ent := match k.entry with
    | some _ => b2n (bitAt e 2) * 2 ^ 53 + b2n (bitAt e 1) * 2 ^ 52 + b2n (bitAt e 0) * 2 ^ 51 + entryZone e * 2 ^ 45
        + entryRow e * 2 ^ 41 + entryCol e * 2 ^ 37 + entryFill e * 2 ^ 29
    | none => 0
  let dsc := match k.desc with
    | some _ => bits d 380 2 * 2 ^ 27 + descDim d * 2 ^ 25
    | none => 0
  top + ent + dsc

/-- KVPROBE (R301, R302): walks and answers; it never traps and fills no KVTB. A walk that stops before the descriptor knows no block
number, and HIT reads 0. DESIGN CHOICE (log 127). -/
def execKvprobe (d : Reg) (a : Src) (m : BitVec 32) (s : State) : Res :=
  s.unless (s.barred false false true false)
    (s.gated fun s =>
      s.answered fun s =>
        let c := s.g a
        let r := s.kvWalk s.who c fun _ => false
        let k := r.1
        if k.wait then .next (r.2.hold .answer)
        else
          let s := r.2
          if m.getLsbD 0 then
            .next (s.setG d (if k.res = 0 ∨ k.res = 4 then entryFrame (k.entry.getD 0) else 0#64))
          else
            let hit := match k.desc, s.probeTile s.selfCore with
              | some x, some t => ((s.tile t).kvFind s.selfPart c (coordPos c / descB x)).isSome
              | _, _ => false
            .next (s.setG d (BitVec.ofNat 64 (probeWord k hit))))

/-! ## KVINV (R303) -/

/-- The A tiles of a partition. -/
def State.attentionTiles (s : State) (p : Nat) : List Nat :=
  (s.part p).zoneList.flatMap fun z =>
    (s.presentTiles z).filterMap fun rc => (s.site? z rc.1 rc.2).filter fun t => tileType t == .attention

/-- The blocks that KVINV names: of all the sequence, or `count` blocks from the coordinate's. -/
def kvDropped (p : Nat) (c : Word) (range : Option (Nat × Nat)) (x : KvEntry) : Bool :=
  x.part == p && x.seq == coordSeq c &&
    (match range with
     | none => true
     | some (n0, n) => x.layer == coordLayer c && x.head == coordHead c && n0 ≤ x.block && x.block < n0 + n)

/-- The entries that KVINV names leave the KVTB of each of the tiles. -/
def State.kvDrop (s : State) (p : Nat) (tiles : List Nat) (c : Word) (range : Option (Nat × Nat)) : State :=
  tiles.foldl (fun s t => s.setTile t { s.tile t with kvtb := (s.tile t).kvtb.filter fun x => !kvDropped p c range x }) s
/-- KVINV (R301, R303). A malformed descriptor is rejected whole (R10): it gives no block size, as one that cannot be read. DEDUCED (log
110). -/
def execKvinv (d : Reg) (a b : Src) (s : State) : Res :=
  s.unless (s.barred false false true true)
    (s.gated fun s =>
      let s := s.drainCore s.selfCore
      s.answered fun s =>
        let p := s.selfPart
        let c := s.g a
        if !bitAt (s.part p).kvroot.toNat 0 then .next (s.setG d 0#64)
        else
          let tiles := s.attentionTiles p
          if tiles.any fun t => (s.tile t).shadow.isSome then .next (s.hold .attention)
          else
            let n := (s.g b).toNat
            let r := if n = 0 then ({}, s) else s.kvDesc s.who c fun k _ s => (k, s)
            if r.1.wait then .next (r.2.hold .answer)
            else
              let range := (r.1.desc.filter fun x => !descMalformed x).map fun x => (coordPos c / descB x, min n (2 ^ 27))
              .next ((r.2.kvDrop p tiles c range).setG d 0#64))

/-! ## KVFILL (R307) -/

/-- The statuses of R307 in their order, for the coordinate and descriptor of the walk that started the handler. -/
def State.kvFill (s : State) (site : Nat) (run : ShadowRun) (c : Word) (e : Nat) : Nat × State :=
  let dsc := run.desc.toNat
  if coordSeq c ≠ coordSeq run.coord ∨ coordLayer c ≠ coordLayer run.coord ∨ coordHead c ≠ coordHead run.coord then (2, s)
  else if s.entryMalformed run.part (descB dsc) e || !bitAt e 0 || bitAt e 1 then (1, s)
  else (0, s.setTile site ((s.tile site).kvInstall (kvEntryOf run.part c (coordPos c / descB dsc) dsc e)))

/-- KVFILL (R301, R307): in a shadow handler alone. -/
def execKvfill (d : Reg) (a b : Src) (s : State) : Res :=
  if !s.before.inShadow then s.illegal
  else if (s.g b).toNat % 16 ≠ 0 then s.trapAt causeMisaligned (s.g b)
  else
    match (s.tile s.selfSite).shadow with
    | none => s.illegal
    | some run =>
      if !bitAt (s.part run.part).kvroot.toNat 0 then .next (s.setG d 0#64)
      else
        (s.drainCore s.selfCore).readStruct (s.g b) 2 fun e s =>
          s.answered fun s =>
            let r := s.kvFill s.selfSite run (s.g a) e
            .next (r.2.setG d (BitVec.ofNat 64 r.1))

/-! ## The start of the shadow handler (R304–R306) -/

def kvshHpc (v : Word) : Word := v &&& 0x01FFFFFFFFFFFFF8#64
/-- Registers at the start (R305). -/
def shadowRegs (c entryVa descVa arg : Word) : RegFile := { g := ⟨[(1, c), (2, entryVa), (3, descVa), (4, arg)]⟩ }
/-- TINFO of a KV_NOT_PRESENT of `reason`, level `lvl` (R396, R397). -/
def kvInfo (reason lvl : Nat) : Word := BitVec.ofNat 64 (reason * 2 ^ 56 + 6 * 2 ^ 48 + lvl * 2 ^ 45)
/-- May the tile's shadow handler of a partition start: enabled, and its code still pinned? -/
def State.shadowReady (s : State) (p : Nat) : Bool :=
  bitAt (s.part p).kvsh.toNat 0 && s.pinned (kvshHpc (s.part p).kvsh)

/-- Start the handler on a tile for a deferred walk of operation `i`. Its SLOT reads 0: it is born in none of R143's ways. DESIGN CHOICE
(log 105). -/
def State.startShadow (s : State) (site i : Nat) (o : Op) (c : Word) (k : KvWalk) : State :=
  let p := s.part o.part
  let core := 2 * site + 1
  let run : ShadowRun :=
    { coord := c, desc := BitVec.ofNat 512 (k.desc.getD 0), tenant := o.tenant, part := o.part, core := o.core, walker := o.strand }
  let s := s.setTile site { s.tile site with shadow := some run }
  let s := s.setStrand (strandOf core shadowSlot)
    { st := .ready, birth := .shadow, launch := o.launch, pc := kvshHpc p.kvsh
      regs := shadowRegs c k.entryVa k.descVa p.kvsharg }
  s.setOp i { o with shadowed := true }

end Sys2Proof.Machine
end

