-- ==== Sys2Proof/Machine/Product.lean ====
section
/-! DEFINITION. The sum of products that the matrix and attention engines share: chunks in the fixed order of R67–R70,
the elements of a panel line and of an MX block (03 R53, R54, R67–R70, 14 R328). -/

namespace Sys2Proof.Machine

/-- An element under its E8M0 scale (R53). -/
def scaled (scale : Nat) (v : Fp) : Fp :=
  if scale = 0xFF then .nan false
  else match v with
    | .fin n m e => .fin n m (e + scale - 127)
    | v => v

/-- The exact sum of finite values, over one exponent. -/
def exactSum : List Fp → Fp
  | [] => .fin false 0 0
  | v :: t =>
    match v, exactSum t with
    | .fin n1 m1 e1, .fin n2 m2 e2 =>
      let (x, y, e) := alignPair n1 m1 e1 n2 m2 e2
      .fin (x + y < 0) (x + y).natAbs e
    | _, r => r

/-- The chunk's s, with what it raises (R67). -/
def chunkSum (ps : List Fp) : Fp × Flags :=
  if ps.any Fp.isNaN then (.nan false, 0)
  else
    let pos := ps.any fun p => p.isInf && !p.neg?
    let neg := ps.any fun p => p.isInf && p.neg?
    if pos && neg then (.nan false, flagNV)
    else if pos then (.inf false, 0)
    else if neg then (.inf true, 0)
    else (exactSum ps, 0)

def orFlags (fs : List Flags) : Flags := fs.foldl (fun a b => a ||| b) 0

/-- The accumulator after one chunk of products; an exact zero leaves it as it is (R67, R68). -/
def addChunk (f : Format) (acc : Nat) (xs ys : List Fp) : FpRes :=
  let ps := List.zipWith fpMulX xs ys
  let s := chunkSum (ps.map (·.1))
  let fl := orFlags (ps.map (·.2)) ||| s.2
  if s.1.isZero then ⟨acc, fl⟩
  else let r := fpAddV f (Fp.ofBits f acc) s.1; ⟨r.bits, r.flags ||| fl⟩

/-- All chunks of `ch` elements, in ascending k. -/
def addChunks (f : Format) (ch : Nat) : Nat → Nat → List Fp → List Fp → FpRes
  | 0, acc, _, _ => ⟨acc, 0⟩
  | n + 1, acc, xs, ys =>
    let r := addChunk f acc (xs.take ch) (ys.take ch)
    let t := addChunks f ch n r.bits (xs.drop ch) (ys.drop ch)
    ⟨t.bits, r.flags ||| t.flags⟩

/-- INT32 accumulation, chunk by chunk (R69). -/
def addIntChunks (sat : Bool) (ch : Nat) : Nat → Nat → List Int → List Int → FpRes
  | 0, acc, _, _ => ⟨acc, 0⟩
  | n + 1, acc, xs, ys =>
    let s := (List.zipWith (· * ·) (xs.take ch) (ys.take ch)).foldl (· + ·) 0
    let r := satInt 32 true sat (signed 32 acc + s)
    let t := addIntChunks sat ch n r.bits (xs.drop ch) (ys.drop ch)
    ⟨t.bits, r.flags ||| t.flags⟩

/-- FP64: one fused step for each k (R70). -/
def fmaSteps : Nat → List Fp → List Fp → FpRes
  | acc, x :: xs, y :: ys =>
    let r := fpFmaV fp64 x y (Fp.ofBits fp64 acc)
    let t := fmaSteps r.bits xs ys
    ⟨t.bits, r.flags ||| t.flags⟩
  | acc, _, _ => ⟨acc, 0⟩

/-! ## Element formats of FMT (R42) -/

/-- Twice the element size in bytes, and whether the format is an MX one (R328). -/
def halfBytes (code : Nat) : Nat :=
  match code with
  | 0 => 4
  | 1 => 4
  | 5 => 1
  | 8 => 16
  | _ => 2
def isMx (code : Nat) : Bool := code == 4 || code == 5
def isIntFmt (code : Nat) : Bool := code == 6 || code == 7
/-- LB: the bytes of a line of K elements (R328). -/
def lineBytesOf (code k : Nat) : Nat := k * halfBytes code / 2 + (if isMx code then k / 32 else 0)
/-- L: its rows. -/
def lineRows (code k : Nat) : Nat := ceilDiv (lineBytesOf code k) 256
def elemFormat (code : Nat) : Format :=
  match code with
  | 0 => bf16
  | 1 => fp16
  | 3 => fp8e5m2
  | 5 => fp4e2m1
  | 8 => fp64
  | _ => fp8e4m3
/-- Element `i` of a line held as one little-endian number. -/
def lineElem (code k line i : Nat) : Fp :=
  let v := Fp.ofBits (elemFormat code) (bits line (4 * halfBytes code * i) (4 * halfBytes code))
  if isMx code then scaled (bits line (4 * halfBytes code * k + 8 * (i / 32)) 8) v else v
def lineElems (code k line : Nat) : List Fp := (List.range k).map fun i => lineElem code k line i
def lineInts (code k line : Nat) : List Int := (List.range k).map fun i => intOf 8 (code == 6) (bits line (8 * i) 8)

/-- The chunk size of a combination (R67, R329). -/
def chunkSize (a b : Nat) : Nat := if a ≤ 1 ∨ b ≤ 1 then 16 else 32

/-- One element of C after the lines' elements from `m` up to `n`; `m` is a multiple of the chunk. -/
def productElem (a b acc : Nat) (sat : Bool) (k m n la lb c : Nat) : FpRes :=
  let ch := chunkSize a b
  let part {α : Type} (l : List α) : List α := (l.take n).drop m
  if acc = 1 then fmaSteps c (part (lineElems 8 k la)) (part (lineElems 8 k lb))
  else if acc = 2 then addIntChunks sat 32 (ceilDiv (n - m) 32) c (part (lineInts a k la)) (part (lineInts b k lb))
  else addChunks fp32 ch (ceilDiv (n - m) ch) c (part (lineElems a k la)) (part (lineElems b k lb))

end Sys2Proof.Machine
end

