-- ==== Sys2Proof/Machine/Attention.lean ====
section
/-! DEFINITION. The attention engine (15_attention_engine R347–R364): carry blocks, sweeps and their folds, KVNEXT, the
merge, the normalised output and the carry copies. -/

namespace Sys2Proof.Machine

/-! ## Carry blocks (R348–R350) -/

def carryBytes : Nat := 6272
/-- Header fields as bit positions of the 64-byte header (R350). -/
def putBits (x lo n v : Nat) : Nat := x - bits x lo n * 2 ^ lo + v % 2 ^ n * 2 ^ lo
def hdrDim (h : Nat) : Nat := bits h 228 1
def hdrD (h : Nat) : Nat := if hdrDim h = 0 then 64 else 128
def hdrScl (h : Nat) : Nat := bits h 244 32
def hdrKey (h : Nat) : Nat := bits h 344 40
def hdrNext (h : Nat) : Nat := bits h 320 24
def hdrPr (h : Nat) : Nat := bits h 230 8
def hdrReserved (h : Nat) : Nat := bits h 0 225

def fpNegInf : Nat := 0xFF800000
/-- Offsets of row r within a block (R349). -/
def offM (r : Nat) : Nat := 64 + 4 * r
def offS (r : Nat) : Nat := 96 + 4 * r
def offQ (r : Nat) : Nat := 128 + 256 * r
def offA (r : Nat) : Nat := 2176 + 512 * r

def Tile.cwrite (t : Tile) (k off n x : Nat) : Tile := { t with carry := t.carry.writeN (carryAt k + off) n x }
def Tile.setHeader (t : Tile) (k h : Nat) : Tile := t.cwrite k 0 64 h
def Tile.carryOk (t : Tile) (k : Nat) : Bool := t.carryValid.contains (strandSlot k)

/-- The running state of one row. -/
structure CarryRow where
  m : Nat
  s : Nat
  acc : List Nat
  deriving DecidableEq, Repr
def lanes32 (x n : Nat) : List Nat := (List.range n).map fun i => bits x (32 * i) 32
def pack (w : Nat) : List Nat → Nat
  | [] => 0
  | x :: t => x % 2 ^ w + 2 ^ w * pack w t
def Tile.row (t : Tile) (k r d : Nat) : CarryRow :=
  ⟨t.cread k (offM r) 4, t.cread k (offS r) 4, lanes32 (t.cread k (offA r) (4 * d)) d⟩
def Tile.setRow (t : Tile) (k r : Nat) (x : CarryRow) : Tile :=
  ((t.cwrite k (offM r) 4 x.m).cwrite k (offS r) 4 x.s).cwrite k (offA r) (4 * x.acc.length) (pack 32 x.acc)
/-- The same row of an image held as one number (R361). -/
def imageRow (x r d : Nat) : CarryRow :=
  ⟨bits x (8 * offM r) 32, bits x (8 * offS r) 32, lanes32 (bits x (8 * offA r) (32 * d)) d⟩
def zero32 (x : Nat) : Bool := x % 2 ^ 31 == 0
/-- The identity (R350). -/
def CarryRow.identity (x : CarryRow) : Bool := x.m == fpNegInf && zero32 x.s && x.acc.all zero32

/-! ## The fold of a block (R356) -/

/-- EQ of FP32 (R119): false with a NaN, NV for a signalling one. -/
def fpEq32 (x y : Nat) : Bool × Flags := fpCompare 0#3 (Fp.ofBits fp32 x) (Fp.ofBits fp32 y)
/-- c of the fold and the merge: 1.0 where M is the new maximum, else EX2 of the rounded difference. -/
def rescale (m mn : Nat) : FpRes :=
  let e := fpEq32 m mn
  if e.1 then ⟨0x3F800000, e.2⟩
  else
    let d := fpSub fp32 m mn
    let r := ex2 d.bits
    ⟨r.bits, r.flags ||| d.flags ||| e.2⟩

/-- A position's key and value, as exact elements. -/
structure KvRow where
  k : List Fp
  v : List Fp
  deriving DecidableEq, Repr

/-- One weighted position added to the row. -/
def foldOne (mn : Nat) (st : CarryRow × Flags) (xt : Nat × KvRow) : CarryRow × Flags :=
  let (row, fl) := st
  let d := fpSub fp32 xt.1 mn
  let w := ex2 d.bits
  let s := fpAdd fp32 row.s w.bits
  let acc := List.zipWith (fun a v => fpFmaV fp32 (Fp.ofBits fp32 w.bits) v (Fp.ofBits fp32 a)) row.acc xt.2.v
  ({ row with s := s.bits, acc := acc.map (·.bits) }, fl ||| d.flags ||| w.flags ||| s.flags ||| orFlags (acc.map (·.flags)))

/-- The fold of one row's visible positions, with the flags raised (R356). -/
def foldRow (scl ch : Nat) (q : List Fp) (row : CarryRow) (vis : List KvRow) : CarryRow × Flags :=
  match vis with
  | [] => (row, 0)
  | _ =>
    let scores := vis.map fun t =>
      let s := addChunks fp32 ch (ceilDiv q.length ch) 0 q t.k
      let x := fpMul fp32 s.bits scl
      (⟨x.bits, x.flags ||| s.flags⟩ : FpRes)
    let f1 := orFlags (scores.map (·.flags))
    let xs := scores.map (·.bits)
    let mb := (xs.drop 1).foldl (fun (a : FpRes) x => let r := fpMax fp32 a.bits x; ⟨r.bits, r.flags ||| a.flags⟩) ⟨xs.headD 0, 0⟩
    let mn := fpMax fp32 row.m mb.bits
    let c := rescale row.m mn.bits
    let s := fpMul fp32 row.s c.bits
    let acc := row.acc.map fun a => fpMul fp32 a c.bits
    let f2 := f1 ||| mb.flags ||| mn.flags ||| c.flags ||| s.flags ||| orFlags (acc.map (·.flags))
    let r := (xs.zip vis).foldl (foldOne mn.bits) ({ row with s := s.bits, acc := acc.map (·.bits) }, f2)
    ({ r.1 with m := mn.bits }, r.2)

/-! ## Reading a block (R271, R354) -/

/-- What stands in the way of a block, or what was read for it. -/
inductive BlockRead (α : Type) where
  | ok (x : α) (poisoned : Bool) (s : State)
  | fault (t : TrapInfo)
  | wait (s : State)

/-- Bytes of a frame or a mask, granule by granule. -/
def State.kvBytes (s : State) (w : Who) (va n : Nat) : Nat → Nat → Nat → Bool → BlockRead Nat
  | 0, _, x, psn => .ok x psn s
  | fuel + 1, i, x, psn =>
    let p := pieceOf va n i
    match s.kvRead w .engineRead (BitVec.ofNat 64 p.1) p.2 with
    | .fault t => .fault t
    | .wait s => .wait s
    | .data y q s => s.kvBytes w va n fuel (i + 1) (x + y * 2 ^ (8 * (p.1 - va))) (psn || q)
def State.kvRange (s : State) (w : Who) (va n : Nat) : BlockRead Nat := s.kvBytes w va n (pieces va n) 0 0 false

/-- Half bytes per element of a KFMT code, and one element with its scale (R267, R271). -/
def kvHalf (fmt : Nat) : Nat := match fmt with | 0 => 4 | 1 => 2 | _ => 1
def kvFormat (fmt : Nat) : Format := match fmt with | 0 => bf16 | 1 => fp8e4m3 | _ => fp4e2m1
def kvElems (fmt d : Nat) (scl : Bool) (x sc : Nat) : List Fp :=
  (List.range d).map fun i =>
    let v := Fp.ofBits (kvFormat fmt) (bits x (4 * kvHalf fmt * i) (4 * kvHalf fmt))
    if scl then scaled (bits sc (8 * (i / 32)) 8) v else v
def KvEntry.d (e : KvEntry) : Nat := if e.dim = 0 then 64 else 128
/-- Where the K and V rows and the scales of token `j` lie in the frame (R271), with their bytes. -/
def KvEntry.places (e : KvEntry) (j : Nat) : List (Nat × Nat) :=
  let d := e.d
  let kb := d * kvHalf e.kfmt / 2
  let vb := d * kvHalf e.vfmt / 2
  let v0 := e.bsize * kb
  let ks0 := v0 + e.bsize * vb
  let sb := d / 32
  let vs0 := ks0 + (if e.kscl then e.bsize * sb else 0)
  [(e.frame + j * kb, kb), (e.frame + v0 + j * vb, vb),
   (e.frame + ks0 + j * sb, if e.kscl then sb else 0), (e.frame + vs0 + j * sb, if e.vscl then sb else 0)]
/-- The four reads of one token. -/
def State.readPlaces (s : State) (w : Who) : List (Nat × Nat) → BlockRead (List Nat)
  | [] => .ok [] false s
  | (a, n) :: t =>
    match s.kvRange w a n with
    | .fault e => .fault e
    | .wait s => .wait s
    | .ok x q s => match s.readPlaces w t with
      | .ok xs p s => .ok (x :: xs) (p || q) s
      | r => r
def State.readTokens (s : State) (w : Who) (e : KvEntry) : List Nat → BlockRead (List KvRow)
  | [] => .ok [] false s
  | j :: t =>
    match s.readPlaces w (e.places j) with
    | .fault x => .fault x
    | .wait s => .wait s
    | .ok xs p s =>
      let row : KvRow :=
        ⟨kvElems e.kfmt e.d e.kscl (xs.getD 0 0) (xs.getD 2 0), kvElems e.vfmt e.d e.vscl (xs.getD 1 0) (xs.getD 3 0)⟩
      match s.readTokens w e t with
      | .ok rows q s => .ok (row :: rows) (p || q) s
      | r => r

/-- The block's 2-bit mask code: full without a mask, or when its granule is poisoned (R354, R357). -/
def State.coarse (s : State) (w : Who) (h n : Nat) : BlockRead Nat :=
  if hdrCmap h = 0#64 then .ok 1 false s
  else
    let a := (hdrCmap h + BitVec.ofNat 64 (hdrQblk h * hdrCstr h + n / 4)).toNat
    match s.kvRange w a 1 with
    | .ok x psn s => .ok (if psn then 1 else bits x (2 * (n % 4)) 2) psn s
    | r => r
/-- The partial bitmaps of the rows: B / 8 bytes for each (R354). -/
def State.partialMask (s : State) (w : Who) (h n b : Nat) : BlockRead Nat :=
  let a := hdrPmap h + BitVec.ofNat 64 ((hdrQblk h * 4 * hdrCstr h + n) * b)
  s.kvRange w a.toNat (hdrRows h * b / 8)

/-! ## Sweeps (R354, R355, R357, R363) -/

/-- What the engine finds at the position of a sweep. -/
inductive SweepTurn where
  /-- stop with a reason, NEXT, the home's CID word, and whether the sweep is finished -/
  | stop (reason next home : Nat) (finished : Bool) (s : State)
  | hold (t : TrapInfo) (s : State)
  /-- a deferred block, with its walk -/
  | deferred (k : KvWalk) (s : State)
  | wait (s : State)
  /-- the sweep moves to a position; a fold has changed the state, the flags and the poison mark. `home` is the CID word of
  a KVNEXT's first block, plus 1 -/
  | move (p : Nat) (s : State) (flags : Nat) (psn : Bool) (home : Nat)

def OpKind.isSweep : OpKind → Bool
  | .atts => true
  | .kvnext => true
  | _ => false
def OpKind.isAttention : OpKind → Bool
  | .att _ => true
  | k => k.isSweep
/-- The tile whose walker and KVTB an operation uses. -/
def State.walkTile (s : State) (o : Op) : Option Nat := s.probeTile o.core

/-- The fault that a stopped walk gives an operation at coordinate `c` (R357, R396). -/
def walkTrap (k : KvWalk) (c : Word) : TrapInfo :=
  match k.trap with
  | some t => { t with addr := c }
  | none =>
    if k.res = 6 then { cause := causePoison, addr := k.addr, info := reasonInfo 0 .walk }
    else { cause := causeKvNotPresent, addr := c, info := kvInfo (if k.res = 2 then 5 else 0) k.lvl }

/-- A block that the walk, or the KVTB, makes usable. -/
structure Block where
  n : Nat
  e : KvEntry
  fill : Nat
  deriving DecidableEq, Repr

/-- Walk the block that holds a position, with the walking tile's KVTB (R272, R273). After a shadow handler the KVTB alone
decides: a miss is DEFUNFILLED (R306). A walk that ends beyond the block's tokens installs its entry too. DEDUCED (log 86). -/
def State.walkBlock (s : State) (o : Op) (c : Word) (f : Block → State → SweepTurn) : SweepTurn :=
  let tile := s.walkTile o
  let find (n : Nat) : Option KvEntry := tile.bind fun t => (s.tile t).kvFind o.part c n
  let running := tile.any fun t => match (s.tile t).shadow with
    | some run => run.walker == o.strand && run.core == o.core
    | none => false
  let hit := tile.any fun t => (s.tile t).kvtb.any fun x => x.is o.part c (coordPos c / x.bsize)
  if o.shadowed && running then .wait s
  else if o.shadowed && !hit then .hold { cause := causeKvNotPresent, addr := c, info := kvInfo 7 7 } s
  else
    let r := s.kvWalk o.who c fun n => (find n).isSome
    let k := r.1
    let s := r.2
    let n := coordPos c / descB (k.desc.getD 0)
    if k.wait then .wait s
    else if k.res = 3 then
      (if o.shadowed then .hold { cause := causeKvNotPresent, addr := c, info := kvInfo 7 7 } s
       else if tile.isNone || !s.shadowReady o.part then .hold { cause := causeKvNotPresent, addr := c, info := kvInfo 6 7 } s
       else .deferred k s)
    else if k.res ≠ 0 ∧ k.res ≠ 4 then .hold (walkTrap k c) s
    else
      let fresh := kvEntryOf o.part c n (k.desc.getD 0) (k.entry.getD 0)
      let e := (find n).getD fresh
      let s := match tile, find n with
        | some t, none => s.setTile t ((s.tile t).kvInstall fresh)
        | _, _ => s
      f ⟨n, e, entryFill (k.entry.getD 0)⟩ s

/-- The CID word of the CC of a block's home, if the home is a present A tile. -/
def State.homeCid (s : State) (o : Op) (e : KvEntry) : Option (Nat × Nat) :=
  (s.kvHome? o.part e.zone e.row e.col).map fun site =>
    (site, ((s.launch? o.launch).map fun l => s.cidWord l (2 * site + 1)).getD 0)
def badHome (c : Word) : TrapInfo := { cause := causeKvNotPresent, addr := c, info := kvInfo 5 7 }

/-- The position at which an ATTS starts (R355). -/
def attsStart (h : Nat) (c : Word) : Nat :=
  if bitAt h 229 && hdrKey h == c.toNat / 2 ^ 24 then hdrNext h else coordPos c
/-- KEY, NEXT and RV as a running sweep writes them. -/
def sweepHeader (h : Nat) (c : Word) (p : Nat) (rv : Bool) : Nat :=
  putBits (putBits (putBits h 344 40 (c.toNat / 2 ^ 24)) 320 24 p) 229 1 (b2n rv)

/-- The positions of a block that row `r` sees, as token numbers within the block. -/
def visibleTo (code mask b r : Nat) (js : List Nat) : List Nat :=
  js.filter fun j => code == 1 || (code == 2 && bitAt mask (r * b + j))

/-- Fold block `b` for positions `p` to `stop − 1` into the strand's carry block (R356, R357). -/
def State.foldBlock (s : State) (o : Op) (site p stop code : Nat) (maskPoisoned : Bool) (b : Block) : SweepTurn :=
  let k := o.strand
  let h := (s.tile site).header k
  let w := o.who
  let js := (List.range b.e.bsize).filter fun j => p ≤ b.n * b.e.bsize + j && b.n * b.e.bsize + j < stop && j < b.fill
  let mask : BlockRead Nat := if code = 2 then s.partialMask w h b.n b.e.bsize else .ok 0 false s
  match mask with
  | .fault t => .hold t s
  | .wait s => .wait s
  | .ok bitmap q s =>
    let code := if q then 1 else code
    let rows := List.range (hdrRows h)
    let seen := js.filter fun j => rows.any fun r => (visibleTo code bitmap b.e.bsize r js).contains j
    match s.readTokens w b.e seen with
    | .fault t => .hold t s
    | .wait s => .wait s
    | .ok toks psn s =>
      let ch := if b.e.kfmt = 0 then 16 else 32
      let step (a : Tile × Flags) (r : Nat) : Tile × Flags :=
        let vis := ((seen.zip toks).filter fun x => (visibleTo code bitmap b.e.bsize r js).contains x.1).map (·.2)
        let qs := lineElems 0 b.e.d (a.1.cread k (offQ r) (2 * b.e.d))
        let z := foldRow (hdrScl h) ch qs (a.1.row k r b.e.d) vis
        if vis.isEmpty then a else (a.1.setRow k r z.1, a.2 ||| z.2)
      let res := rows.foldl step (s.tile site, 0)
      let bad := psn || q || maskPoisoned
      let h := sweepHeader h o.coord stop true
      let h := putBits h 238 6 (bits h 238 6 ||| res.2.toNat)
      let h := if bad then putBits h 230 8 (hdrPr h ||| (2 ^ hdrRows h - 1)) else h
      .move stop (s.setTile site (res.1.setHeader k h)) res.2.toNat bad 0

/-- One turn of an ATTS at its position (R355). -/
def State.attsTurn (s : State) (o : Op) : SweepTurn :=
  let site := coreSite o.core
  let h := (s.tile site).header o.strand
  let p := o.pos
  let c := withPos o.coord p
  let r := s.kvDesc o.who c fun k _ s => ({ k with res := 0 }, s)
  if !(s.tile site).carryOk o.strand then .stop 3 (coordPos o.coord) 0 false s
  else if r.1.wait then .wait r.2
  else if r.1.res ≠ 0 then .hold (walkTrap r.1 c) r.2
  else
    let s := r.2
    let d := r.1.desc.getD 0
    let e := min o.limit (descLen d)
    if e ≤ p then .stop 0 p 0 true s
    else
      let n := p / descB d
      match s.coarse o.who h n with
      | .fault t => .hold t s
      | .wait s => .wait s
      | .ok code psn s =>
        if code = 3 then .stop 3 p 0 false s
        else if code = 0 then
          let q := (n + 1) * descB d
          .move q (s.setTile site ((s.tile site).setHeader o.strand (sweepHeader h o.coord q true))) 0 false 0
        else
          s.walkBlock o c fun b s =>
            match s.homeCid o b.e with
            | none => .hold (badHome c) s
            | some (home, cid) =>
              if home ≠ site then .stop 1 p cid false s
              else if b.e.dim ≠ hdrDim h then .stop 3 p 0 false s
              else s.foldBlock o site p (min ((n + 1) * b.e.bsize) e) code psn b

/-- One turn of a KVNEXT (R363). `desc` holds the home of the first block, plus 1, once it is known. -/
def State.kvnextTurn (s : State) (o : Op) : SweepTurn :=
  let p := o.pos
  let c := withPos o.coord p
  let r := s.kvDesc o.who c fun k _ s => ({ k with res := 0 }, s)
  if r.1.wait then .wait r.2
  else if r.1.res ≠ 0 then .hold (walkTrap r.1 c) r.2
  else
    let s := r.2
    let e := min o.limit (descLen (r.1.desc.getD 0))
    if e ≤ p then (if o.desc = 0 then .stop 0 p 0 true s else .stop 1 e (o.desc - 1) true s)
    else
      s.walkBlock o c fun b s =>
        match s.homeCid o b.e with
        | none => .hold (badHome c) s
        | some (_, cid) =>
          if o.desc ≠ 0 ∧ o.desc - 1 ≠ cid then .stop 1 p (o.desc - 1) true s
          else .move (min ((b.n + 1) * b.e.bsize) e) s 0 false (cid + 1)

def State.sweepTurn (s : State) (o : Op) : SweepTurn :=
  if o.st.cancelled then .stop 2 o.pos 0 false s
  else match o.kind with
    | .atts => s.attsTurn o
    | _ => s.kvnextTurn o

/-- An operation starts when its engine reaches it: an ATTS takes its position from the header or its coordinate. -/
def State.startSweep (s : State) (i : Nat) (o : Op) : State × Op :=
  if o.total ≠ 0 then (s, o)
  else
    let site := coreSite o.core
    let t := s.tile site
    if o.kind == .atts && t.carryOk o.strand then
      let p := attsStart (t.header o.strand) o.coord
      let o := { o with total := 1, pos := p }
      ((s.setTile site (t.setHeader o.strand (sweepHeader (t.header o.strand) o.coord p true))).setOp i o, o)
    else
      let o := { o with total := 1, pos := coordPos o.coord }
      (s.setOp i o, o)

/-- Does an earlier instruction of the engine's queue come first? The engine runs one at a time, in issue order (R351), so no core has
two of them held (R480). -/
def State.attBlocked (s : State) (i : Nat) (o : Op) : Bool := (s.ops.take i).any fun p => p.core == o.core && p.kind.isAttention

/-- The sweep at place `input.index`, when it may run. -/
def State.sweepAt (s : State) (f : Nat → Op → State → Res) : Res :=
  let i := s.input.index
  match s.runningOp? i with
  | none => .next s
  | some o =>
    if !o.kind.isSweep || s.attBlocked i o || !o.held.isEmpty then .next s
    else let r := s.startSweep i o; f i r.2 r.1

/-- BLOCK_FOLD (R355–R357): the sweep walks its next block and folds it, or is held there with a report. -/
def execBlockFold (s : State) : Res :=
  s.sweepAt fun i o s =>
    match s.sweepTurn o with
    | .move p s fl psn home =>
      .next (s.setOp i { o with pos := p, flags := o.flags ||| fl, psn := o.psn || psn, shadowed := false, desc := home })
    | .hold t s => .next ((s.engineFault { o with ch := 0, id := 0#32 } t 0#64).setOp i { o with held := [0], shadowed := false })
    | .wait s => .next s
    | _ => .next s

/-- The result word (R353). -/
def sweepWord (reason flags : Nat) (psn : Bool) (next home : Nat) : Nat :=
  reason * 2 ^ 60 + flags % 64 * 2 ^ 54 + b2n psn * 2 ^ 53 + next % 2 ^ 24 * 2 ^ 24 + home % 2 ^ 22

/-- ATTENTION_SWEEP_STOP (R353, R355): the sweep stops; its result word fills g[D]. -/
def execAttentionSweepStop (s : State) : Res :=
  s.sweepAt fun i o s =>
    match s.sweepTurn o with
    | .stop reason next home finished s =>
      let site := coreSite o.core
      let t := s.tile site
      let s := if o.kind == .atts && t.carryOk o.strand && !o.st.cancelled then
          s.setTile site (t.setHeader o.strand (sweepHeader (t.header o.strand) o.coord next (!finished)))
        else s
      let s := { s with ops := s.ops.eraseIdx i }
      .next (s.fill o.strand (if o.dest = 0#4 then .none else .g o.dest) (sweepWord reason o.flags o.psn next home))
    | _ => .next s

/-- SHADOW_HANDLER_START (R305): the tile of the deferred walk of the operation at place `input.index` starts its shadow
handler, when none runs. -/
def execShadowHandlerStart (s : State) : Res :=
  s.sweepAt fun i o s =>
    match s.walkTile o, s.sweepTurn o with
    | some site, .deferred k s =>
      if (s.tile site).shadow.isSome then .next s else .next (s.startShadow site i o (withPos o.coord o.pos) k)
    | _, _ => .next s

/-! ## Issue (R347, R351, R352) -/

/-- Room in the engine's queue of 8. -/
def State.attRoom (s : State) : Bool :=
  !hasCarry s.selfCore || (s.ops.filter fun o => o.core == s.selfCore && o.kind.isAttention).length < 8
def State.withEngine (s : State) (room : Bool) (r : Res) : Res := if room then r else .next (s.hold .engineRoom)
/-- May the issuing strand use the engine: on the CC of an A tile, not in a handler or a shadow handler (R347)? -/
def State.attAllowed (s : State) : Bool := hasCarry s.selfCore && !s.barred true false true true

/-- A sweep is forked; g[D] is empty until it stops (R352). -/
def State.forkSweep (s : State) (kind : OpKind) (d : Reg) (a b : Src) : Res :=
  s.gated fun s =>
    s.withEngine s.attRoom
      (let s := s.drainCore s.selfCore
       let o := { s.newOp 0 kind 0#32 [s.g a, s.g b] with id := 0#32, dest := d }
       .next { s.mapRegs (fun r => r.markG d false) with ops := s.ops ++ [o] })

/-- ATTS (R354, R355). -/
def execAtts (d : Reg) (a b : Src) (s : State) : Res := if s.attAllowed then s.forkSweep .atts d a b else s.illegal
/-- KVNEXT (R363). -/
def execKvnext (d : Reg) (a b : Src) (s : State) : Res :=
  if s.barred true false true true then s.illegal else s.forkSweep .kvnext d a b

/-- Issue of the five that take an identifier: MISALIGNED, the range, the waits, RANGE (R339, R352, R364). -/
def State.issueAtt (s : State) (op : Nat) (d : Reg) (m : BitVec 32) (modBits : Nat) (uses : List RangeUse) (args : List Word)
    (desc total : Nat) (bad : Bool) : Res :=
  let o := { s.newOp (modCh m) (.att op) m args with desc := desc, total := total }
  match s.checkRanges s.who false uses with
  | .error t => s.trap t
  | .ok s =>
    s.withRoom o.ch (s.withEngine s.attRoom
      (if bad || m.toNat / 2 ^ modBits ≠ 0 then s.atOnce d o 5 else s.fork d o))

/-- ATTM (R361): 98 granules of image. -/
def execAttm (d : Reg) (a : Src) (m : BitVec 32) (s : State) : Res :=
  if !s.attAllowed then s.illegal
  else s.gated fun s =>
    if !multiple (s.g a) 64 then s.trapAt causeMisaligned (s.g a)
    else s.issueAtt 0 d m 4 [use .engineRead (s.g a) carryBytes] [s.g a] 0 98 false

/-- Does the strand have a CBINIT or CBLD whose carry-side effect is still to come (R362)? -/
def State.carryFilling (s : State) (k : Nat) : Bool :=
  s.ops.any fun o => o.strand == k && o.core == strandCore k && (o.kind == .att 2 || o.kind == .att 3) && o.pos == 0

/-- ATTN (R362): the checks use the block's ROWS and DIM; `desc` keeps the header. -/
def execAttn (d : Reg) (a b : Src) (m : BitVec 32) (s : State) : Res :=
  if !s.attAllowed then s.illegal
  else s.gated fun s =>
    if s.carryFilling s.cur.strand then .next (s.hold .attention)
    else if !multiple (s.g a) 64 then s.trapAt causeMisaligned (s.g a)
    else if !multiple (s.g b) 64 then s.trapAt causeMisaligned (s.g b)
    else
      let t := s.tile s.selfSite
      let ok := t.carryOk s.cur.strand
      let h := if ok then t.header s.cur.strand else 0
      let row := hdrD h * (if m.getLsbD 4 then 2 else 4)
      let uses := if ok then (List.range (hdrRows h)).map fun r => use .engineWrite (s.g a + BitVec.ofNat 64 r * s.g b) row else []
      s.issueAtt 1 d m 5 uses [s.g a, s.g b] h (hdrRows h * (row / 64)) (!ok)

/-- CBINIT (R364): the header is read at issue; the rows follow as granules. -/
def execCbinit (d : Reg) (a : Src) (m : BitVec 32) (s : State) : Res :=
  if !s.attAllowed then s.illegal
  else s.gated fun s =>
    if !multiple (s.g a) 64 then s.trapAt causeMisaligned (s.g a)
    else
      (s.drainCore s.selfCore).readStruct (s.g a) 8 fun h s =>
        let n := 2 * hdrD h * hdrRows h
        s.issueAtt 2 d m 4 [use .engineRead (s.g a) (64 + n)] [s.g a] h (n / 64) (hdrReserved h ≠ 0)

/-- CBLD (R364). -/
def execCbld (d : Reg) (a : Src) (m : BitVec 32) (s : State) : Res :=
  if !s.attAllowed then s.illegal
  else s.gated fun s =>
    if !multiple (s.g a) 64 then s.trapAt causeMisaligned (s.g a)
    else s.issueAtt 3 d m 4 [use .engineRead (s.g a) carryBytes] [s.g a] 0 98 false

/-- CBST (R364). -/
def execCbst (d : Reg) (a : Src) (m : BitVec 32) (s : State) : Res :=
  if !s.attAllowed then s.illegal
  else s.gated fun s =>
    if !multiple (s.g a) 64 then s.trapAt causeMisaligned (s.g a)
    else s.issueAtt 4 d m 4 [use .engineWrite (s.g a) carryBytes] [s.g a] 0 98 false

/-! ## Carry-side effects (R350, R361, R362, R364) -/

/-- One row of the merge (R361). -/
def mergeRow (x y : CarryRow) : CarryRow × Flags :=
  if y.identity then (x, 0)
  else if x.identity then (y, 0)
  else
    let m := fpMax fp32 x.m y.m
    let c1 := rescale x.m m.bits
    let c2 := rescale y.m m.bits
    let one (a b : Nat) : FpRes :=
      let t := fpMul fp32 b c2.bits
      let r := fpFma fp32 a c1.bits t.bits
      ⟨r.bits, r.flags ||| t.flags⟩
    let s := one x.s y.s
    let acc := List.zipWith one x.acc y.acc
    (⟨m.bits, s.bits, acc.map (·.bits)⟩, m.flags ||| c1.flags ||| c2.flags ||| s.flags ||| orFlags (acc.map (·.flags)))

/-- The image gathered from `n` granules. -/
def Op.gathered (o : Op) (n : Nat) : Nat := (List.range n).foldl (fun x k => x + o.data.getD k 0 * 2 ^ (512 * k)) 0

/-- ATTM's effect. -/
def Tile.attm (t : Tile) (o : Op) : Tile × Op :=
  let k := o.strand
  let h := t.header k
  let img := o.gathered 98
  let hi := img % 2 ^ 512
  if hdrReserved hi ≠ 0 ∨ hdrRows hi ≠ hdrRows h ∨ hdrDim hi ≠ hdrDim h then (t, { o with st := { o.st with range := true } })
  else
    let d := hdrD h
    let res := (List.range (hdrRows h)).foldl
      (fun (a : Tile × Flags) r => let z := mergeRow (a.1.row k r d) (imageRow img r d); (a.1.setRow k r z.1, a.2 ||| z.2)) (t, 0)
    let pr := hdrPr h ||| hdrPr hi ||| (if o.psn then 2 ^ hdrRows h - 1 else 0)
    let flg := bits h 238 6 ||| bits hi 238 6 ||| res.2.toNat
    (res.1.setHeader k (putBits (putBits h 230 8 pr) 238 6 flg),
      { o with dcnt := res.2.toNat, st := { o.st with overflow := o.st.overflow || res.2.getLsbD 2 || res.2.getLsbD 5 } })

/-- The header that CBINIT makes of an image (R350). -/
def initHeader (h : Nat) : Nat := putBits (putBits (putBits (putBits (putBits h 344 40 0) 320 24 0) 238 6 0) 230 8 0) 229 1 0
/-- CBINIT's effect: Q rows filled, their unused halves zeroed, every row the identity. -/
def Tile.cbinit (t : Tile) (o : Op) : Tile :=
  let k := o.strand
  let h := o.desc
  let d := hdrD h
  let q := o.gathered (hdrRows h * d / 32)
  let t := { t with carry := t.carry.clear (carryAt k + 64) (carryBytes - 64), carryValid := setInsert (strandSlot k) t.carryValid }
  let t := t.setHeader k (initHeader h)
  let t := (List.range 8).foldl (fun (t : Tile) r => t.cwrite k (offM r) 4 fpNegInf) t
  (List.range (hdrRows h)).foldl (fun (t : Tile) r => t.cwrite k (offQ r) (2 * d) (bits q (16 * d * r) (16 * d))) t
/-- CBLD's effect. -/
def Tile.cbld (t : Tile) (o : Op) : Tile × Op :=
  let img := o.gathered 98
  if hdrReserved (img % 2 ^ 512) ≠ 0 then (t, { o with st := { o.st with range := true } })
  else
    ({ t.cwrite o.strand 0 carryBytes img with carryValid := setInsert (strandSlot o.strand) t.carryValid }, o)

/-- ATTN's output rows: the values of row r, with the flags, or a zero-sum mark (R362). -/
def attnRow (x : CarryRow) (half : Bool) : List Nat × Flags × Bool :=
  let f := if half then bf16 else fp32
  if zero32 x.s then (x.acc.map fun _ => 0, 0, true)
  else
    let rs := x.acc.map fun a => fpDivV f (Fp.ofBits fp32 a) (Fp.ofBits fp32 x.s)
    (rs.map (·.bits), orFlags (rs.map (·.flags)), false)
/-- ATTN captures the block as it finds it (R360): its output granules and its counts. Where ROWS or DIM are no longer those of its issue,
`flags` notes that its range has still to be checked. -/
def Op.attnCapture (o : Op) (t : Tile) : Op :=
  let k := o.strand
  let h := t.header k
  let d := hdrD h
  let half := o.mod.getLsbD 4
  let w := if half then 16 else 32
  let g := d * w / 512
  let step (a : Op × Flags × Nat) (r : Nat) : Op × Flags × Nat :=
    if bitAt (hdrPr h) r then a
    else
      let z := attnRow (t.row k r d) half
      let x := pack w z.1
      let o := (List.range g).foldl (fun (o : Op) j => { o with data := o.data.set (r * g + j) (bits x (512 * j) 512) }) a.1
      (o, a.2.1 ||| z.2.1, a.2.2 + b2n z.2.2 * 2 ^ r)
  let res := (List.range (hdrRows h)).foldl step ({ o with desc := h, pos := 1, total := hdrRows h * g, flags := b2n (hdrRows h ≠ hdrRows o.desc ∨ hdrDim h ≠ hdrDim o.desc) }, 0, 0)
  let fl := res.2.1
  { res.1 with
    dcnt := fl.toNat + res.2.2 * 256, st := { res.1.st with overflow := res.1.st.overflow || fl.getLsbD 2 || fl.getLsbD 5 } }
/-- CBST captures the block. -/
def Op.cbstCapture (o : Op) (t : Tile) : Op :=
  (List.range 98).foldl (fun (o : Op) j => { o with data := o.data.set j (t.cread o.strand (64 * j) 64) }) { o with pos := 1 }

/-- The capture of an ATTN or CBST once its turn has come; a slot found empty ends it RANGE (R348). -/
def State.attCapture (s : State) (i : Nat) (o : Op) (op : Nat) : Option Op :=
  if o.pos ≠ 0 then some o
  else if s.attBlocked i o then none
  else
    let t := s.tile (coreSite o.core)
    if !t.carryOk o.strand then some { o with pos := 1, done := List.range o.total, st := { o.st with range := true } }
    else some (if op = 1 then o.attnCapture t else o.cbstCapture t)

/-- A granule of an ATTN whose range was checked at issue for another geometry: it needs the W right now (R362). -/
def State.attnCheck (s : State) (o : Op) (va : Word) : Except TrapInfo State :=
  if o.flags = 0 then .ok s else s.checkPiece o.who .engineWrite true (inScratch (o.arg 0).toNat) false va.toNat
/-- A granule of a carry copy, an ATTM or an ATTN. DCNT of a CBINIT or CBLD counts each granule as it is read, whatever the operation then
comes to. DESIGN CHOICE (log 130). -/
def State.attGranule (s : State) (i k : Nat) (o : Op) (op : Nat) : State :=
  if o.total ≤ k || o.done.contains k || o.held.contains k then s
  else if op = 1 ∨ op = 4 then
    match s.attCapture i o op with
    | none => s
    | some o =>
      let s := s.setOp i o
      if o.total ≤ k || o.done.contains k then s
      else
        let x := o.data.getD k 0
        if op = 1 then
          let g := o.total / hdrRows o.desc
          let va := o.arg 0 + BitVec.ofNat 64 (k / g) * o.arg 1 + BitVec.ofNat 64 (64 * (k % g))
          match s.attnCheck o va with
          | .error t => s.holdPart i o k t
          | .ok s => s.granuleOut i o { o with done := setInsert k o.done } k va 64 x (bitAt (hdrPr o.desc) (k / g))
        else s.granuleOut i o { o with done := setInsert k o.done, dcnt := o.dcnt + 64 } k (o.arg 0 + BitVec.ofNat 64 (64 * k)) 64 x false
  else if s.attBlocked i o then s
  else
    let va := o.arg 0 + BitVec.ofNat 64 ((if op = 2 then 64 else 0) + 64 * k)
    s.granuleIn i o k va 64 fun _ o x psn =>
      let o := { o.take k x with dcnt := if op = 0 then 0 else o.dcnt + 64 }
      if !psn then o
      else if op = 0 then { o.poisoned with psn := true }
      else { o with psn := true, st := { o.st with poisoned := true } }

/-- The end of a carry instruction: its carry-side effect, when it has one left (R348, R357, R364). DCNT of a CBINIT takes in the 64 bytes
of its header when it succeeds. DESIGN CHOICE (log 130). -/
def State.attFinish (s : State) (o : Op) (op : Nat) : State × Op :=
  let site := coreSite o.core
  let t := s.tile site
  if o.st.cancelled || o.st.range || op = 1 || op = 4 then (s, o)
  else if op = 0 then
    if !t.carryOk o.strand then (s, { o with st := { o.st with range := true, poisoned := false }, pcnt := 0 })
    else let r := t.attm o; (s.setTile site r.1, r.2)
  else if o.psn then (s, o)
  else if op = 2 then (s.setTile site (t.cbinit o), { o with dcnt := o.dcnt + 64 })
  else let r := t.cbld o; (s.setTile site r.1, r.2)

end Sys2Proof.Machine
end

