-- ==== Sys2Proof/Machine/Matrix.lean ====
section
/-! DEFINITION. The matrix engine and the tile store: TS copies, products, accumulators, GMM, semaphores
(14_matrix_engine R323–R346). -/

namespace Sys2Proof.Machine

/-! ## The tile store (R325, R326, R334) -/

/-- Is a sector of 32 bytes zero, and finite, under an element code (R326)? -/
def sectorZero (me x : Nat) : Bool :=
  if me ≤ 2 then (List.range 16).all fun i => bits x (16 * i) 15 == 0
  else if me ≤ 4 then (List.range 32).all fun i => bits x (8 * i) 7 == 0
  else bits x 0 256 == 0
def sectorFinite (me x : Nat) : Bool :=
  match me with
  | 1 => (List.range 16).all fun i => bits x (16 * i + 7) 8 != 0xFF
  | 2 => (List.range 16).all fun i => bits x (16 * i + 10) 5 != 0x1F
  | 3 => (List.range 32).all fun i => bits x (8 * i) 7 != 0x7F
  | 4 => (List.range 32).all fun i => bits x (8 * i + 2) 5 != 0x1F
  | _ => true
def sectorBits (f : Nat → Bool) : BitVec 8 :=
  BitVec.ofNat 8 ((List.range 8).foldl (fun n i => n + b2n (f i) * 2 ^ i) 0)
/-- The metadata word of a whole row (R326). -/
def rowMetaOf (me x : Nat) (poisoned : Bool) : RowMeta :=
  if me = 0 ∨ poisoned then { me := BitVec.ofNat 3 me, zr := 0#8, fn := 0#8 }
  else
    { me := BitVec.ofNat 3 me
      zr := sectorBits fun i => sectorZero me (bits x (256 * i) 256)
      fn := sectorBits fun i => sectorFinite me (bits x (256 * i) 256) }

def Tile.rowPoisoned (t : Tile) (row : Nat) : Bool := (List.range 4).any fun j => t.storePoison.contains (4 * row + j)
def Tile.remeta (t : Tile) (row me : Nat) : Tile :=
  { t with rowMeta := t.rowMeta.set row (rowMetaOf me (t.store.readN (256 * row) 256) (t.rowPoisoned row)) }
def Tile.poisonGranule (t : Tile) (g : Nat) : Tile := { t with storePoison := setInsert g t.storePoison }
/-- Write a granule of a row: its bytes, or poison. A whole write clears poison (R433). -/
def Tile.putGranule (t : Tile) (row j x : Nat) (poisoned : Bool) : Tile :=
  if poisoned then t.poisonGranule (4 * row + j)
  else { t with store := t.store.writeN (256 * row + 64 * j) 64 x, storePoison := setRemove (4 * row + j) t.storePoison }
/-- Write `n` bytes from byte 0 of a row; granules written in part keep their poison. -/
def Tile.putBytes (t : Tile) (row n x : Nat) : Tile :=
  { t with
    store := t.store.writeN (256 * row) n x
    storePoison := t.storePoison.filter fun g => !(4 * row ≤ g && g < 4 * row + n / 64) }
/-- Granules of `n` bytes from byte 0 of a row become poisoned. -/
def Tile.poisonBytes (t : Tile) (row n : Nat) : Tile :=
  (List.range (ceilDiv n 64)).foldl (fun (t : Tile) j => t.poisonGranule (4 * row + j)) t
def siteRows (site : Nat) : Nat := Config.storeRows (tileType site)

/-! ## TS copies (R327, R340) -/

/-- Granules come first in the numbering of a TSLD's or TSST's parts; then one part for each row. -/
def tsBase (op n : Nat) : Nat := if op ≤ 1 then 4 * n else 0
def Op.rowsDone (o : Op) (op : Nat) : Bool :=
  let n := (o.arg 2).toNat
  (List.range n).all fun r => o.done.contains (tsBase op n + r)

/-- The effect of a TS copy on its row `r` in the tile store. -/
def tsRow (t : Tile) (o : Op) (op r : Nat) : Tile × Op :=
  let n := (o.arg 2).toNat
  let me := (o.mod.extractLsb' 4 3).toNat
  let row := (o.arg 0).toNat + r
  let o' := { o with done := setInsert (tsBase op n + r) o.done }
  let src (t : Tile) (row : Nat) (j : Nat) : Nat := marked512 (t.store.readN (256 * row + 64 * j) 64) (t.storePoison.contains (4 * row + j))
  let put (a : Tile × Op) (k j : Nat) : Tile × Op :=
    match o.data.find? k with
    | none => a
    | some x =>
      let p := bitAt x 512
      (a.1.putGranule row j (x % 2 ^ 512) p, if p then { a.2.poisoned with dcnt := a.2.dcnt + 64 } else { a.2 with dcnt := a.2.dcnt + 64 })
  match op with
  | 0 => let a := (List.range 4).foldl (fun a j => put a (4 * r + j) j) (t, o'); (a.1.remeta row me, a.2)
  | 1 => (t, (List.range 4).foldl (fun (o : Op) j => { o with data := o.data.set (4 * r + j) (src t row j) }) o')
  | 2 =>
    let o := if r = 0 then
        (List.range (4 * n)).foldl (fun (o : Op) k => { o with data := o.data.set k (src t ((o.arg 1).toNat + k / 4) (k % 4)) }) o'
      else o'
    let a := (List.range 4).foldl
      (fun (a : Tile × Op) j =>
        let x := o.data.getD (4 * r + j) 0
        (a.1.putGranule row j (x % 2 ^ 512) (bitAt x 512), if bitAt x 512 then a.2.poisoned else a.2)) (t, o)
    (a.1.remeta row me, { a.2 with dcnt := a.2.dcnt + 256 })
  | _ => ((t.putBytes row 256 0).remeta row me, { o' with dcnt := o'.dcnt + 256 })

/-- A part of a TS copy: a granule of memory, or a row of the tile store. Rows take effect in issue order (R327). -/
def State.tsPart (s : State) (i k : Nat) (o : Op) (op : Nat) : State :=
  let n := (o.arg 2).toNat
  let base := tsBase op n
  if o.total ≤ k || o.done.contains k || o.held.contains k then s
  else if k < base then
    let va := o.arg 1 + BitVec.ofNat 64 (64 * k)
    if op = 0 then s.granuleIn i o k va 64 fun _ o x psn => o.take k (marked512 x psn)
    else
      match o.data.find? k with
      | none => s
      | some x =>
        s.granuleOut i o { o with done := setInsert k o.done, dcnt := o.dcnt + 64 } k va 64 (x % 2 ^ 512) (bitAt x 512)
  else
    let r := k - base
    let earlier := (s.ops.take i).any fun p => p.core == o.core && (match p.kind with
      | .ts op' => !p.rowsDone op' && !p.st.cancelled
      | _ => false)
    let ready := (r = 0 || o.done.contains (k - 1)) && (op ≠ 0 || (List.range 4).all fun j => o.done.contains (4 * r + j))
    if earlier || !ready || !s.partRuns o.part then s
    else
      let site := coreSite o.core
      let x := tsRow (s.tile site) o op r
      (s.setTile site x.1).setOp i x.2

/-- Issue of a TS copy (R323, R339, R340). Arguments: first row, address or source row, count. -/
def State.issueTs (s : State) (op : Nat) (d : Reg) (row other count : Word) (m : BitVec 32) : Res :=
  if s.inAtelier || s.before.inShadow || tileType s.selfSite == .vector then s.illegal
  else s.gated fun s =>
    let nr := siteRows s.selfSite
    let n := count.toNat
    let o := { s.newOp (modCh m) (.ts op) m [row, other, count] with total := tsBase op n + n }
    if op ≤ 1 && !multiple other 64 then s.trapAt causeMisaligned other
    else
      let uses : List RangeUse := if op = 0 then [use .engineRead other (256 * n)] else if op = 1 then [use .engineWrite other (256 * n)] else []
      match s.checkRanges s.who true uses with
      | .error t => s.trap t
      | .ok s =>
        s.withRoom o.ch
          (let res := if op = 1 then m.toNat / 16 else m.toNat / 128
           let badMe := op ≠ 1 && 6 ≤ (m.extractLsb' 4 3).toNat
           let badRow (x : Word) : Bool := n ≠ 0 && nr < x.toNat + n
           if res ≠ 0 || badMe || badRow row || (op = 2 && badRow other) then s.atOnce d o 5
           else if n = 0 then s.atOnce d o 0
           else s.fork d o)

/-- TSLD (R340). -/
def execTsld (d : Reg) (a b c : Src) (m : BitVec 32) (s : State) : Res := s.issueTs 0 d (s.g a) (s.g b) (s.g c) m
/-- TSST (R340). -/
def execTsst (d : Reg) (a b c : Src) (m : BitVec 32) (s : State) : Res := s.issueTs 1 d (s.g a) (s.g b) (s.g c) m
/-- TSCPY (R340). -/
def execTscpy (d : Reg) (a b c : Src) (m : BitVec 32) (s : State) : Res := s.issueTs 2 d (s.g a) (s.g b) (s.g c) m
/-- TSZERO (R340). -/
def execTszero (d : Reg) (a c : Src) (m : BitVec 32) (s : State) : Res := s.issueTs 3 d (s.g a) 0#64 (s.g c) m

/-! ## Issue of MXE instructions (R323, R329, R331, R339) -/

/-- The combinations of R329; `dense` says whether the tile is a D tile. -/
def fmtOk (a b acc : Nat) (dense : Bool) : Bool :=
  (a ≤ 5 && b ≤ 5 && acc == 0) || (isIntFmt a && isIntFmt b && acc == 2) || (a == 8 && b == 8 && acc == 1 && dense)
/-- BSMMA's further condition (R342). -/
def fmtSparseOk (a b acc : Nat) : Bool := (a == b && a ≤ 3 && acc == 0) || (isIntFmt a && isIntFmt b && acc == 2)
def State.mxeAllowed (s : State) (sparseOnly : Bool) : Bool :=
  let t := tileType s.selfSite
  !s.inAtelier && !s.before.inShadow && coreIsCC s.selfCore && (t == .sparse || (t == .dense && !sparseOnly))
/-- The MXE's queue of 8 (R331). -/
def State.mxeRoom (s : State) : Bool := (s.ops.filter fun o => o.core == s.selfCore && o.kind.isMxe).length < 8
/-- FMT_INVALID carries FMT as captured (R396). -/
def State.fmtInvalid (s : State) : Res := s.trapWith causeFmtInvalid 0#64 (fmtWord s.fmt)
/-- The waits, then RANGE, or the operation is forked. -/
def State.issueMxe (s : State) (d : Reg) (o : Op) (range : Bool) : Res :=
  s.withRoom o.ch (s.withEngine s.mxeRoom (if range then s.atOnce d o 5 else s.fork d o))

def modAc (m : BitVec 32) : Nat := (m.extractLsb' 4 2).toNat
def modK (m : BitVec 32) : Nat := (m.extractLsb' 6 12).toNat + 1
/-- N: lines of the B panel (R328). -/
def panelN (acc : Nat) : Nat := if acc = 1 then 32 else 64
/-- An MX operand's K must be a multiple of 32 (R328). -/
def badMxK (f : BitVec 14) (k : Nat) : Bool := (isMx (fmtA f) || isMx (fmtB f)) && k % 32 != 0
def rowsBad (nr t n : Nat) : Bool := n ≠ 0 && nr < t + n

/-- MMA and BSMMA: panels in the tile store. -/
def State.issueMma (s : State) (op : Nat) (d : Reg) (a b : Src) (m : BitVec 32) : Res :=
  if !s.mxeAllowed (op = 1) then s.illegal
  else s.gated fun s =>
    let f := s.fmt
    let dense := tileType s.selfSite == .dense
    if !fmtOk (fmtA f) (fmtB f) (fmtAcc f) dense || (op = 1 && !fmtSparseOk (fmtA f) (fmtB f) (fmtAcc f)) then s.fmtInvalid
    else
      let k := modK m
      let nr := siteRows s.selfSite
      let o := s.newOp (modCh m) (.mma op) m [s.g a, s.g b]
      s.issueMxe d o
        (m.toNat / 2 ^ 18 ≠ 0 || badMxK f k || rowsBad nr (s.g a).toNat (64 * lineRows (fmtA f) k)
          || rowsBad nr (s.g b).toNat (panelN (fmtAcc f) * lineRows (fmtB f) k))
/-- MMA (R341). -/
def execMma (d : Reg) (a b : Src) (m : BitVec 32) (s : State) : Res := s.issueMma 0 d a b m
/-- BSMMA (R342): on an S tile's CC; skipping never changes a bit or a flag (R68, R326). -/
def execBsmma (d : Reg) (a b : Src) (m : BitVec 32) (s : State) : Res := s.issueMma 1 d a b m

/-- The panel lines of MMAL: 64 of A, then N of B, each with its address and LB (R343). -/
structure MmalShape where
  a : Word
  b : Word
  astr : Nat
  bstr : Nat
  la : Nat
  lb : Nat
  n : Nat
  deriving DecidableEq, Repr
def mmalShape (args : List Word) (f : BitVec 14) (k : Nat) : MmalShape :=
  let st := (args.getD 2 0#64).toNat
  ⟨args.getD 0 0#64, args.getD 1 0#64, bits st 0 32, bits st 32 32, lineBytesOf (fmtA f) k, lineBytesOf (fmtB f) k, panelN (fmtAcc f)⟩
def MmalShape.ga (x : MmalShape) : Nat := ceilDiv x.la 64
def MmalShape.gb (x : MmalShape) : Nat := ceilDiv x.lb 64
def MmalShape.total (x : MmalShape) : Nat := 64 * x.ga + x.n * x.gb
/-- Granule `k`: its address, its bytes, and its place within its line. -/
def MmalShape.piece (x : MmalShape) (k : Nat) : Word × Nat × Nat :=
  let one (base : Word) (str g l k : Nat) : Word × Nat × Nat :=
    (base + BitVec.ofNat 64 (k / g * str + 64 * (k % g)), min 64 (l - 64 * (k % g)), k % g)
  if k < 64 * x.ga then one x.a x.astr x.ga x.la k else one x.b x.bstr x.gb x.lb (k - 64 * x.ga)
/-- MMAL (R343): no line may lie in the scratch aperture, which is one failing byte among the others (R339). -/
def execMmal (d : Reg) (a b c : Src) (m : BitVec 32) (s : State) : Res :=
  if !s.mxeAllowed false then s.illegal
  else s.gated fun s =>
    let f := s.fmt
    if !fmtOk (fmtA f) (fmtB f) (fmtAcc f) (tileType s.selfSite == .dense) then s.fmtInvalid
    else
      let x := mmalShape [s.g a, s.g b, s.g c] f (modK m)
      if !multiple x.a 64 ∨ x.astr % 64 ≠ 0 then s.trapAt causeMisaligned x.a
      else if !multiple x.b 64 ∨ x.bstr % 64 ≠ 0 then s.trapAt causeMisaligned x.b
      else
        let lines (base : Word) (str n l : Nat) : List RangeUse := (List.range n).map fun i =>
          ⟨.engineRead, (base + BitVec.ofNat 64 (i * str)).toNat, l, false⟩
        let us := lines x.a x.astr 64 x.la ++ lines x.b x.bstr x.n x.lb
        match s.checkRanges s.who false us with
        | .error t => s.trap t
        | .ok s =>
          let o := { s.newOp (modCh m) (.mma 2) m [x.a, x.b, s.g c] with total := x.total }
          s.issueMxe d o (m.toNat / 2 ^ 18 ≠ 0 || badMxK f (modK m))

/-- The fields of GMM's descriptor (R344), with its sizes above bit 256. -/
structure GmmShape where
  bias : Bool
  biasb : Nat
  obase : Nat
  bstr : Nat
  bbase : Nat
  abase : Nat
  k : Nat
  ofmt : Nat
  n : Nat
  g : Nat
  sizes : List Nat
  deriving DecidableEq, Repr
def gmmShape (x : Nat) : GmmShape :=
  let g := bits x 64 8 + 1
  ⟨bitAt x 171, bits x 160 11, bits x 144 11, bits x 128 11, bits x 112 11, bits x 96 11, bits x 80 12 + 1, bits x 78 2,
   bits x 72 6 + 1, g, (List.range g).map fun i => bits x (256 + 32 * i) 32⟩
def gmmReserved (x : Nat) : Bool :=
  bits x 172 84 != 0 || bits x 155 5 != 0 || bits x 139 5 != 0 || bits x 123 5 != 0 || bits x 107 5 != 0 || bits x 92 4 != 0
def GmmShape.sum (x : GmmShape) : Nat := x.sizes.foldl (· + ·) 0
/-- What completes a GMM with RANGE at issue (R344). -/
def GmmShape.bad (x : GmmShape) (f : BitVec 14) (nr : Nat) : Bool :=
  x.sizes.any (fun z => 2 ^ 31 ≤ z) || 2048 < x.sum || x.ofmt == 3 || (x.ofmt != 0 && fmtAcc f != 0)
    || (fmtAcc f == 1 && 32 < x.n) || badMxK f x.k || rowsBad nr x.abase (x.sum * lineRows (fmtA f) x.k) || rowsBad nr x.obase x.sum
    || (List.range x.g).any fun g =>
        x.sizes.getD g 0 ≠ 0 && (rowsBad nr (x.bbase + g * x.bstr) (x.n * lineRows (fmtB f) x.k) || (x.bias && rowsBad nr (x.biasb + g) 1))

/-- GMM (R344): the descriptor and the sizes are read at issue. -/
def execGmm (d : Reg) (a : Src) (m : BitVec 32) (s : State) : Res :=
  if !s.mxeAllowed false then s.illegal
  else s.gated fun s =>
    let f := s.fmt
    if !fmtOk (fmtA f) (fmtB f) (fmtAcc f) (tileType s.selfSite == .dense) then s.fmtInvalid
    else if !multiple (s.g a) 32 then s.trapAt causeMisaligned (s.g a)
    else
      (s.drainCore s.selfCore).readStruct (s.g a) 4 fun x s =>
        match s.readBack (BitVec.ofNat 64 (bits x 0 64)) 4 (bits x 64 8 + 1) with
        | .stop r => r
        | .data sizes s =>
          let whole := x + sizes * 2 ^ 256
          let o := { s.newOp (modCh m) (.mma 3) m [s.g a] with desc := whole }
          s.issueMxe d o (m.toNat / 16 ≠ 0 || gmmReserved x || (gmmShape whole).bad f (siteRows s.selfSite))

/-- ACZERO (R346). -/
def execAczero (d : Reg) (m : BitVec 32) (s : State) : Res :=
  if !s.mxeAllowed false then s.illegal
  else s.gated fun s => s.issueMxe d (s.newOp (modCh m) (.acc 0) m []) (m.toNat / 64 ≠ 0)
/-- ACLD (R346). -/
def execAcld (d : Reg) (a : Src) (m : BitVec 32) (s : State) : Res :=
  if !s.mxeAllowed false then s.illegal
  else s.gated fun s =>
    s.issueMxe d (s.newOp (modCh m) (.acc 1) m [s.g a]) (m.toNat / 64 ≠ 0 || rowsBad (siteRows s.selfSite) (s.g a).toNat 64)
/-- ACST (R346). -/
def execAcst (d : Reg) (a : Src) (m : BitVec 32) (s : State) : Res :=
  if !s.mxeAllowed false then s.illegal
  else s.gated fun s =>
    let o := (m.extractLsb' 6 2).toNat
    if (o = 1 ∨ o = 2) ∧ fmtAcc s.fmt ≠ 0 then s.fmtInvalid
    else
      s.issueMxe d (s.newOp (modCh m) (.acc 2) m [s.g a])
        (m.toNat / 256 ≠ 0 || o = 3 || rowsBad (siteRows s.selfSite) (s.g a).toNat 64)

/-! ## What the MXE does (R330, R333, R334, R341–R346) -/

def accOff (ac i : Nat) : Nat := 16384 * ac + 256 * i
def Tile.accRow (t : Tile) (ac i : Nat) : Nat := t.accs.readN (accOff ac i) 256
def Tile.setAccRow (t : Tile) (ac i x : Nat) : Tile := { t with accs := t.accs.writeN (accOff ac i) 256 x }
/-- A line of a panel, and whether a granule of it is poisoned. -/
def Tile.panelLine (t : Tile) (code k panel i : Nat) : Nat × Bool :=
  let row := panel + i * lineRows code k
  let lb := lineBytesOf code k
  (t.store.readN (256 * row) lb, (List.range (ceilDiv lb 64)).any fun j => t.storePoison.contains (4 * row + j))

/-- Elements of one row of C (R341) after the K from `m` up to `n`: `w` bits each. -/
def productRow (f : BitVec 14) (k m n : Nat) (la : Nat) (lbs : List Nat) (c : Nat) : Nat × Flags :=
  let w := if fmtAcc f = 1 then 64 else 32
  let rs := lbs.mapIdx fun j lb => productElem (fmtA f) (fmtB f) (fmtAcc f) (fmtSat f) k m n la lb (bits c (w * j) w)
  (pack w (rs.map (·.bits)), orFlags (rs.map (·.flags)))

/-- Flags join DCNT[5:0]; OF and SF are what STS reports (R333). -/
def Op.raised (o : Op) (fl : Flags) : Op :=
  { o with dcnt := o.dcnt ||| fl.toNat, st := { o.st with overflow := o.st.overflow || fl.getLsbD 2 || fl.getLsbD 5 } }
/-- `n` granules or rows written poisoned, or newly poisoned. -/
def Op.poisonedBy (o : Op) (n : Nat) : Op :=
  { o with pcnt := o.pcnt + n, st := { o.st with poisoned := o.st.poisoned || n != 0 } }
/-- Poison was written or carried (R319). -/
def Op.carriesPoison (o : Op) (bad : Bool) : Op := { o with st := { o.st with poisoned := o.st.poisoned || bad } }

/-- The values of k that one chunk of a product takes, or one FP64 step (R67, R70, R335). -/
def chunkOf (f : BitVec 14) : Nat := if fmtAcc f = 1 then 1 else chunkSize (fmtA f) (fmtB f)
/-- The product of 64 A lines and N B lines into an accumulator, over the K from `m` up to `n`. -/
def Tile.product (t : Tile) (o : Op) (k m n : Nat) (as bs : List (Nat × Bool)) : Tile × Op :=
  let f := o.fmt
  let ac := modAc o.mod
  let lbs := bs.map (·.1)
  let res := (List.range 64).foldl
    (fun (a : Tile × Flags) i =>
      let z := productRow f k m n (as.getD i (0, false)).1 lbs (t.accRow ac i)
      (a.1.setAccRow ac i z.1, a.2 ||| z.2)) (t, 0)
  let bad := (List.range 64).filter fun i => bs.any (·.2) || (as.getD i (0, false)).2
  let fresh := bad.filter fun i => !t.accPoison.contains (64 * ac + i)
  ({ res.1 with accPoison := fresh.foldl (fun p i => setInsert (64 * ac + i) p) t.accPoison, mxeFmt := f.setWidth 10 },
   ((o.raised res.2).poisonedBy fresh.length).carriesPoison
     (!bad.isEmpty || (List.range 64).any fun i => t.accPoison.contains (64 * ac + i)))

/-- What a multiplying instruction multiplies: how far K goes, the A lines and the B lines. -/
structure Panels where
  n : Nat
  as : List (Nat × Bool)
  bs : List (Nat × Bool)
/-- The panels of MMA and BSMMA in the tile store. -/
def Tile.storePanels (t : Tile) (o : Op) : Panels :=
  let f := o.fmt
  let k := modK o.mod
  ⟨k, (List.range 64).map (t.panelLine (fmtA f) k (o.arg 0).toNat),
   (List.range (panelN (fmtAcc f))).map (t.panelLine (fmtB f) k (o.arg 1).toNat)⟩

/-- Does chunk `c` need granule `j` of a line, for its elements or for its scales (R328, R343)? -/
def chunkNeeds (code k ch j c : Nat) : Bool :=
  let h := halfBytes code
  let last := min ((c + 1) * ch) k
  let meets (lo hi : Nat) : Bool := lo < 64 * j + 64 && 64 * j < hi
  meets (c * ch * h / 2) ((last * h + 1) / 2) || (isMx code && meets (k * h / 2 + c * ch / 32) (k * h / 2 + ceilDiv last 32))
/-- Values of k below the first chunk that needs granule `j` of a line. -/
def reachedK (code k ch j : Nat) : Nat :=
  ((List.range (ceilDiv k ch)).takeWhile fun c => !chunkNeeds code k ch j c).length * ch
/-- The panels of MMAL: the lines gathered, cut at the first chunk that needed a line in system space. -/
def Op.memoryPanels (o : Op) : Panels :=
  let f := o.fmt
  let k := modK o.mod
  let x := mmalShape o.args f k
  let gather (base g i : Nat) : Nat × Bool :=
    (List.range g).foldl
      (fun (a : Nat × Bool) j => let y := o.data.getD (base + i * g + j) 0; (a.1 + y % 2 ^ 512 * 2 ^ (512 * j), a.2 || bitAt y 512)) (0, false)
  let missing := (List.range o.total).filter fun q => (o.data.find? q).isNone
  let n := missing.foldl (fun n q => min n (reachedK (if q < 64 * x.ga then fmtA f else fmtB f) k (chunkOf f) (x.piece q).2.2)) k
  ⟨n, (List.range 64).map (gather 0 x.ga), (List.range x.n).map (gather (64 * x.ga) x.gb)⟩
/-- A product goes on from its next chunk, over `chunks` chunks at most; `Op.pos` counts those done. -/
def Tile.multiply (t : Tile) (o : Op) (chunks : Nat) : Tile × Op :=
  let p := if o.kind == .mma 2 then o.memoryPanels else t.storePanels o
  let ch := chunkOf o.fmt
  let r := t.product o (modK o.mod) (ch * o.pos) (min p.n (ch * (o.pos + chunks))) p.as p.bs
  (r.1, { r.2 with pos := o.pos + chunks })

/-- One output line of GMM: its value and flags (R345). -/
def gmmLine (x : GmmShape) (f : BitVec 14) (la : Nat) (lbs : List Nat) (biasRow : Nat) : Nat × Flags :=
  let w := if fmtAcc f = 1 then 64 else 32
  let acc := fmtAcc f
  let elem (j lb : Nat) : FpRes :=
    let p := productElem (fmtA f) (fmtB f) acc (fmtSat f) x.k 0 x.k la lb 0
    let b := bits biasRow (w * j) w
    let q : FpRes :=
      if !x.bias then ⟨p.bits, 0⟩
      else if acc = 2 then satInt 32 true (fmtSat f) (signed 32 p.bits + signed 32 b)
      else fpAdd (if acc = 1 then fp64 else fp32) p.bits b
    let c : FpRes :=
      match x.ofmt with
      | 1 => convert (.fp fp32) (.fp bf16) (fmtRm f) (fmtSat f) q.bits
      | 2 => convert (.fp fp32) (.fp fp16) (fmtRm f) (fmtSat f) q.bits
      | _ => ⟨q.bits, 0⟩
    ⟨c.bits, p.flags ||| q.flags ||| c.flags⟩
  let rs := lbs.mapIdx elem
  (pack (if x.ofmt = 0 then w else 16) (rs.map (·.bits)), orFlags (rs.map (·.flags)))

/-- The group of GMM that line `q` belongs to, and its first line. -/
def GmmShape.groupOf (x : GmmShape) (q : Nat) : Nat × Nat :=
  let rec go (sizes : List Nat) (g base : Nat) : Nat × Nat :=
    match sizes with
    | [] => (g, base)
    | z :: t => if q < base + z then (g, base) else go t (g + 1) (base + z)
  go x.sizes 0 0
/-- Group `g`'s operands are read, and its lines computed, before any of them is written (R345): `Op.data` holds value, flags and
poison of each line. -/
def gmmRead (x : GmmShape) (t : Tile) (o : Op) (g base : Nat) : Op :=
  let f := o.fmt
  let bs := (List.range x.n).map (t.panelLine (fmtB f) x.k (x.bbase + g * x.bstr))
  let biasRow := t.store.readN (256 * (x.biasb + g)) 256
  let biasBad := x.bias && (List.range (ceilDiv (x.n * (if fmtAcc f = 1 then 8 else 4)) 64)).any fun j => t.storePoison.contains (4 * (x.biasb + g) + j)
  let line (d : FMap Nat) (r : Nat) : FMap Nat :=
    let q := base + r
    let la := t.panelLine (fmtA f) x.k x.abase q
    let z := gmmLine x f la.1 (bs.map (·.1)) biasRow
    ((d.set (3 * q) z.1).set (3 * q + 1) z.2.toNat).set (3 * q + 2) (b2n (la.2 || bs.any (·.2) || biasBad))
  { o with data := (List.range (x.sizes.getD g 0)).foldl line o.data }
/-- The next output line of GMM (R335, R345). -/
def gmmStep (x : GmmShape) (a : Tile × Op) : Tile × Op :=
  let q := a.2.pos
  let gb := x.groupOf q
  let o := if q = gb.2 then gmmRead x a.1 a.2 gb.1 gb.2 else a.2
  let n := x.n * (if x.ofmt ≠ 0 then 2 else if fmtAcc o.fmt = 1 then 8 else 4)
  let bad := o.data.getD (3 * q + 2) 0 == 1
  let row := x.obase + q
  let t := a.1.putBytes row n (o.data.getD (3 * q) 0)
  let t := if bad then t.poisonBytes row n else t
  let o := o.raised (BitVec.ofNat 6 (o.data.getD (3 * q + 1) 0))
  (t.remeta row x.ofmt, { if bad then o.poisonedBy (ceilDiv n 64) else o with pos := q + 1 })
/-- GMM goes on from its next line, over `lines` lines at most; `Op.pos` counts those done (R345). -/
def Tile.gmm (t : Tile) (o : Op) (lines : Nat) : Tile × Op :=
  let x := gmmShape o.desc
  (List.range (min lines (x.sum - o.pos))).foldl (fun a _ => gmmStep x a) ({ t with mxeFmt := o.fmt.setWidth 10 }, o)

/-- ACZERO, ACLD, ACST (R346). -/
def Tile.accOp (t : Tile) (o : Op) (op : Nat) : Tile × Op :=
  let ac := modAc o.mod
  let row := (o.arg 0).toNat
  match op with
  | 0 => ({ t with accs := t.accs.clear (accOff ac 0) 16384, accPoison := t.accPoison.filter fun i => i / 64 != ac }, o)
  | 1 =>
    (List.range 64).foldl
      (fun (a : Tile × Op) i =>
        let bad := t.rowPoisoned (row + i)
        let fresh := bad && !t.accPoison.contains (64 * ac + i)
        let u := a.1.setAccRow ac i (t.store.readN (256 * (row + i)) 256)
        ({ u with accPoison := if bad then setInsert (64 * ac + i) u.accPoison else setRemove (64 * ac + i) u.accPoison },
         (a.2.poisonedBy (b2n fresh)).carriesPoison bad)) (t, o)
  | _ =>
    let out := (o.mod.extractLsb' 6 2).toNat
    let r := (List.range 64).foldl
      (fun (a : Tile × Op × Flags) i =>
        let c := t.accRow ac i
        let rs := (lanes32 c 64).map fun x => convert (.fp fp32) (.fp (if out = 1 then bf16 else fp16)) (fmtRm o.fmt) (fmtSat o.fmt) x
        let u := if out = 0 then a.1.putBytes (row + i) 256 c else a.1.putBytes (row + i) 128 (pack 16 (rs.map (·.bits)))
        let bad := t.accPoison.contains (64 * ac + i)
        let u := if bad then u.poisonBytes (row + i) 256 else u
        (u.remeta (row + i) out, if bad then a.2.1.poisonedBy 4 else a.2.1, if out = 0 then a.2.2 else a.2.2 ||| orFlags (rs.map (·.flags))))
      (t, o, 0)
    (r.1, if out = 0 then r.2.1 else r.2.1.raised r.2.2)

/-- The MXE runs one instruction at a time in issue order (R331). -/
def State.mxeBlocked (s : State) (i : Nat) (o : Op) : Bool := (s.ops.take i).any fun p => p.core == o.core && p.kind.isMxe

/-- The rest of a multiplying instruction. -/
def Tile.multiplyRest (t : Tile) (o : Op) : Tile × Op :=
  if o.kind == .mma 3 then t.gmm o (gmmShape o.desc).sum else t.multiply o (modK o.mod)
/-- The work left of an MXE instruction whose turn has come and whose operands are at hand. A cancelled one does no more; its format
is the MXE's last all the same (R203). -/
def State.mxeFinish (s : State) (o : Op) : State × Op :=
  let site := coreSite o.core
  let t := s.tile site
  let r := if o.st.cancelled then (match o.kind with
      | .mma _ => ({ t with mxeFmt := o.fmt.setWidth 10 }, o)
      | _ => (t, o))
    else match o.kind with
      | .mma _ => t.multiplyRest o
      | .acc op => t.accOp o op
      | _ => (t, o)
  (s.setTile site r.1, r.2)
/-- The next chunk, k step or line of a multiplying instruction (R335). -/
def State.mxeStep (s : State) (i : Nat) (o : Op) : State :=
  let site := coreSite o.core
  let t := s.tile site
  if s.mxeBlocked i o || o.st.cancelled || !o.allDone o.total then s
  else
    let r := if o.kind == .mma 3 then t.gmm o 1 else t.multiply o 1
    (s.setTile site r.1).setOp i r.2

/-- A granule of an MMAL (R343). -/
def State.mmalGranule (s : State) (i k : Nat) (o : Op) : State :=
  let x := mmalShape o.args o.fmt (modK o.mod)
  let p := x.piece k
  s.granuleIn i o k p.1 p.2.1 fun _ o y psn => o.take k (marked512 y psn)
/-- A part of a multiplying instruction: a granule of MMAL, or what the MXE does next. -/
def State.mxePart (s : State) (i k : Nat) (o : Op) : State :=
  if k < o.total then (if o.done.contains k || o.held.contains k then s else s.mmalGranule i k o) else s.mxeStep i o

/-! ## Semaphores (R336, R337) -/

def semIndex (w : Word) : Nat := w.toNat % 16
def modN (m : BitVec 32) : Nat := (m.extractLsb' 0 8).toNat + 1
def State.semBarred (s : State) : Bool := s.barred false false true true
/-- A rise of a semaphore serves its waiters from the oldest, while the value covers n. -/
def State.serveSem (s : State) (site i : Nat) : List (Nat × Nat) → State
  | [] => s
  | (k, n) :: rest =>
    let t := s.tile site
    let v := t.sems.getD i 0
    if v < n then s
    else
      let s := s.setTile site { t with sems := t.sems.set i (v - n), semWait := t.semWait.set i rest }
      (s.release k { value := BitVec.ofNat 512 (v - n) }).serveSem site i rest

/-- SEMV (R337). -/
def execSemv (a : Src) (m : BitVec 32) (s : State) : Res :=
  s.unless s.semBarred
    (s.gated fun s =>
      let t := s.tile s.selfSite
      let i := semIndex (s.g a)
      let v := t.sems.getD i 0
      if 65535 < v + modN m then s.trapWith causeSemOverflow 0#64 (BitVec.ofNat 64 v)
      else
        let s := s.drainCore s.selfCore
        let t := s.tile s.selfSite
        let s := s.setTile s.selfSite { t with sems := t.sems.set i (v + modN m) }
        .next (s.serveSem s.selfSite i (t.semWait.getD i [])))
/-- SEMP (R337): waits to be the oldest waiter with the value at n. -/
def execSemp (d : Reg) (a : Src) (m : BitVec 32) (s : State) : Res :=
  s.unless (s.semBarred || s.before.inHandler)
    (match s.grant with
     | some gr => .next (s.useGrant.setG d (gr.value.setWidth 64))
     | none =>
       s.gated fun s =>
         let t := s.tile s.selfSite
         let i := semIndex (s.g a)
         let v := t.sems.getD i 0
         let w := t.semWait.getD i []
         if w.isEmpty && modN m ≤ v then
           .next ((s.setTile s.selfSite { t with sems := t.sems.set i (v - modN m) }).setG d (BitVec.ofNat 64 (v - modN m)))
         else
           let s := s.setTile s.selfSite { t with semWait := t.semWait.set i (w ++ [(s.cur.strand, modN m)]) }
           .next (s.hold (.semaphore i)))
/-- SEMQ (R337). -/
def execSemq (d : Reg) (a : Src) (s : State) : Res :=
  s.unless s.semBarred
    (s.gated fun s => .next (s.setG d (BitVec.ofNat 64 ((s.tile s.selfSite).sems.getD (semIndex (s.g a)) 0))))

end Sys2Proof.Machine
end

