-- ==== Sys2Proof/Machine/Sparse.lean ====
section
/-! DEFINITION. The index engine: GATH, SCAT, their elements, the fault queue, GREPLAY, GCANCEL and FQPEEK
(16_gather_scatter_merge R365–R377). -/

namespace Sys2Proof.Machine

/-! ## The element descriptor (R367, R368) -/

structure ElemShape where
  wide : Bool
  limit : Nat
  esize : Nat
  count : Nat
  idxa : Word
  deriving DecidableEq, Repr
def elemShape (x : Nat) : ElemShape :=
  ⟨bitAt x 192, bits x 128 64, bits x 96 32, bits x 64 32, BitVec.ofNat 64 (bits x 0 64)⟩
def ElemShape.iw (e : ElemShape) : Nat := if e.wide then 8 else 4
def ElemShape.sizeOk (e : ElemShape) (scat : Bool) : Bool :=
  if scat then [4, 8, 16, 32, 64].contains e.esize else e.esize % 4 == 0 && 4 ≤ e.esize && e.esize ≤ 4096
def Op.isScat (o : Op) : Bool := o.kind == .scat
def Op.elems (o : Op) : ElemShape := elemShape o.desc
/-- Arguments are the local base and the table base. -/
def Op.localAt (o : Op) (k : Nat) : Word := o.arg 0 + BitVec.ofNat 64 (k * o.elems.esize)
def Op.tableAt (o : Op) (x : Nat) : Nat := (o.arg 1).toNat + x * o.elems.esize
/-- SCAT's OP and ET. -/
def Op.scatOp (o : Op) : Nat := (o.mod.extractLsb' 4 2).toNat
def Op.scatEt (o : Op) : Nat := (o.mod.extractLsb' 6 2).toNat

/-! ## What `Op.data` keeps of an element -/

def Op.inFlight (o : Op) (k : Nat) : Bool := (o.data.find? (idxKey k)).isSome
def Op.index (o : Op) (k : Nat) : Nat := o.data.getD (idxKey k) 0 % 2 ^ 64
def Op.replayed (o : Op) (k : Nat) : Bool := (o.data.find? (replayKey k)).isSome
def Op.toReform (o : Op) (k : Nat) : Bool := (o.data.find? (reformKey k)).isSome
/-- The elements that are to be formed again, the replayed ones (R376) or those that a stop took back (R375). -/
def Op.reforming (o : Op) (replayed : Bool) : List Nat :=
  (o.data.keys.filter fun q => reformKey 0 ≤ q && q < reformKey (2 ^ 32) && o.replayed (q - reformKey 0) == replayed).map (· - reformKey 0)
/-- An element waits at a full fault queue (R372). -/
def Op.waits (o : Op) : Bool := o.data.keys.any fun q => waitKey 0 ≤ q && q < waitKey (2 ^ 32)
def Op.settle (o : Op) (k : Nat) : Op := { o.forget k with done := setInsert k o.done }
/-- An element is formed: the engine goes on to the next. -/
def Op.advance (o : Op) (k : Nat) : Op := { o with pos := max o.pos (k + 1), data := (o.data.erase (reformKey k)).erase (waitKey k) }

/-- PCNT of a gather: poisoned elements above bit 9, elements ever parked below (R373). -/
def countParked (p : Nat) : Nat := if p % 512 = 511 then p else p + 1
def countPoisoned (p : Nat) : Nat := if p / 512 = 2 ^ 17 - 1 then p else p + 512

/-! ## Parking (R371, R372) -/

/-- The queue is full: element `k` waits, and the operation forms no other (R372). -/
def State.parkWaits (s : State) (i : Nat) (o : Op) (k : Nat) : State := s.setOp i { o with data := o.data.set (waitKey k) 1 }
/-- Element `k` of operation `i` parks, with BADINDEX's index or the failing line. An element counts once as parked (R373). -/
def State.parkElement (s : State) (i : Nat) (o : Op) (k cause : Nat) (addr : Word) : State :=
  let site := coreSite o.core
  let t := s.tile site
  if 256 ≤ t.faultq.length then s.parkWaits i o k
  else
    let line := if cause = 1 then addr else addr &&& ~~~63#64
    let e : FaultEntry := ⟨cause, o.ch, o.isScat, coreIsCC o.core, o.id, k, line⟩
    let o := { (o.advance k).forget k with
      pcnt := if o.replayed k then o.pcnt else countParked o.pcnt
      st := { o.st with linkLost := o.st.linkLost || cause == 5, range := o.st.range || cause == 1 || cause == 6 } }
    (s.setTile site { t with faultq := t.faultq ++ [e] }).setOp i o
/-- A park for a translation fault is reported; one for PROT freezes the tenant. -/
def State.parkFault (s : State) (i : Nat) (o : Op) (k : Nat) (t : TrapInfo) : State :=
  if 256 ≤ (s.tile (coreSite o.core)).faultq.length then s.parkWaits i o k
  else if t.cause == causePageNotPresent then (s.engineFault o t 0#64).parkElement i o k 2 t.addr
  else if t.cause == causeOwnerHost then (s.engineFault o t 0#64).parkElement i o k 3 t.addr
  else (s.parkElement i o k 4 t.addr).freezeTenant o.tenant

/-! ## Forming an element (R368, R369, R371) -/

/-- The rights that a table element needs. -/
def Op.tableRights (o : Op) : List Acc :=
  if !o.isScat then [.engineRead] else if o.scatOp = 0 then [.engineWrite] else [.engineRead, .engineWrite]
/-- The PLB check of the lines of a table element. -/
def State.checkTable (s : State) (o : Op) (t n : Nat) : Except TrapInfo State :=
  (List.range (pieces t n)).foldl
    (fun r j => o.tableRights.foldl
      (fun (r : Except TrapInfo State) acc => match r with
        | .ok s => s.checkPiece o.who acc true (inScratch t) true (pieceOf t n j).1
        | .error e => .error e) r) (.ok s)
/-- BADINDEX: beyond the table, above VA 2^57, in the stack window, or across the scratch aperture's edge. -/
def badIndex (e : ElemShape) (x t : Nat) : Bool :=
  e.limit ≤ x || 2 ^ 57 ≤ t || t / 2 ^ 48 == 0x1FE || inScratch t != inScratch (t + e.esize - 1)
/-- The bytes of a range of element `k`, granule by granule, and the last piece that was asked for. -/
def State.fetchBytes (s : State) (o : Op) (k a n : Nat) : Nat → Nat → Nat → Bool → Got × Word
  | 0, _, x, psn => (.data x psn s, BitVec.ofNat 64 a)
  | fuel + 1, i, x, psn =>
    let p := pieceOf a n i
    match s.fetchPiece o (tagElem k (1 + i)) (BitVec.ofNat 64 p.1) p.2 with
    | .data y q s => s.fetchBytes o k a n fuel (i + 1) (x + y % 2 ^ (8 * p.2) * 2 ^ (8 * (p.1 - a))) (psn || q)
    | r => (r, BitVec.ofNat 64 p.1)

/-- Form element `k`: read its index and check it; a SCAT reads its source element. -/
def State.formElement (s : State) (i : Nat) (o : Op) (k : Nat) : State :=
  let e := o.elems
  let ia := e.idxa + BitVec.ofNat 64 (k * e.iw)
  match s.fetchPiece o (tagElem k 0) ia e.iw with
  | .fault t => s.parkFault i o k t
  | .wait s => s
  | .range => s.parkElement i o k 6 ia
  | .lost => s.parkElement i o k 5 ia
  | .data x psn s =>
    let t := o.tableAt x
    if badIndex e x t then s.parkElement i o k 1 (BitVec.ofNat 64 x)
    else
      match s.checkTable o t e.esize with
      | .error f => s.parkFault i o k f
      | .ok s =>
        let formed (s : State) (o : Op) : State := s.setOp i { o.advance k with data := (o.advance k).data.set (idxKey k) (x + b2n psn * 2 ^ 64) }
        if !o.isScat then formed s o
        else
          let a := (o.localAt k).toNat
          match s.fetchBytes o k a e.esize (pieces a e.esize) 0 0 false with
          | (.fault f, _) => s.parkFault i o k f
          | (.wait s, _) => s
          | (.range, va) => s.parkElement i o k 6 va
          | (.lost, va) => s.parkElement i o k 5 va
          | (.data y q s, _) => formed s { o with data := o.data.set (srcKey k) (marked512 y q) }

/-- May element `k` be formed now? Elements are formed in ascending order, those that a stop took back first (R369, R375), and none
while one waits at a full queue (R372). -/
def State.canForm (s : State) (o : Op) (k : Nat) : Bool :=
  (if o.toReform k then (o.reforming (o.replayed k)).all (k ≤ ·) else k == o.pos && k < o.total && (o.reforming false).isEmpty)
    && !(o.waits && 256 ≤ (s.tile (coreSite o.core)).faultq.length)

/-! ## GATHER_ELEMENT_ARRIVAL (R369, R371) -/

/-- The destination of a gathered element, once every part has arrived. -/
def State.gatherDeliver (s : State) (i : Nat) (o : Op) (k : Nat) : State :=
  let e := o.elems
  let t := o.tableAt (o.index k)
  let ls := List.range (pieces t e.esize)
  if !ls.all fun j => (o.data.find? (lineKey k j)).isSome then s
  else
    let line (j : Nat) : Nat := o.data.getD (lineKey k j) 0
    let x := ls.foldl (fun x j => x + line j % 2 ^ 512 * 2 ^ (8 * ((pieceOf t e.esize j).1 - t))) 0
    let psn := bitAt (o.data.getD (idxKey k) 0) 64 || ls.any fun j => bitAt (line j) 512
    let parts := destParts (o.localAt k).toNat e.esize
    let rd := s.reachAll o .engineWrite parts
    match reachFault rd with
    | some f => s.parkFault i o k f
    | none =>
      if let some s := reachGone rd then s
      else if reachSpace rd paIsSystem then
        let bad := (rd.find? fun e => reachSpace [e] paIsSystem).map fun e => e.2.1
        s.parkElement i o k 6 (o.localAt k + BitVec.ofNat 64 (bad.getD 0))
      else
        let s := parts.foldl (fun s p => s.markReach o .engineWrite p.1) s
        let o' := o.settle k
        let o' := { o' with dcnt := o'.dcnt + 1 }
        let r := (rd.zip (parts.mapIdx fun j p => (j, p.1))).foldl (fun so q => State.deliverPart so 0 0 x psn q.2 q.1) (s, o')
        let o' := { r.2 with pcnt := if psn then countPoisoned o'.pcnt else o'.pcnt, data := o'.data }
        r.1.setOp i o'
/-- One line of a formed element arrives. -/
def State.gatherLine (s : State) (i : Nat) (o : Op) (k j : Nat) : State :=
  let e := o.elems
  let t := o.tableAt (o.index k)
  let p := pieceOf t e.esize j
  if pieces t e.esize ≤ j then s
  else if (o.data.find? (lineKey k j)).isSome then s.gatherDeliver i o k
  else
    let va := BitVec.ofNat 64 p.1
    match s.fetchPiece o (tagElem k (2 + j)) va p.2 with
    | .fault f => s.parkFault i o k f
    | .wait s => s
    | .range => s.parkElement i o k 6 va
    | .lost => s.parkElement i o k 5 va
    | .data x psn s =>
      let o := { o with data := o.data.set (lineKey k j) (marked512 (x % 2 ^ (8 * p.2)) psn) }
      (s.setOp i o).gatherDeliver i o k

/-- GATHER_ELEMENT_ARRIVAL: element `input.item` of the GATH at place `input.index` is formed, or line `input.level` of
it arrives; with its last line the element is written whole. -/
def execGatherElementArrival (s : State) : Res :=
  let i := s.input.index
  let k := s.input.item
  match s.runningOp? i with
  | none => .next s
  | some o =>
    if o.kind != .gath then .next s
    else if s.canForm o k then .next (s.formElement i o k)
    else if o.inFlight k then .next (s.gatherLine i o k s.input.level) else .next s

/-! ## SCATTER_ELEMENT_APPLY (R370, R371) -/

/-- The order in which a SCAT's elements reach a table element (R370). -/
def Op.mayApply (o : Op) (k : Nat) : Bool :=
  let same (j : Nat) : Bool := j < k && o.index j == o.index k && o.replayed j == o.replayed k
  let lower := (o.reforming true).any (· < k)
  !(o.flying.any same) && (!o.replayed k || (!lower && o.pos == o.total && (o.reforming false).isEmpty && o.flying.all o.replayed))
/-- Earlier SCATs of the core come first on each line. -/
def State.scatOrder (s : State) (i : Nat) (o : Op) (line : Nat) : Bool :=
  (s.ops.take i).all fun p =>
    p.kind != .scat || p.core != o.core || (p.pos == p.total && (p.reforming false).isEmpty && p.flying.all fun j => p.tableAt (p.index j) / 64 != line)

/-- A scatter element reaches its table element. Of one on another module, `input.level` says whether the table element was
poisoned (1) or the combination overflowed or saturated (2). -/
def State.scatApply (s : State) (i : Nat) (o : Op) (k : Nat) : State :=
  let e := o.elems
  let t := o.tableAt (o.index k)
  let va := BitVec.ofNat 64 t
  let x := o.data.getD (srcKey k) 0
  let psn := bitAt x 512 || bitAt (o.data.getD (idxKey k) 0) 64
  let o' := o.settle k
  let o' := { o' with dcnt := o'.dcnt + 1 }
  let bad := { o' with pcnt := countPoisoned o'.pcnt, st := { o'.st with poisoned := true } }
  match s.reach o .engineWrite va with
  | .fault f => s.parkFault i o k f
  | .gone s => s
  | .away m =>
    if (o.asked.find? (tagElem k 0)).isNone then s.askModule o m 0 (tagElem k 0) [t, e.esize, o.scatOp, o.scatEt, b2n psn, x % 2 ^ 512] 0
    else if s.input.flag then s.parkElement i o k 5 va
    else if s.input.far = some .range then s.parkElement i o k 6 va
    else if let some f := s.farFault .engineWrite va then s.parkFault i o k f
    else
      if psn || (o.scatOp != 0 && s.input.level == 1) then s.setOp i bad
      else s.setOp i (if o.scatOp != 0 && s.input.level == 2 then { o' with st := { o'.st with overflow := true } } else o')
  | .at pa c s =>
    if paIsSystem pa || (paIsHost pa && o.scatOp != 0) then s.parkElement i o k 6 va
    else
      let s := s.engineTouch o pa c true
      if psn then (s.poisonAt pa).setOp i bad
      else if o.scatOp = 0 then (s.writePa pa e.esize (x % 2 ^ 512)).setOp i o'
      else if s.poisoned pa then s.setOp i bad
      else
        let c := combineAll o.scatOp o.scatEt (e.esize / elemSize o.scatEt) (s.readPa pa e.esize) (x % 2 ^ 512)
        (s.writePa pa e.esize c.1).setOp i (if c.2 then { o' with st := { o'.st with overflow := true } } else o')

/-- SCATTER_ELEMENT_APPLY: element `input.item` of the SCAT at place `input.index` is formed, or is applied. -/
def execScatterElementApply (s : State) : Res :=
  let i := s.input.index
  let k := s.input.item
  match s.runningOp? i with
  | none => .next s
  | some o =>
    if o.kind != .scat then .next s
    else if s.canForm o k then .next (s.formElement i o k)
    else if o.inFlight k && o.mayApply k && s.scatOrder i o (o.tableAt (o.index k) / 64) then .next (s.scatApply i o k)
    else .next s

/-! ## GATH and SCAT (R365–R368, R374, R375) -/

/-- May the issuing strand use the index engine (R365)? -/
def State.sparseAllowed (s : State) : Bool := !s.inAtelier && !s.before.inShadow && tileType s.selfSite == .sparse
/-- The arrival at an event line that a completed operation makes (R374). -/
def State.gatherArrival (s : State) (o : Op) : State :=
  if o.mod.getLsbD 13 then s.signal (coreSite o.core) (o.mod.extractLsb' 8 5).toNat else s
/-- An operation that completes at issue makes its arrival too. -/
def State.atOnceArriving (s : State) (d : Reg) (o : Op) (sts : Nat) : Res :=
  .next (((s.takeId d o).complete o.core o.ch o.id (recordWord sts 0 0)).gatherArrival o)

def State.issueElems (s : State) (scat : Bool) (d : Reg) (lo table : Word) (c : Src) (m : BitVec 32) : Res :=
  if !s.sparseAllowed then s.illegal
  else s.gated fun s =>
    if !multiple (s.g c) 32 then s.trapAt causeMisaligned (s.g c)
    else if !multiple lo 4 then s.trapAt causeMisaligned lo
    else if !multiple table 4 then s.trapAt causeMisaligned table
    else
      (s.drainCore s.selfCore).readStruct (s.g c) 4 fun x s =>
        let e := elemShape x
        if scat && e.sizeOk true && !multiple table e.esize then s.trapAt causeMisaligned table
        else
          match s.checkRanges s.who false
              [use .engineRead e.idxa (e.count * e.iw), use (if scat then .engineRead else .engineWrite) lo (e.count * e.esize)] with
          | .error t => s.trap t
          | .ok s =>
            let o := { s.newOp (modCh m) (if scat then .scat else .gath) m [lo, table] with desc := x, total := e.count }
            let op := if scat then o.scatOp else 0
            let et := o.scatEt
            let reserved := m.toNat / 2 ^ 14 ≠ 0 || (!scat && (m.extractLsb' 4 4).toNat ≠ 0)
              || (!m.getLsbD 13 && (m.extractLsb' 8 5).toNat ≠ 0)
            let badOp := scat && (et == 3 || (op == 0 && et != 0) || (op != 0 && e.esize % elemSize et != 0))
            s.withRoom o.ch
              (if reserved || badOp || bits x 193 63 != 0 || !e.sizeOk scat || !multiple e.idxa e.iw then s.atOnceArriving d o 5
               else if e.count = 0 then s.atOnceArriving d o 0
               else s.fork d o)

/-- GATH (R375): A is the destination base, B the table base. -/
def execGath (d : Reg) (a b c : Src) (m : BitVec 32) (s : State) : Res := s.issueElems false d (s.g a) (s.g b) c m
/-- SCAT (R375): A is the table base, B the source base. -/
def execScat (d : Reg) (a b c : Src) (m : BitVec 32) (s : State) : Res := s.issueElems true d (s.g b) (s.g a) c m

/-! ## GREPLAY, GCANCEL, FQPEEK (R376, R377) -/

/-- The entries of an operation of the issuing core. -/
def State.queueEntries (s : State) (ch : Nat) (id : BitVec 32) : List FaultEntry :=
  (s.tile s.selfSite).faultq.filter fun e => e.ch == ch && e.id == id && e.cc == coreIsCC s.selfCore
def State.dropEntries (s : State) (ch : Nat) (id : BitVec 32) : State :=
  let t := s.tile s.selfSite
  s.setTile s.selfSite { t with faultq := t.faultq.filter fun e => !(e.ch == ch && e.id == id && e.cc == coreIsCC s.selfCore) }
def sortedElems (es : List FaultEntry) : NatSet := es.foldl (fun t e => setInsert e.elem t) []
def State.opIndex (s : State) (core ch : Nat) (id : BitVec 32) : Option Nat := s.ops.findIdx? fun o => o.is core ch id
/-- Run `f` on an operation of the list. -/
def State.withOp (s : State) (i : Nat) (f : Op → State) : State := match s.ops[i]? with | some o => f o | none => s

/-- The entries that both act on; none makes the answer 0 at once. The pair is held until `f` has taken place for every one (R218):
`f` answers none, with the host asked for what it lacks, while some element must wait. -/
def State.onEntries (s : State) (d : Reg) (a b : Src) (f : State → Nat → NatSet → State × Bool) : Res :=
  if !s.sparseAllowed then s.illegal
  else s.gated fun s =>
    let ch := (s.g a).toNat % 16
    let id : BitVec 32 := (s.g b).setWidth 32
    let es := s.queueEntries ch id
    let n := BitVec.ofNat 64 es.length
    if es.isEmpty then .next (s.setG d 0#64)
    else
      (s.drainCore s.selfCore).answered fun s =>
        match s.opIndex s.selfCore ch id with
        | none => .next ((s.dropEntries ch id).setG d n)
        | some i =>
          let r := f (s.dropEntries ch id) i (sortedElems es)
          if r.2 then .next (r.1.setG d n) else .next ((s.raised r.1).hold .answer)

/-- Elements that are to be formed again. -/
def Op.toForm (o : Op) (ks : NatSet) : Op :=
  { o with data := ks.foldl (fun m k => (m.set (replayKey k) 1).set (reformKey k) 1) o.data }
/-- Elements are formed again, in ascending ELEM; done when each has been. -/
def State.reform (s : State) (i : Nat) (ks : NatSet) : State × Bool :=
  let s := s.withOp i fun o =>
    s.setOp i (o.toForm ks)
  let s := ks.foldl (fun s k => s.withOp i fun o => s.formElement i o k) s
  (s, ks.all fun k => !((s.ops[i]?.map fun o => o.toReform k).getD false))
/-- GREPLAY (R376). -/
def execGreplay (d : Reg) (a b : Src) (s : State) : Res := s.onEntries d a b fun s i ks => s.reform i ks

/-- The destination of a cancelled GATH element takes FILL in every word; it waits while a granule of it cannot be written. -/
def State.fillElement (s : State) (o : Op) (k : Nat) (word : BitVec 32) : State × Bool :=
  let e := o.elems
  let x := (List.range (e.esize / 4)).foldl (fun n i => n + word.toNat * 2 ^ (32 * i)) 0
  let parts := destParts (o.localAt k).toNat e.esize
  let rd := s.reachAll o .engineWrite parts
  match reachGone rd with
  | some s => (s, false)
  | none =>
    if (reachFault rd).isSome then (s, false)
    else if reachSpace rd paIsSystem then (s, true)
    else
      let s := parts.foldl (fun s p => s.markReach o .engineWrite p.1) s
      (((rd.zip (parts.mapIdx fun j p => (j, p.1))).foldl (fun so q => State.deliverPart so 0 0 x false q.2 q.1) (s, o)).1, true)
/-- One element is cancelled. -/
def State.cancelElement (s : State) (i : Nat) (m : BitVec 32) (k : Nat) : State × Bool :=
  match s.ops[i]? with
  | none => (s, true)
  | some o =>
    let r := if o.isScat then (s, true) else s.fillElement o k m
    (r.1.setOp i { o.settle k with st := { o.st with cancelled := true } }, r.2)
/-- GCANCEL (R376). -/
def execGcancel (d : Reg) (a b : Src) (m : BitVec 32) (s : State) : Res :=
  s.onEntries d a b fun s i ks =>
    ks.foldl (fun r k => let q := r.1.cancelElement i m k; (q.1, r.2 && q.2)) (s, true)

/-- The words of an entry (R372). -/
def FaultEntry.word (e : FaultEntry) (w : Nat) : Word :=
  match w with
  | 0 => e.addr
  | 1 => BitVec.ofNat 64 (e.id.toNat * 2 ^ 32 + e.elem)
  | _ => BitVec.ofNat 64 (e.cause * 2 ^ 60 + e.ch * 2 ^ 56 + b2n e.scat * 2 ^ 55 + b2n e.cc * 2 ^ 54)
/-- The settlement word of WORD 3. -/
def State.settlement (s : State) (ch : Nat) (id : BitVec 32) : Word :=
  let c := s.core s.selfCore
  let notYet : Word := 0xE000000000000000#64
  if issuedId c ch id && completeId c ch id then s.recordOf s.selfCore ch id
  else
    match (s.opIndex s.selfCore ch id).bind fun i => s.ops[i]? with
    | none => notYet
    | some o =>
      let parked := (s.queueEntries ch id).length
      if (o.kind == .gath || o.kind == .scat) && parked ≠ 0 && o.done.length + parked = o.total then recordWord 2 o.pcnt o.dcnt
      else notYet
/-- FQPEEK (R377). -/
def execFqpeek (d : Reg) (a b : Src) (m : BitVec 32) (s : State) : Res :=
  if !s.sparseAllowed then s.illegal
  else s.gated fun s =>
    let w := (m.extractLsb' 0 2).toNat
    if w = 3 then .next (s.setG d (s.settlement ((s.g a).toNat % 16) ((s.g b).setWidth 32)))
    else
      match (s.tile s.selfSite).faultq[(s.g a).toNat % 256]? with
      | some e => .next (s.setG d (e.word w))
      | none => .next (s.setG d 0#64)

end Sys2Proof.Machine
end

