-- ==== Sys2Proof/Machine/Merge.lean ====
section
/-! DEFINITION. Sorted streams, SMERGE and the collectives (16_gather_scatter_merge R378–R390, 26 R484). -/

namespace Sys2Proof.Machine

/-! ## Segments (R378–R381) -/

def valueBytes (vt : Nat) : Nat := if vt = 1 then 2 else 4
def roundUp64 (n : Nat) : Nat := ceilDiv n 64 * 64
def segSize (dense : Bool) (vt n : Nat) : Nat :=
  if dense then 64 + 4096 * valueBytes vt else 64 + roundUp64 (2 * n) + roundUp64 (valueBytes vt * n)
def ascending : List Nat → Bool
  | a :: b :: t => a < b && ascending (b :: t)
  | _ => true

/-! ## Collectives by name (R384) -/

/-- Arguments of a collective's operation: output, input, group, rank, number. -/
def Op.collGroup (o : Op) : Nat := (o.arg 2).toNat
def Op.collRank (o : Op) : Nat := (o.arg 3).toNat
def Op.collNumber (o : Op) : Nat := (o.arg 4).toNat
def OpKind.isColl : OpKind → Bool
  | .coll _ => true
  | _ => false
def Op.collOp (o : Op) : Nat := match o.kind with | .coll k => k | _ => 0
/-- The same collective of the same group of the same launch. -/
def Op.matches (o p : Op) : Bool :=
  o.kind.isColl && p.kind.isColl && o.launch == p.launch && o.collGroup == p.collGroup && o.collNumber == p.collNumber
/-- The operation of the root, once it has been issued here. -/
def State.collRoot (s : State) (o : Op) : Option Op := s.ops.find? fun p => p.matches o && p.collRank == 0

/-! ## Streams as they are read (R379, R383) -/

/-- Why a merge cannot go on now: a fault that holds it, or something it waits for. -/
inductive Stop where
  | fault (t : TrapInfo)
  | wait (s : State)

/-- What `Op.data` holds of a granule that SMERGE has overwritten: its bytes before, and whether it was poisoned (R383). -/
def kOld (pa : Nat) : Nat := 2 ^ 40 + pa / 64
def Op.oldBytes (o : Op) (pa n : Nat) : Option (Nat × Bool) :=
  (o.data.find? (kOld pa)).map fun x => (bits x (8 * (pa % 64)) (8 * n), bitAt x 512)
/-- Note what a granule holds before it is overwritten. -/
def Op.remember (o : Op) (s : State) (pa : Nat) : Op :=
  if (o.data.find? (kOld pa)).isSome then o
  else { o with data := o.data.set (kOld pa) (s.readPa (pa / 64 * 64) 64 + b2n (s.poisoned pa) * 2 ^ 512) }

/-- What stood where a merge has written: an operation's own writes, and for a member of a COLL.sr those of its root (R383, R386). -/
def State.overwritten (s : State) (o : Op) (pa n : Nat) : Option (Nat × Bool) :=
  (o.oldBytes pa n).orElse fun _ => (s.collRoot o).bind fun r => r.oldBytes pa n
/-- One granule of a stream, read as a load of the tenant. Where the merge itself has written, what stood there before counts:
an overlap of output and input leaves the status as it is (R383, R386). -/
def State.streamPiece (s : State) (o : Op) (va n : Nat) : Got :=
  let a := BitVec.ofNat 64 va
  let k := windowOf a
  let w := o.who
  if 2 ^ 57 ≤ va ∨ k = 0x1FE ∨ (0x100 ≤ k ∧ k < 0x180) then .fault (protAt 0 .engineRead a)
  else
    match s.resolveOrdinary w .engineRead a with
    | .error t => .fault t
    | .ok (.held _, s) => .wait s
    | .ok (.busy, s) => .wait s
    | .ok (.remote _ _, _) => .fault (protAt 0 .engineRead a)
    | .ok (.phys pa c, s) =>
      if paIsSystem pa then .range
      else match s.hostGate w.fn w.asker .engineRead a pa c with
      | .refused t => .fault t
      | .wait s => .wait s
      | .pass =>
        let s := s.readLine w pa c
        let x := (s.overwritten o pa n).getD (s.readPa pa n, s.poisonedIn pa n)
        .data x.1 x.2 s
def State.streamBytes (s : State) (o : Op) (a n : Nat) : Nat → Nat → Nat → Bool → Got
  | 0, _, x, psn => .data x psn s
  | fuel + 1, i, x, psn =>
    let p := pieceOf a n i
    match s.streamPiece o p.1 p.2 with
    | .data y q s => s.streamBytes o a n fuel (i + 1) (x + y * 2 ^ (8 * (p.1 - a))) (psn || q)
    | r => r
def State.streamRange (s : State) (o : Op) (a n : Nat) : Got := s.streamBytes o a n (pieces a n) 0 0 false

/-- The header's own conditions (R379); `prev` is the previous WIN plus 1, `vt` the type the stream must have, plus 1. -/
def headerOk (h prev vt : Nat) : Bool :=
  bits h 64 448 == 0 && bits h 0 12 == 0 && bits h 16 2 != 3 && (vt == 0 || bits h 16 2 + 1 == vt)
    && bits h 19 13 ≤ 4096 && (!bitAt h 18 || bits h 19 13 == 4096) && prev ≤ bits h 32 32
/-- The segment of a header and its body. -/
def segOf (h x : Nat) (psn : Bool) : Option Seg :=
  let n := bits h 19 13
  let vt := bits h 16 2
  let dense := bitAt h 18
  let vb := valueBytes vt
  let offs := if dense then List.range 4096 else (List.range n).map fun i => bits x (16 * i) 16
  let v0 := if dense then 0 else 8 * roundUp64 (2 * n)
  let vals := (List.range n).map fun i => bits x (v0 + 8 * vb * i) (8 * vb)
  if offs.any (fun o => 4096 ≤ o) || !ascending offs then none
  else some ⟨bits h 32 32, vt, dense, bits h 12 3, offs.zip vals, segSize dense vt n, bitAt h 15, psn⟩
/-- The next segment of an input by its header: the window it stands at, which is `prev` at least, and whether the header is
well formed. -/
structure Head where
  win : Nat
  h : Nat
  ok : Bool
  poisoned : Bool
  deriving DecidableEq, Repr
def Head.vt (x : Head) : Nat := bits x.h 16 2
def Head.size (x : Head) : Nat := segSize (bitAt x.h 18) x.vt (bits x.h 19 13)
def headOf (h prev vt : Nat) (psn : Bool) : Head := ⟨max prev (bits h 32 32), h, headerOk h prev vt, psn⟩
/-- A header is read; in system space it stands where it is needed (R383). -/
def State.readHead (s : State) (o : Op) (a prev vt : Nat) : Except Stop (Head × State) :=
  match s.streamRange o a 64 with
  | .fault t => .error (.fault t)
  | .wait s => .error (.wait s)
  | .range => .ok (⟨prev, 0, false, false⟩, s)
  | .lost => .ok (⟨prev, 0, false, false⟩, s)
  | .data h p s => .ok (headOf h prev vt p, s)
/-- The segment of a head, its body read now: none when it is malformed or in system space (R379, R383). -/
def State.readSeg (s : State) (o : Op) (a : Nat) (x : Head) : Except Stop (Option Seg × State) :=
  if !x.ok then .ok (none, s)
  else
    match s.streamRange o (a + 64) (x.size - 64) with
    | .fault t => .error (.fault t)
    | .wait s => .error (.wait s)
    | .range => .ok (none, s)
    | .lost => .ok (none, s)
    | .data y q s => .ok (segOf x.h y (x.poisoned || q), s)

/-- A sum of values, with NV (4), SF (2), OF (1) (R380). -/
def segSum (vt x y : Nat) : Nat × Nat :=
  if vt = 2 then
    let z := signed 32 x + signed 32 y
    let r := satInt 32 true true z
    (r.bits, if r.bits = wrapInt 32 z ∧ signed 32 r.bits = z then 0 else 2)
  else
    let f := if vt = 1 then bf16 else fp32
    let r := fpAdd f x y
    let a := Fp.ofBits f x
    let b := Fp.ofBits f y
    let z := Fp.ofBits f r.bits
    (r.bits, if a.isInf && b.isInf && z.isNaN then 4 else if z.isInf && !a.isInf && !b.isInf && !a.isNaN && !b.isNaN then 1 else 0)
/-- The union of two offset lists, with the flags of its sums; `fuel` bounds the steps. -/
def mergeEntries (vt : Nat) : Nat → List (Nat × Nat) → List (Nat × Nat) → List (Nat × Nat) × Nat
  | 0, _, _ => ([], 0)
  | _ + 1, [], ys => (ys, 0)
  | _ + 1, xs, [] => (xs, 0)
  | fuel + 1, (i, x) :: xs, (j, y) :: ys =>
    if i < j then let r := mergeEntries vt fuel xs ((j, y) :: ys); ((i, x) :: r.1, r.2)
    else if j < i then let r := mergeEntries vt fuel ((i, x) :: xs) ys; ((j, y) :: r.1, r.2)
    else
      let z := segSum vt x y
      let r := mergeEntries vt fuel xs ys
      ((i, z.1) :: r.1, z.2 ||| r.2)
/-- Two segments of one window (R380, R381). -/
def mergeSegs (thr : Nat) (a b : Seg) : Seg :=
  let m := mergeEntries a.vt (a.entries.length + b.entries.length + 1) a.entries b.entries
  let dense := a.dense || b.dense || thr * 256 < m.1.length
  let es := if dense then (List.range 4096).map fun o => (o, ((m.1.find? fun q => q.1 == o).map (·.2)).getD 0) else m.1
  { win := a.win, vt := a.vt, dense := dense, flags := a.flags ||| b.flags ||| m.2, entries := es
    size := segSize dense a.vt es.length, last := false, poisoned := a.poisoned || b.poisoned }
/-- The bytes of a segment, as one number (R378). -/
def Seg.bytes (g : Seg) : Nat :=
  let h := g.win * 2 ^ 32 + g.entries.length * 2 ^ 19 + b2n g.dense * 2 ^ 18 + g.vt * 2 ^ 16 + b2n g.last * 2 ^ 15 + g.flags * 2 ^ 12
  let w := 8 * valueBytes g.vt
  let vals := pack w (g.entries.map (·.2))
  if g.dense then h + vals * 2 ^ 512
  else h + pack 16 (g.entries.map (·.1)) * 2 ^ 512 + vals * 2 ^ (512 + 8 * roundUp64 (2 * g.entries.length))
/-- OF or SF (R382). -/
def Seg.overflowed (g : Seg) : Bool := g.flags % 4 != 0

/-! ## Merging whole streams (R379, R385) -/

/-- What stands next on a stream whose next header is known: its window and value type, and its segment, or else the stream's tail. -/
structure Standing where
  win : Nat
  vt : Nat
  seg : Option Seg
  deriving DecidableEq, Repr
/-- None at the end of a stream. -/
def Stream.place (x : Stream) : Option Standing :=
  match x.segs, x.tail with
  | g :: _, _ => some ⟨g.win, g.vt, some g⟩
  | [], .bad w vt => some ⟨w, vt, none⟩
  | [], .head w vt _ => some ⟨w, vt, none⟩
  | [], _ => none
/-- The members that have the next header still to read. -/
def Stream.unread (x : Stream) : Option (List Nat) :=
  match x.segs, x.tail with
  | [], .more rs => some rs
  | _, _ => none
def Stream.rest (x : Stream) : Stream := { x with segs := x.segs.tail }
def Stream.push (g : Seg) (x : Stream) : Stream := { x with segs := g :: x.segs }
/-- A result that goes no further than the next segment of one input, which is malformed or not yet read. -/
def Stream.upTo (x : Stream) : Stream := { segs := [], tail := x.tail }
/-- Both inputs stand at one window, and one of them has no segment there yet: a malformed one ends the result, and of unread bodies
the left one comes first (R379). -/
def joinTails (w vt : Nat) (x y : Stream) : Stream :=
  match x.segs, x.tail, y.segs, y.tail with
  | [], .bad _ _, _, _ => ⟨[], .bad w vt⟩
  | _, _, [], .bad _ _ => ⟨[], .bad w vt⟩
  | [], t, _, _ => ⟨[], t⟩
  | _, _, _, t => ⟨[], t⟩
/-- A node of the tree (R379, R380): the lower window first, as far as both inputs are known; `fuel` bounds the windows. -/
def mergeLists (thr : Nat) : Nat → Stream → Stream → Stream
  | 0, _, _ => ⟨[], .bad 0 0⟩
  | fuel + 1, x, y =>
    match x.unread, y.unread with
    | some rs, ry => ⟨[], .more (rs ++ ry.getD [])⟩
    | none, some ry => ⟨[], .more ry⟩
    | none, none =>
      let pass (g : Seg) (l r : Stream) : Stream := .push g (mergeLists thr fuel l r)
      match x.place, y.place with
      | none, none => ⟨[], .last⟩
      | some a, none => (match a.seg with
        | some g => pass g x.rest y
        | none => x.upTo)
      | none, some b => (match b.seg with
        | some g => pass g x y.rest
        | none => y.upTo)
      | some a, some b =>
        if a.vt ≠ b.vt then ⟨[], .bad (min a.win b.win) a.vt⟩
        else if a.win < b.win then (match a.seg with
          | some g => pass g x.rest y
          | none => x.upTo)
        else if b.win < a.win then (match b.seg with
          | some g => pass g x y.rest
          | none => y.upTo)
        else
          (match a.seg, b.seg with
           | some g, some h => pass (mergeSegs thr g h) x.rest y.rest
           | _, _ => joinTails a.win a.vt x y)
def mergeStreams (thr : Nat) (a b : Stream) : Stream := mergeLists thr (a.segs.length + b.segs.length + 1) a b
/-- The fixed tree over ranks (R385): `fuel` levels at most. -/
def foldTree {α : Type} (f : α → α → α) : Nat → List α → Option α
  | 0, l => l.head?
  | fuel + 1, l =>
    let rec pairUp : List α → List α
      | a :: b :: t => f a b :: pairUp t
      | l => l
    match l with
    | [] => none
    | [a] => some a
    | l => foldTree f fuel (pairUp l)
/-- Node `j` of level `l` of the tree, as `Op.streams` keeps it; at level 0 it is member `j`. -/
def nodeKey (l j : Nat) : Nat := l * 2 ^ 24 + j
/-- The members under a node of the tree over `size` of them, and a level at which one node stands above them all. -/
def ranksUnder (size l j : Nat) : List Nat := ((List.range (2 ^ l)).map (j * 2 ^ l + ·)).filter (· < size)
def topLevel (size : Nat) : Nat := Nat.log2 size + 1

/-! ## SMERGE (R383): what `Op.data` keeps -/

def kLeft : Nat := 0
def kRight : Nat := 1
def kOut : Nat := 2
def kPrevL : Nat := 3
def kPrevR : Nat := 4
def kVt : Nat := 5
def kEndL : Nat := 6
def kEndR : Nat := 7
def kOver : Nat := 8
def Op.get (o : Op) (k : Nat) : Nat := o.data.getD k 0
def Op.put (o : Op) (k v : Nat) : Op := { o with data := o.data.set k v }
def Op.thr (o : Op) : Nat := (o.mod.extractLsb' 4 5).toNat
def Op.cap (o : Op) : Nat := (o.mod.extractLsb' 12 20).toNat
def Op.mergeOver (o : Op) : Bool := o.get kOver == 1
def Op.endMerge (o : Op) (range : Bool) : Op := { o.put kOver 1 with st := { o.st with range := o.st.range || range } }

/-- An input of a merge: which argument holds its address, and where `Op.data` keeps its progress. -/
structure Side where
  arg : Nat
  off : Nat
  prev : Nat
  ended : Nat
  deriving DecidableEq, Repr
def leftSide : Side := ⟨1, kLeft, kPrevL, kEndL⟩
def rightSide : Side := ⟨2, kRight, kPrevR, kEndR⟩
def Op.sideAddr (o : Op) (d : Side) : Nat := (o.arg d.arg).toNat + o.get d.off
/-- The next head of an input: none when it has ended. -/
def State.nextHead (s : State) (o : Op) (d : Side) : Except Stop (Option Head × State) :=
  if o.get d.ended = 1 then .ok (none, s)
  else
    match s.readHead o (o.sideAddr d) (o.get d.prev) (o.get kVt) with
    | .error e => .error e
    | .ok (x, s) => .ok (some x, s)
/-- Consume a segment. -/
def Op.consume (o : Op) (d : Side) (g : Seg) : Op :=
  ((o.put d.off (o.get d.off + g.size)).put d.prev (g.win + 1)).put d.ended (b2n g.last)

/-- One part of a result is written, poisoned where `psn` has a bit in it; what lies in system space is not (R316). -/
def State.writePart (so : State × Op) (a x psn : Nat) (keep : Bool) (e : Reach × Nat × Nat) : State × Op :=
  let (s, o) := so
  let (r, off, n) := e
  let q := bits psn (8 * off) (8 * n) ≠ 0
  let o := match r with
    | .at pa _ _ => if keep then o.remember s pa else o
    | _ => o
  match s.putPiece o (tagElem off 0) (BitVec.ofNat 64 (a + off)) n (bits x (8 * off) (8 * n)) q with
  | .done s => let o := { o with dcnt := o.dcnt + n }; (s, if q then o.poisoned else o)
  | _ => (s, { o with st := { o.st with range := true } })
/-- `n` bytes of a result are written at `a` in one step, or not at all: at a fault operation `i` is held as `o`, and else it becomes
`o'`. -/
def State.writeWhole (s : State) (i : Nat) (o o' : Op) (a n x psn : Nat) (keep : Bool) : State :=
  let l := s.reachAll o .engineWrite (destParts a n)
  match reachFault l, reachGone l with
  | some t, _ => s.holdPart i o 0 t
  | none, some s => s
  | none, none =>
    let r := l.foldl (fun so e => State.writePart so a x psn keep e) (s, o')
    r.1.setOp i r.2

/-- The poison of a segment of `n` bytes. -/
def wholePoison (p : Bool) (n : Nat) : Nat := if p then 2 ^ (8 * n) - 1 else 0
/-- The result segment of a window is written, if it fits: `o'` has consumed it. -/
def State.emitSeg (s : State) (i : Nat) (o o' : Op) (g : Seg) : State :=
  let last := o'.get kEndL == 1 && o'.get kEndR == 1
  let g := { g with last := last }
  let out := o.get kOut
  if 64 * o.cap < out + g.size then s.setOp i (o.endMerge true)
  else
    let o' := { (o'.put kOut (out + g.size)).put kVt (g.vt + 1) with
      st := { o'.st with overflow := o'.st.overflow || g.overflowed, poisoned := o'.st.poisoned || g.poisoned } }
    s.writeWhole i o (if last then o'.put kOver 1 else o') ((o.arg 0).toNat + out) g.size g.bytes (wholePoison g.poisoned g.size) true
/-- A merge that cannot go on is held, or waits. -/
def State.stopMerge (s : State) (i : Nat) (o : Op) : Stop → State
  | .fault t => s.holdPart i o 0 t
  | .wait s => s
/-- A window that one input holds. -/
def State.passWindow (s : State) (i : Nat) (o : Op) (d : Side) (x : Head) : State :=
  match s.readSeg o (o.sideAddr d) x with
  | .error e => s.stopMerge i o e
  | .ok (none, s) => s.setOp i (o.endMerge true)
  | .ok (some g, s) => s.emitSeg i o (o.consume d g) g
/-- A window that both hold. -/
def State.joinWindow (s : State) (i : Nat) (o : Op) (x y : Head) : State :=
  if !y.ok then s.setOp i (o.endMerge true)
  else match s.readSeg o (o.sideAddr leftSide) x with
  | .error e => s.stopMerge i o e
  | .ok (none, s) => s.setOp i (o.endMerge true)
  | .ok (some g, s) =>
    match s.readSeg o (o.sideAddr rightSide) y with
    | .error e => s.stopMerge i o e
    | .ok (none, s) => s.setOp i (o.endMerge true)
    | .ok (some h, s) => s.emitSeg i o ((o.consume leftSide g).consume rightSide h) (mergeSegs o.thr g h)
/-- The next window of a merge (R379, R380): the lower one of both inputs' heads; a malformed one ends the merge at its window. -/
def State.mergeWindow (s : State) (i : Nat) (o : Op) : State :=
  match s.nextHead o leftSide with
  | .error e => s.stopMerge i o e
  | .ok (a, s) =>
    match s.nextHead o rightSide with
    | .error e => s.stopMerge i o e
    | .ok (b, s) =>
      match a, b with
      | none, none => s.setOp i (o.endMerge false)
      | some x, none => s.passWindow i o leftSide x
      | none, some y => s.passWindow i o rightSide y
      | some x, some y =>
        if o.get kVt = 0 ∧ x.vt ≠ y.vt then s.setOp i (o.endMerge true)
        else if x.win < y.win then s.passWindow i o leftSide x
        else if y.win < x.win then s.passWindow i o rightSide y
        else s.joinWindow i o x y

/-- One merge unit serves an S tile's CC, one operation at a time. -/
def State.smergeBlocked (s : State) (i : Nat) (o : Op) : Bool := (s.ops.take i).any fun p => p.core == o.core && p.kind == .smerge

/-- SMERGE (R383). Arguments: output, left, right. -/
def execSmerge (d : Reg) (a b c : Src) (m : BitVec 32) (s : State) : Res :=
  if !s.sparseAllowed || !coreIsCC s.selfCore then s.illegal
  else s.gated fun s =>
    match [s.g a, s.g b, s.g c].find? fun x => !multiple x 64 with
    | some x => s.trapAt causeMisaligned x
    | none =>
      let o := s.newOp (modCh m) .smerge m [s.g a, s.g b, s.g c]
      match s.checkRanges s.who false [use .engineWrite (s.g a) (64 * o.cap)] with
      | .error t => s.trap t
      | .ok s =>
        s.withRoom o.ch (if o.thr = 0 || 16 < o.thr || o.cap = 0 || (m.extractLsb' 9 3).toNat ≠ 0 then s.atOnce d o 5 else s.fork d o)

/-! ## Collectives (R384–R390) -/

/-- VT and N of COLL.ar, LINES of COLL.bc; what must agree between members (R384). -/
def Op.collVt (o : Op) : Nat := (o.mod.extractLsb' 4 2).toNat
def Op.collN (o : Op) : Nat := (o.mod.extractLsb' 8 24).toNat
def Op.collKey (o : Op) : Nat × Nat × Nat :=
  match o.collOp with
  | 0 => (0, o.collVt, o.collN)
  | 1 => (1, o.thr, 0)
  | _ => (2, o.collN, 0)
/-- The same as one number, as other modules are told. -/
def Op.collCode (o : Op) : Nat := o.collKey.1 + 4 * o.collKey.2.1 + 2 ^ 26 * o.collKey.2.2
/-- `Op.data` of a collective: the member's own contribution, its poison, its result; those of other modules' members. -/
def kMine : Nat := 0
def kResult : Nat := 4
def kResultPsn : Nat := 5
def kResultSize : Nat := 6
def kSegOut : Nat := 7
/-- The header whose body a member is still to read, with bit 512 for a poisoned one. -/
def kHead : Nat := 8
def kRemote (r : Nat) : Nat := 64 + 4 * r
def Op.contributed (o : Op) : Bool := (o.data.find? kMine).isSome
def Op.computed (o : Op) : Bool := (o.data.find? kResult).isSome

/-- A status with which a collective ends on every member: 3 LINK_LOST, 4 CANCELLED, 5 RANGE. -/
def OpStatus.ended (t : OpStatus) (c : Nat) : OpStatus :=
  { t with cancelled := t.cancelled || c == 4, linkLost := t.linkLost || c == 3, range := t.range || c == 5 }
def OpStatus.toCancelled (t : OpStatus) : OpStatus := { t with cancelled := true }
/-- The group of a collective. -/
def State.groupOf (s : State) (n gi : Nat) : Option Group := (s.launch? n).bind fun l => l.groups.find? fun g => g.index == gi
def State.collGroupOf (s : State) (o : Op) : Option Group := s.groupOf o.launch o.collGroup
/-- The module of the rank, if it is another one. -/
def State.rankAway (s : State) (n : Nat) (g : Group) (r : Nat) : Option Nat :=
  (s.launch? n).bind fun l => (g.members[r]?).bind fun w => match s.target l w.toNat with
    | .away m => some m
    | _ => none
/-- The other modules of a group. -/
def State.groupModules (s : State) (n gi : Nat) : List Nat :=
  match s.groupOf n gi with
  | some g => ((List.range g.members.length).filterMap fun r => s.rankAway n g r).dedup
  | none => []
/-- A control message about a group's collectives leaves for the other modules of the group (R384, R390, R451). -/
def State.tellGroup (s : State) (n gi : Nat) (what : List Nat) : State :=
  match s.launch? n with
  | some l => (s.groupModules n gi).foldl (fun s m => s.sendControl l.part m (l.spanSeq.getD 0 :: gi :: what)) s
  | none => s
/-- What the other modules hear of a collective: that a member has been lost (0), that rank `r` has issued it (2), and from 3 on the
status with which it has ended. -/
abbrev toldLost : Nat := 0
abbrev toldIssued : Nat := 2
def State.tellIssue (s : State) (o : Op) : State :=
  s.tellGroup o.launch o.collGroup [o.collNumber, toldIssued, o.collRank, o.collCode]
/-- Rank `r` of another module has issued collective `k`, with the command `code`. -/
def Group.hear (g : Group) (k r code : Nat) : Group := { g with heard := if g.heard.contains (k, r, code) then g.heard else g.heard ++ [(k, r, code)] }
def Group.heardOf (g : Group) (k r : Nat) : Bool := g.heard.any fun h => h.1 == k && h.2.1 == r
/-- The commands of a collective that are known of differ (R384). -/
def State.collDiffers (s : State) (o : Op) (g : Group) : Bool :=
  (s.ops.any fun p => p.matches o && p.collKey != o.collKey) || g.heard.any fun h => h.1 == o.collNumber && h.2.2 != o.collCode
/-- Every member has issued the collective (R389). -/
def State.allIssued (s : State) (o : Op) (g : Group) : Bool :=
  (List.range g.members.length).all fun r =>
    if (s.rankAway o.launch g r).isSome then g.heardOf o.collNumber r else o.collNumber < g.collCount.getD r 0
/-- Collective `k` of a group ends with status `c` on every member (R384, R390): on those that have issued it now, and on the others
as they issue it; the members on other modules are told unless they have told it. -/
def State.endGroupColl (s : State) (n gi k c : Nat) (tell : Bool) : State :=
  match s.groupOf n gi with
  | none => s
  | some g =>
    let s := if (g.collEnd.find? k).isSome || !tell then s else s.tellGroup n gi [k, c]
    let c := (g.collEnd.find? k).getD c
    let s := s.mapGroup n gi fun g => { g with collEnd := g.collEnd.set k c }
    { s with ops := s.ops.map fun (p : Op) =>
        if p.kind.isColl && p.launch == n && p.collGroup == gi && p.collNumber == k && p.pos != 1 then { p with pos := 1, st := p.st.ended c } else p }
def State.endColl (s : State) (o : Op) (c : Nat) : State := s.endGroupColl o.launch o.collGroup o.collNumber c true

/-- The bytes that a member contributes. -/
def Op.collBytes (o : Op) : Nat := if o.collOp = 0 then o.collN * valueBytes o.collVt else 64 * o.collN
/-- A member's bytes, and as second number all bits of each poisoned granule. -/
def State.collRead (s : State) (o : Op) (a n : Nat) : Nat → Nat → Nat → Nat → Got × Nat
  | 0, _, x, p => (.data x false s, p)
  | fuel + 1, i, x, p =>
    let q := pieceOf a n i
    match s.streamPiece o q.1 q.2 with
    | .data y psn s => s.collRead o a n fuel (i + 1) (x + y * 2 ^ (8 * (q.1 - a)))
        (p + if psn then ((2 ^ (8 * q.2) - 1) * 2 ^ (8 * (q.1 - a))) else 0)
    | r => (r, p)
def streamSize (gs : List Seg) : Nat := gs.foldl (fun n g => n + g.size) 0
/-- The window above a stream's last segment, and 1 more than its value type, as its next header must have them. -/
def Stream.prev (x : Stream) : Nat := match x.segs.getLast? with | some g => g.win + 1 | none => 0
def Stream.vt (x : Stream) : Nat := match x.segs with | g :: _ => g.vt + 1 | [] => 0
/-- Its header being read, the stream stands at it: of a malformed one that is not the first only the window counts (R379). -/
def Stream.atHead (x : Stream) (h : Head) (rank : Nat) : Stream :=
  let vt := if x.vt = 0 then h.vt else x.vt - 1
  { x with tail := if h.ok then .head h.win vt [rank] else .bad h.win vt }
/-- The body of its next segment being read. -/
def Stream.atBody (x : Stream) (h : Head) (g : Option Seg) (rank : Nat) : Stream :=
  match g with
  | none => { x with tail := .bad h.win (if x.vt = 0 then h.vt else x.vt - 1) }
  | some g => { segs := x.segs ++ [g], tail := if g.last then .last else .more [rank] }

/-- What a rank contributes to a COLL.ar or COLL.bc: bytes and their poison. -/
structure Contribution where
  x : Nat
  psn : Nat
  deriving DecidableEq, Repr
def Op.putPart (o : Op) (k : Nat) (c : Contribution) : Op := (o.put k c.x).put (k + 1) c.psn
def Op.getPart (o : Op) (k : Nat) : Option Contribution := (o.data.find? k).map fun x => ⟨x, o.get (k + 1)⟩

/-- The tag before a segment on the merge class (R454): the stream of node `j` of level `l` feeds node j / 2 of the next one. -/
def streamTag (span group seq k l j thr : Nat) : Nat :=
  span * 2 ^ 112 + group % 2 ^ 8 * 2 ^ 104 + seq % 2 ^ 16 * 2 ^ 88 + k % 2 ^ 32 * 2 ^ 56 + (l + 1) % 2 ^ 6 * 2 ^ 50 + j / 2 % 2 ^ 24 * 2 ^ 26
    + j % 2 * 2 ^ 25 + thr % 2 ^ 5 * 2 ^ 20
def State.collTag (s : State) (o : Op) (l j thr : Nat) : Nat :=
  streamTag (s.spanNo o.part) o.collGroup (((s.launch? o.launch).bind (·.spanSeq)).getD 0) o.collNumber l j thr
/-- Part of a collective leaves for module `m` behind its tag, on the merge class. -/
def State.sendMerge (s : State) (o : Op) (m tag : Nat) (bytes : List Byte) (psn : Nat) : State :=
  s.transmit { part := o.part, module := m, cls := 4, what := [o.launch, o.collGroup, o.collNumber, psn], bytes := some (toBytes 16 tag ++ bytes) }
/-- A member's contribution stands, and leaves for the other modules of the group. -/
def State.contributes (s : State) (i : Nat) (o : Op) (c : Contribution) : State :=
  let s := (s.groupModules o.launch o.collGroup).foldl
    (fun s m => s.sendMerge o m (s.collTag o 0 o.collRank 0) (toBytes o.collBytes c.x) c.psn) s
  s.setOp i (o.putPart kMine c)
/-- A member's own contribution to a COLL.ar or COLL.bc is read (R387, R388). -/
def State.contribute (s : State) (i : Nat) (o : Op) : State :=
  if o.collOp = 2 ∧ o.collRank ≠ 0 then s.setOp i (o.putPart kMine ⟨0, 0⟩)
  else
    match s.collRead o (o.arg 1).toNat o.collBytes (pieces (o.arg 1).toNat o.collBytes) 0 0 0 with
    | (.data x _ s, p) => s.contributes i o ⟨x, p⟩
    | (.fault t, _) => s.holdPart i o 0 t
    | (.wait s, _) => s
    | _ => s.endColl o 5

/-! ### COLL.sr (R386): the streams are read as the merge needs them -/

/-- The stream of a rank as far as an operation knows it. -/
def Op.streamOf (o : Op) (r : Nat) : Stream := o.streams.getD r { segs := [], tail := .more [r] }
/-- The segments that fit a capacity, in order, and whether one did not. -/
def fitting (cap : Nat) : List Seg → Nat → List Seg × Bool
  | [], _ => ([], false)
  | g :: t, n => if 64 * cap < n + g.size then ([], true) else let r := fitting cap t (n + g.size); (g :: r.1, r.2)
/-- What an operation knows of a node's stream (R385): what another module has merged and sent, or the merge of its two halves; a node
without a right half passes its left one. -/
def Op.node (o : Op) (size : Nat) : Nat → Nat → Stream
  | 0, j => o.streamOf j
  | l + 1, j =>
    match o.streams.find? (nodeKey (l + 1) j) with
    | some x => x
    | none =>
      if (2 * j + 1) * 2 ^ l < size then mergeStreams o.thr (o.node size l (2 * j)) (o.node size l (2 * j + 1)) else o.node size l (2 * j)
/-- Are all members under a node on this module? -/
def State.nodeHere (s : State) (n : Nat) (g : Group) (l j : Nat) : Bool :=
  (ranksUnder g.members.length l j).all fun r => (s.rankAway n g r).isNone
/-- The highest node above node `j` of level `l`, by `fuel` levels at most, whose members are all on this module. -/
def State.highest (s : State) (n : Nat) (g : Group) : Nat → Nat → Nat → Nat × Nat
  | 0, l, j => (l, j)
  | fuel + 1, l, j => if s.nodeHere n g (l + 1) (j / 2) then s.highest n g fuel (l + 1) (j / 2) else (l, j)
/-- The node that is carried out here for member `rank` of a COLL.sr: the whole tree in the root's module, and elsewhere the highest node
whose members are all there, whose result goes to the root's module. The placement is the leader's (R454). DESIGN CHOICE (log 116). -/
def State.mergeNode (s : State) (n : Nat) (g : Group) (rank : Nat) : Nat × Nat :=
  let top := topLevel g.members.length
  if (s.rankAway n g 0).isNone then (top, 0) else s.highest n g top 0 rank
/-- The lowest member under it, whose operation carries it out. -/
def State.headRank (s : State) (o : Op) (g : Group) : Nat := let x := s.mergeNode o.launch g o.collRank; x.2 * 2 ^ x.1
def State.collHead (s : State) (o : Op) (g : Group) : Option Op := s.ops.find? fun p => p.matches o && p.collRank == s.headRank o g
/-- What is known of the result of the node that operation `head` carries out. -/
def State.merged (s : State) (head : Op) (g : Group) : Stream :=
  let x := s.mergeNode head.launch g head.collRank
  head.node g.members.length x.1 x.2
/-- The segments of a result that leave the node: at the root those that its capacity takes, and whether one passes it. -/
def Op.emits (o : Op) (x : Stream) : List Seg × Bool := if o.collRank = 0 then fitting o.cap x.segs 0 else (x.segs, false)
def StreamEnd.isBad (t : StreamEnd) : Bool :=
  match t with
  | .bad _ _ => true
  | _ => false
/-- It is known whether a segment follows those known so far. -/
def StreamEnd.known (t : StreamEnd) : Bool :=
  match t with
  | .more _ => false
  | _ => true
/-- The merge goes no further: the result has ended, is malformed there, or passes the capacity. -/
def Op.mergedOut (o : Op) (x : Stream) : Bool := (o.emits x).2 || x.tail == .last || x.tail.isBad
/-- The member that is to read next. -/
def Stream.wanted (x : Stream) : Option Nat :=
  match x.tail with
  | .more rs => rs.head?
  | .head _ _ rs => rs.head?
  | _ => none
/-- A member's stream has come further: it is noted at member `head`, which carries out the merge, and shown in the record of a member
other than the root, with its own events alone. -/
def State.noteStream (s : State) (i : Nat) (o : Op) (head : Nat) (x : Stream) : State :=
  let own := o.collRank ≠ 0
  let s := s.setOp i { o with
    streams := o.streams.set o.collRank x
    dcnt := if own then streamSize x.segs else o.dcnt
    st := if own then { o.st with
        range := x.tail.isBad, poisoned := x.segs.any (·.poisoned), overflow := x.segs.any (·.overflowed) } else o.st }
  { s with ops := s.ops.map fun (p : Op) => if p.matches o && p.collRank == head then { p with streams := p.streams.set o.collRank x } else p }
/-- A member reads its next header, or the body after it. -/
def State.readNext (s : State) (i : Nat) (o : Op) (head : Nat) : State :=
  let x := o.streamOf o.collRank
  let a := (o.arg 1).toNat + streamSize x.segs
  match x.tail with
  | .more _ =>
    (match s.readHead o a x.prev x.vt with
     | .error e => s.stopMerge i o e
     | .ok (h, s) => s.noteStream i (o.put kHead (h.h + b2n h.poisoned * 2 ^ 512)) head (x.atHead h o.collRank))
  | .head _ _ _ =>
    let h := headOf (o.get kHead % 2 ^ 512) x.prev x.vt (bitAt (o.get kHead) 512)
    (match s.readSeg o a h with
     | .error e => s.stopMerge i o e
     | .ok (g, s) => s.noteStream i o head (x.atBody h g o.collRank))
  | _ => s
/-- The root writes its next whole segment, once it is known whether that is the last; LAST stands on the last of a result that is
whole (R379, R381, R390). -/
def State.collSegment (s : State) (i : Nat) (o : Op) (x : Stream) : State :=
  let k := o.done.length
  match (fitting o.cap x.segs 0).1[k]? with
  | none => s
  | some g =>
    let final := k + 1 == x.segs.length
    if (final && !x.tail.known) || !o.held.isEmpty then s
    else
      let g := { g with last := final && x.tail == StreamEnd.last }
      let out := o.get kSegOut
      let o' := { o.put kSegOut (out + g.size) with
        done := setInsert k o.done, st := { o.st with overflow := o.st.overflow || g.overflowed, poisoned := o.st.poisoned || g.poisoned } }
      s.writeWhole i o o' ((o.arg 0).toNat + out) g.size g.bytes (wholePoison g.poisoned g.size) true
/-- The header by which a result that is malformed at window `w` goes on to its parent's node: a reserved bit of it is set (R379). The
merge class has no other sign for it. DESIGN CHOICE (log 116). -/
def badHeader (w vt : Nat) : Nat := w * 2 ^ 32 + vt % 4 * 2 ^ 16 + 1
/-- The member that carries out a node for the root's module `m` sends the next segment of its result there, behind the tag of the node
that it feeds (R454), once it is known whether that is the last. -/
def State.forward (s : State) (i : Nat) (o : Op) (g : Group) (m : Nat) (x : Stream) : State :=
  let k := o.done.length
  let node := s.mergeNode o.launch g o.collRank
  let send (bytes : List Byte) (psn : Bool) : State :=
    (s.sendMerge o m (s.collTag o node.1 node.2 o.thr) bytes (b2n psn)).setOp i { o with done := setInsert k o.done }
  match x.segs[k]? with
  | some q =>
    let final := k + 1 == x.segs.length
    if final && !x.tail.known then s
    else let q := { q with last := final && x.tail == StreamEnd.last }; send (toBytes q.size q.bytes) q.poisoned
  | none => match x.tail with
    | .bad w vt => if k = x.segs.length then send (toBytes 64 (badHeader w vt)) false else s
    | _ => s
/-- A turn of a COLL.sr's member (R379, R386): the member whose stream the merge here needs next reads on, and the one that carries it out
writes what it can, or sends it to the root's module. -/
def State.mergeTurn (s : State) (i : Nat) (o : Op) (g : Group) : State :=
  match s.collHead o g with
  | none => s
  | some head =>
    let x := s.merged head g
    if !head.mergedOut x && x.wanted = some o.collRank then (if o.held.isEmpty then s.readNext i o head.collRank else s)
    else if o.collRank ≠ head.collRank then s
    else match s.rankAway o.launch g 0 with
      | some m => s.forward i o g m x
      | none => s.collSegment i o x
/-- Has a member of a COLL.sr done its part (R386, R389)? The one that carries out the merge here, when that is over and all of its
result has left, at the root with every member's issue acquired; another member, when its stream has been consumed or the merge is over. -/
def State.mergeDone (s : State) (o : Op) (g : Group) : Bool :=
  let mine := o.streamOf o.collRank
  match s.collHead o g with
  | none => o.collNumber < g.collCount.getD (s.headRank o g) 0
  | some head =>
    let x := s.merged head g
    if o.collRank = head.collRank then
      head.mergedOut x && o.done.length == (head.emits x).1.length + b2n (o.collRank ≠ 0 && x.tail.isBad)
        && (o.collRank ≠ 0 || s.allIssued o g)
    else head.mergedOut x || (mine.tail == .last && x.segs.any fun q => mine.prev ≤ q.win + 1)
/-- The root of a merge that was malformed or passed its capacity ends RANGE. -/
def State.mergeEnd (s : State) (o : Op) : Op :=
  match s.collGroupOf o with
  | some g =>
    if o.collOp = 1 && o.collRank = 0 && o.pos != 1 then
      let x := s.merged o g
      { o with st := { o.st with range := o.st.range || (fitting o.cap x.segs 0).2 || x.tail != .last } }
    else o
  | none => o

/-! ### What comes from other modules (R384–R386, R390, R454) -/

/-- A segment arrives at the root's module behind its tag: of a member, or of a node that was carried out elsewhere, all of whose members
are on other modules. One whose tag names another collective is dropped, and another THR is a command that does not match. -/
def State.segArrives (s : State) (i : Nat) (o : Op) (g : Group) (bytes : List Byte) (psn : Bool) : State :=
  let t := ofBytes (bytes.take 16)
  let y := ofBytes (bytes.drop 16)
  let l := bits t 50 6 - 1
  let j := 2 * bits t 26 24 + bits t 25 1
  let rs := ranksUnder g.members.length l j
  if bits t 50 6 = 0 || topLevel g.members.length ≤ l || rs.isEmpty || (rs.any fun r => (s.rankAway o.launch g r).isNone)
      || t ≠ s.collTag o l j (bits t 20 5) then s
  else if bits t 20 5 ≠ o.thr then s.endColl o 5
  else
    let x := o.streams.getD (nodeKey l j) { segs := [], tail := .more rs }
    let r := rs.headD 0
    let h := headOf (y % 2 ^ 512) x.prev x.vt psn
    match x.tail with
    | .more _ =>
      let x := if h.ok then x.atBody h (segOf h.h (bits y 512 (8 * (h.size - 64))) psn) r else x.atHead h r
      s.setOp i { o with streams := o.streams.set (nodeKey l j) x }
    | _ => s
/-- The contribution of rank `r`, local or from another module; a COLL.bc takes no bytes of a member but the root, only its issue (R388,
R389). -/
def State.contribution (s : State) (o : Op) (g : Group) (r : Nat) : Option Contribution :=
  match s.ops.find? fun p => p.matches o && p.collRank == r with
  | some p => p.getPart kMine
  | none => if o.collOp = 2 && r ≠ 0 && g.heardOf o.collNumber r then some ⟨0, 0⟩ else o.getPart (kRemote r)
/-- All bits of the values or lines of width `w` that a list names. -/
def maskOf (w : Nat) (l : List Nat) : Nat := l.dedup.foldl (fun p k => p + (2 ^ w - 1) * 2 ^ (w * k)) 0
/-- What another module contributes: `input.data` behind its tag, its poisoned values or lines listed in `input.bad`. -/
def Input.contribution (i : Input) (o : Op) : Contribution :=
  ⟨ofBytes (i.data.drop 16), maskOf (if o.collOp = 0 then 8 * valueBytes o.collVt else 512) i.bad⟩
/-- What another module sends behind a tag arrives: a segment for the root of a COLL.sr, else all bytes of the member that the tag
names, if it has not come before. -/
def State.partArrives (s : State) (i : Nat) (o : Op) (g : Group) : State :=
  let t := ofBytes (s.input.data.take 16)
  let r := 2 * bits t 26 24 + bits t 25 1
  if o.collOp = 1 then (if o.collRank = 0 then s.segArrives i o g s.input.data (!s.input.bad.isEmpty) else s)
  else if t ≠ s.collTag o 0 r 0 || (s.rankAway o.launch g r).isNone || (o.getPart (kRemote r)).isSome then s
  else s.setOp i (o.putPart (kRemote r) (s.input.contribution o))

/-- Sums of two vectors of values, with poison bits and flags (R387). -/
structure VecVal where
  x : Nat
  psn : Nat
  flags : Nat
  deriving DecidableEq, Repr
def addVecs (vt n : Nat) (a b : VecVal) : VecVal :=
  let w := 8 * valueBytes vt
  let zs := (List.range n).map fun i => segSum vt (bits a.x (w * i) w) (bits b.x (w * i) w)
  ⟨pack w (zs.map (·.1)), a.psn ||| b.psn, a.flags ||| b.flags ||| zs.foldl (fun f z => f ||| z.2) 0⟩
/-- Poison spreads to whole values. -/
def valuePoison (vt n p : Nat) : Nat :=
  let w := 8 * valueBytes vt
  (List.range n).foldl (fun q i => q + if bits p (w * i) w ≠ 0 then (2 ^ w - 1) * 2 ^ (w * i) else 0) 0

/-- The member's result is computed from every rank's contribution. -/
def State.computeColl (s : State) (i : Nat) (o : Op) (g : Group) : State :=
  let size := g.members.length
  let cs := (List.range size).map fun r => s.contribution o g r
  if cs.any Option.isNone then s
  else
    let cs := cs.map fun c => c.getD ⟨0, 0⟩
    let levels := size + 1
    match o.collOp with
    | 0 =>
      let n := o.collN
      let vt := o.collVt
      let v := (foldTree (addVecs vt n) levels (cs.map fun c => ⟨c.x, valuePoison vt n c.psn, 0⟩)).getD ⟨0, 0, 0⟩
      let o := ((o.put kResult v.x).put kResultPsn v.psn).put kResultSize o.collBytes
      s.setOp i { o with total := pieces (o.arg 0).toNat o.collBytes, st := { o.st with overflow := v.flags % 4 != 0 } }
    | _ =>
      let c := cs.headD ⟨0, 0⟩
      let o := ((o.put kResult c.x).put kResultPsn c.psn).put kResultSize (64 * o.collN)
      s.setOp i { o with total := if o.collRank = 0 ∧ o.arg 0 = o.arg 1 then 0 else o.collN }

/-- A granule of a member's output. -/
def State.collGranule (s : State) (i k : Nat) (o : Op) : State :=
  if o.total ≤ k || o.done.contains k || o.held.contains k then s
  else
    let n := o.get kResultSize
    let a := (o.arg 0).toNat
    let p := pieceOf a n k
    let off := 8 * (p.1 - a)
    s.granuleOut i o { o with done := setInsert k o.done, dcnt := o.dcnt + p.2 } k (BitVec.ofNat 64 p.1) p.2
      (bits (o.get kResult) off (8 * p.2)) (bits (o.get kResultPsn) off (8 * p.2) ≠ 0)
/-- A turn of a collective's member: end what has ended or cannot match, take what has come from another module, or go on. -/
def State.collTurn (s : State) (i : Nat) (o : Op) : State :=
  if o.pos = 1 then s
  else
    match s.collGroupOf o with
    | none => s
    | some g =>
      if (g.collEnd.find? o.collNumber).isSome || s.collDiffers o g then s.endColl o 5
      else if g.quarantined then s.endColl o 4
      else if s.input.flag then s.partArrives i o g
      else if o.collOp = 1 then s.mergeTurn i o g
      else if !o.contributed then (if o.held.isEmpty then s.contribute i o else s)
      else if !o.computed then s.computeColl i o g
      else s.collGranule i s.input.item o

/-! ### A group that loses a member (R165, R390, R438) -/

/-- The waiters of a group's lines are released BROKEN, on every tile. -/
def State.breakLines (s : State) (launch group : Nat) : State :=
  let hit := s.tiles.entries.flatMap fun e =>
    (e.2.lines.entries.filter fun l => l.2.group == some (group, launch)).map fun l => (e.1, l.1)
  hit.foldl
    (fun s x =>
      let l := s.line x.1 x.2
      (s.setLine x.1 x.2 { l with arr := 0, waiters := [], later := [] }).releaseAll (l.waiters ++ l.later.filterMap id) grantBroken) s
/-- Item 4 of R438 for one group: lines broken, BAR waiters released with −1, collectives cancelled; its members on other modules are
told unless they have told it. -/
def State.breakGroup (s : State) (n : Nat) (g : Group) (tell : Bool) : State :=
  let s := s.breakLines n g.index
  let s := s.releaseAll g.barWaiters { value := minusOne.setWidth 512 }
  let colls := s.ops.filter fun o => o.kind.isColl && o.launch == n && o.collGroup == g.index
  let s := colls.foldl (fun s o => s.endGroupColl n g.index o.collNumber 4 false) s
  let s := if tell then s.tellGroup n g.index [0, toldLost] else s
  s.mapGroup n g.index fun g => { (g.cleared true).cleared false with barWaiters := [], quarantined := true }
/-- Another module tells of group `input.group` of launch `input.launch`: with `input.level` 2 its rank `input.mbox` has issued collective
`input.item` with the command `input.off`; else the collective ends with status `input.off` there, or with 0 the group has lost a member. -/
def State.groupTold (s : State) : State :=
  let n := s.input.launch
  let gi := s.input.group
  match s.groupOf n gi with
  | none => s
  | some g =>
    if (s.groupModules n gi).isEmpty then s
    else if s.input.level = 2 then s.mapGroup n gi fun g => g.hear s.input.item s.input.mbox s.input.off
    else match s.input.off with
      | 0 => if g.quarantined then s else s.breakGroup n g false
      | c => if 3 ≤ c && c ≤ 5 then s.endGroupColl n gi s.input.item c false else s

/-- MERGE_NODE (R380, R383, R385): the merge at place `input.index` takes its next window, or the collective at that place takes its
next turn, with `input.flag` with what another module sends behind the tag in `input.data`. With `input.level` not 0, module
`input.module` tells that a member of its own has issued a collective of a group, or how one has ended (R384, R389, R390). -/
def execMergeNode (s : State) : Res :=
  let i := s.input.index
  if s.input.level ≠ 0 then (match s.launch? s.input.launch with
    | some l => .next (s.controlled l.part State.groupTold)
    | none => .next s)
  else match s.runningOp? i with
  | none => .next s
  | some o =>
    match o.kind with
    | .smerge =>
      if s.smergeBlocked i o || !o.held.isEmpty || o.get kOver = 1 then .next s else .next (s.mergeWindow i o)
    | .coll _ => .next (s.collTurn i o)
    | _ => .next s

/-- Has a collective's member ended early, or done its part? One that is to end otherwise (R384, R390) has not; the members of a
COLL.ar or COLL.bc on this module complete together. -/
def State.collDone (s : State) (o : Op) : Bool :=
  o.pos == 1 || (match s.collGroupOf o with
    | none => false
    | some g => (g.collEnd.find? o.collNumber).isNone && !g.quarantined &&
      (if o.collOp = 1 then s.mergeDone o g else s.ops.all fun p => !p.matches o || (p.computed && p.allDone p.total)))
/-- The members that complete together. -/
def State.collMates (s : State) (o : Op) : List Op :=
  if o.collOp = 1 && o.pos != 1 then [s.mergeEnd o] else s.ops.filter fun p => p.matches o && p.pos == o.pos

/-- Issue of a collective: its checks, its place among the group's collectives, and the operation (R384–R388). -/
def State.issueColl (s : State) (op : Nat) (d : Reg) (a b c : Src) (m : BitVec 32) : Res :=
  if s.barred true false true true || !coreIsCC s.selfCore then s.illegal
  else s.gated fun s =>
    let gi := (s.g c).toNat % 4
    match s.selfLaunch, s.selfGslot gi with
    | some l, some g =>
      let rank := (g.rank? (s.cidWord l s.selfCore)).getD 0
      let out := s.g a
      let o := s.newOp (modCh m) (.coll op) m [out, s.g b]
      let al := if op = 0 then valueBytes o.collVt else 64
      let checkA := op ≠ 1 || rank = 0
      if checkA && !multiple out al then s.trapAt causeMisaligned out
      else if !multiple (s.g b) al then s.trapAt causeMisaligned (s.g b)
      else
        let n := if op = 1 then 64 * o.cap else o.collBytes
        match s.checkRanges s.who false (if checkA then [use .engineWrite out n] else []) with
        | .error t => s.trap t
        | .ok s =>
          s.withRoom o.ch
            (let k := g.collCount.getD rank 0
             let bad := match op with
               | 0 => o.collVt = 3 || (m.extractLsb' 6 2).toNat ≠ 0
               | 1 => o.thr = 0 || 16 < o.thr || o.cap = 0 || m.getLsbD 9 || m.getLsbD 10 || m.getLsbD 11
               | _ => (m.extractLsb' 4 4).toNat ≠ 0
             let o := { o with args := [out, s.g b, BitVec.ofNat 64 g.index, BitVec.ofNat 64 rank, BitVec.ofNat 64 k] }
             let s := s.mapLaunch s.before.launch fun l => l.mapGroup g.index fun g => { g with collCount := g.collCount.set rank (k + 1) }
             if g.quarantined then s.atOnce d o 4
             else if bad then (s.endColl o 5).atOnce d o 5
             else (s.tellIssue o).fork d o)
    | _, _ => s.notMember gi

/-- COLL.ar (R387). -/
def execCollAr (d : Reg) (a b c : Src) (m : BitVec 32) (s : State) : Res := s.issueColl 0 d a b c m
/-- COLL.sr (R386, R484). -/
def execCollSr (d : Reg) (a b c : Src) (m : BitVec 32) (s : State) : Res := s.issueColl 1 d a b c m
/-- COLL.bc (R388). -/
def execCollBc (d : Reg) (a b c : Src) (m : BitVec 32) (s : State) : Res := s.issueColl 2 d a b c m

end Sys2Proof.Machine
end

