-- ==== Sys2Proof/Machine/Completion.lean ====
section
/-! DEFINITION. The two events that all engines share: a granule between memory and a tile's engine, and the completion
of an operation (13 R316–R318, 14 R331, R340, R343, 15 R361–R364, 16 R373, R383). -/

namespace Sys2Proof.Machine

/-- ENGINE_MEMORY_GRANULE (R316, R340): part `input.item` of the TS copy, MMAL, carry copy, ATTM or ATTN at place
`input.index` moves, or is held at a translation fault with a report. -/
def execEngineMemoryGranule (s : State) : Res :=
  let i := s.input.index
  let k := s.input.item
  match s.runningOp? i with
  | none => .next s
  | some o =>
    match o.kind with
    | .ts op => .next (s.tsPart i k o op)
    | .mma _ => .next (s.mxePart i k o)
    | .att op => .next (s.attGranule i k o op)
    | _ => .next s

/-- May an operation end: every part has taken place, and its engine has reached it? -/
def State.mayFinish (s : State) (i : Nat) (o : Op) : Bool :=
  match o.kind with
  | .xfer _ _ _ => o.allDone o.total
  | .ts _ => o.allDone o.total
  | .mma _ => o.allDone o.total && !s.mxeBlocked i o
  | .acc _ => !s.mxeBlocked i o
  | .att _ => o.allDone o.total && !s.attBlocked i o
  | .gath => o.done.length == o.total
  | .scat => o.done.length == o.total
  | .smerge => o.mergeOver
  | .coll _ => s.collDone o
  | .atts => false
  | .kvnext => false
/-- What an operation does as it ends, beyond its parts. -/
def State.finalEffect (s : State) (o : Op) : State × Op :=
  match o.kind with
  | .mma _ => s.mxeFinish o
  | .acc _ => s.mxeFinish o
  | .att op => s.attFinish o op
  | _ => (s, o)
/-- Arrivals that a completion makes. -/
def State.afterFinish (s : State) (o : Op) : State :=
  match o.kind with
  | .gath => s.gatherArrival o
  | .scat => s.gatherArrival o
  | _ => s
/-- Does a cancelled operation end at once (R316)? A gather's or a collective's own rule ends those. -/
def Op.dropped (o : Op) : Bool :=
  o.st.cancelled && (match o.kind with
    | .gath => false
    | .scat => false
    | .coll _ => false
    | .atts => false
    | .kvnext => false
    | _ => true)

/-- ENGINE_OPERATION_COMPLETE (R317, R318): the operation at place `input.index` ends with its record, and its channel's
watermark passes it. -/
def execEngineOperationComplete (s : State) : Res :=
  let i := s.input.index
  match s.runningOp? i with
  | none => .next s
  | some o =>
    if o.dropped then .next ((if o.kind.isMxe && !s.mxeBlocked i o then (s.mxeFinish o).1 else s).finishOp o)
    else if !s.mayFinish i o then .next s
    else if o.kind.isColl then .next ((s.collMates o).foldl (fun s p => s.finishOp p) s)
    else
      let r := s.finalEffect o
      .next ((r.1.finishOp r.2).afterFinish r.2)

end Sys2Proof.Machine
end

