-- ==== Sys2Proof/Machine/Page.lean ====
section
/-! DEFINITION. Pages: PGMIG, PGOWN, PLBINV and the migration of a page (10 R252, R261–R263, 12 R308–R311). -/

namespace Sys2Proof.Machine

/-- What PGMIG and PGOWN check before anything else (R308, R450). -/
def State.pageOp (s : State) (a : Src) (f : Word → State → Res) : Res :=
  s.unless (s.barred true false true true)
    (s.gated fun s =>
      let va := s.g a
      let k := windowOf va
      if va.toNat ≥ 2 ^ 57 ∨ 0x1FE ≤ k ∨ (0x100 ≤ k ∧ k < 0x180) then s.trap (protAt 0 .store va)
      else
        match s.protect s.who .store va with
        | .error t => s.trap t
        | .ok (_, s) => s.answered fun s => f va s)

/-- The leaf of a page, or the fault that its walk returns: a page without a leaf traps PAGE_NOT_PRESENT, as no status is listed for it.
DEDUCED (log 111). -/
def State.withLeaf (s : State) (va : Word) (f : Leaf → Res) : Res :=
  match s.walk va with
  | .leaf l => f l
  | .notPresent r m => s.deferFault { cause := causePageNotPresent, addr := va, info := reasonInfo r .store, fresh := m }

def tgtMf (w : Nat) : Bool := bitAt w 63
def tgtPh (w : Nat) : Bool := bitAt w 62
def tgtUh (w : Nat) : Bool := bitAt w 61
/-- The home that a target word names, as a logical tile. -/
def tgtTile (w : Nat) : Nat := bits w 16 6 * 132 + bits w 12 4 * 11 + bits w 8 4
/-- A present tile of a partition of the tenant? -/
def State.tenantTile (s : State) (tenant w : Nat) : Bool :=
  (s.tenantZones tenant).getLsbD (bits w 16 6) && (s.site? (bits w 16 6) (bits w 12 4) (bits w 8 4)).isSome
/-- BADTGT (R309). -/
def State.badTarget (s : State) (tenant w : Nat) : Bool :=
  bits w 54 7 != 0 || bits w 22 26 != 0 || bits w 0 8 != 0 || !(tgtMf w || tgtPh w || tgtUh w) || (tgtPh w && tgtUh w)
    || (tgtMf w && 39 < bits w 48 6) || (tgtPh w && !s.tenantTile tenant w)
/-- PH or UH: the placement of the 4 KiB granule (R252). Its lines and their directory state pass to the new home (R263). -/
def State.place (s : State) (va : Word) (w : Nat) : State :=
  let g := va.toNat / 4096
  let s := if tgtPh w then { s with placed := s.placed.set g (tgtTile w) }
    else if tgtUh w then { s with placed := s.placed.erase g } else s
  s.rehome fun k _ => (tgtPh w || tgtUh w) && k / 64 == g
/-- The old home serialises a migration or a flip (R262, R263): one of lines that a quarantined home holds waits for the MAPSET. -/
def State.unlessHeld (s : State) (lo hi : Nat) (f : State → Res) : Res :=
  match s.heldIn lo hi with
  | some site => .next (s.hold (.remap site))
  | none => f s
/-- The lines of an address's 4 KiB granule, and of its page. -/
def granuleLines (va : Word) : Nat × Nat := (va.toNat / 4096 * 64, va.toNat / 4096 * 64 + 64)
def Leaf.lines (l : Leaf) (va : Word) : Nat × Nat :=
  let base := va.toNat / l.size * l.size
  (base / 64, (base + l.size) / 64)
/-- What the zone's atelier forwards to the host: 1 and 64 times the stack, a migration to it; 2 a take; 3 a flip done. -/
def State.toHost (s : State) (what : Nat) (va : Word) : State := s.hostReport what va

/-- PGMIG (R309). -/
def execPgmig (d : Reg) (a b : Src) (s : State) : Res :=
  s.pageOp a fun va s =>
    let w := (s.g b).toNat
    if s.badTarget s.selfTenant w then .next (s.setG d 2#64)
    else if s.pageBusy va then .next (s.setG d 4#64)
    else if tgtMf w then
      s.withLeaf va fun l =>
        if l.pin then .next (s.setG d 1#64)
        else s.unlessHeld (granuleLines va).1 (granuleLines va).2 fun s =>
          .next (((s.place va w).toHost (1 + 64 * bits w 48 6) va).setG d 3#64)
    else s.unlessHeld (granuleLines va).1 (granuleLines va).2 fun s => .next ((s.place va w).setG d 0#64)

/-- The flip from device to host (R262): accesses to the page that have issued take place before it; lines written back and
removed, OWN cleared, the host told. -/
def State.giveToHost (s : State) (va : Word) (l : Leaf) : State :=
  let s := s.settlePages.dropLines (l.lines va).1 (l.lines va).2
  let s := s.writeShared none l.entryPa 8 (bits (s.readPa l.entryPa 8) 0 63)
  s.toHost 3 va
/-- PGOWN give (R310). A page that the host owns answers 0, pinned or not: ownership is tested before PIN. DEDUCED (log 112). -/
def execPgownGive (d : Reg) (a : Src) (_ : BitVec 32) (s : State) : Res :=
  s.pageOp a fun va s =>
    if s.pageBusy va then .next (s.setG d 4#64)
    else
      s.withLeaf va fun l =>
        if !l.own then .next (s.setG d 0#64)
        else if l.pin then .next (s.setG d 1#64)
        else s.unlessHeld (l.lines va).1 (l.lines va).2 fun s => .next ((s.giveToHost va l).setG d 0#64)
/-- PGOWN take (R310): a host-owned page is asked for. -/
def execPgownTake (d : Reg) (a : Src) (_ : BitVec 32) (s : State) : Res :=
  s.pageOp a fun va s =>
    if s.pageBusy va then .next (s.setG d 4#64)
    else
      s.withLeaf va fun l =>
        if l.own then .next (s.setG d 0#64) else .next ((s.toHost 2 va).setG d 3#64)

/-- PLBINV's effect on a core's PLB (R311). -/
def Core.dropPlb (c : Core) (all : Bool) (va : Nat) : Core :=
  { c with plb := if all then [] else c.plb.filter fun r => !r.covers va }
/-- The cores of every partition of a tenant. -/
def State.tenantCores (s : State) (t : Nat) : List Nat :=
  s.cores.keys.filter fun c => !coreIsAtelier c && (s.tenantZones t).getLsbD (coreZone c)
/-- PLBINV (R308, R311). -/
def execPlbinv (a : Src) (m : BitVec 32) (s : State) : Res :=
  s.unless s.before.inShadow
    (s.gated fun s =>
      let drop (s : State) (c : Nat) : State := s.setCore c ((s.core c).dropPlb (m.getLsbD 1) (s.g a).toNat)
      if !m.getLsbD 0 then .next (drop s s.selfCore)
      else s.answered fun s => .next ((s.tenantCores s.selfTenant).foldl drop s))

/-! ## PAGE_MIGRATION (R263) -/

/-- The bytes and the poison of a frame of `n` bytes move to another place, whose marks they end; requests that wait for a MAPSET follow.
What is marked of the frame is zeroed as it is read (R465). -/
def State.moveFrame (s : State) (src dst n : Nat) : State :=
  let s := (List.range (n / 4096)).foldl (fun s i => s.zeroFrame (src / 4096 + i)) s
  let inside (lo a : Nat) : Bool := lo ≤ a && a < lo + n
  let cells := s.mem.filter fun c => inside src c.1
  let bad := s.poison.filter fun g => inside src (g * 64)
  let pages := (List.range (n / 4096)).map fun i => dst / 4096 + i
  { s with
    accesses := s.accesses.map fun a => if inside src a.pa && a.n != 0 then { a with pa := a.pa - src + dst } else a
    mem := cells.foldl (fun m c => m.write (c.1 - src + dst) c.2) (s.mem.clear dst n)
    poison := bad.foldl (fun p g => setInsert (g - src / 64 + dst / 64) p) (s.poison.filter fun g => !inside dst (g * 64))
    zeroed := pages.foldl (fun z f => if paIsHbm (f * 4096) then setInsert f z else z) s.zeroed }

/-- PAGE_MIGRATION (R263): the host has the page of `input.value` moved to the frame `input.frame` (a page number of PA), its
leaf following; without a frame, only the placed home moves, to the target word of `input.wide`. Lines that a quarantined home holds keep
it from taking place (R438). -/
def execPageMigration (s : State) : Res :=
  let va := s.input.value
  match s.input.frame with
  | none =>
    .next (if (s.heldIn (granuleLines va).1 (granuleLines va).2).isSome then s
      else s.place va (s.input.wide.extractLsb' 0 64).toNat)
  | some f =>
    match s.walk va with
    | .notPresent _ _ => .next s
    | .leaf l =>
      let dst := f * 4096
      if dst % l.size ≠ 0 ∨ badFrame dst ∨ badFrame (dst + l.size - 1) ∨ paIsSystem dst ∨ dst = l.pa ∨ (s.heldIn (l.lines va).1 (l.lines va).2).isSome then
        .next s
      else
        let s := s.settlePages.dropLines (l.lines va).1 (l.lines va).2
        let s := s.moveFrame l.pa dst l.size
        let e := s.readPa l.entryPa 8
        .next (s.writeShared none l.entryPa 8 (e - bits e 12 40 * 4096 + dst % 2 ^ 52))

end Sys2Proof.Machine
end

