-- ==== Sys2Proof/Machine/Quarantine.lean ====
section
/-! DEFINITION. Quarantine of a site, the retirement of its strands as KILL retires them, and the maquette's changes
(17 R408, R411, 19 R436–R442, 22 R472). -/

namespace Sys2Proof.Machine

/-! ## Retiring a strand (R408) -/

/-- A sweep whose strand or operation is cancelled ends with REASON CANCELLED and fills nothing of a later strand (R357). -/
def Op.orphan (o : Op) : Op := { o with dest := 0#4, held := [], shadowed := false, st := o.st.toCancelled }
/-- The task of a retired strand: an irrevocable one has committed, a speculative one starts afresh. -/
def State.endTask (s : State) (zone o : Nat) : State :=
  match (s.zone zone).task? o with
  | none => s
  | some t =>
    if t.irrevocable then s.setZone zone ((s.zone zone).commit t)
    else
      let s := s.rollback zone o
      s.setZone zone ((s.zone zone).mapTask o fun x => { x with st := .waiting })
/-- R408: the slot becomes DORMANT; outstanding accesses that have not taken effect never do (R292). -/
def State.killStrand (s : State) (k : Nat) : State :=
  let x := s.strand k
  let core := strandCore k
  let s := match x.task with
    | some o => s.endTask (coreZone core) o
    | none => s
  let s := match x.handler with
    | some h => s.mapMailbox core h.mbox fun m => m.endHandler k h
    | none => s
  ({ s with
    packets := s.packets.filter fun p => p.strand != k
    ops := s.ops.map fun (o : Op) => if o.strand == k && o.kind.isSweep then o.orphan else o }.forgetRequests (· == Asker.strand k)).retire k

/-! ## Quarantine (R436–R438, R488) -/

/-- A launch that loses a strand is posted CANCELLED. -/
def State.loseStrand (s : State) (k : Nat) : State :=
  let n := (s.strand k).launch
  (s.killStrand k).mapLaunch n fun l => { l with sts := 4#4 }
/-- Item 1: a core stops; its strands retire, its operations end with their records lost, its mailboxes go with it. The carve-outs of
the launches that stay bound pass to the site that takes its place (R411, R441). -/
def State.loseCore (s : State) (core : Nat) : State :=
  let slots := (List.range 9).filter fun i => (s.strand (strandOf core i)).st != .dormant
  let s := slots.foldl (fun s i => s.loseStrand (strandOf core i)) s
  let c := s.core core
  { s.setCore core
      { last := c.last, cycBase := c.cycBase, lastBeat := c.lastBeat, dead := c.dead, carves := c.carves, stopped := true } with
    ops := s.ops.filter fun o => o.core != core
    l2 := s.l2.mapValues fun _ x => { x with sharers := x.sharers.filter fun c => c / 2 != core } }
/-- Cores that the wake flood has yet to reach on the site start no strand. -/
def State.loseWakes (s : State) (site : Nat) : State :=
  { s with launches := s.launches.mapValues fun _ l =>
      let gone := l.toWake.filter fun i => (s.physCore? (l.cids.getD i 0)).map coreSite == some site
      if gone.isEmpty then l else { l with toWake := l.toWake.filter (fun i => !gone.contains i), sts := 4#4 } }

/-- A cached line's granule in memory is poisoned. -/
def State.poisonLine (s : State) (line : Nat) : State :=
  match s.l2.find? line with
  | some x => s.poisonAt (64 * x.frame)
  | none => s
/-- Item 3: the frame of a line that the slice held for writing is poisoned. Where one L1 alone holds the line, and has stored to it since the home had its data, it may hold it dirty,
which is a free value: then that copy waits for the MAPSET, and its write-back clears the poison. -/
def State.loseLine (s : State) (line : Nat) (x : L2Line) : State :=
  let s := { s with free := s.free + 1 }
  if !x.atHome && x.sharers.length = 1 && x.sharers.all (· % 2 == 0) && Config.dirtyInL1 s.free then
    { s with l2 := s.l2.set line { x with below := true } }
  else { s.poisonLine line with l2 := s.l2.erase line }
/-- The cached lines whose home is tile `tile`. -/
def homedAt (tile : Nat) (e : Nat × L2Line) : Bool := e.2.home == tile
def State.loseLines (s : State) (tile : Nat) : State :=
  (s.l2.entries.filter (homedAt tile)).foldl
    (fun s e => if e.2.dirtier.isSome then s.loseLine e.1 e.2 else State.uncover { s with l2 := s.l2.erase e.1 } e.2) s
/-- A dirty copy that waited for a MAPSET is lost with the core that held it: the poison of its frame stays. -/
def State.loseCopies (s : State) : State :=
  (s.l2.entries.filter fun e => e.2.below && e.2.sharers.isEmpty && (s.homeHeld e.2.home).isSome).foldl
    (fun s e => { s.poisonAt (64 * e.2.frame) with l2 := s.l2.erase e.1 }) s

def State.breakGroups (s : State) (site : Nat) : State :=
  s.launches.entries.foldl
    (fun s e =>
      let hit := e.2.groups.filter fun g => g.members.any fun w => match s.target e.2 w.toNat with
        | .here c => coreSite c == site
        | _ => false
      hit.foldl (fun s g => s.breakGroup e.1 g true) s) s

/-- Item 5 (R394): a KIND 5 record that names the site's CC. -/
def State.siteReport (s : State) (core cause : Nat) : State :=
  let zone := coreZone core
  let p := s.zonePart zone
  s.report
    { zone := zone, standby := false, slot := coreMbxSlot core
      body := recordBody 5 (p.getD 0) ((p.map fun p => (s.part p).tenant).getD 0) false causeHwUncorrectable.toNat 0
        (strandTarget (strandOf core 0)) 0#64 0#64 (BitVec.ofNat 64 cause) 0#64 }

/-- The record as the rim controller writes it: training, serials and equalisation in use, the defect list with the sites retired so
far, and the wear counts (R464, R468). -/
def Module.newRecord (m : Module) : FlashRecord :=
  { training := m.training, serials := m.serials, equalisation := m.equalisation, defects := m.defects
    wear := ⟨m.sensors.entries.map fun e => (e.1, e.2.c)⟩ }
/-- A new record is written over the older copy, and signed (R464); not before the rim controller has read the stored one, whose results
it would lose. -/
def State.writeRecord (s : State) : State :=
  if s.module.recordChecked then
    s.setModule
      { s.module with recordWrites := s.module.recordWrites + 1, copies := (s.module.newRecord :: s.module.copies).take 2 }
  else s
/-- A retired site joins the stored defect list (R464). -/
def State.recordRetired (s : State) (site : Nat) : State :=
  (s.setModule { s.module with defects := setInsert site s.module.defects }).writeRecord

def State.setZdef (s : State) (site : Nat) : State :=
  let z := s.zone (siteZone site)
  let r := siteRow site
  s.setZone (siteZone site) { z with zdef := z.zdef.set r (setBit (z.zdef.getD r 0#12) (siteCol site) true) }
/-- Launches that wait for binding keep the numbering under which they name the cores of a site that is quarantined now (R489). -/
def State.awaitAll (s : State) (p : Nat) : State :=
  { s with launches := s.launches.mapValues fun _ l =>
      if l.part == p && !l.bound && l.awaits.isEmpty then { l with awaits := s.presentCores p } else l }
/-- A site in service is quarantined, or retired when it is an unused spare (R437, R438). `cause` is 0x0B for an error the
hardware detected. Requests to it that are outstanding wait for the MAPSET. -/
def State.quarantine (s : State) (site cause : Nat) : State :=
  if s.deadSite site then s
  else
    let s := s.setZdef site
    let z := s.zone (siteZone site)
    match s.tileNo? site with
    | none =>
      let s := (s.setZone (siteZone site) { z with retired := setInsert (site % 144) z.retired }).recordRetired site
      (s.setCore (2 * site) { s.core (2 * site) with stopped := true }).setCore (2 * site + 1)
        { s.core (2 * site + 1) with stopped := true }
    | some tile =>
      let s := s.setZone (siteZone site) { z with quarantined := setInsert (site % 144) z.quarantined }
      let s := s.breakGroups site
      let s := (s.loseCore (2 * site)).loseCore (2 * site + 1)
      let s := ((s.loseWakes site).loseCopies).turnAway site
      let s := s.setTile site { s.tile site with shadow := none, faultq := [] }
      let s := match s.zonePart (siteZone site) with
        | some p => s.awaitAll p
        | none => s
      (s.loseLines tile).siteReport (2 * site + 1) cause

/-! ## MAPSET's checks (R411, R472) -/

def mapDir (w : Nat) : Nat := bits w 62 2
def mapBcol (w : Nat) : Nat := bits w 58 4
def mapAbs (w c : Nat) : Bool := bitAt w (44 + c)
/-- Columns of a row that its own sites serve, and the site of each. -/
def ownColumns (w : Nat) : List Nat := (List.range 11).filter fun c => !mapAbs w c && !(mapDir w != 0 && mapBcol w == c)
def ownSites (w : Nat) : List Nat := (ownColumns w).map fun c => bits w (4 * c) 4
/-- The row that a word borrows from. -/
def lender (r w : Nat) : Option Nat :=
  match mapDir w with
  | 1 => if r = 0 then none else some (r - 1)
  | 2 => if r = 11 then none else some (r + 1)
  | _ => none
def State.rowDead (s : State) (zone r c : Nat) : Bool := ((s.zone zone).zdef.getD r 0#12).getLsbD c
/-- Does a row's current map borrow from row `r`? -/
def State.borrowsFrom (s : State) (zone row r : Nat) : Bool := row < 12 && lender row (s.mapWord zone row).toNat == some r
/-- May row `r` borrow the spare of row `q`? -/
def State.spareFree (s : State) (zone r q : Nat) : Bool :=
  Config.rowType q == Config.rowType r && !s.rowDead zone q 11
    && !(ownSites (s.mapWord zone q).toNat).contains 11
    && ((List.range 12).all fun o => o == r || !s.borrowsFrom zone o q)
/-- BADMAP. -/
def State.badMap (s : State) (zone : Nat) (a : Word) (word : Word) : Bool :=
  let r := a.toNat
  let w := word.toNat
  16 ≤ r || 11 < r || bits w 55 3 != 0 || mapDir w == 3
    || (mapDir w != 0 && (10 < mapBcol w || mapAbs w (mapBcol w) || (lender r w).isNone
        || !((lender r w).any fun q => s.spareFree zone r q)))
    || ((ownSites w).any fun c => 11 < c || s.rowDead zone r c)
    || !(decide (ownSites w).Nodup)
    || ((ownSites w).contains 11 && (List.range 12).any fun o => s.borrowsFrom zone o r)
/-- The columns of a row whose site a new word changes: (column, old site, new site). -/
def State.moves (s : State) (zone r : Nat) (word : Word) : List (Nat × Option Nat × Option Nat) :=
  (List.range 11).filterMap fun c =>
    let old := s.site? zone r c
    let new := mapSite word zone r c
    if old = new then none else some (c, old, new)
/-- BUSY: a launch is bound, and the word does more than replace or drop quarantined sites. -/
def State.mapBusy (s : State) (zone r : Nat) (word : Word) : Bool :=
  match s.zonePart zone with
  | none => false
  | some p =>
    s.partBound p && (s.moves zone r word).any fun m => match m.2.1 with
      | none => true
      | some site => !s.quarantined site

/-! ## MAPSET's effect (R437, R441) -/

/-- Granules of a range. -/
def granules (lo n : Nat) : NatSet := (List.range (n / 64)).map fun i => lo / 64 + i
def mergeSets (a b : NatSet) : NatSet := a.foldl (fun t x => setInsert x t) b
/-- A tile as a new site takes it over: `s2` is its logical column's, `lost` says that data were lost. -/
def freshTile (s2 : Nat) (rows : Nat) (lost : Bool) : Tile :=
  { s2 := s2, storePoison := if lost then List.range (4 * rows) else [] }
/-- The new site of a logical column (R441). The carve-outs of the launches bound there exist on it, zeroed. -/
def State.prepareSite (s : State) (site : Nat) (old : Option Nat) : State :=
  let s2 := (old.map fun o => (s.tile o).s2).getD (512 * 1024)
  let t := s.tile site
  let s := s.setTile site
    { freshTile s2 (Config.storeRows (tileType site)) old.isSome with sramBad := t.sramBad, sramFailed := t.sramFailed }
  let s := [2 * site, 2 * site + 1].foldl
    (fun s c =>
      let x := s.core c
      let carves := ((old.map fun o => (s.core (2 * o + c % 2)).carves).getD ⟨[]⟩).entries.map fun e => (e.1, { e.2 with base := carvePlace c e.1 })
      s.setCore c
        { last := x.last, cycBase := x.cycBase, lastBeat := x.lastBeat, dead := x.dead, carves := ⟨carves⟩, stopped := t.sramFailed }) s
  let s := s.zeroSram site 0 (2 ^ 28)
  if old.isNone then s
  else { s with poison := mergeSets (granules (sramPa site 0) (s.userScratch site)) s.poison }
/-- A site that a MAPSET takes out of the map leaves QUARANTINED (R437). -/
def State.retireSite (s : State) (site : Nat) : State :=
  let z := s.zone (siteZone site)
  if z.quarantined.contains (site % 144) then
    (s.setZone (siteZone site)
      { z with quarantined := setRemove (site % 144) z.quarantined, retired := setInsert (site % 144) z.retired }).recordRetired site
  else s
/-- Is an arrival on its way one of tile `tile`'s own, to its own node? -/
def State.ownArrival (s : State) (tile : Nat) (m : TreeMsg) : Bool :=
  m.item < 2 ^ 21 && ((((s.launch? m.launch).bind fun l => l.group? m.group).bind fun g => g.tree[m.node]?).any fun n => n.tile == tile)
/-- The node of tile `tile` is formed afresh in every group's tree: its own arrivals are gone, those on their way too, its children's are
there again (R441). -/
def State.forgetNode (s : State) (tile : Nat) : State :=
  { s with
    treeMsgs := s.treeMsgs.filter fun m => !s.ownArrival tile m
    launches := s.launches.mapValues fun _ l =>
      { l with groups := l.groups.map fun g =>
          { g with tree := g.tree.map fun n =>
              if n.tile == tile then { n with bar := n.bar.filter (2 ^ 21 ≤ ·), line := n.line.filter (2 ^ 21 ≤ ·) } else n } } }
/-- The L2 slice of a new site starts empty (R441). -/
def State.emptySlice (s : State) (tile : Nat) : State :=
  (s.l2.entries.filter (homedAt tile)).foldl (fun s e => State.uncover { s with l2 := s.l2.erase e.1 } e.2) s
/-- The dirty copies that were held are written back whole to the new home, which clears the poison of their frames (R438). -/
def State.returnCopies (s : State) (tile : Nat) : State :=
  { s with l2 := s.l2.mapValues fun _ x => if x.home == tile then { x with below := false } else x }
/-- Requests that waited for a site go to the one that takes its place, at the same address (R438, R441). -/
def State.redirect (s : State) (old new : Nat) : State :=
  { s with accesses := s.accesses.map fun a =>
      if a.n != 0 && paIsScratch a.pa && paSite a.pa == old then { a with pa := sramPa new (bits a.pa 0 34) } else a }
/-- One logical column, tile `tile`, moves. After a quarantine the slice held nothing but the lines that an L1 keeps dirty, which
are written back to the new home (R438). The lines of a tile that becomes absent pass to the next present one, and come back to it with
it (R251, R442). -/
def State.moveColumn (s : State) (tile : Nat) (old new : Option Nat) : State :=
  let s := match old with
    | some o => (if s.quarantined o then s.returnCopies tile else s.emptySlice tile).retireSite o
    | none => (s.emptySlice tile).rehome fun k x => s.newHome k x == tile
  let s := s.forgetNode tile
  match new with
  | some n =>
    let s := s.prepareSite n old
    let s := match old with
      | some o => s.redirect o n
      | none => s
    if s.hosts n then s.beginHosting n else s
  | none => s.rehome fun _ x => x.home == tile
/-- A row takes a new word; what waited for one of its sites goes on. -/
def State.mapRow (s : State) (zone r : Nat) (word : Word) : State :=
  let ms := s.moves zone r word
  let z := s.zone zone
  let s := s.setZone zone { z with rows := z.rows.set r word, mapped := setInsert r z.mapped }
  (ms.foldl (fun s m => s.moveColumn (zone * 132 + r * 11 + m.1) m.2.1 m.2.2) s).retryWrites

end Sys2Proof.Machine
end

