-- ==== Sys2Proof/Machine/LoadStore.lean ====
section
/-! DEFINITION. Plain and vector loads and stores, and the events that complete them (05 R103–R106, 06 R127, R128,
R30, R37, R449). -/

namespace Sys2Proof.Machine

/-- SZ: 1, 2, 4 or 8 bytes (R103). -/
def sizeOf (sz : BitVec 2) : Nat := 2 ^ sz.toNat
/-- A displacement: scaled by `unit` when X = 0, a byte offset when X = 1 (R77). -/
def offsetOf {n : Nat} (off : Ext n) (unit : Nat) : Word :=
  match off.lit with
  | none => off.short.signExtend 64 * BitVec.ofNat 64 unit
  | some l => (l ++ off.short).signExtend 64
def indexed (base idx : Word) (sz : BitVec 2) (sc : Bool) : Word := base + (if sc then idx <<< sz.toNat else idx)
/-- A data register's value as a number. -/
def State.data (s : State) (r : Reg) : Nat := (s.gr r).toNat

/-- LD (R103). -/
def execLd (d : Reg) (base : Src) (sz : BitVec 2) (sg : Bool) (off : Ext 9) (s : State) : Res :=
  s.load (.load sg) (destG d) (s.g base + offsetOf off (sizeOf sz)) (sizeOf sz)
/-- ST (R103). -/
def execSt (d : Reg) (base : Src) (sz : BitVec 2) (off : Ext 9) (s : State) : Res :=
  s.store (s.g base + offsetOf off (sizeOf sz)) (sizeOf sz) (s.data d)
/-- LDX (R104). -/
def execLdx (d : Reg) (base idx : Src) (sz : BitVec 2) (sg sc : Bool) (s : State) : Res :=
  s.load (.load sg) (destG d) (indexed (s.g base) (s.g idx) sz sc) (sizeOf sz)
/-- STX (R104). -/
def execStx (d : Reg) (base idx : Src) (sz : BitVec 2) (sc : Bool) (s : State) : Res :=
  s.store (indexed (s.g base) (s.g idx) sz sc) (sizeOf sz) (s.data d)

/-- LDV (R127). -/
def execLdv (d : Reg) (base : Src) (off : Ext 8) (s : State) : Res :=
  s.load (.load false) (.v d) (s.g base + offsetOf off 64) 64
/-- STV (R127). -/
def execStv (d : Reg) (base : Src) (off : Ext 8) (s : State) : Res :=
  s.store (s.g base + offsetOf off 64) 64 (s.vr d).toNat
/-- LDVB (R127). -/
def execLdvb (d : Reg) (base : Src) (esz : BitVec 2) (off : Ext 8) (s : State) : Res :=
  s.load .bcast (.v d) (s.g base + offsetOf off (sizeOf esz)) (sizeOf esz)

/-- ACCESS_COMPLETION (R30): the access at position `input.index` of the outstanding list completes, unless an older one
that R276, R278, R286 or R450 orders before it is still there, or it waits for a MAPSET (R438, R487). -/
def execAccessCompletion (s : State) : Res := .next (s.completeAccess s.input.index)

/-- TRANSLATION_FAULT_RETURN (R37, R260): the strand `input.strand` waits for a deferred walk that faulted; it parks
precisely at its pair. -/
def execTranslationFaultReturn (s : State) : Res :=
  let k := s.input.strand
  let x := s.strand k
  if s.silentStrand k then .next s
  else match x.st with
  | .waiting (.translation slotA t) =>
    let s := { s with cur := { strand := k, before := { x with st := .ready } } }
    .next (s.takeTrap slotA t)
  | _ => .next s

/-- The trap that another module reports for a window access (R449): its cause and reason, with the access of R397, and the
physical address there of a poisoned granule. -/
def remoteTrap (cause reason acc : Nat) (va : Word) (granule : Nat) : TrapInfo :=
  { cause := BitVec.ofNat 6 cause, addr := va, info := BitVec.ofNat 64 (reason * 2 ^ 56 + acc * 2 ^ 48), granule := granule }
/-- ANSWER_ARRIVAL (R218): the answer to the pair that strand `input.strand` holds arrives, and its pair goes on. A pair
that reached another module receives `input.wide`, or with `input.flag` the trap whose cause is `input.off` and whose reason
is `input.level`; of a POISON `input.value` is the granule's physical address there (R396, R449). -/
def execAnswerArrival (s : State) : Res :=
  let k := s.input.strand
  let x := s.strand k
  if s.silentStrand k then .next s
  else match x.st with
  | .waiting .answer => .next (s.release k { value := 0#512 })
  | .waiting (.remote acc va) =>
    if s.input.flag then
      let s := { s with cur := { strand := k, before := { x with st := .ready } } }
      .next (s.takeTrap false (remoteTrap s.input.off s.input.level acc va s.input.value.toNat))
    else .next (s.release k { value := s.input.wide })
  | _ => .next s

end Sys2Proof.Machine
end

