-- ==== Sys2Proof/Machine/Special.lean ====
section
/-! DEFINITION. The special-register space (02 R40–R49, 17 R401, R402), MFS, MTS, TRAP and the reserved opcode 0x3F
(05 R107–R109, 17 R416). -/

namespace Sys2Proof.Machine

/-- FEMASK (R44). -/
def femask (r : RegFile) : Nat := r.vf.toNat * 2 ^ 16 + (r.gf ||| 1#16).toNat
/-- CYC: cycles of the core since its reset (R47), those included in which it was clock-gated: R148 does not say that CYC
stops. DESIGN CHOICE (log 79). -/
def State.cyc (s : State) (core : Nat) : Nat :=
  (s.time - (s.core core).cycBase) * Config.cyclesPer10ns (Config.zonePoint (coreZone core)) / 10
/-- The records of an atelier core's own mailbox: the primary's or the standby's (R392). -/
def State.isPrimary (s : State) (core : Nat) : Bool := (core - atelierBase) % 2 == (s.zone (coreZone core)).primary
def State.ownMailbox (s : State) (core : Nat) : List MbxRecord :=
  if s.isPrimary core then (s.zone (coreZone core)).mbx else (s.zone (coreZone core)).mbxStandby
/-- ZDEF[r]: fused dead or quarantined or retired sites of row r (R402, R437). -/
def State.zdef (s : State) (zone r : Nat) : BitVec 12 := (s.zone zone).zdef.getD r 0#12
/-- ATID (R402). -/
def State.atid (s : State) (core : Nat) : Nat := coreZone core * 2 ^ 16 + (if s.isPrimary core then 0 else 2 ^ 8)

/-- A register of R41, as strand `s.cur.strand` reads it; numbers that R41 does not list read 0, and so do those of a launch (CID, NCORE,
LARG, LCOUNT, ECLASS, GSLOT) on a strand that has none, an atelier core's among them. DEDUCED (log 71). -/
def State.strandSpecial (s : State) (num : Nat) : Nat :=
  let x := s.before
  let core := s.selfCore
  let l := s.selfLaunch
  let ofLaunch (f : Launch → Nat) : Nat := (l.map f).getD 0
  if 0x018 ≤ num ∧ num < 0x01C then ofLaunch fun l => s.gslotWord l core (num - 0x018)
  else if 0x040 ≤ num ∧ num < 0x050 then ((s.core core).cdone.getD (num - 0x040) 0#32).toNat
  else if 0x050 ≤ num ∧ num < 0x060 then ((s.core core).cnext.getD (num - 0x050) 0#32).toNat
  else match num with
    | 0x001 => x.regs.fmt.toNat
    | 0x002 => x.regs.stat.toNat
    | 0x003 => femask x.regs
    | 0x010 => ofLaunch fun l => s.cidWord l core
    | 0x011 => x.index.toNat
    | 0x012 => ofLaunch Launch.ncore
    | 0x013 => ofLaunch fun l => (recArg l.record).toNat
    | 0x014 => ofLaunch fun l => l.count.toNat
    | 0x020 => s.time % 2 ^ 64
    | 0x021 => s.cyc core % 2 ^ 64
    | 0x030 => x.ovfp.toNat
    | 0x031 => swin.toNat
    | 0x060 => x.tcause.toNat
    | 0x061 => x.taddr.toNat
    | 0x062 => x.tinfo.toNat
    | 0x071 => x.msgid.toNat
    | 0x072 => min (s.core core).returned.length 65535
    | 0x083 => ofLaunch fun l => recEclass l.record
    | _ => 0

/-- A fixed register of R401, in atelier mode. -/
def State.atelierSpecial (s : State) (num : Nat) : Nat :=
  let core := s.selfCore
  let c := s.core core
  if 0x140 ≤ num ∧ num < 0x14C then (s.zdef s.selfZone (num - 0x140)).toNat
  else match num with
    | 0x100 => s.atid core
    | 0x101 => ((s.ownMailbox core).filter fun r => !r.read).length
    | 0x102 => c.atvec.toNat
    | 0x103 => c.atepc.toNat
    | 0x104 => if c.intrap then 1 else 0
    | _ => 0

/-- The registers marked remote (R41, R401). -/
def remoteSpecial (num : Nat) : Bool := [0x070, 0x080, 0x081, 0x082, 0x084, 0x108].contains num

/-- MFS (R107). -/
def execMfs (d : Reg) (num : BitVec 10) (s : State) : Res :=
  let n := num.toNat
  if 0x100 ≤ n && !s.inAtelier then s.trap { cause := causePriv }
  else if remoteSpecial n then
    .next (s.issueAccess { strand := s.cur.strand, kind := .special, dest := destG d, pa := 0, n := 0, data := n })
  else .next (s.setG d (BitVec.ofNat 64 (if 0x100 ≤ n then s.atelierSpecial n else s.strandSpecial n)))

/-- The reserved bits of a listed register (R42–R49, R402); none for a number that is not listed. -/
def specialReserved (num : Nat) : Option Word :=
  let low (w : Nat) : Word := ~~~(BitVec.ofNat 64 (2 ^ w - 1))
  if 0x018 ≤ num ∧ num < 0x01C then some 0x7F00000000000000#64
  else if 0x040 ≤ num ∧ num < 0x060 then some (low 32)
  else if 0x140 ≤ num ∧ num < 0x14C then some (low 12)
  else match num with
    | 0x001 => some (low 14)
    | 0x002 => some (low 6)
    | 0x003 => some (low 32)
    | 0x010 => some (low 22)
    | 0x011 => some (low 3)
    | 0x012 => some (low 32)
    | 0x013 => some 0#64
    | 0x014 => some (low 32)
    | 0x020 => some 0#64
    | 0x021 => some 0#64
    | 0x030 => some 0x3F#64
    | 0x031 => some 0#64
    | 0x060 => some (low 10 ||| 0xC0#64)
    | 0x061 => some 0#64
    | 0x062 => some 0#64
    | 0x070 => some (low 9)
    | 0x071 => some (low 32)
    | 0x072 => some (low 16)
    | 0x080 => some (low 10)
    | 0x081 => some (low 5)
    | 0x082 => some (low 5)
    | 0x083 => some (low 3)
    | 0x084 => some (low 5)
    | 0x100 => some (low 22 ||| 0xFEFF#64)
    | 0x101 => some (low 12)
    | 0x102 => some (low 52 ||| 0x7#64)
    | 0x103 => some 0#64
    | 0x104 => some (low 1)
    | 0x108 => some (low 19)
    | _ => none

/-- The write itself; a write to a field marked ro is ignored (R40). -/
def State.writeSpecial (s : State) (num : Nat) (v : Word) : State :=
  match num with
  | 0x001 => s.mapRegs fun r => { r with fmt := v.extractLsb' 0 14 }
  | 0x002 => s.mapRegs fun r => { r with stat := v.extractLsb' 0 6 }
  | 0x030 => s.setSelf { s.self with ovfp := v }
  | 0x102 => s.setCore s.selfCore { s.core s.selfCore with atvec := v }
  | _ => s

/-- MTS (R108). -/
def execMts (d : Reg) (num : BitVec 10) (s : State) : Res :=
  let n := num.toNat
  let v := s.gr d
  if 0x100 ≤ n && !s.inAtelier then s.trap { cause := causePriv }
  else match specialReserved n with
    | none => s.illegal
    | some m => if v &&& m != 0#64 then s.illegal else .next (s.writeSpecial n v)

/-- TRAP (R109). -/
def execTrap (code : BitVec 8) (s : State) : Res := s.trapWith causeBreak 0#64 (code.setWidth 64)
/-- Opcode 0x3F on the FW1-A0 (R83, R416). -/
def execDiagnostic (_ : BitVec 25) (s : State) : Res :=
  if s.inAtelier then s.illegal else s.trap { cause := causePriv }

end Sys2Proof.Machine
end

