-- ==== Sys2Proof/Machine/Atelier.lean ====
section
/-! DEFINITION. The atelier instructions: RESUME, KILL, MBXRD, MBXACK, MAPSET, ROUTESET, PARTCTL, TOKSET and RFT
(17 R391–R416, 18 R429, R430, 25 R480, R481). -/

namespace Sys2Proof.Machine

/-- An atelier instruction in user mode traps PRIV (R405). -/
def State.privileged (s : State) (r : Res) : Res := if s.inAtelier then r else s.trap { cause := causePriv }

/-! ## Target words (R404, R407) -/

def tgtK (w : Nat) : Bool := bitAt w 31
def tgtCh (w : Nat) : Nat := bits w 16 4
def tgtId (w : Nat) : BitVec 32 := BitVec.ofNat 32 (bits w 32 32)
def tgtSite (zone w : Nat) : Nat := siteOf zone (bits w 12 4) (bits w 8 4)
def tgtCore (zone w : Nat) : Nat := 2 * tgtSite zone w + bits w 4 1
def tgtStrand (zone w : Nat) : Nat := strandOf (tgtCore zone w) (bits w 0 3)
/-- BADTGT. -/
def State.badTgt (s : State) (zone w : Nat) : Bool :=
  bits w 20 11 != 0 || bits w 5 3 != 0 || bitAt w 3 || 11 < bits w 12 4 || 11 < bits w 8 4
    || (if tgtK w then bits w 0 3 != 0 else tgtCh w != 0 || bits w 32 32 != 0)
    || (s.zone (siteZone (tgtSite zone w))).quarantined.contains (tgtSite zone w % 144)

/-- What a target word names. A saved strand or operation is named as it was when it was saved. -/
inductive Found where
  | none
  | strand (k : Nat)
  | savedStrand (part k : Nat)
  | op (i : Nat)
  | savedOp (part i : Nat)
  deriving DecidableEq, Repr

/-- An operation that RESUME and KILL may name: held, or with elements in its tile's fault queue (R357, R372). -/
def heldOp (queue : List FaultEntry) (o : Op) : Bool :=
  !o.held.isEmpty || ((o.kind == .gath || o.kind == .scat) && queue.any fun e => e.ch == o.ch && e.id == o.id && e.cc == coreIsCC o.core)
/-- A core's held sweep goes before the operation of channel 0 with identifier 0 (R480). -/
def findHeld (ops : List Op) (queue : List FaultEntry) (core ch : Nat) (id : BitVec 32) : Option Nat :=
  let sweep := if ch = 0 ∧ id = 0#32 then ops.findIdx? fun o => o.core == core && o.kind.isSweep && !o.held.isEmpty else Option.none
  sweep.orElse fun _ => ops.findIdx? fun o => o.is core ch id && heldOp queue o

def State.savedOf (s : State) (zone : Nat) : Option (Nat × Saved) :=
  (s.zonePart zone).bind fun p => (s.part p).saved.map fun v => (p, v)
/-- The saved image of a tile's fault queue. -/
def Saved.queueAt (v : Saved) (core : Nat) : List FaultEntry :=
  ((v.tileNo? core).map fun t => (v.tiles.getD t {}).faultq).getD []
def State.findTarget (s : State) (zone w : Nat) : Found :=
  if tgtK w then
    let core := tgtCore zone w
    match findHeld s.ops (s.tile (coreSite core)).faultq core (tgtCh w) (tgtId w) with
    | some i => .op i
    | none =>
      match s.savedOf zone with
      | none => .none
      | some (p, v) => match findHeld v.ops (v.queueAt core) core (tgtCh w) (tgtId w) with
        | some i => .savedOp p i
        | none => .none
  else
    let k := tgtStrand zone w
    if (s.strand k).st == .parked then .strand k
    else match s.savedOf zone with
      | some (p, v) => if (v.strands.getD k {}).st == .parked then .savedStrand p k else .none
      | none => .none

/-- The tenant that a zone's target belongs to is frozen. -/
def State.zoneFrozen (s : State) (zone : Nat) : Bool := ((s.zonePart zone).map fun p => s.frozen (s.part p).tenant).getD false
/-- Statuses 1 to 3 of R407, or the target. -/
def State.resolveTarget (s : State) (w : Nat) : Except Nat Found :=
  let zone := s.selfZone
  if s.badTgt zone w then .error 1
  else match s.findTarget zone w with
    | .none => .error 2
    | f => if s.zoneFrozen zone then .error 3 else .ok f
def Found.isOp : Found → Bool
  | .op _ => true
  | .savedOp _ _ => true
  | _ => false
/-- The strand that a found target names. -/
def State.foundStrand (s : State) (f : Found) : Strand :=
  match f with
  | .strand k => s.strand k
  | .savedStrand p k => ((s.part p).saved.map fun v => v.strands.getD k {}).getD {}
  | _ => {}
def State.mapSaved (s : State) (p : Nat) (f : Saved → Saved) : State :=
  s.setPart p { s.part p with saved := (s.part p).saved.map f }

/-! ## RESUME (R407) -/

/-- The resumed strand: its register, its pc, READY. -/
def Strand.resumed (x : Strand) (m : BitVec 32) (pc value : Word) : Strand :=
  let n : Reg := m.extractLsb' 4 4
  let regs := if m.getLsbD 2 then (x.regs.writeG n value).markG n true else x.regs
  { x with st := .ready, regs := regs, pc := if m.getLsbD 1 then pc else if m.getLsbD 0 then x.pc + 8#64 else x.pc }
/-- A held operation repeats what it was held at. -/
def Op.unheld (o : Op) : Op := { o with held := [] }
/-- Is an entry of a tile's fault queue this operation's? -/
def FaultEntry.of (e : FaultEntry) (o : Op) : Bool := e.ch == o.ch && e.id == o.id && e.cc == coreIsCC o.core
def Tile.dropQueue (t : Tile) (o : Op) : Tile := { t with faultq := t.faultq.filter fun e => !e.of o }
/-- The entries of an operation in its tile's fault queue leave it. -/
def State.dropQueue (s : State) (o : Op) : State :=
  let site := coreSite o.core
  s.setTile site ((s.tile site).dropQueue o)
def State.queueOf (s : State) (o : Op) : List FaultEntry := (s.tile (coreSite o.core)).faultq.filter fun e => e.of o
/-- The entries of a saved operation leave its saved queue. -/
def Saved.dropQueue (v : Saved) (o : Op) : Saved :=
  match v.tileNo? o.core with
  | some t => { v with tiles := v.tiles.mapValues fun n x => if n == t then x.dropQueue o else x }
  | none => v
def Op.isSparse (o : Op) : Bool := o.kind == .gath || o.kind == .scat
def State.resumeOp (s : State) (i : Nat) : State :=
  s.withOp i fun o =>
    if o.isSparse then (((s.dropQueue o).setOp i o.unheld).reform i (sortedElems (s.queueOf o))).1
    else s.setOp i o.unheld
/-- A saved operation goes on from what held it once the partition is restored; its parked elements will be formed again. -/
def Saved.resumeOp (v : Saved) (i : Nat) : Saved :=
  match v.ops[i]? with
  | none => v
  | some o =>
    if o.isSparse then
      let ks := sortedElems ((v.queueAt o.core).filter fun e => e.of o)
      { v.dropQueue o with ops := v.ops.set i (o.unheld.toForm ks) }
    else { v with ops := v.ops.set i o.unheld }
/-- A saved strand is gone, and its mailbox forgets it. -/
def Saved.dropStrand (v : Saved) (k : Nat) : Saved :=
  let x := v.strands.getD k {}
  let core := strandCore k
  let v := { v with
    strands := v.strands.erase k
    fallout := v.fallout.filter fun f => match f.item with
      | .packet p => p.strand != k
      | _ => true
    ops := v.ops.map fun (o : Op) => if o.strand == k && o.kind.isSweep then o.orphan else o }
  match x.handler with
  | none => v
  | some h =>
    { v with cores := v.cores.mapValues fun c y =>
        if c == core then { y with mboxes := y.mboxes.mapValues fun n b => if n == h.mbox then b.endHandler k h else b } else y }
/-- A slot that a handler's trap holds is freed; its mailbox may fire again (R399, R407). The stores it has made remain (R174). -/
def State.freeHandler (s : State) (k : Nat) : State :=
  { s.killStrand k with accesses := s.accesses.filter fun a => a.strand != k || a.kind == .store }
def State.resumeFound (s : State) (f : Found) (m : BitVec 32) (pc value : Word) : State :=
  match f with
  | .none => s
  | .strand k => if (s.strand k).inHandler then s.freeHandler k else s.setStrand k ((s.strand k).resumed m pc value)
  | .savedStrand p k =>
    s.mapSaved p fun v =>
      let x := v.strands.getD k {}
      if x.inHandler then v.dropStrand k else { v with strands := v.strands.set k (x.resumed m pc value) }
  | .op i => s.resumeOp i
  | .savedOp p i => s.mapSaved p fun v => v.resumeOp i
/-- BADOPT. -/
def badOption (m : BitVec 32) (pc : Word) (plain : Bool) : Bool :=
  (m.getLsbD 0 && m.getLsbD 1) || (m.getLsbD 1 && (pc.toNat % 8 != 0 || 2 ^ 57 ≤ pc.toNat)) || (!plain && m.toNat % 8 != 0)

/-- RESUME (R407, R481). -/
def execResume (d : Reg) (a b : Src) (c : Reg) (m : BitVec 32) (s : State) : Res :=
  s.privileged
    (let s := s.drainCore s.selfCore
     match s.resolveTarget (s.g a).toNat with
     | .error n => .next (s.setG d (BitVec.ofNat 64 n))
     | .ok f =>
       if badOption m (s.g b) (!f.isOp && !(s.foundStrand f).inHandler) then .next (s.setG d 4#64)
       else .next ((s.resumeFound f m (s.g b) (s.gr c)).setG d 0#64))

/-! ## KILL (R408) -/

/-- DROP on one mailbox: the messages that a handler's trap returned to it leave; they go back NOBOX. -/
def Mailbox.dropReturned (b : Mailbox) (h : HandlerRun) : Mailbox × List Message :=
  ({ b with waiting := b.waiting.filter fun e => !h.msgs.contains e.2 },
   (b.waiting.filter fun e => h.msgs.contains e.2).map fun e => e.2.back 2#4)
def State.dropReturned (s : State) (k : Nat) : State :=
  match (s.strand k).handler with
  | none => s
  | some h =>
    let core := strandCore k
    match (s.core core).mboxes.find? h.mbox with
    | none => s
    | some b =>
      let r := b.dropReturned h
      r.2.foldl (fun s m => s.pushMessage m) (s.mapMailbox core h.mbox fun _ => r.1)
def Saved.dropReturned (v : Saved) (k : Nat) : Saved :=
  match (v.strands.getD k {}).handler with
  | none => v
  | some h =>
    let c := v.cores.getD (strandCore k) {}
    match c.mboxes.find? h.mbox with
    | none => v
    | some b =>
      let r := b.dropReturned h
      { v with cores := v.cores.set (strandCore k) { c with mboxes := c.mboxes.set h.mbox r.1 }, dropped := v.dropped ++ r.2 }
/-- The task of a killed saved strand: an irrevocable one has committed; a speculative one starts afresh. -/
def Saved.endTask (v : Saved) (zone o : Nat) : Saved :=
  let z : Zone := { tasks := v.tasks.getD zone [], lastCommit := v.commits.getD zone 0#64 }
  match z.task? o with
  | none => v
  | some t =>
    let z := if t.irrevocable then z.commit t else z.mapTask o fun x => { x with st := .waiting, buffer := [], reads := [], writes := [] }
    { v with tasks := v.tasks.set zone z.tasks, commits := v.commits.set zone z.lastCommit }
def Saved.killStrand (v : Saved) (k : Nat) (drop : Bool) : Saved :=
  let x := v.strands.getD k {}
  let v := if drop && x.inHandler then v.dropReturned k else v
  let v := match x.task with
    | some o => v.endTask (coreZone (strandCore k)) o
    | none => v
  v.dropStrand k
/-- A cancelled operation (R316, R357, R372, R390). -/
def Op.cancel (o : Op) : Op := { o with held := [], shadowed := false, st := o.st.toCancelled }
def Op.cancelElems (o : Op) : Op := { o.cancel with total := o.done.length, pos := o.done.length, data := ⟨[]⟩ }
def State.cancelOp (s : State) (i : Nat) : State :=
  s.withOp i fun o =>
    let s := s.forgetRequests (· == o.who.asker)
    if o.isSparse then (s.dropQueue o).setOp i o.cancelElems
    else if o.kind.isColl then (s.setOp i o.unheld).endColl o 4
    else s.setOp i o.cancel
def State.killSavedOp (s : State) (p i : Nat) : State :=
  match ((s.part p).saved.bind fun v => v.ops[i]?) with
  | none => s
  | some o =>
    let s := s.mapSaved p fun v =>
      if o.isSparse then { v.dropQueue o with ops := v.ops.set i o.cancelElems }
      else if o.kind.isColl then { v with ops := v.ops.set i o.unheld }
      else { v with ops := v.ops.set i o.cancel }
    if o.kind.isColl then s.endColl o 4 else s
def State.killFound (s : State) (f : Found) (drop : Bool) : State :=
  match f with
  | .none => s
  | .strand k => (if drop && (s.strand k).inHandler then s.dropReturned k else s).killStrand k
  | .savedStrand p k => s.mapSaved p fun v => v.killStrand k drop
  | .op i => s.cancelOp i
  | .savedOp p i => s.killSavedOp p i

/-- KILL (R408). -/
def execKill (d : Reg) (a : Src) (m : BitVec 32) (s : State) : Res :=
  s.privileged
    (match s.resolveTarget (s.g a).toNat with
     | .error n => .next (s.setG d (BitVec.ofNat 64 n))
     | .ok f => .next ((s.killFound f (m.getLsbD 0)).setG d 0#64))

/-! ## MBXRD and MBXACK (R392, R409, R410, R460) -/

def State.setMailbox (s : State) (core : Nat) (rs : List MbxRecord) : State :=
  let z := s.zone (coreZone core)
  s.setZone (coreZone core) (if s.isPrimary core then { z with mbx := rs } else { z with mbxStandby := rs })
def MbxRecord.handle (r : MbxRecord) : Nat := 8 * r.slot + r.index
/-- The eight doubleword stores of a record to physical memory, checked as such; the first that fails traps. -/
def State.storeWords (s0 : State) (a : Word) (x : Nat) : Nat → Nat → State → Except Res State
  | 0, _, s => .ok s
  | n + 1, i, s =>
    let va := a + BitVec.ofNat 64 (8 * i)
    match s.check .store va 8 with
    | .trap t => .error (s0.trap t)
    | .defer t => .error (s0.deferFault t)
    | .hold w s => .error (.next ((s0.raised s).hold w))
    | .remote _ _ _ => .error (s0.trap (protAt 0 .store va))
    | .ok pa _ s =>
      let w := bits x (64 * i) 64
      s0.storeWords a x n (i + 1) (if paIsSystem pa then s.sysWrite pa 8 w else s.writeShared none pa 8 w)

/-- MBXRD (R409). -/
def execMbxrd (d : Reg) (a : Src) (m : BitVec 32) (s : State) : Res :=
  s.privileged
    (if (s.g a).toNat % 64 ≠ 0 then s.trapAt causeMisaligned (s.g a)
     else
       let core := s.selfCore
       let s := s.drainCore core
       match (s.ownMailbox core).find? fun r => !r.read with
       | none => if m.getLsbD 0 then .next (s.hold .record) else .next (s.setG d minusOne)
       | some r =>
         match s.storeWords (s.g a) r.body.toNat 8 0 s with
         | .error e => e
         | .ok s =>
           let rs := (s.ownMailbox core).map fun q => if q.handle == r.handle then { q with read := true } else q
           .next ((s.setMailbox core rs).setG d (BitVec.ofNat 64 r.handle)))

/-- A freed record lets the oldest report that waits for its slot in (R392). -/
def State.admitReport (s : State) (zone slot : Nat) (standby : Bool) : State :=
  let z := s.zone zone
  let fits (q : Report) : Bool := q.zone == zone && q.slot == slot && (q.standby && z.hasStandby) == standby
  match s.reports.find? fits with
  | none => s
  | some q =>
    let s := { s with reports := s.reports.erase q }
    let recs := if standby then z.mbxStandby else z.mbx
    match freeIndex recs slot with
    | none => { s with reports := q :: s.reports }
    | some i =>
      let recs := recs ++ [{ slot := slot, index := i, body := q.body }]
      s.setZone zone (if standby then { z with mbxStandby := recs } else { z with mbx := recs })
/-- The ring that a forwarded record goes to. -/
def forwardRing (m : BitVec 32) (body : BitVec 512) : Nat := if m.getLsbD 1 then bits body.toNat 202 6 else physicalFn

/-- MBXACK (R410, R460). -/
def execMbxack (d : Reg) (a : Src) (m : BitVec 32) (s : State) : Res :=
  s.privileged
    (let core := s.selfCore
     match (s.ownMailbox core).find? fun r => r.read && BitVec.ofNat 64 r.handle == s.g a with
     | none => .next (s.setG d 1#64)
     | some r =>
       let fn := forwardRing m r.body
       if m.getLsbD 0 && (s.ring fn).full then .next (s.setG d 2#64)
       else
         let s := if m.getLsbD 0 then s.ringPush fn r.body else s
         let s := s.setMailbox core ((s.ownMailbox core).filter fun q => q.handle != r.handle)
         .next ((s.admitReport (coreZone core) r.slot (!s.isPrimary core)).setG d 0#64))

/-! ## MAPSET and ROUTESET (R411, R412) -/

/-- MAPSET (R411): the pair is held until the zone has taken the new row. -/
def execMapset (d : Reg) (a b : Src) (s : State) : Res :=
  s.privileged
    (let zone := s.selfZone
     let r := (s.g a).toNat
     if s.badMap zone (s.g a) (s.g b) then .next (s.setG d 1#64)
     else if s.mapBusy zone r (s.g b) then .next (s.setG d 2#64)
     else s.answered fun s => .next ((s.settlePages.mapRow zone r (s.g b)).setG d 0#64))

def routePt (v : Word) : Bool := v.getLsbD 0
def routeDr (v : Word) : Bool := v.getLsbD 1
/-- The site form of ROUTESET. -/
def State.routeSite (s : State) (a v : Word) : State × Nat :=
  let row := bits a.toNat 12 4
  let col := bits a.toNat 8 4
  let site := siteOf s.selfZone row col
  if a.toNat &&& 0xFF00 ≠ a.toNat ∨ 4 ≤ v.toNat ∨ 11 < row ∨ 11 < col ∨ routePt v ≠ routeDr v then (s, 1)
  else if s.deadSite site then (s, if routePt v then 0 else 1)
  else if routePt v then (s.quarantine site 0, 0) else (s, 0)
/-- ROUTESET of a router (R412). -/
def execRoutesetSite (d : Reg) (a b : Src) (s : State) : Res :=
  s.privileged
    (let r := s.routeSite (s.g a) (s.g b)
     .next (r.1.setG d (BitVec.ofNat 64 r.2)))

/-- The widest width that a number of good lanes allows (R452). -/
def widest (good : Nat) : Lanes := if 4 ≤ good then .x4 else if 2 ≤ good then .x2 else .x1
/-- A direction held at its widest, through WIDENING when narrower (R453). -/
def LinkDir.holdWide (l : LinkDir) : LinkDir :=
  if l.lanes == widest l.goodLanes then (if l.st == .narrowing then { l with st := .steady } else l) else { l with st := .widening }
def Port.configure (p : Port) (threshold : Nat) (noshed : Bool) : Port :=
  let p := { p with threshold := threshold, noshed := noshed }
  if noshed then { p with tx := p.tx.holdWide, rx := p.rx.holdWide } else p
/-- ROUTESET of a Thrumuth port (R412). -/
def execRoutesetPort (d : Reg) (a b : Src) (s : State) : Res :=
  s.privileged
    (let w := (s.g a).toNat
     let v := (s.g b).toNat
     let port := bits w 0 7
     if w ≠ 2 ^ 31 + port ∨ 95 < port ∨ v &&& 0x13F ≠ v ∨ bits v 0 6 = 0 then .next (s.setG d 1#64)
     else .next ((s.setPort port ((s.port port).configure (bits v 0 6) (bitAt v 8))).setG d 0#64))

/-! ## PARTCTL (R185, R186, R413) -/

/-- A PARTCTL request holds its pair until it is done, and answers a status. -/
def State.partctl (s : State) (d : Reg) (f : State → State × Nat) : Res :=
  s.privileged
    (s.answered fun s =>
      let r := f s
      .next (r.1.setG d (BitVec.ofNat 64 r.2)))
/-- A status other than 0 changes nothing. -/
def State.refuse (s : State) (n : Nat) : State × Nat := (s, n)
/-- The zones of a mask that no other partition holds and that are in service. -/
def State.zonesFree (s : State) (mask : Word) (own : Option Nat) : Bool :=
  mask != 0#64 && (List.range 64).all fun z => !mask.getLsbD z
    || (!(s.zone z).outOfService && (match s.zonePart z with
      | none => true
      | some p => some p == own))
/-- A zone joins a partition: R246, R245, R317, R336, and its task unit and lines are empty. The zone's atelier cores, which belong to
no partition, keep their channels and records. DEDUCED (log 128). -/
def State.joinZone (s : State) (z : Nat) : State :=
  let lo := sramPa (siteOf z 0 0) 0
  let hi := lo + 2 ^ 42
  { s with
    mem := s.mem.filter fun c => !(lo ≤ c.1 && c.1 < hi)
    poison := s.poison.filter fun g => !(lo / 64 ≤ g && g < hi / 64)
    tiles := s.tiles.mapValues fun t x => if siteZone t == z then { sramBad := x.sramBad, sramFailed := x.sramFailed } else x
    cores := s.cores.mapValues fun c x =>
      if !coreIsAtelier c && coreZone c == z then
        { last := x.last, cycBase := x.cycBase, lastBeat := x.lastBeat, dead := x.dead, stopped := x.stopped }
      else x
    messages := s.messages.filter fun m => coreIsAtelier m.srcCore || (coreZone m.srcCore != z && coreZone m.target != z) }.setZone z { s.zone z with tasks := [], lastCommit := 0#64 }
def maskZones (m : Word) : List Nat := (List.range 64).filter fun z => m.getLsbD z
def State.joinZones (s : State) (zs : List Nat) : State := zs.foldl (fun s z => s.joinZone z) s
def presentIn (s : State) (mask : Word) : Nat := natSum ((maskZones mask).map fun z => (s.presentTiles z).length)
/-- R186 on partition `p` with `present` tiles and floor `f`. -/
def State.floorOk (s : State) (p present f : Nat) : Bool :=
  let others := natSum ((s.livePartsOf.filter (· != p)).map fun q => (s.part q).floor)
  present ≤ f && others + f ≤ Config.minPool
/-- Selected launches and placed records of a partition that ends. -/
def State.forgetLaunches (s : State) (p : Nat) : State :=
  { s with launches := ⟨s.launches.entries.filter fun e => e.2.part != p⟩ }
/-- An existing partition's number. -/
def State.partNo (s : State) (a : Word) (f : Nat → State × Nat) : State × Nat :=
  if 64 ≤ a.toNat ∨ !(s.part a.toNat).live then s.refuse 1 else f a.toNat

/-- CREATE. The floor starts at the lowest that R186 admits. A partition number in use, and an empty mask, for which R413 lists no
status, answer BADARG. DESIGN CHOICE (log 123). -/
def State.createPart (s : State) (p mask tenant : Word) : State × Nat :=
  if 64 ≤ p.toNat ∨ 64 ≤ tenant.toNat ∨ (s.part p.toNat).live ∨ !s.zonesFree mask none then s.refuse 1
  else
    let n := presentIn s mask
    if !s.floorOk p.toNat n n then s.refuse 3
    else
      let x : Partition := { tenant := tenant.toNat, zones := mask, live := true, floor := n, frozen := s.frozen tenant.toNat }
      ((s.joinZones (maskZones mask)).setPart p.toNat x, 0)
/-- PARTCTL CREATE (R413). -/
def execPartctlCreate (d : Reg) (a b : Src) (c : Reg) (m : BitVec 32) (s : State) : Res :=
  s.partctl d fun s => if m.toNat % 256 ≠ 0 then s.refuse 1 else s.createPart (s.g a) (s.g b) (s.gr c)

/-- PARTCTL RESIZE (R185, R413). -/
def execPartctlResize (d : Reg) (a b : Src) (_ : Reg) (_ : BitVec 32) (s : State) : Res :=
  s.partctl d fun s => s.partNo (s.g a) fun p =>
    let q := s.part p
    let mask := s.g b
    if !s.zonesFree mask (some p) then s.refuse 1
    else if s.partBound p then s.refuse 2
    else if !s.floorOk p (presentIn s mask) (max q.floor (presentIn s mask)) then s.refuse 3
    else
      let s' := s.joinZones (maskZones (mask &&& ~~~q.zones))
      let s' := (maskZones (q.zones &&& ~~~mask)).foldl (fun s z => s.leaveZone z) s'
      (s'.setPart p { q with zones := mask, floor := max q.floor (presentIn s mask) }, 0)
/-- PARTCTL DESTROY (R413). Selected launches and placed records that have not been bound go with the partition, and nothing is posted
for them: R413 does not say what becomes of them. DESIGN CHOICE (log 124). -/
def execPartctlDestroy (d : Reg) (a _ : Src) (_ : Reg) (_ : BitVec 32) (s : State) : Res :=
  s.partctl d fun s => s.partNo (s.g a) fun p =>
    if s.partBound p then s.refuse 2
    else
      let s' := (maskZones (s.part p).zones).foldl (fun s z => s.leaveZone z) (s.forgetLaunches p)
      (s'.setPart p {}, 0)
/-- PARTCTL FLOOR (R186, R413). -/
def execPartctlFloor (d : Reg) (a b : Src) (_ : Reg) (_ : BitVec 32) (s : State) : Res :=
  s.partctl d fun s => s.partNo (s.g a) fun p =>
    let f := (s.g b).toNat
    if !s.floorOk p (presentIn s (s.part p).zones) f then s.refuse 3 else (s.setPart p { s.part p with floor := f }, 0)

/-- A queue descriptor that breaks R10 or a range (R187). -/
def badQueueDescriptor (x p : Nat) : Bool :=
  let wdt := bits x 104 24
  bits x 128 384 != 0 || bits x 99 5 != 0 || bits x 90 6 != 0 || bits x 64 16 != 0
    || wdt < 10 || 10000000 < wdt || bits x 80 4 < 4 || 12 < bits x 80 4 || bits x 0 8 != 0 || bits x 84 6 != p
/-- The descriptor at a physical address, if it can be read whole; R187 names no status of its own for one that cannot, and
QCREATE answers BADARG. DESIGN CHOICE (log 84). -/
def State.readDescriptor (s : State) (a : Word) : Option Nat :=
  let pa := a.toNat
  if 2 ^ 52 ≤ pa ∨ !paIsHbm pa ∨ !paIsHbm (pa + 63) ∨ s.poisonedIn pa 64 then none
  else some (s.readPa pa 32 + s.readPa (pa + 32) 32 * 2 ^ 256)
/-- QCREATE. -/
def State.createQueue (s : State) (sel a tenant : Word) : State × Nat :=
  let p := bits sel.toNat 5 6
  let qn := bits sel.toNat 0 5
  if 2 ^ 11 ≤ sel.toNat ∨ 64 ≤ tenant.toNat ∨ !(s.part p).live then s.refuse 1
  else match s.readDescriptor a with
    | none => s.refuse 1
    | some x =>
      let s := (s.touch a.toNat).touch (a.toNat + 63)
      if badQueueDescriptor x p then s.refuse 1
      else if (s.queue p qn).st != .off then s.refuse 2
      else if (s.part p).tenant ≠ tenant.toNat then s.refuse 4
      else
        let q : Queue :=
          { st := .idle, base := BitVec.ofNat 64 (bits x 0 64), log2n := bits x 80 4, wdtUs := bits x 104 24
            qprio := BitVec.ofNat 3 (bits x 96 3) }
        (s.setQueue p qn (if (s.part p).frozen then { q with st := .frozen, prior := .idle } else q), 0)
/-- PARTCTL QCREATE (R187, R413). -/
def execPartctlQcreate (d : Reg) (a b : Src) (c : Reg) (_ : BitVec 32) (s : State) : Res :=
  s.partctl d fun s => s.createQueue (s.g a) (s.g b) (s.gr c)
/-- PARTCTL QDELETE (R192, R413). -/
def execPartctlQdelete (d : Reg) (a _ : Src) (_ : Reg) (_ : BitVec 32) (s : State) : Res :=
  s.partctl d fun s =>
    let sel := (s.g a).toNat
    let p := bits sel 5 6
    if 2 ^ 11 ≤ sel ∨ !(s.part p).live then s.refuse 1
    else (s.setQueue p (bits sel 0 5) (s.queue p (bits sel 0 5)).disable, 0)

/-- SETREG (R268, R304, R413): register `r` of partition or tenant `n`. -/
def State.setReg (s : State) (r n : Nat) (v : Word) : State × Nat :=
  let x := v.toNat
  let p := s.part n
  let onPart (bad : Bool) (q : Partition) : State × Nat := if bad ∨ !p.live then s.refuse 1 else (s.setPart n q, 0)
  match r with
  | 0 => if bits x 52 12 ≠ 0 ∨ bits x 0 12 ≠ 0 then s.refuse 1 else (s.setModule { s.module with pgroot := v }, 0)
  | 1 => if bits x 0 4 ≠ 0 then s.refuse 1 else (s.setTenant n { s.tenant n with ptroot := v }, 0)
  | 2 => onPart (bits x 57 7 != 0 || bits x 1 14 != 0) { p with kvroot := v }
  | 3 => onPart (bits x 57 7 != 0 || bits x 0 12 != 0) { p with ovbase := v }
  | 4 => onPart (bits x 32 32 != 0 || bits x 0 12 != 0) { p with ovstr := v }
  | 5 =>
    if (bits x 57 7 ≠ 0 ∨ bits x 1 2 ≠ 0) ∨ !p.live then s.refuse 1
    else if !s.pinned (v &&& ~~~7#64) then s.refuse 3 else (s.setPart n { p with kvsh := v }, 0)
  | 6 => onPart false { p with kvsharg := v }
  | _ => s.refuse 1
/-- PARTCTL SETREG (R413). -/
def execPartctlSetreg (d : Reg) (a b : Src) (_ : Reg) (_ : BitVec 32) (s : State) : Res :=
  s.partctl d fun s =>
    let x := (s.g a).toNat
    if 2 ^ 11 ≤ x ∨ bitAt x 4 then s.refuse 1 else s.setReg (bits x 0 4) (bits x 5 6) (s.g b)

/-- PARTCTL FREEZE (R413, R429). -/
def execPartctlFreeze (d : Reg) (a _ : Src) (_ : Reg) (_ : BitVec 32) (s : State) : Res :=
  s.partctl d fun s => if 64 ≤ (s.g a).toNat then s.refuse 1 else (s.freezeTenant (s.g a).toNat, 0)

/-- A queue as a release returns it, its timers having stood still (R192, R429). -/
def Queue.release (q : Queue) (stood : Nat) : Queue :=
  if q.st == .frozen then { q with st := q.prior, firstRead := q.firstRead.map (· + stood), nextRead := 0 } else q
/-- A PAUSE that was running at `since` stood still for `ns` (R429). -/
def Strand.stood (x : Strand) (since ns : Nat) : Strand :=
  match x.st with
  | .waiting (.pause u) => { x with st := .waiting (.pause (if u ≤ since then u else u + ns)) }
  | _ => x
def Partition.release (p : Partition) (since stood : Nat) : Partition :=
  { p with
    frozen := false, queues := p.queues.mapValues fun _ q => q.release stood
    saved := p.saved.map fun v => { v with strands := v.strands.mapValues fun _ x => x.stood since stood } }
/-- R430: every partition of the tenant returns to the state it held. -/
def State.releaseTenant (s : State) (t : Nat) : State :=
  if !(s.tenant t).frozen then s
  else
    let stood := s.time - (s.tenant t).frozenSince
    { s.setTenant t { s.tenant t with frozen := false } with
      parts := s.parts.mapValues fun _ p => if p.live && p.tenant == t then p.release (s.tenant t).frozenSince stood else p
      strands := s.strands.mapValues fun k x => if s.tenantOf k == t then x.stood (s.tenant t).frozenSince stood else x
      launches := s.launches.mapValues fun _ l => if l.tenant == t && !l.saved && (s.part l.part).gang != .stopping
          && (s.part l.part).gang != .saving && (s.part l.part).gang != .restoring then l.unpause s.time else l }
/-- PARTCTL RELEASE (R413, R430). -/
def execPartctlRelease (d : Reg) (a _ : Src) (_ : Reg) (_ : BitVec 32) (s : State) : Res :=
  s.partctl d fun s => if 64 ≤ (s.g a).toNat then s.refuse 1 else (s.releaseTenant (s.g a).toNat, 0)

/-- PARTCTL RESET (R413, R428, R430): the partition drains, and the answer comes with its reset. A save that has begun completes
first (R421). A pair whose A slot is to trap asks for nothing (R37). -/
def execPartctlReset (d : Reg) (a _ : Src) (_ : Reg) (_ : BitVec 32) (s : State) : Res :=
  s.privileged
    (let p := (s.g a).toNat
     let q := s.part p
     let saves := q.gang == .saving || (q.gang == .stopping && !q.frozen)
     if 64 ≤ p ∨ !q.live then (s.answered fun s => .next (s.setG d 1#64))
     else match s.grant with
       | some _ =>
         let s := s.useGrant
         if q.resetDue && saves then .next (s.hold .answer)
         else
           let s := if q.resetDue && q.gang == .stopping then s.startDrain p q.drainSts else s
           .next ((if (s.part p).gang == .draining then s.drainReset p else s).setG d 0#64)
       | none =>
         if s.cur.doomed then .next s
         else
           let s := s.setPart p { q with resetDue := true }
           .next ((if q.gang == .draining || saves then s else s.startDrain p 4#4).hold .answer))

/-- PARTCTL SAVEAREA (R413, R422, R423): its control word starts at 0. -/
def execPartctlSavearea (d : Reg) (a b : Src) (c : Reg) (_ : BitVec 32) (s : State) : Res :=
  s.partctl d fun s => s.partNo (s.g a) fun p =>
    let base := (s.g b).toNat
    let size := (s.gr c).toNat
    if base % 4096 ≠ 0 ∨ 2 ^ 52 ≤ base ∨ !paIsHbm base ∨ (0 < size ∧ !paIsHbm (base + size - 1)) then s.refuse 1
    else if (s.part p).saved.isSome || (s.part p).gang != .running then s.refuse 2
    else ((s.writePa base 64 0).setPart p { s.part p with saveBase := base, saveSize := size, gen := 0#32 }, 0)

/-! ## TOKSET and RFT (R414, R415) -/

/-- TOKSET OP 0, and the values of OP that it refuses (R414). -/
def execToksetCap (d : Reg) (a b : Src) (m : BitVec 32) (s : State) : Res :=
  s.privileged
    (let z := (s.g a).toNat
     if 64 ≤ z ∨ m.toNat % 4 ≠ 0 ∨ 2 ^ 20 ≤ (s.g b).toNat then .next (s.setG d 1#64)
     else .next ((s.setZone z { s.zone z with cap := (s.g b).toNat }).setG d 0#64))
/-- TOKSET OP 1 (R414): the bits go at the next armature cycle. -/
def execToksetClear (d : Reg) (a b : Src) (_ : BitVec 32) (s : State) : Res :=
  s.privileged
    (let z := (s.g a).toNat
     if 64 ≤ z ∨ 32 ≤ (s.g b).toNat then .next (s.setG d 1#64)
     else .next ((s.setZone z { s.zone z with clear := (s.zone z).clear ||| (s.g b).extractLsb' 0 5 }).setG d 0#64))

/-- RFT (R415). -/
def execRft (m : BitVec 32) (s : State) : Res :=
  s.privileged (if (s.core s.selfCore).intrap then .next (s.returnFromTrap (m.getLsbD 0)) else s.illegal)

end Sys2Proof.Machine
end

