-- ==== Sys2Proof/Machine/Atomic.lean ====
section
/-! DEFINITION. Scoped loads and stores, atomics, fences and cache operations (12 R293–R300, 11 R279, R287). A core's
earlier accesses complete before one of these takes effect, so each orders at every scope; the spec allows that. -/

namespace Sys2Proof.Machine

/-- A read that takes place as its pair issues: the line is charged, conflicting tasks start again, the bytes are read. -/
def State.readNow (s : State) (va : Word) (pa n : Nat) (cached : Option (Nat × Nat)) : State × Nat :=
  let s := ((s.touch pa).account va pa cached .read).touchLine s.selfTag (pa / 64)
  (s, if paIsSystem pa then s.sysRead pa n else s.readPa pa n)
/-- LDA (R293): the value is read at once, before every later access; the register fills when it arrives. -/
def execLda (d : Reg) (base : Src) (sz : BitVec 2) (_ : BitVec 3) (off : Ext 6) (s : State) : Res :=
  let n := sizeOf sz
  let va := s.g base + offsetOf off n
  s.afterDrain fun s =>
    match s.check .load va n with
    | .ok pa cached s' =>
      if s'.speculative && bufferable s'.selfZone pa (s'.bufferLine va cached) then s.load (.load false) (destG d) va n
      else s'.gated fun s => let r := s.readNow va pa n cached; .next (r.1.issueValue (destG d) r.2)
    | _ => s.load (.load false) (destG d) va n
/-- STL (R293): every earlier access completes before the store. -/
def execStl (d : Reg) (base : Src) (sz : BitVec 2) (_ : BitVec 3) (off : Ext 6) (s : State) : Res :=
  s.afterDrain fun s => s.store (s.g base + offsetOf off (sizeOf sz)) (sizeOf sz) (s.data d)

/-! ## AMO (R295–R297) -/

/-- What an AMO writes, none for a failed CAS. All numbers are of width `w` bits (R295). -/
def amoResult (aop w old b cmp : Nat) : Option Nat :=
  let so := signed w old
  let sb := signed w b
  match aop with
  | 0 => some ((old + b) % 2 ^ w)
  | 1 => some (old &&& b)
  | 2 => some (old ||| b)
  | 3 => some (old ^^^ b)
  | 4 => some (if so ≤ sb then old else b)
  | 5 => some (if so ≤ sb then b else old)
  | 6 => some (min old b)
  | 7 => some (max old b)
  | 8 => some b
  | _ => if old = cmp then some b else none

/-- Where an AMO on a cached line runs (R287): near, in the requester's L1, or far, at the home; through a window at the home
(R450). -/
def State.amoVia (s : State) (va : Word) : Option Nat := (s.viaAt va).filter fun _ => Config.amoNear s.free
/-- AMONEAR and AMOFAR (R313): the predictor's choice is a free value; scratch runs at the network interface, the
strand's own carve-out locally. -/
def State.countAmo (s : State) (va : Word) (pa : Nat) : State :=
  if s.inAtelier then s
  else
    let t := s.tenant s.selfTenant
    let far := s.setTenant s.selfTenant { t with amofar := t.amofar + 1#64 }
    if paIsScratch pa then (if inStack va then s else far)
    else if (s.amoVia va).isSome then s.setTenant s.selfTenant { t with amonear := t.amonear + 1#64 } else far

/-- The write of an AMO that runs through L1 `via`, none for a failing CAS: only a write makes the page dirty and names a last
dirtier. -/
def State.amoWrite (s : State) (via : Option Nat) (pa n : Nat) (cached : Option (Nat × Nat)) : Option Nat → State
  | some x => (s.touch pa).storeVisible s.payer s.selfTag cached via pa n x
  | none => ((s.touch pa).accountVia via pa cached .own).touchLine s.selfTag (pa / 64)
/-- An AMO at `va` that has passed its checks: counted where it runs, and the predictor's free value is used up. -/
def State.amoAt (s : State) (va : Word) (pa n : Nat) (cached : Option (Nat × Nat)) (y : Option Nat) : State :=
  let via := s.amoVia va
  { (s.countAmo va pa).amoWrite via pa n cached y with free := s.free + 1 }
/-- One AMO (R295, R296). -/
def State.amo (s : State) (aop : Nat) (d : Reg) (a b : Src) (w : Bool) : Res :=
  let n := if w then 8 else 4
  let va := s.g a
  let bv := (s.g b).toNat % 2 ^ (8 * n)
  let cmp := (s.gr d).toNat % 2 ^ (8 * n)
  s.afterDrain fun s =>
    match s.check .amo va n with
    | .trap t => s.trap t
    | .defer t => s.deferFault t
    | .hold wt s => .next (s.hold wt)
    | .remote m at' s =>
      match s.grant with
      | some gr => s.answerRemote (destG d) gr fun x => x % 2 ^ (8 * n)
      | none => s.gated fun s => s.askRemote m .amo at' [n, aop, bv, cmp]
    | .ok pa cached s =>
      s.gated fun s =>
        let old := s.readPa pa n
        .next ((s.amoAt va pa n cached (amoResult aop (8 * n) old bv cmp)).issueValue (destG d) old)

/-- AMO.add (R295). -/
def execAmoAdd (d : Reg) (a b : Src) (w : Bool) (_ : BitVec 2) (s : State) : Res := s.amo 0 d a b w
/-- AMO.and (R295). -/
def execAmoAnd (d : Reg) (a b : Src) (w : Bool) (_ : BitVec 2) (s : State) : Res := s.amo 1 d a b w
/-- AMO.or (R295). -/
def execAmoOr (d : Reg) (a b : Src) (w : Bool) (_ : BitVec 2) (s : State) : Res := s.amo 2 d a b w
/-- AMO.xor (R295). -/
def execAmoXor (d : Reg) (a b : Src) (w : Bool) (_ : BitVec 2) (s : State) : Res := s.amo 3 d a b w
/-- AMO.min (R295). -/
def execAmoMin (d : Reg) (a b : Src) (w : Bool) (_ : BitVec 2) (s : State) : Res := s.amo 4 d a b w
/-- AMO.max (R295). -/
def execAmoMax (d : Reg) (a b : Src) (w : Bool) (_ : BitVec 2) (s : State) : Res := s.amo 5 d a b w
/-- AMO.minu (R295). -/
def execAmoMinu (d : Reg) (a b : Src) (w : Bool) (_ : BitVec 2) (s : State) : Res := s.amo 6 d a b w
/-- AMO.maxu (R295). -/
def execAmoMaxu (d : Reg) (a b : Src) (w : Bool) (_ : BitVec 2) (s : State) : Res := s.amo 7 d a b w
/-- AMO.swap (R295). -/
def execAmoSwap (d : Reg) (a b : Src) (w : Bool) (_ : BitVec 2) (s : State) : Res := s.amo 8 d a b w
/-- AMO.cas (R295): g[D] is compared, then receives the old value. -/
def execAmoCas (d : Reg) (a b : Src) (w : Bool) (_ : BitVec 2) (s : State) : Res := s.amo 9 d a b w

/-! ## FENCE, PREF, FLUSH, INV (R298–R300) -/

/-- FENCE (R298): the core's earlier accesses complete before any later one. -/
def execFence (_ : BitVec 3) (_ : BitVec 2) (s : State) : Res := .next (s.drainCore s.selfCore)

/-- PREF, FLUSH and INV do nothing to scratch, the stack window, or another module (R300, R450). -/
def outsideCaches (va : Word) : Bool :=
  let k := windowOf va
  k == 0x1FE || k == 0x1FF || (0x100 ≤ k && k < 0x180)

/-- PREF (R299, R300): never traps; an address that fails any check drops the prefetch. A marked frame that the search or the walk ended
in is zeroed all the same (R465). -/
def execPref (a : Src) (scope : BitVec 3) (kind : BitVec 2) (s : State) : Res :=
  let va := s.g a
  if va.toNat < 2 ^ 57 && outsideCaches va then .next s
  else match s.check .load va 1 with
    | .ok pa (some c) s => .next ((s.touch pa).chargeFor s.payer c (pa / 64) (if scope = 0#3 then s.viaAt va else none)
        (if scope = 0#3 ∧ kind = 1#2 then .own else .read))
    | .trap t => .next (s.faultMet t)
    | .defer t => .next (s.faultMet t)
    | _ => .next s

/-- The checks of FLUSH and INV (R300), and what they do to a line: in atelier mode to every copy of the physical one (R391, R481). One of
a quarantined slice waits for the MAPSET (R438). -/
def State.cacheOp (s : State) (va : Word) (f : State → Nat → State) : Res :=
  let act (s : State) (lines : List Nat) : Res :=
    match s.heldLine lines with
    | some site => .next (s.hold (.remap site))
    | none => .next (lines.foldl f s)
  if s.inAtelier then
    (if va.toNat ≥ 2 ^ 52 then s.trap (protAt 0 .load va) else act s (s.linesOf (va.toNat / 64)))
  else if va.toNat ≥ 2 ^ 57 then s.trap (protAt 0 .load va)
  else if outsideCaches va then .next s
  else match s.protect s.who .load va with
    | .error t => s.trap t
    | .ok (_, s) => act s [va.toNat / 64]

/-- The core's L1 writes its dirty copy of a line back to the home and keeps it clean. -/
def State.cleanCopy (s : State) (line core : Nat) : State :=
  match s.l2.find? line with
  | none => s
  | some x => if x.sharers.contains (2 * core) then { s with l2 := s.l2.set line { x with atHome := true } } else s
/-- FLUSH (R299): the core's own copy goes to the home; beyond the core, a dirty line is written back to its frame and stays valid. -/
def execFlush (a : Src) (scope : BitVec 3) (s : State) : Res :=
  s.cacheOp (s.g a) fun s line => if scope = 0#3 then s.cleanCopy line s.selfCore else s.forceWriteBack line
/-- INV (R299): the line leaves both L1s of the core, or beyond it every cache, dirty copies written back first. -/
def execInv (a : Src) (scope : BitVec 3) (s : State) : Res :=
  s.cacheOp (s.g a) fun s line =>
    if scope = 0#3 then s.dropCopies line fun c => c / 2 == s.selfCore
    else s.dropLines line (line + 1)

end Sys2Proof.Machine
end

