-- ==== Sys2Proof/Machine/Errors.lean ====
section
/-! DEFINITION. Errors as events: heartbeats and dead cores, the atelier takeover, tile-state and SRAM errors, mesh retries,
error counters, the zeroing of frames and the scrubber, wear (19 R431–R436, 21 R465–R468, 27 R487). -/

namespace Sys2Proof.Machine

/-! ## Heartbeats (R434, R435) -/

def State.period (s : State) : Nat := s.time / 50000
/-- Three whole periods in a row have passed since the last heartbeat. -/
def State.silentCore (s : State) (core : Nat) : Bool := max (s.core core).lastBeat s.module.beatFrom + 3 ≤ s.period
/-- Cores that send no heartbeat: those of a tile whose SRAM has failed, of a quarantined or retired site, and atelier
cores that have stopped. -/
def State.sendsBeat (s : State) (core : Nat) : Bool :=
  if coreIsAtelier core then !(s.core core).stopped
  else !(s.tile (coreSite core)).sramFailed && !s.deadSite (coreSite core)

/-- HEARTBEAT (R434): core `input.core` sends its heartbeat of the present period. -/
def execHeartbeat (s : State) : Res :=
  let c := s.input.core
  .next (if s.sendsBeat c then s.setCore c { s.core c with lastBeat := s.period + 1 } else s)

/-- CORE_DEAD (R434): core `input.core` has missed three whole periods; one record. -/
def execCoreDead (s : State) : Res :=
  let c := s.input.core
  let x := s.core c
  if !s.module.ateliersStarted || coreIsAtelier c || 2 * 9216 ≤ c || s.deadSite (coreSite c) || x.dead || !s.silentCore c
      || (s.zone (coreZone c)).outOfService then .next s
  else .next ((s.setCore c { x with dead := true }).siteReport c 0)

/-- Where an unfreed record reappears: in its own place if that is free, else in its slot's lowest free one. -/
def placeRecord (recs : List MbxRecord) (r : MbxRecord) : Option MbxRecord :=
  if recs.any fun q => q.slot == r.slot && q.index == r.index then
    (freeIndex recs r.slot).map fun i => { r with index := i, read := false }
  else some { r with read := false }
/-- The old primary's records stand, unread and in order, after those that the new primary has; one that finds its slot
full waits as a report does. -/
def moveRecords (zone : Nat) : List MbxRecord → List MbxRecord → List MbxRecord × List Report
  | [], recs => (recs, [])
  | r :: t, recs =>
    match placeRecord recs r with
    | some q => moveRecords zone t (recs ++ [q])
    | none =>
      let m := moveRecords zone t recs
      (m.1, { zone := zone, standby := false, slot := r.slot, body := r.body } :: m.2)
/-- The standby has received the record of R403. -/
def Zone.stopRecord (z : Zone) : Bool := z.mbxStandby.any fun r => r.slot == 290
def Zone.primaryCore (z : Zone) (zone : Nat) : Nat := atelierCore zone z.primary
def Zone.standbyCore (z : Zone) (zone : Nat) : Nat := atelierCore zone (1 - z.primary)
/-- R435, items 1 to 3. -/
def State.takeover (s : State) (zone : Nat) : State :=
  let z := s.zone zone
  let old := z.primaryCore zone
  let m := moveRecords zone z.mbx z.mbxStandby
  let s := s.setCore old { s.core old with stopped := true }
  { s.setZone zone { z with primary := 1 - z.primary, hasStandby := false, mbx := m.1, mbxStandby := [] } with
    reports := m.2 ++ s.reports }
/-- ATELIER_TAKEOVER (R435): the standby of zone `input.zone` becomes its primary. -/
def execAtelierTakeover (s : State) : Res :=
  let zone := s.input.zone
  let z := s.zone zone
  if 64 ≤ zone || !s.module.ateliersStarted || !z.hasStandby || (s.core (z.standbyCore zone)).stopped
      || !(s.silentCore (z.primaryCore zone) || z.stopRecord) then .next s
  else .next (s.takeover zone)

/-- An atelier core is lost: stopped, or silent. -/
def State.lostAtelier (s : State) (core : Nat) : Bool := (s.core core).stopped || s.silentCore core
/-- ZONE_OUT_OF_SERVICE (R435): zone `input.zone` has lost both atelier cores. Its partition begins to drain, and the zone
leaves it with the reset. -/
def execZoneOutOfService (s : State) : Res :=
  let zone := s.input.zone
  let z := s.zone zone
  let lost := s.lostAtelier (z.primaryCore zone) && (!z.hasStandby || s.lostAtelier (z.standbyCore zone))
  if 64 ≤ zone || !s.module.ateliersStarted || z.outOfService || !lost then .next s
  else
    let s := s.setZone zone { z with outOfService := true }
    let s := s.hostReport 4 (BitVec.ofNat 64 zone)
    .next (match s.zonePart zone with
      | some p => s.orderDrain p 4#4
      | none => s)

/-! ## Tile state (R398, R436) -/

/-- An uncorrectable parity error in the registers of a strand that runs pinned code (R398): a KIND 5 record to the standby,
and the abort of a mailbox handler, whose earlier accesses complete (R174, R292); a shadow handler ends. -/
def State.pinnedError (s : State) (k : Nat) : State :=
  let x := s.strand k
  let core := strandCore k
  let msgid := match x.handler with
    | some run => (run.msgs.head?.map (·.msgid)).getD 0#32
    | none => 0#32
  let tc := if x.inHandler then 512 + causeHwUncorrectable.toNat else causeHwUncorrectable.toNat
  let s := match x.inShadow, (s.tile (strandSite k)).shadow with
    | true, some run => s.shadowError k run { cause := causeHwUncorrectable }
    | _, _ => s.hardwareReport k tc { cause := causeHwUncorrectable }
  if x.inShadow then
    { s with cur := { strand := k, before := x } }.endShadow k { cause := causeHwUncorrectable }
  else
    let s := match x.handler with
      | some run => s.abortHandler core run
      | none => s
    s.setStrand k
      { x with
        st := .parked, tcause := BitVec.ofNat 10 tc, taddr := 0#64, tinfo := 0#64, msgid := msgid
        handler := x.handler.map fun run => { run with slots := [], held := [] } }
/-- An error in the directory handler that serves a line with more than four sharers (R253, R398): the line is poisoned at its home,
and the tile's SC, whose hidden context it is, is reported. -/
def State.directoryError (s : State) (line : Nat) : State :=
  match s.l2.find? line with
  | none => s
  | some x =>
    match (s.physCore? (2 * x.home)).map coreSite with
    | none => s
    | some site =>
      if x.sharers.length ≤ 4 || s.silent site then s
      else
        (s.poisonLine line).report
          { zone := siteZone site, standby := true, slot := coreMbxSlot (2 * site)
            body := recordBody 5 (((s.zonePart (siteZone site)).getD 0)) x.filler false causeHwUncorrectable.toNat 0
              (strandTarget (strandOf (2 * site) 0)) 0#64 0#64 0#64 0#64 }
/-- TILE_STATE_ERROR (R398, R436): an uncorrectable error in the state of site `input.site`; with `input.flag` in the register
set of strand `input.strand`; with `input.level` 1 in the directory handler that serves line `input.off`. A tile whose SRAM has
failed raises no record of its own (R487). -/
def execTileStateError (s : State) : Res :=
  let x := s.strand s.input.strand
  if s.input.level = 1 then .next (s.directoryError s.input.off)
  else if s.silent (if s.input.flag then strandSite s.input.strand else s.input.site) then .next s
  else if s.input.flag && (x.inHandler || x.inShadow) && x.st != .dormant then .next (s.pinnedError s.input.strand)
  else
    let site := if s.input.flag then strandSite s.input.strand else s.input.site
    if 9216 ≤ site then .next s else .next (s.quarantine site 0x0B)

/-! ## Errors in storage (R431, R432, R487) -/

/-- What an access or a patrol reads. -/
inductive Storage where
  /-- granule `off` of a tile's 3 MiB of SRAM: user scratch, carve-outs, the L2 slice -/
  | sram
  /-- granule `off` of a tile store: 4 × row + granule -/
  | store
  /-- row `off` of the accumulators: 64 × AC + row -/
  | accumulator
  /-- granule `off` of the carry store: 128 × slot + granule -/
  | carry
  /-- a line of an L1, instructions or clean data, or its tag: line `off` of L1 `level` of the tile, 0 and 1 the SC's data and
  instructions, 2 and 3 the CC's -/
  | l1
  /-- entry `off` of the PLB of core `level` of the tile -/
  | plb
  /-- a register copy: the other one is read -/
  | register
  /-- line `off` (VA / 64) that an L1 of the tile holds dirty -/
  | dirtyL1
  deriving DecidableEq, Repr
def storageOf (n : Nat) : Storage :=
  match n with
  | 0 => .sram
  | 1 => .store
  | 2 => .accumulator
  | 3 => .carry
  | 4 => .l1
  | 5 => .dirtyL1
  | 6 => .plb
  | _ => .register
/-- Storage under parity, whose errors the counter PARRF counts (R431, R432). -/
def Storage.parity (w : Storage) : Bool := w == .l1 || w == .plb || w == .register

/-- Granules of a tile's SRAM, and the bank of one: 16 banks of 192 KiB (R19). -/
abbrev sramGranules : Nat := 3 * 2 ^ 20 / 64
def sramBank (g : Nat) : Nat := 64 * g / (192 * 1024)
/-- The carve-out byte at a place of a tile's carve-out part, counted from its start. -/
def carveAt (cs : List (Nat × Carve)) (a : Nat) : Option Nat :=
  match cs with
  | [] => none
  | c :: t => if a < c.2.size then some (c.2.base + a) else carveAt t (a - c.2.size)
/-- Granule `g` of a tile's SRAM is uncorrectable: the user scratch or carve-out there is poisoned, or the cached line whose data the
L2 slice keeps there; which line that is, if any, is a free value (R244, R431). -/
def State.loseGranule (s : State) (site g : Nat) : State :=
  let usz := s.userScratch site
  let slice := 3 * 2 ^ 20 - (s.tile site).s2
  if 64 * g < usz then s.poisonAt (sramPa site (64 * g))
  else if 64 * g < slice then
    match carveAt ((s.core (2 * site)).carves.entries ++ (s.core (2 * site + 1)).carves.entries) (64 * g - usz) with
    | some off => s.poisonAt (sramPa site off)
    | none => s
  else
    let home := (s.tileNo? site).getD 0
    let lines := (s.l2.entries.filter (homedAt home)).map (·.1)
    let s := { s with free := s.free + 1 }
    match lines[Config.sliceLine s.free % ((s.tile site).s2 / 64)]? with
    | some line => s.poisonLine line
    | none => s

def Zone.countSram (z : Zone) : Zone := { z with sramce := satInc z.sramce }
def Zone.countParity (z : Zone) : Zone := { z with parrf := satInc z.parrf }
/-- The query or accumulator rows that granule `g` of a carry block holds parts of (R349); their poison bits are PR. -/
def carryRows (g : Nat) : Nat := if g < 2 then 0xFF else if g < 34 then 2 ^ ((g - 2) / 4) else if g < 98 then 2 ^ ((g - 34) / 8) else 0
/-- Rows of a carry slot become poisoned (R350, R431). -/
def Tile.poisonCarry (t : Tile) (slot rows : Nat) : Tile :=
  let h := t.carry.readN (8192 * slot) 64
  let n := bits h 225 3 + 1
  let pr := bits h 230 8 ||| (rows % 2 ^ n)
  { t with carry := t.carry.writeN (8192 * slot) 64 (h - bits h 230 8 * 2 ^ 230 + pr * 2 ^ 230) }
/-- An uncorrectable error becomes poison. -/
def State.loseData (s : State) (site : Nat) (w : Storage) (off : Nat) : State :=
  let t := s.tile site
  match w with
  | .sram =>
    if sramGranules ≤ off then s
    else (s.setTile site { t with sramBad := setInsert off t.sramBad }).loseGranule site off
  | .store =>
    if 4 * Config.storeRows (tileType site) ≤ off then s
    else s.setTile site ((t.poisonGranule off).remeta (off / 4) (t.rowMeta.getD (off / 4) {}).me.toNat)
  | .accumulator => s.setTile site { t with accPoison := setInsert off t.accPoison }
  | .carry => if t.carryValid.contains (off / 128) then s.setTile site (t.poisonCarry (off / 128) (carryRows (off % 128))) else s
  | .l1 => s
  | .plb => s
  | .register => s
  | .dirtyL1 =>
    match s.l2.find? off with
    | some x => if x.dirtier.isSome && !x.atHome && x.sharers.any fun c => c / 4 == site then s.poisonLine off else s
    | none => s
/-- A parity error drops the entry, and the next use fetches it again (R431). -/
def State.refetch (s : State) (site : Nat) (w : Storage) (off level : Nat) : State :=
  let core := 2 * site + level % 2
  match w with
  | .l1 =>
    let l1 := 4 * site + level % 4
    if (s.l2.find? off).any fun x => x.dirtier.isSome && !x.atHome && x.sharers == [l1] then s else s.giveUp off l1
  | .plb => s.setCore core { s.core core with plb := (s.core core).plb.eraseIdx off }
  | _ => s
/-- SRAM_PATROL_READ (R431, R432, R487): the patrol or an access reads storage `input.item` of site `input.site` at `input.off`
and finds `input.found`. An uncorrectable granule of the SRAM calls for a sweep of its bank. -/
def execSramPatrolRead (s : State) : Res :=
  let site := s.input.site
  let w := storageOf s.input.item
  let zone := siteZone site
  if 9216 ≤ site then .next s
  else match s.input.found with
    | .clean => .next s
    | .correctable =>
      let z := s.zone zone
      .next ((s.setZone zone (if w.parity then z.countParity else z.countSram)).refetch site w s.input.off s.input.level)
    | .uncorrectable => .next (s.loseData site w s.input.off)

/-- The cores of a tile stop. -/
def State.stopTile (s : State) (site : Nat) : State :=
  [2 * site, 2 * site + 1].foldl (fun s c => s.setCore c { s.core c with stopped := true }) s
/-- SRAM_BANK_SWEEP (R487): the sweep of bank `input.item` of site `input.site`, which held an uncorrectable granule, ends;
`input.bad` are the bank's further uncorrectable granules. Eight distinct ones make the tile's SRAM failed. -/
def execSramBankSweep (s : State) : Res :=
  let site := s.input.site
  let b := s.input.item
  let t := s.tile site
  let known := t.sramBad.filter fun g => sramBank g == b
  let more := ((s.input.bad.filter fun g => g < sramGranules && sramBank g == b && !known.contains g)).dedup
  if 9216 ≤ site || t.sramFailed || known.isEmpty then .next s
  else
    let failed := decide (8 ≤ known.length + more.length)
    let s := s.setTile site { t with sramBad := t.sramBad.filter fun g => sramBank g != b, sramFailed := failed }
    let s := more.foldl (fun s g => s.loseGranule site g) s
    .next (if failed then s.stopTile site else s)

/-- One retry of a flit on a mesh link, and whether the flit failed again. -/
def Zone.retryLink (z : Zone) (link : Nat) (fails : Bool) : Zone :=
  let z := { z with meshrt := satInc z.meshrt }
  let n := if fails then z.linkFails.getD link 0 + 1 else 0
  if n < 16 then { z with linkFails := if n = 0 then z.linkFails.erase link else z.linkFails.set link n }
  else { z with linkFails := z.linkFails.erase link, deadLinks := setInsert link z.deadLinks, meshrl := satInc z.meshrl }
/-- MESH_FLIT_RETRY (R431, R432): a flit on mesh link `input.item` of zone `input.zone` is retried; `input.flag` says that it
failed again. Routes take other links once one is retired, and the order of R286 stands. -/
def execMeshFlitRetry (s : State) : Res :=
  let z := s.zone s.input.zone
  if 64 ≤ s.input.zone || z.deadLinks.contains s.input.item then .next s
  else .next (s.setZone s.input.zone (z.retryLink s.input.item s.input.flag))

/-- ERROR_COUNTER_CLEAR (R432): a store of `input.value` to offset `input.off` of the error page of zone `input.zone`. -/
def execErrorCounterClear (s : State) : Res :=
  if 64 ≤ s.input.zone || s.module.fwfail then .next s else .next (s.errorWrite s.input.zone s.input.off s.input.value)

/-! ## Zeroing and the scrubber (R465, R466) -/

/-- FIRST_TOUCH_ZEROING (R465): the first access reaches frame `input.off` (PA / 4096); its controller zeroes it. -/
def execFirstTouchZeroing (s : State) : Res := .next (s.zeroFrame s.input.off)

abbrev stackFrames : Nat := 2 ^ 24
/-- The first marked frame of a stack at or after frame `n`, given the unmarked ones in rising order. -/
def nextMarked (n : Nat) : NatSet → Nat
  | [] => n
  | f :: t => if f = n then nextMarked (n + 1) t else if f < n then nextMarked n t else n
def State.scrubNext (s : State) (stack : Nat) : Nat :=
  nextMarked (stack * stackFrames + s.module.scrubNext.getD stack 0) s.zeroed
/-- The zeroing pass of a stack is over. -/
def State.scrubDone (s : State) (stack : Nat) : Bool := (stack + 1) * stackFrames ≤ s.scrubNext stack
/-- SCRUB_ZEROING_PASS (R466): the scrubber of stack `input.stack` zeroes its next marked frame. -/
def execScrubZeroingPass (s : State) : Res :=
  let k := s.input.stack
  if !s.module.ready || 40 ≤ k || s.scrubDone k then .next s
  else
    let f := s.scrubNext k
    let s := s.zeroFrame f
    .next (s.setModule { s.module with scrubNext := s.module.scrubNext.set k (f + 1 - k * stackFrames) })
/-- An uncorrectable granule of HBM is poisoned. A marked frame keeps its mark, and its zeroing clears that poison (R465). A line that
a cache holds is served from there, and its write-back clears the poison beneath it (R260, R433). -/
def State.loseHbm (s : State) (pa : Nat) : State :=
  if s.marked (pa / 4096) then { s with poison := setInsert (granuleOf pa) s.poison }
  else if (s.cachedAt pa).isSome then
    { s with l2 := s.l2.mapValues fun _ x => if x.frame = pa / 64 then { x with below := true } else x }
  else s.poisonAt pa
/-- SCRUB_READ_PASS (R431, R466): the scrubber of stack `input.stack`, or with `input.flag` any access, reads the line at physical
address 64 × `input.off` and finds `input.found`. A correction changes no value; poison is never cleared. -/
def execScrubReadPass (s : State) : Res :=
  let k := s.input.stack
  let pa := 64 * s.input.off
  let scrubs := !s.input.flag
  if 40 ≤ k || pa / Config.hbmStackBytes ≠ k || (scrubs && (!s.module.ready || !s.scrubDone k)) then .next s
  else match s.input.found with
    | .uncorrectable =>
      let s := s.loseHbm pa
      .next (if scrubs then s.setModule { s.module with scrubErrors := s.module.scrubErrors + 1 } else s)
    | _ => .next s

/-! ## Wear (R467, R468) -/

/-- One sample, in hundredths of a degree; `x` holds m in LOW and x in HIGH. -/
def Sensor.sample (w : Sensor) (t : Int) : Sensor :=
  match w.x with
  | none => { w with x := some t }
  | some m =>
    if w.high then
      let x := max m t
      if t ≤ x - 4000 then { w with high := false, x := some t } else { w with x := some x }
    else
      let m := min m t
      if m + 4000 ≤ t then { c := satInc w.c, high := true, x := some t } else { w with x := some m }
/-- WEAR_SENSOR_SAMPLE (R467): sensor `input.item` (0–63 a zone's, 64–103 a stack's) reads `input.temp`. -/
def execWearSensorSample (s : State) : Res :=
  let i := s.input.item
  if 104 ≤ i then .next s
  else .next (s.setModule { s.module with sensors := s.module.sensors.set i ((s.module.sensors.getD i {}).sample s.input.temp) })
/-- WEAR_RECORD_WRITE (R468): the counts go to the stored record. -/
def execWearRecordWrite (s : State) : Res := .next (if s.module.powered && !s.module.fwfail then s.writeRecord else s)

end Sys2Proof.Machine
end

