-- ==== Sys2Proof/Machine/Boot.lean ====
section
/-! DEFINITION. Start-up from power-good to READY, module reset and power loss, the maquette as firmware builds it, and
the host's registers (19 R439, 21 R458–R466, R469, 22 R471, R473, 12 R313). -/

namespace Sys2Proof.Machine

/-! ## Power-good, firmware, the stored results (R463, R464, R468, R469) -/

/-- The sensors with the counts of the stored record, the newest copy's (R468). -/
def Module.loadWear (m : Module) : FMap Sensor :=
  ⟨(List.range 104).map fun i => (i, { c := (m.copies.headD {}).wear.getD i (Config.storedWear i) })⟩
/-- POWER_GOOD (R463, R465, R468): wafer time starts at 0, and every HBM frame is marked. -/
def execPowerGood (s : State) : Res :=
  let m := s.module
  if m.powered then .next s
  else .next ({ s with time := 0, zeroed := [] }.setModule { m with powered := true, sensors := m.loadWear })

/-- An image is accepted (R469). -/
def Module.accepts (m : Module) (i : FirmwareImage) : Bool := i.hashOk && i.rsaOk && i.slhOk && m.fwsvn.ule i.svn
/-- The bytes that stand in the recovery window (R461, R469). -/
def State.recoveryBytes (s : State) : List (Nat × Byte) :=
  s.mem.filter fun c => paIsSystem c.1 && 0x10000000 ≤ c.1 % 2 ^ 48 && c.1 % 2 ^ 48 < 0x14000000
/-- The image to verify: the one in the recovery window where the host has written one, else flash's own, `input.image`. -/
def State.offeredImage (s : State) : Option FirmwareImage :=
  match s.recoveryBytes with
  | [] => s.input.image
  | b =>
    let r := Config.recoveryImage b
    some { hashOk := r.1, rsaOk := r.2.1, slhOk := r.2.2.1, svn := r.2.2.2.1, commit := r.2.2.2.2.1, hash := r.2.2.2.2.2 }
/-- What the rim controller's verdict leaves of the module. -/
def Module.judge (m : Module) (i : FirmwareImage) : Module :=
  let m := { m with imageHash := some i.hash }
  if m.accepts i then { m with fwOk := true, commitSvn := if i.commit then some i.svn else none } else { m with fwfail := true }
/-- FIRMWARE_VERIFICATION (R463, R469): the rim controller judges the image; without one there is nothing to accept. -/
def execFirmwareVerification (s : State) : Res :=
  let m := s.module
  if !m.powered || m.fwOk || m.fwfail then .next s
  else match s.offeredImage with
    | none => .next (s.setModule { m with fwfail := true })
    | some i => .next (s.setModule (m.judge i))

/-- Sites that a self-test finds dead. -/
def selfTestSites : NatSet := (List.range 9216).filter fun t => Config.selfTestDead (siteZone t) (siteRow t) (siteCol t)
/-- The record that flash was shipped with: free values, and the operand's defect list. -/
def shippedRecord (r : StoredResults) : FlashRecord :=
  { training := ⟨(List.range 40).map fun k => (k, Config.shippedTraining k)⟩
    serials := ⟨(List.range 40).map fun k => (k, Config.shippedSerial k)⟩
    equalisation := ⟨(List.range 98).map fun k => (k, Config.shippedEqualisation k)⟩
    defects := (r.defects.map fun d => siteOf d.1 d.2.1 d.2.2).foldl (fun t x => setInsert x t) [] }
/-- A stack must train in full: its serial or data mismatch, or there are none. -/
def FlashRecord.staleStack (f : FlashRecord) (r : StoredResults) (k : Nat) : Bool :=
  !r.sigOk || r.badStacks.contains k || (f.training.find? k).isNone
def FlashRecord.stalePort (f : FlashRecord) (r : StoredResults) (k : Nat) : Bool :=
  !r.sigOk || r.badPorts.contains k || (f.equalisation.find? k).isNone
/-- What record `f` leaves to train in full, and its defects; `r` is what the rim controller finds of it. A record whose signature
fails is no record at all. Sites retired before now stay on the list. -/
def Module.useRecord (m : Module) (f : FlashRecord) (r : StoredResults) : Module :=
  { m with
    recordChecked := true, bootSt := .training
    training := f.training.keep fun k => !f.staleStack r k
    serials := f.serials.keep fun k => !f.staleStack r k
    equalisation := f.equalisation.keep fun k => !f.stalePort r k
    fullTrain := (List.range 40).filter (f.staleStack r)
    fullTrainPorts := (List.range 96).filter (f.stalePort r)
    defects := mergeSets m.defects (if r.sigOk && r.defectsOk then f.defects else selfTestSites) }
/-- STORED_RESULTS_CHECK (R463, R464): the rim controller reads the newest copy in flash; `input.record` is what it finds of it. Without
one, a record that this machine wrote verifies and matches, and flash as it was shipped holds none. -/
def execStoredResultsCheck (s : State) : Res :=
  let m := s.module
  let r := s.input.record.getD
    { sigOk := !m.copies.isEmpty, defectsOk := true, badStacks := [], badPorts := [], defects := [] }
  if !m.fwOk || m.recordChecked then .next s
  else .next (s.setModule (m.useRecord (m.copies.headD (shippedRecord r)) r))

/-- HBM_TRAINING_COMPLETE (R463, R464): stack `input.stack` is trained. After a full training, whose data are `input.value` and whose
stack has serial `input.off`, a new record is written. -/
def execHbmTrainingComplete (s : State) : Res :=
  let m := s.module
  let k := s.input.stack
  if !m.recordChecked || 40 ≤ k || m.stacksTrained.contains k then .next s
  else
    let m' := { m with stacksTrained := setInsert k m.stacksTrained, fullTrain := m.fullTrain.filter (· != k) }
    .next
      (if m.fullTrain.contains k then
         (s.setModule
           { m' with training := m.training.set k s.input.value, serials := m.serials.set k (BitVec.ofNat 64 s.input.off) }).writeRecord
       else s.setModule m')
/-- A port trains in full after READY, to equalisation `input.value`, and a new record is written (R464). -/
def State.equalise (s : State) (k : Nat) : State :=
  let m := s.module
  (s.setModule
    { m with fullTrainPorts := m.fullTrainPorts.filter (· != k), equalisation := m.equalisation.set k s.input.value }).writeRecord
/-- PORT_TRAINING_COMPLETE (R458, R463, R464): port `input.port` comes up; one that must train in full does so after READY. 96 and 97
are the two PCIe ports, which train from power-good on. -/
def execPortTrainingComplete (s : State) : Res :=
  let m := s.module
  let k := s.input.port
  let full := m.fullTrainPorts.contains k
  if k = 96 ∨ k = 97 then .next (if m.powered then s.setModule { m with pcieUp := setInsert (k - 96) m.pcieUp } else s)
  else if !m.recordChecked || 96 ≤ k || (s.port k).trained || (full && !m.ready) then .next s
  else
    let s' := (s.setPort k { s.port k with up := true, trained := true, lastArrival := s.time, lastSent := s.time, failedAt := none, settled := [] }).flush
    .next (if full then s'.equalise k else s')

/-! ## The maquette at boot (R439, R473) -/

/-- The live sites of a row, in ascending order. -/
def liveCols (dead : BitVec 12) : List Nat := (List.range 12).filter fun c => !dead.getLsbD c
/-- Row `q` can lend its column 11: of the same type, live, not in its own map, not lent. -/
def canLend (zdef : Nat → BitVec 12) (lent : List Nat) (r q : Nat) : Bool :=
  q < 12 && Config.rowType q == Config.rowType r && (liveCols (zdef q)).length == 12 && !lent.contains q
/-- The lender of row `r`: row r + 1 before row r − 1. -/
def lenderOf (zdef : Nat → BitVec 12) (lent : List Nat) (r : Nat) : Option Nat :=
  if canLend zdef lent r (r + 1) then some (r + 1)
  else if 0 < r && canLend zdef lent r (r - 1) then some (r - 1) else none
def nibbles (cols : List Nat) : Nat := cols.reverse.foldl (fun n c => 16 * n + c) 0
/-- ABS bits of the columns from `c` to 10. -/
def absFrom (c : Nat) : Nat := 2 ^ 44 * (2 ^ 11 - 2 ^ min c 11)
/-- The word of row `r`, and the row that lends to it. -/
def bootRow (zdef : Nat → BitVec 12) (lent : List Nat) (r : Nat) : Word × Option Nat :=
  let own := (liveCols (zdef r)).take 11
  let n := own.length
  if n = 11 then (BitVec.ofNat 64 (nibbles own), none)
  else match lenderOf zdef lent r with
    | none => (BitVec.ofNat 64 (nibbles own + absFrom n), none)
    | some q =>
      (BitVec.ofNat 64 (nibbles own + absFrom (n + 1) + n * 2 ^ 58 + (if q = r + 1 then 2 else 1) * 2 ^ 62), some q)
/-- The words of rows `r` onwards (R439). -/
def bootRows (zdef : Nat → BitVec 12) : Nat → Nat → List Nat → List Word
  | 0, _, _ => []
  | n + 1, r, lent =>
    let w := bootRow zdef lent r
    w.1 :: bootRows zdef n (r + 1) (w.2.toList ++ lent)
/-- The maquette of one zone is built. -/
def State.buildZone (s : State) (z : Nat) : State :=
  let words := bootRows (fun r => (s.zone z).zdef.getD r 0#12) 12 0 []
  (List.range 12).foldl (fun s r => s.mapRow z r (words.getD r 0#64)) s

/-- ZDEF takes the stored defect list, and its dead sites count as retired (R437, R473). -/
def State.mergeDefects (s : State) : State :=
  let s := s.module.defects.foldl (fun s t => s.setZdef t) s
  { s with zones := s.zones.mapValues fun _ z =>
      { z with retired := (List.range 144).filter fun t => (z.zdef.getD (t / 12) 0#12).getLsbD (t % 12) } }
/-- An atelier core begins with one strand at its firmware's entry, which the spec does not name. -/
def State.startAtelier (s : State) (core : Nat) : State :=
  let s := s.setCore core { cycBase := s.time }
  s.setStrand (strandOf core 0)
    { st := .ready, birth := .atelier, pc := Config.atelierEntry (core - atelierBase) &&& ~~~7#64 }
/-- ATELIER_CORES_START (R463, R473): ZDEF is merged, the atelier cores start, and every maquette is built under R439. With
`input.flag` the firmware of the atelier cores builds the maquettes itself, pair by pair. -/
def execAtelierCoresStart (s : State) : Res :=
  let m := s.module
  let replayed := (List.range 40).all fun k => m.fullTrain.contains k || m.stacksTrained.contains k
  if !m.recordChecked || m.ateliersStarted || !replayed then .next s
  else
    let s := s.mergeDefects
    let s := (List.range 128).foldl (fun s i => s.startAtelier (atelierBase + i)) s
    let s := s.setModule { s.module with ateliersStarted := true, bootSt := .building, beatFrom := s.time / 50000 + 1 }
    .next (if s.input.flag then s else (List.range 64).foldl (fun s z => s.buildZone z) s)

/-- Every zone in service has its twelve rows (R471). -/
def State.allBuilt (s : State) : Bool :=
  (List.range 64).all fun z => (s.zone z).outOfService || (List.range 12).all fun r => (s.zone z).mapped.contains r
/-- MODULE_READY (R463, R469): the armature starts, READY becomes 1, and a committed image raises FWSVN. -/
def execModuleReady (s : State) : Res :=
  let m := s.module
  if !m.ateliersStarted || m.ready || !((List.range 40).all fun k => m.stacksTrained.contains k) || !s.allBuilt then .next s
  else .next (s.setModule
    { m with
      ready := true, bootSt := .running, cycle := ceilDiv s.time 10000, armPhase := 0
      fwsvn := m.commitSvn.getD m.fwsvn, commitSvn := none })

/-! ## Module reset and power loss (R435, R437, R464, R468, R469, R471) -/

/-- What a module reset leaves of the module: what power-good's steps have found out, the stored record, and wear. -/
def Module.afterReset (m : Module) : Module :=
  { fwsvn := m.fwsvn, powered := m.powered, fwOk := m.fwOk, fwfail := m.fwfail, recordChecked := m.recordChecked
    bootSt := if m.recordChecked then .training else .verifying
    stacksTrained := m.stacksTrained, fullTrain := m.fullTrain, fullTrainPorts := m.fullTrainPorts, defects := m.defects
    commitSvn := m.commitSvn, imageHash := m.imageHash, pcieUp := m.pcieUp
    training := m.training, serials := m.serials, equalisation := m.equalisation
    copies := m.copies, recordWrites := m.recordWrites, sensors := m.sensors
    scrubNext := m.scrubNext, scrubErrors := m.scrubErrors }
/-- MODULE_RESET (R8, R435, R437, R471): every register takes its reset value, every maquette row is absent, sites stand as
the fused map and the defect list give. Wafer time, memory and the trained links stay. -/
def execModuleReset (s : State) : Res :=
  .next
    { State.reset with
      ports := s.ports.mapValues fun _ p => { p with threshold := 8, noshed := false }
      time := s.time, mem := s.mem, poison := s.poison, zeroed := s.zeroed, module := s.module.afterReset
      hostAbsent := s.hostAbsent, outputs := s.outputs, free := s.free, input := s.input, agenda := s.agenda }

/-- Bytes that outlive the power: the host's memory and the flash window. -/
def outlives (pa : Nat) : Bool :=
  paIsHost pa || (paIsSystem pa && 0x10000000 ≤ pa % 2 ^ 48 && pa % 2 ^ 48 < 0x14000000)
/-- POWER_LOSS (R464, R468): everything goes but flash: the copies of the stored record with the counts last written to them, FWSVN,
and the recovery window. With `input.flag` the loss comes during a write, and leaves the copy that is not being written alone. -/
def execPowerLoss (s : State) : Res :=
  let m := s.module
  .next
    { State.reset with
      mem := s.mem.filter fun c => outlives c.1
      module :=
        { fwsvn := m.fwsvn, recordWrites := m.recordWrites, copies := if s.input.flag then m.copies.take 1 else m.copies }
      hostAbsent := s.hostAbsent, outputs := s.outputs, free := s.free, input := s.input, agenda := s.agenda }

/-! ## Host registers (R7, R190, R261, R444, R459–R462) -/

/-- A write of the module page by the PF, once a PCIe port presents it (R463). -/
def State.pfWrite (s : State) (off : Nat) (v : Word) : State := if s.answers physicalFn then s.moduleWrite off v else s
/-- PCAP_WRITE (R212, R462): the PF writes `input.value`. -/
def execPcapWrite (s : State) : Res := .next (s.pfWrite 0 s.input.value)
/-- SHOOTDOWN_GO (R261, R462): the PF writes `input.value`, with GO, to SHCTL. -/
def execShootdownGo (s : State) : Res := .next (if s.input.value.getLsbD 0 then s.pfWrite 0x20 s.input.value else s)
/-- SHCTL_CLRE (R462): the PF writes `input.value`, with CLRE, to SHCTL. -/
def execShctlClre (s : State) : Res := .next (if s.input.value.getLsbD 2 then s.pfWrite 0x20 s.input.value else s)
/-- SHOOTDOWN_COMPLETE (R261, R262): accesses under the old mapping have taken place, what tasks have buffered under it begins
again, the range's lines are written back and gone, and what waited for the end of a flip goes on. A line that is held for a
quarantined home has not been written back before the MAPSET (R438). -/
def execShootdownComplete (s : State) : Res :=
  let m := s.module
  .next (if m.shBusy && (s.heldIn (m.shva / 64) (m.shva / 64 + m.shcnt * 64)).isNone then s.settlePages.finishShootdown.retryWrites
    else s)
/-- HREQ (R462): the PF writes `input.value` to HREQ. -/
def execHreq (s : State) : Res := .next (s.pfWrite 0x38 s.input.value)
/-- HRLOST_CLEAR (R462): the PF writes `input.value` to MSTAT. -/
def execHrlostClear (s : State) : Res := .next (s.pfWrite 0x08 s.input.value)

/-- EVENT_RING_TAIL_WRITE (R460): function `input.fn` has its host write `input.value` to EVTAIL. -/
def execEventRingTailWrite (s : State) : Res := .next (if s.ringAnswers s.input.fn then s.ringWrite s.input.fn 24 s.input.value else s)
/-- EVENT_RING_CONFIG_WRITE (R460): a write of EVBASE (`input.off` = 0) or EVCTL (8). -/
def execEventRingConfigWrite (s : State) : Res :=
  .next (if s.ringAnswers s.input.fn && (s.input.off == 0 || s.input.off == 8) then s.ringWrite s.input.fn s.input.off s.input.value else s)
/-- SPAN_CONFIG_WRITE (R444): the PF writes `input.value` at offset `input.off` of the span page of partition `input.part`. -/
def execSpanConfigWrite (s : State) : Res :=
  .next (if s.answers physicalFn && !s.module.fwfail then s.spanWrite s.input.part s.input.off s.input.value else s)

/-- QPRIO (R190). -/
def Queue.writePrio (q : Queue) (v : Word) : Queue := if 8 ≤ v.toNat then q.bad else { q with qprio := v.extractLsb' 0 3 }
/-- REGISTER_WRITE (R7, R190, R461, R462): with `input.flag` a host writes `input.value` to QPRIO of a queue, or with
`input.off` 8 to QSTAT; otherwise the PF writes eight bytes at offset `input.off` of system space. -/
def execRegisterWrite (s : State) : Res :=
  if s.input.flag then
    s.onQueue fun s p q => s.setQueue p q
      (if s.input.off = 8 then (s.queue p q).writeStat s.input.value else (s.queue p q).writePrio s.input.value)
  else if s.input.off % 8 ≠ 0 ∨ 2 ^ 30 ≤ s.input.off ∨ !s.answers physicalFn then .next s
  else .next (s.sysWrite (4 * 2 ^ 48 + s.input.off) 8 s.input.value.toNat)

/-- What kick page `p` of tenant `fn` reads at an aligned offset (R459): queues, launch watermarks, the tenant's counters and event
ring; the page of a partition that is not the tenant's reads zero. -/
def State.kickPage (s : State) (fn p off : Nat) : Nat :=
  let q := s.queue p (off / 64)
  let t := s.tenant (s.part p).tenant
  if !s.answers fn || !(s.part p).live || (s.part p).tenant != fn then 0
  else if off < 0x800 then
    (match off % 64 with
     | 0 => q.pend
     | 8 => q.qstat
     | 24 => q.qprio.toNat
     | _ => 0)
  else if off < 0x880 then ((s.part p).ldoneOf ((off - 0x800) / 8)).toNat
  else if 0xE00 ≤ off ∧ off < 0xE20 then (s.ring (s.part p).tenant).readReg (off - 0xE00)
  else match off with
    | 0xC00 => t.l2fill.toNat
    | 0xC08 => t.l2wb.toNat
    | 0xC10 => t.l2xhit.toNat
    | 0xC18 => t.l2wbf.toNat
    | 0xC20 => t.dirovf.toNat
    | 0xC28 => t.amonear.toNat
    | 0xC30 => t.amofar.toNat
    | _ => 0

/-- A page is refused: a strand that waits for it traps at its pair; every other held access meets that at its next try. -/
def State.refusePage (s : State) (r : PageRequest) : State :=
  match r.asker with
  | .nobody => s
  | .strand k =>
    let x := s.strand k
    if x.st != .waiting .pri then { s with hostRefused := r :: s.hostRefused }
    else if s.silentStrand k then s
    else
      let acc := ([Acc.load, .store, .fetch, .amo].find? fun a => a.code = r.acc).getD .load
      let t := { s with cur := { strand := k, before := { x with st := .ready } } }.takeTrap r.slotA (refusedPage acc r.va)
      { t with cur := {} }
  | _ => { s with hostRefused := r :: s.hostRefused }
/-- A page is there: a strand that asked goes on. -/
def State.admitted (s : State) (r : PageRequest) : State :=
  match r.asker with
  | .strand k => if (s.strand k).st == .waiting .pri then s.wake k else s
  | _ => s
/-- Two requests of one function for one page. -/
def PageRequest.same (r q : PageRequest) : Bool := q.fn == r.fn && q.page == r.page
/-- PRI_RESPONSE (R458): the host answers page request `input.index`, and with it every request of that function for that page; with
`input.flag` it refuses. A page that is there ends a refusal that nothing has met. `input.bad` names host pages that the host has
meanwhile taken away from function `input.fn`'s ATS. -/
def execPriResponse (s : State) : Res :=
  let s := { s with hostAbsent := s.input.bad.foldl (fun t x => setInsert (s.input.fn * 2 ^ 40 + x) t) s.hostAbsent }
  match s.pri[s.input.index]? with
  | none => .next s
  | some r =>
    let t := { s with pri := s.pri.filter fun q => !r.same q }
    if s.input.flag then .next ((s.pri.filter r.same).foldl State.refusePage t).retryWrites
    else .next ((s.pri.filter r.same).foldl State.admitted
      { t with
        hostAbsent := setRemove (r.fn * 2 ^ 40 + r.page) t.hostAbsent
        hostRefused := t.hostRefused.filter fun q => !r.same q }).retryWrites

/-- VF_ENABLE (R313): the counters of tenant `input.tenant` start at zero. -/
def execVfEnable (s : State) : Res :=
  let n := s.input.tenant
  if 64 ≤ n then .next s
  else .next (s.setTenant n
    { s.tenant n with
      vfEnabled := true, l2fill := 0#64, l2wb := 0#64, l2xhit := 0#64, l2wbf := 0#64, dirovf := 0#64, amonear := 0#64, amofar := 0#64 })

end Sys2Proof.Machine
end

