-- ==== Sys2Proof/Machine/Span.lean ====
section
/-! DEFINITION. Spans and Thrumuth links as events: span launches, link flits with their CRC, retry, failure and
reconciliation, lane widths, and requests that reach this module (20 R443–R457, 08 R215, R216). -/

namespace Sys2Proof.Machine

/-! ## Span launches (R446) -/

/-- A share of a launch that module `origin` selected. With `input.flag` it was placed by LAUNCHI, its count already read. -/
def State.remoteShare (s : State) (i : Input) : Launch :=
  let r := BitVec.ofNat 1024 (ofBytes i.data)
  { part := i.part, tenant := (s.part i.part).tenant, queue := 32, record := r, indirect := i.flag, addr := 0#64, slotAddr := none
    prio := recPrio r, ch := recDone r, lid := 0#32, count := BitVec.ofNat 32 i.off, wdtUs := i.level, remote := i.item
    awaits := s.awaited i.part, origin := some i.module, spanUnbound := [i.module] }
/-- The number of a share that module `origin` sent: the leader gives it, and tells every other member. -/
def State.shareNumber (s : State) (i : Input) : State × Nat :=
  if s.ownModule i.part ≠ 0 then (s, i.value.toNat)
  else
    let r := s.takeNumber i.part
    (r.1.tellMembers i.part [ctlNumber, r.2, i.module], r.2)
/-- A member's present cores become known; with CSET = 0 they belong to the core set (R445, R446). -/
def Launch.learnCores (l : Launch) (counts : List (Nat × Nat)) : Launch :=
  let known := counts.foldl (fun m e => m.set e.1 e.2) l.spanCores
  { l with spanCores := known, remote := if recCset l.record then l.remote else known.values.foldl (· + ·) 0 }
/-- What SPAN_LAUNCH_SEQUENCE says of selected or bound launch `input.launch`: its number, or shares that have bound. -/
def State.spanTold (s : State) (l : Launch) : State :=
  let i := s.input
  if i.mbox = 2 then
    let own := s.ownModule l.part
    let told := if i.flag then (i.bad.mapIdx fun m n => (m, n)).filter (·.1 != own) else [(i.module, i.item)]
    let l := { l.learnCores told with spanUnbound := if i.flag then [] else setRemove i.module l.spanUnbound }
    let s := s.setLaunch i.launch l
    if l.bound && l.origin.isNone && !i.flag then s.tellBound l else s
  else if l.bound || l.spanSeq.isSome || !l.spanAsked then s
  else s.startSpan i.launch l i.value.toNat
/-- SPAN_LAUNCH_SEQUENCE (R446), in three forms by `input.mbox`. 0: selected launch `input.launch`, which has gone to the leader,
receives its number `input.value`. 1: a launch that module `input.module` selected reaches partition `input.part`, its record in
`input.data`, its count in `input.off`, its watchdog in `input.level`, its number in `input.value`. 2: member `input.module`, with
`input.item` present cores, has bound its share of launch `input.launch`; with `input.flag` every member has, and `input.bad`
holds the present cores of each from module 0 on. -/
def execSpanLaunchSequence (s : State) : Res :=
  let i := s.input
  if i.mbox = 1 then
    if !(s.part i.part).live || !(s.otherMembers i.part).contains i.module then .next s
    else .next (s.controlled i.part fun s =>
      let r := s.shareNumber i
      let l := { s.remoteShare i with spanSeq := some r.2, spanAsked := true }
      { r.1.setLaunch s.nextLaunch l with nextLaunch := s.nextLaunch + 1 })
  else match s.launch? i.launch with
    | none => .next s
    | some l => .next (s.controlled l.part fun s => s.spanTold l)

/-- Strands of a launch that had left for member `m` are gone, or at home. -/
def Launch.returned (l : Launch) (m n : Nat) (sts : BitVec 4) : Launch :=
  let k := l.abroad.getD m 0
  { l with abroad := if k ≤ n then l.abroad.erase m else l.abroad.set m (k - n), sts := if sts = 0#4 then l.sts else sts }
/-- What SPAN_SHARE_COMPLETE says of launch `n`. -/
def State.shareTold (s : State) (n : Nat) (l : Launch) : State :=
  let sts := BitVec.ofNat 4 s.input.off
  if s.input.flag then s.setLaunch n (l.returned s.input.module s.input.item sts)
  else if sts = 5#4 then
    let s := if l.origin.isNone then s.tellMembers l.part [ctlReject, l.spanSeq.getD 0] else s
    if l.bound then s.setLaunch n { l with toWake := [], spanLeft := [], spanUnbound := [], sts := 5#4 }
    else (s.leaveBinding n l).postLaunch n l 5
  else if l.origin.isSome || !l.spanLeft.contains s.input.module then s
  else s.setLaunch n { l with spanLeft := setRemove s.input.module l.spanLeft, sts := if sts = 0#4 then l.sts else sts }
/-- SPAN_SHARE_COMPLETE (R446–R448, R457): module `input.module` reports its share of launch `input.launch` complete with
status `input.off`. Status 5 is a member's rejection, and rejects the whole launch. With `input.flag`, `input.item` strands of the
launch that left for that module are gone from it, or at home there. -/
def execSpanShareComplete (s : State) : Res :=
  match s.launch? s.input.launch with
  | none => .next s
  | some l => .next (s.controlled l.part fun s => s.shareTold s.input.launch l)

/-! ## Arriving flits (R451, R452) -/

/-- Flits up to ACK leave the replay buffer. -/
def Port.acknowledge (p : Port) (ack : BitVec 12) : Port :=
  { p with
    replay := p.replay.filter fun f => 2048 ≤ (ack - f.seq).toNat
    sent := p.sent.filter fun e => 2048 ≤ (ack - e.1).toNat }
/-- One flit arrives (R452): a bad one, and every later one until the replay, is dropped with all it says, and a NAK is owed. A later
one is no further failure of the one that is owed. -/
def Port.receive (p : Port) (f : LinkFlit) (now : Nat) : Port :=
  let p := { p with lastArrival := now }
  if !f.good then { p with nakOwed := true, fails := if p.nakOwed && f.seq != p.expect then p.fails else p.fails + 1 }
  else if f.seq = p.expect then
    let p := p.acknowledge f.ack
    { p with
      expect := p.expect + 1#12, nakOwed := false, fails := 0, replayDue := p.replayDue || f.nak
      delivered := if f.cls = 6 then p.delivered else p.delivered ++ [f] }
  else if 2048 ≤ (p.expect - f.seq).toNat then { p with nakOwed := true } else p

/-! ## Requests from other modules (R449, R450, R456) -/

/-- The inner address that a window address names on this module. -/
def innerAddress (va : Word) : Word :=
  if windowOf va < 0x140 then va &&& 0x0000FFFFFFFFFFFF#64 else 0x01FF000000000000#64 ||| (va &&& 0x0000FFFFFFFFFFFF#64)
/-- The module whose tag a request carries: its sender, or the one for whose transfer another pushes a granule here (R314). -/
def Input.owner (i : Input) : Nat := i.issuer.getD i.module
/-- The end-to-end tag of a request. -/
def State.inputTag (s : State) (i : Input) : Nat := tagKey (s.spanNo i.part) i.owner (BitVec.ofNat 64 i.index)
/-- What a request asks for by `level`: 0 a load, 1 a store, 2 to 11 an AMO; from an engine 12 a store of poison, 13 a read, 14 a
write, 15 a read of a granule that goes on to `dest`, with 4 × OP + ET in `item` (R314), and from 16 on a combination, 4 × OP + ET
above (R320, R370). -/
def Input.asked (i : Input) : Acc :=
  match i.level with
  | 0 => .load
  | 1 => .store
  | 13 => .engineRead
  | 15 => .engineRead
  | l => if l < 12 then .amo else .engineWrite
/-- A fault as a response carries it: 2^512, with its cause, its reason in [15:8] and the granule's physical address from bit 16 on
(R396, R397, R449). -/
def TrapInfo.response (t : TrapInfo) : Nat := 2 ^ 512 + t.cause.toNat + t.info.toNat / 2 ^ 56 * 2 ^ 8 + t.granule * 2 ^ 16
/-- A request to a device of this module (R255, R296, R461). -/
def State.serveDevice (s : State) (i : Input) (pa n : Nat) : State × Nat :=
  if 2 ≤ i.level then (s, (protAt 2 i.asked 0#64).response)
  else if 8 < n then (s, (protAt 9 i.asked 0#64).response)
  else if pa % 2 ^ 48 < 0x14000000 then (s, (protAt 0 i.asked 0#64).response)
  else if i.level = 1 then (s.sysWrite pa n (i.wide.toNat % 2 ^ (8 * n)), 0)
  else (s, s.sysRead pa n)
/-- How an answer says that an engine's part ends RANGE, or read poison (R316, R371). -/
def rangeResponse : Nat := 2 ^ 513
def poisonMark : Nat := 2 ^ 514
/-- Another module's engine meets a line here: it is charged to the partition's tenant `t`, and rolls tasks back (R182, R312). -/
def State.farTouch (s : State) (t pa : Nat) (c : Option (Nat × Nat)) (write : Bool) : State :=
  let s := s.touch pa
  let s := match c with
    | some c => s.chargeFor (some t) c (pa / 64) none (useOf write)
    | none => s
  s.touchLine none (pa / 64)
/-- A write of `n` bytes for another module's engine, or with `op` not 0 a combination, which answers 1 where its destination is poisoned,
and 2 where it overflowed or saturated (R316, R320). -/
def State.applyPart (s : State) (t pa : Nat) (c : Option (Nat × Nat)) (n op et x : Nat) (psn : Bool) : State × Nat :=
  let s := s.farTouch t pa c true
  if psn then (s.poisonAt pa, 0)
  else if op = 0 then (s.writePa pa n x, 0)
  else if s.poisoned pa then (s, 1)
  else
    let y := combineAll op et (n / elemSize et) (s.readPa pa n) x
    (s.writePa pa n y.1, if y.2 then 2 else 0)
/-- The place that a request asks for; a combination needs R as well as W (R321, R371). -/
def State.reachFor (s : State) (t p : Nat) (combines : Bool) (acc : Acc) (va : Word) : DispReach :=
  match if combines then s.dispReach t p .engineRead va else .place 0 none s with
  | .fault x => .fault x
  | _ => s.dispReach t p acc va
/-- The places of the parts of a destination in this module: all of them, or what stands in the way. -/
def State.landAll (s : State) (t p op : Nat) : List (Nat × Nat × Nat) → DispReach × List (Nat × Option (Nat × Nat) × Nat × Nat)
  | [] => (.place 0 none s, [])
  | (a, off, len) :: rest =>
    match s.reachFor t p (op != 0) .engineWrite (innerAddress (BitVec.ofNat 64 a)) with
    | .place pa c s =>
      let l := s.landAll t p op rest
      (l.1, (pa, c, off, len) :: l.2)
    | x => (x, [])
/-- The parts of a destination take effect; their digits, to base 4, say what each came to. -/
def State.applyAll (s : State) (t op et x : Nat) (psn : Bool) : List (Nat × Option (Nat × Nat) × Nat × Nat) → State × Nat
  | [] => (s, 0)
  | (pa, c, off, len) :: rest =>
    let r := s.applyPart t pa c len op et (bits x (8 * off) (8 * len)) psn
    let q := r.1.applyAll t op et x psn rest
    (q.1, r.2 + 4 * q.2)
/-- A part of another module's engine operation at its place here. -/
def State.servePart (s : State) (i : Input) (t pa : Nat) (c : Option (Nat × Nat)) : State × Nat :=
  let n := i.off
  let x := i.wide.toNat % 2 ^ (8 * n)
  let op := (i.level - 16) / 4
  if paIsSystem pa || (paIsHost pa && 16 ≤ i.level) then (s, rangeResponse)
  else if i.asked = .engineRead then (s.farTouch t pa c false, s.readPa pa n + b2n (s.poisonedIn pa n) * poisonMark)
  else s.applyPart t pa c n op (i.level % 4) x (i.level == 12)
/-- The module to which a granule that is read here is pushed, when that is not its issuer (R314). -/
def Input.pushTo (i : Input) : Option Nat :=
  if i.level = 15 && inWindow i.dest && windowOf i.dest % 64 != i.owner then some (windowOf i.dest % 64) else none
/-- A granule that was read here goes on to its destination in this module (R314). -/
def State.pushHere (s : State) (i : Input) (t x : Nat) : State × Option Nat :=
  let op := i.item / 4
  match s.landAll t i.part op (destParts i.dest.toNat i.off) with
  | (.place _ _ s, l) =>
    if l.any fun e => paIsSystem e.1 || (paIsHost e.1 && op != 0) then (s, some rangeResponse)
    else
      let psn := poisonMark ≤ x
      let r := s.applyAll t op (i.item % 4) x psn l
      (r.1, some (r.2 + b2n psn * poisonMark))
  | (.fault f, _) => (s.faultMet f, some f.response)
  | (.later _ s, _) => (s, none)
/-- What a request comes to here: its result, or the fault that the answer reports; none while it has to wait. Its line is
charged to the partition's tenant (R312), and an AMO is counted where it runs, for that tenant (R313, log 101). -/
def State.serve (s : State) (i : Input) : State × Option Nat :=
  let p := i.part
  let t := (s.part p).tenant
  let va := innerAddress i.value
  let n := i.off
  match s.reachFor t p (decide (16 ≤ i.level)) i.asked va with
  | .fault x => (s.faultMet x, some x.response)
  | .later _ s => (s, none)
  | .place pa c s =>
    if 12 ≤ i.level then
      let r := s.servePart i t pa c
      if i.pushTo = some (s.ownModule p) && r.2 != rangeResponse then r.1.pushHere i t r.2 else (r.1, some r.2)
    else if paIsSystem pa then let r := s.serveDevice i pa n; (r.1, some r.2)
    else if i.level = 1 then (s.storeVisible (some t) none c none pa n (i.wide.toNat % 2 ^ (8 * n)), some 0)
    else if s.poisonedIn pa n then
      (s, some ({ cause := causePoison, info := accInfo i.asked, granule := pa / 64 * 64 } : TrapInfo).response)
    else
      let s := (s.touch pa).touchLine none (pa / 64)
      let x := s.readPa pa n
      let met (s : State) (how : LineUse) : State := match c with
        | some c => s.chargeFor (some t) c (pa / 64) none how
        | none => s
      if i.level = 0 then (met s .read, some x)
      else
        let w := 8 * n
        let s := s.setTenant t { s.tenant t with amofar := (s.tenant t).amofar + 1#64 }
        match amoResult (i.level - 2) w x (bits i.wide.toNat 0 w) (bits i.wide.toNat 64 w) with
        | some y => (s.storeVisible (some t) none c none pa n y, some x)
        | none => (met s .own, some x)
/-- A strand's request is of 1, 2, 4, 8 or 64 aligned bytes, an engine's lies within a granule. -/
def requestOk (i : Input) : Bool :=
  let a := i.value.toNat
  let et := i.level % 4
  if i.level < 12 then [1, 2, 4, 8, 64].contains i.off && a % i.off == 0 && (i.level < 2 || i.off == 4 || i.off == 8)
  else 1 ≤ i.off && a % 64 + i.off ≤ 64
    && (i.level < 15 || (20 ≤ i.level && i.level < 32 && et != 3 && a % elemSize et == 0 && i.off % elemSize et == 0)
      || (i.level == 15 && i.item < 16 && (i.item < 4
        || (i.item % 4 != 3 && i.dest.toNat % elemSize (i.item % 4) == 0 && i.off % elemSize (i.item % 4) == 0))))
/-- The request is applied once: a tag in the log is answered from it (R456). False while the request has to wait. -/
def State.serveOnce (s : State) (i : Input) : State × Bool :=
  if (s.tagLog.find? (s.inputTag i)).isSome || !requestOk i then (s, true)
  else match s.serve i with
    | (s', some x) => ({ s' with tagLog := s'.tagLog.set (s.inputTag i) x }, true)
    | (s', none) => (s', false)
/-- The answer leaves for its source, with the request's tag; a granule that goes on to a third module is pushed there (R314). What
an engine is owed is not sent again when a link loses it (R455). -/
def State.respond (s : State) (i : Input) : State :=
  match s.tagLog.find? (s.inputTag i) with
  | some x =>
    (match i.pushTo.filter fun m => m != s.ownModule i.part && x != rangeResponse && (x < 2 ^ 512 || poisonMark ≤ x) with
     | some m => s.transmit { part := i.part, module := m, cls := 1, what := [i.owner, i.index, i.dest.toNat, i.off, i.item, x], toEngine := true }
     | none => s.transmit { part := i.part, module := i.owner, cls := 1, what := [i.index, x], toEngine := 12 ≤ i.level })
  | none => s
/-- The source has acknowledged a response: its tag leaves the log. -/
def State.forgetTag (s : State) (i : Input) : State := { s with tagLog := s.tagLog.erase (s.inputTag i) }

/-- The port takes a flit, and what waits may leave. -/
def State.takeFlit (s : State) (k : Nat) (f : LinkFlit) : State := (s.setPort k ((s.port k).receive f s.time)).flush
/-- Does a flit name the partition as a member of its span, this module as its destination, and the module as its source (R451)? -/
def State.flitFor (s : State) (f : LinkFlit) (i : Input) : Bool :=
  bitAt (s.part i.part).spcfg.toNat 63 && f.span == s.spanNo i.part && f.dmod == s.ownModule i.part && f.smod == i.module
    && (s.otherMembers i.part).contains i.module
/-- FLIT_RECEIVE (R451, R452, R456): `input.flit` reaches port `input.port`. What the byte streams of its class carry to their
ends arrives by the events of those ends. With `input.flag` the flit completes a request of module `input.module` to
partition `input.part` (class 0, and an engine's push on class 1: what `input.level` says, of `input.off` bytes at window address
`input.value`, operands in `input.wide`, tag in `input.index`), the acknowledgement of an answer (class 1, `input.level` 0), or a
control message (class 5), whose effect comes by an event of its own. A port takes no request that a full log, or a page that is
awaited, keeps waiting. -/
def execFlitReceive (s : State) : Res :=
  let i := s.input
  let p := s.port i.port
  match i.flit with
  | none => .next s
  | some f =>
    if !p.up then .next s
    else if !(f.good && f.seq == p.expect && i.flag && s.flitFor f i) then .next (s.takeFlit i.port f)
    else if f.cls = 0 || (f.cls = 1 && 12 ≤ i.level) then
      if s.logFull (s.spanNo i.part) i.owner then .next s
      else
        let r := s.serveOnce i
        .next (if r.2 then (r.1.takeFlit i.port f).respond i else r.1)
    else if f.cls = 1 then .next ((s.takeFlit i.port f).forgetTag i)
    else .next (s.takeFlit i.port f)

/-- NAK_REPLAY (R452): port `input.port` sends its unacknowledged flits again, from ACK + 1. -/
def execNakReplay (s : State) : Res :=
  let k := s.input.port
  let p := s.port k
  if !p.up || !p.replayDue then .next s
  else
    .next { s.setPort k { p with replayDue := false, lastSent := s.time } with
      outputs := s.outputs ++ p.replay.map fun f => Output.flit k f }

/-- IDLE_FLIT (R452): port `input.port` has sent nothing for 100 ns, and nothing waits for it. With 1,024 flits unacknowledged it
sends none. -/
def execIdleFlit (s : State) : Res :=
  let s := s.flush
  let k := s.input.port
  let p := s.port k
  if !p.up || s.time < p.lastSent + 100 || 1024 ≤ p.replay.length then .next s
  else
    let f := idleOf p
    .next { s.setPort k { p with seq := p.seq + 1#12, replay := p.replay ++ [f], lastSent := s.time } with
      outputs := s.outputs ++ [Output.flit k f] }

/-! ## Link failure (R452, R455, R457) -/

/-- LINK_FAILURE (R452): one flit has failed 16 times in a row, or none has come for 2 µs. -/
def execLinkFailure (s : State) : Res :=
  let k := s.input.port
  let p := s.port k
  if !p.up || (p.fails < 16 && s.time < p.lastArrival + 2000) then .next s
  else .next (s.setPort k { p with up := false, failedAt := some s.time, settled := [] })

/-- The items for module `m` that port `p` has in doubt, for a partition's span. -/
def Port.doubtful (p : Port) (part m : Nat) : List (BitVec 12 × Outgoing) := p.sent.filter fun e => e.2.part == part && e.2.module == m
/-- Of those, the ones whose last flit comes after flit `last`, which was delivered (R455). -/
def lostItems (last : BitVec 12) (l : List (BitVec 12 × Outgoing)) : List Outgoing :=
  (l.filter fun e => e.1 != last && (e.1 - last).toNat < 2048).map (·.2)
/-- A migrating strand whose packet was lost is parked at its HOP pair; on a tile whose SRAM has failed nothing issues or is reported
(R487). -/
def State.losePacket (s : State) (k : Nat) : State :=
  if s.silentStrand k then s
  else match s.packets.find? fun p => p.strand == k && p.module.isSome with
  | none => s
  | some p =>
    { s with packets := s.packets.erase p, cur := { strand := p.strand, before := p.before } }.takeTrap false
      { cause := causeHopTargetAbsent, info := p.cid.setWidth 64 }
/-- In-doubt message `x` comes back LINK_LOST. -/
def State.loseMessage (s : State) (x : Outgoing) : State :=
  { s with messages := s.messages.map fun m =>
      if m.module == some x.module && m.sts == 0#4 && m.body == x.what.getD 2 0 && (s.zonePart (coreZone m.srcCore)).getD 0 == x.part
      then m.back 4#4 else m }
/-- A collective one of whose parts was lost ends LINK_LOST on every member. -/
def State.loseMerge (s : State) (x : Outgoing) : State := s.endGroupColl (x.what.getD 0 0) (x.what.getD 1 0) (x.what.getD 2 0) 3 true
/-- A part of an operation of this module was lost on its way: an element parks, a granule is not written, and its operation ends
LINK_LOST (R316, R371, R455). -/
def State.loseOpPart (s : State) (x : Outgoing) (t : OpPart) : State :=
  match s.opIndex t.core t.ch t.id with
  | none => s
  | some i => s.withOp i fun o =>
    let k := t.elem / 128
    if (o.asked.find? t.elem).isNone then s
    else if o.kind == .gath || o.kind == .scat then s.parkElement i o k 5 (BitVec.ofNat 64 (x.what.getD 4 0))
    else s.setOp i (o.endLost k)
/-- What an item found not delivered comes to (R455). A plain access's request or answer, and a control message, go out again. -/
def State.loseItem (s : State) (x : Outgoing) : State :=
  match x.op with
  | some t => s.loseOpPart x t
  | none => match x.cls with
    | 2 => s.loseMessage x
    | 3 => s.losePacket (x.what.getD 0 0)
    | 4 => s.loseMerge x
    | _ => s
def Outgoing.resent (x : Outgoing) : Bool := x.op.isNone && !x.toEngine && (x.cls == 0 || x.cls == 1 || x.cls == 5)
/-- Partition and member, as `Port.settled` keeps them. -/
def settledKey (part m : Nat) : Nat := part * 64 + m
/-- A failed port whose traffic with module `m` of a partition's span is still in doubt (R455, R457). -/
def Port.unsettled (p : Port) (part m : Nat) : Bool := p.failedAt.isSome && !p.settled.contains (settledKey part m)
/-- A failed port has settled its traffic with module `m` of a span: what it holds for others stays in doubt. -/
def Port.settle (p : Port) (part span m : Nat) : Port :=
  { p with
    replay := p.replay.filter fun f => !(f.dmod == m && f.span == span) && f.cls != 6
    sent := p.sent.filter fun e => !(e.2.part == part && e.2.module == m), replayDue := false
    settled := setInsert (settledKey part m) p.settled }
/-- LINK_RECONCILIATION (R455): the failure of port `input.port` is settled with module `input.module` of the span of partition
`input.part` over another port. The other side delivered flits up to SEQ `input.off`, and hears which this side has; what was lost
meets its fate, and what is sent again goes ahead of what waits. -/
def execLinkReconciliation (s : State) : Res :=
  let k := s.input.port
  let m := s.input.module
  let q := s.input.part
  let p := s.port k
  match s.routePort q m with
  | none => .next s
  | some _ =>
    if !p.unsettled q m then .next s
    else
      let lost := lostItems (BitVec.ofNat 12 s.input.off) (p.doubtful q m)
      let s := s.setPort k (p.settle q (s.spanNo q) m)
      let report := s.control5 q m [ctlDelivered, k, (p.expect - 1#12).toNat]
      let s := { s with outbox := report :: lost.filter Outgoing.resent ++ s.outbox, nextTag := s.nextTag + 1 }
      .next (lost.foldl State.loseItem s).flush

/-- SPAN_BREAK (R457): a millisecond after port `input.port` failed, nothing has been settled with module `input.module` of the span of
partition `input.part`. What is in doubt is lost: messages come back LINK_LOST, collectives and the parts of operations end so. With
`input.flag` the partition can reach neither side, and is drained and reset, its bound span launches posted LINK_LOST. -/
def execSpanBreak (s : State) : Res :=
  let k := s.input.port
  let m := s.input.module
  let q := s.input.part
  let p := s.port k
  if !p.unsettled q m || s.time < p.failedAt.getD 0 + 1000000 then .next s
  else
    let lost := (p.doubtful q m).map (·.2)
    let s := s.setPort k (p.settle q (s.spanNo q) m)
    let s := (lost.filter fun x => x.op.isSome || x.cls == 2 || x.cls == 4).foldl State.loseItem s
    let s := s.hostReport 5 (BitVec.ofNat 64 (q * 64 + m))
    .next (if s.input.flag && (s.part q).live then s.orderDrain q 3#4 else s)

/-! ## Lane widths (R215, R216, R452, R453) -/

/-- Direction `rx` of a port. -/
def Port.dir (p : Port) (rx : Bool) : LinkDir := if rx then p.rx else p.tx
def Port.setDir (p : Port) (rx : Bool) (l : LinkDir) : Port := if rx then { p with rx := l } else { p with tx := l }
def narrower (l : Lanes) : Lanes :=
  match l with
  | .x4 => .x2
  | .x2 => .x1
  | .x1 => .x1
/-- An event on direction `input.flag` of port `input.port`. -/
def State.onDir (s : State) (f : Port → LinkDir → LinkDir) : Res :=
  let k := s.input.port
  let p := s.port k
  .next (if 96 ≤ k then s else s.setPort k (p.setDir s.input.flag (f p (p.dir s.input.flag))))
/-- LANE_SHED (R215, R453): the queue has stayed below the threshold since `input.off`, for 20 µs. -/
def execLaneShed (s : State) : Res :=
  s.onDir fun p l =>
    if !p.up || p.noshed || l.st != .steady || l.lanes == .x1 || s.input.off < l.aboveAt || s.time < s.input.off + 20000 then l
    else { l with st := .narrowing }
/-- LANE_WIDEN (R215, R216, R453): the queue holds `input.off` flits and has passed the threshold: a narrow direction widens, a
shed under way is abandoned. -/
def execLaneWiden (s : State) : Res :=
  s.onDir fun p l =>
    if !p.up || s.input.off ≤ p.threshold then l
    else
      let l := { l with aboveAt := s.time }
      match l.st with
      | .narrowing => { l with st := .steady }
      | .widening => l
      | .steady => if l.lanes == widest l.goodLanes then l else { l with st := .widening }
/-- LANE_TRAINING_COMPLETE (R453): the new width is trained and carries the traffic; a narrower one counts its own 20 µs. -/
def execLaneTrainingComplete (s : State) : Res :=
  s.onDir fun _ l =>
    match l.st with
    | .steady => l
    | .narrowing => { l with st := .steady, lanes := narrower l.lanes, aboveAt := s.time }
    | .widening => { l with st := .steady, lanes := widest l.goodLanes }
def Lanes.count (l : Lanes) : Nat :=
  match l with
  | .x4 => 4
  | .x2 => 2
  | .x1 => 1
/-- LANE_FAULT (R452): a lane is lost; the direction runs no wider than its good lanes allow. -/
def execLaneFault (s : State) : Res :=
  s.onDir fun _ l =>
    let n := l.goodLanes - 1
    { l with goodLanes := n, lanes := if l.lanes.count ≤ n then l.lanes else widest n }

end Sys2Proof.Machine
end

