-- ==== Sys2Proof/Machine/Attest.lean ====
section
/-! DEFINITION. Attestation over the PF's DOE mailbox (21 R470). Digests, signatures, nonces and certificates are free values;
the codes of requests and responses and the order of the first three requests are those of SPDM 1.3, which R470 names. -/

namespace Sys2Proof.Machine

/-- A response: version 1.3, its code and two parameters, then its fields. -/
def spdmMessage (code p1 p2 : Nat) (rest : List Byte) : List Byte := toBytes 4 (0x13 + code * 256 + p1 * 65536 + p2 * 2 ^ 24) ++ rest
/-- The response to request `index` leaves. -/
def State.respondSpdm (s : State) (index : Nat) (b : List Byte) : State := { s with outputs := s.outputs ++ [Output.spdm index b] }
def spdmError (code : Nat) : List Byte := spdmMessage 0x7F code 0 []
/-- A request that comes before the connection is agreed, or with a field that this module refuses. -/
def unexpected : List Byte := spdmError 4
def invalidRequest : List Byte := spdmError 1
/-- A request reaches the DOE mailbox once a PCIe port presents config space (R463). -/
def State.viaDoe (s : State) (r : State) : Res := .next (if s.answers physicalFn then r else s)
/-- A request that needs version, capabilities and algorithms. -/
def State.agreed (s : State) (index : Nat) (r : State) : Res :=
  s.viaDoe (if s.module.spdmVersion && s.module.spdmCaps && s.module.spdmAlgs then r else s.respondSpdm index unexpected)

/-- GET_VERSION (R470): the connection starts afresh, at version 1.3. -/
def execGetVersion (s : State) : Res :=
  let t := s.setModule { s.module with spdmVersion := true, spdmCaps := false, spdmAlgs := false }
  s.viaDoe (t.respondSpdm 0 (toBytes 8 (0x10 + 0x04 * 256 + 1 * 2 ^ 40 + 0x1300 * 2 ^ 48)))
/-- What GET_CAPABILITIES answers: CTExponent, the flags CERT_CAP, CHAL_CAP and MEAS_CAP with signatures, and the two sizes. -/
def spdmCapabilities : List Byte :=
  toBytes 4 (Config.ctExponent.toNat * 256) ++ toBytes 4 0x16 ++ toBytes 4 Config.dataTransferSize.toNat ++ toBytes 4 Config.maxSpdmMessage.toNat
/-- What NEGOTIATE_ALGORITHMS answers: the message's length, DMTF measurements and OpaqueDataFmt1, then SHA-384 for measurements,
TPM_ALG_RSASSA_3072 and SHA-384, and no extended algorithm. -/
def spdmAlgorithms : List Byte :=
  toBytes 2 36 ++ toBytes 1 1 ++ toBytes 1 2 ++ toBytes 4 4 ++ toBytes 4 4 ++ toBytes 4 2 ++ toBytes 16 0
/-- GET_CAPABILITIES (R470): certificates, challenge and signed measurements. -/
def execGetCapabilities (s : State) : Res :=
  if !s.module.spdmVersion then s.viaDoe (s.respondSpdm 1 unexpected)
  else s.viaDoe ((s.setModule { s.module with spdmCaps := true }).respondSpdm 1 (spdmMessage 0x61 0 0 spdmCapabilities))
/-- NEGOTIATE_ALGORITHMS (R470): TPM_ALG_RSASSA_3072 and SHA-384. -/
def execNegotiateAlgorithms (s : State) : Res :=
  if !(s.module.spdmVersion && s.module.spdmCaps) then s.viaDoe (s.respondSpdm 2 unexpected)
  else s.viaDoe ((s.setModule { s.module with spdmAlgs := true }).respondSpdm 2 (spdmMessage 0x63 0 0 spdmAlgorithms))

def digestBytes (d : BitVec 384) : List Byte := toBytes 48 d.toNat
/-- GET_DIGESTS (R470): the chains of slots 0 and 1. -/
def execGetDigests (s : State) : Res :=
  s.agreed 3 (s.respondSpdm 3 (spdmMessage 0x01 3 3 (digestBytes (Config.certDigest 0) ++ digestBytes (Config.certDigest 1))))
/-- GET_CERTIFICATE (R470): `input.value` bytes from `input.off` of the chain of slot `input.item`. -/
def execGetCertificate (s : State) : Res :=
  let i := s.input
  s.agreed 4
    (if 1 < i.item then s.respondSpdm 4 invalidRequest
     else
       let chain := Config.certificate i.item
       let part := (chain.drop i.off).take i.value.toNat
       s.respondSpdm 4
         (spdmMessage 0x02 i.item 0 (toBytes 4 (part.length % 65536 + (chain.length - i.off - part.length) % 65536 * 65536) ++ part)))

/-- OpaqueData of one element: its length, the count of elements, the element's identifier and length, its data. -/
def opaqueData (b : List Byte) : List Byte := toBytes 2 (b.length + 8) ++ toBytes 4 1 ++ toBytes 2 0 ++ toBytes 2 b.length ++ b
/-- A signed response: its fields, the nonce, the summary of the measurements where one was asked for, the SLH-DSA signature over the
transcript as OpaqueData, the requester's context (`input.value`), and the RSA signature of the agreed algorithm over the same
transcript, which the free-value counter names (R470). -/
def State.signed (s : State) (index code p1 p2 : Nat) (fields summary : List Byte) : State :=
  let n := s.free
  let body := fields ++ toBytes 32 (Config.nonce n).toNat ++ summary ++ opaqueData (Config.signature 1 n)
    ++ toBytes 8 s.input.value.toNat ++ Config.signature 0 n
  { s with free := n + 1 }.respondSpdm index (spdmMessage code p1 p2 body)
def FMap.words (f : FMap Word) : List Nat := f.entries.flatMap fun e => [e.1, e.2.toNat]
/-- A record as numbers, for its digest. -/
def FlashRecord.words (r : FlashRecord) : List Nat :=
  r.training.words ++ r.serials.words ++ r.equalisation.words ++ r.defects ++ r.wear.entries.flatMap fun e => [e.1, e.2.toNat]
/-- The digest of measurement block `k` (R470): 1 the image's own hash; 2 what the atelier cores started from, which the image
carries; 3 the record in use; 4 part number, FWSVN and fused maps; 5 FWFAIL and fuses. -/
def Module.measured (m : Module) (k : Nat) : BitVec 384 :=
  match k with
  | 1 => m.imageHash.getD (Config.measurement 1 0)
  | 2 => Config.measurement 2 (if m.ateliersStarted then (m.imageHash.getD 0#384).toNat + 1 else 0)
  | 3 => match m.copies with
    | [] => Config.measurement 3 m.recordWrites
    | r :: _ => Config.recordDigest r.words
  | 4 => Config.measurement 4 m.fwsvn.toNat
  | _ => Config.measurement k (b2n m.fwfail)
/-- One measurement block: its index, and its digest with the kind of what it measures; bit 7 of that is for raw data (R470). -/
def Module.measurementBlock (m : Module) (k : Nat) : List Byte :=
  toBytes 4 (k + 1 * 256 + 51 * 65536) ++ toBytes 3 ((Config.measurementKind k).toNat + 48 * 256) ++ digestBytes (m.measured k)
def Module.blocks (m : Module) (op : Nat) : List Byte :=
  if op = 0 then [] else if op = 0xFF then (List.range 5).flatMap fun k => m.measurementBlock (k + 1) else m.measurementBlock op
/-- The number of blocks, the length of the measurement record, and the record. -/
def Module.measurementFields (m : Module) (op : Nat) : List Byte :=
  toBytes 1 (if op = 0 then 0 else if op = 0xFF then 5 else 1) ++ toBytes 3 (m.blocks op).length ++ m.blocks op
/-- The summary that a CHALLENGE asks for: 0 none, 1 of the trusted base, 0xFF of all blocks. -/
def Module.summaryFields (m : Module) (what : Nat) : List Byte :=
  if what = 0 then [] else digestBytes (Config.measurementSummary what (m.blocks 0xFF))
/-- CHALLENGE (R470) of slot `input.item`, with the measurement summary `input.index`. -/
def execChallenge (s : State) : Res :=
  let i := s.input
  s.agreed 5
    (if 1 < i.item || (1 < i.index && i.index != 0xFF) then s.respondSpdm 5 invalidRequest
     else s.signed 5 0x03 i.item 3 (digestBytes (Config.certDigest i.item)) (s.module.summaryFields i.index))
/-- GET_MEASUREMENTS (R470): operation `input.item`: 0 the number of blocks, 0xFF all, 1–5 one; `input.flag` asks for a
signature. -/
def execGetMeasurements (s : State) : Res :=
  let op := s.input.item
  let f := s.module.measurementFields op
  let p1 := if op = 0 then 5 else 0
  s.agreed 6
    (if 5 < op && op != 0xFF then s.respondSpdm 6 invalidRequest
     else if s.input.flag then s.signed 6 0x60 p1 0 f []
     else { s with free := s.free + 1 }.respondSpdm 6
       (spdmMessage 0x60 p1 0 (f ++ toBytes 32 (Config.nonce s.free).toNat ++ toBytes 2 0 ++ toBytes 8 s.input.value.toNat)))

end Sys2Proof.Machine
end

