-- ==== Sys2Proof/Machine/Float.lean ====
section
/-! DEFINITION. Scalar floating point (05_scalar R94, R117–R120). -/

namespace Sys2Proof.Machine

/-- The format of an element type code 0–3 (R81). -/
def etFormat (et : BitVec 2) : Format :=
  match et with
  | 0#2 => fp32
  | 1#2 => bf16
  | 2#2 => fp16
  | _ => fp64

/-- g[A] read in its low bits at the format's width (R94). -/
def State.f (s : State) (f : Format) (a : Src) : Nat := (s.g a).toNat % 2 ^ f.width
/-- A floating-point result, zero-extended, with the flags it raised (R94). -/
def State.putF (s : State) (d : Reg) (r : FpRes) : Res := .next ((s.setG d (BitVec.ofNat 64 r.bits)).raise r.flags)

/-- FADD (R117). -/
def execFadd (et : BitVec 2) (d : Reg) (a b : Src) (s : State) : Res := let f := etFormat et; s.putF d (fpAdd f (s.f f a) (s.f f b))

/-- FSUB (R117). -/
def execFsub (et : BitVec 2) (d : Reg) (a b : Src) (s : State) : Res := let f := etFormat et; s.putF d (fpSub f (s.f f a) (s.f f b))

/-- FMUL (R117). -/
def execFmul (et : BitVec 2) (d : Reg) (a b : Src) (s : State) : Res := let f := etFormat et; s.putF d (fpMul f (s.f f a) (s.f f b))

/-- FDIV (R117). -/
def execFdiv (et : BitVec 2) (d : Reg) (a b : Src) (s : State) : Res := let f := etFormat et; s.putF d (fpDiv f (s.f f a) (s.f f b))

/-- FMIN (R117). -/
def execFmin (et : BitVec 2) (d : Reg) (a b : Src) (s : State) : Res := let f := etFormat et; s.putF d (fpMin f (s.f f a) (s.f f b))

/-- FMAX (R117). -/
def execFmax (et : BitVec 2) (d : Reg) (a b : Src) (s : State) : Res := let f := etFormat et; s.putF d (fpMax f (s.f f a) (s.f f b))

/-- FFMA (R117): the addend is g[D]. -/
def execFfma (et : BitVec 2) (d : Reg) (a b : Src) (s : State) : Res := let f := etFormat et; s.putF d (fpFma f (s.f f a) (s.f f b) ((s.gr d).toNat % 2 ^ f.width))

/-- FSQRT (R118). -/
def execFsqrt (et : BitVec 2) (d : Reg) (a : Src) (s : State) : Res := let f := etFormat et; s.putF d (fpSqrt f (s.f f a))

/-- FABS (R118): the sign bit is cleared, no flag. -/
def execFabs (et : BitVec 2) (d : Reg) (a : Src) (s : State) : Res := let f := etFormat et; s.putF d ⟨fpAbsBits f (s.f f a), 0⟩

/-- FNEG (R118): the sign bit is inverted, no flag. -/
def execFneg (et : BitVec 2) (d : Reg) (a : Src) (s : State) : Res := let f := etFormat et; s.putF d ⟨fpNegBits f (s.f f a), 0⟩

/-- EX2 (R64–R66, R118). -/
def execEx2 (et : BitVec 2) (d : Reg) (a : Src) (s : State) : Res := let f := etFormat et; s.putF d (viaFp32 ex2 f (s.f f a))

/-- LG2 (R64–R66, R118). -/
def execLg2 (et : BitVec 2) (d : Reg) (a : Src) (s : State) : Res := let f := etFormat et; s.putF d (viaFp32 lg2 f (s.f f a))

/-- RCP (R64–R66, R118). -/
def execRcp (et : BitVec 2) (d : Reg) (a : Src) (s : State) : Res := let f := etFormat et; s.putF d (viaFp32 rcp f (s.f f a))

/-- RSQ (R64–R66, R118). -/
def execRsq (et : BitVec 2) (d : Reg) (a : Src) (s : State) : Res := let f := etFormat et; s.putF d (viaFp32 rsq f (s.f f a))

/-- FCMP (R119). -/
def execFcmp (cc : BitVec 3) (et : BitVec 2) (p : Pred) (a b : Src) (s : State) : Res :=
  let f := etFormat et
  let r := fpCompare cc (Fp.ofBits f (s.f f a)) (Fp.ofBits f (s.f f b))
  .next ((s.setP p r.1).raise r.2)

/-- FCVT (R120), under the FMT.RM and FMT.SAT that the pair found (R58). -/
def execFcvt (dst src : BitVec 4) (d : Reg) (a : Src) (s : State) : Res :=
  let t := typeOf src.toNat
  let t' := typeOf dst.toNat
  let r := convert t t' (fmtRm s.fmt) (fmtSat s.fmt) ((s.g a).toNat % 2 ^ t.width)
  .next ((s.setG d (extendTo64 t' r.bits)).raise r.flags)

end Sys2Proof.Machine
end

