-- ==== Sys2Proof/Machine/SaveArea.lean ====
section
/-! DEFINITION. The save area of a partition: its layout, what a gang switch saves there, and how a saved set comes back
(18 R418–R426). -/

namespace Sys2Proof.Config

/-- The bytes that a save writes where the spec gives no layout: a free value (R422). -/
opaque savedBlock : Nat → Nat
/-- What the machine makes of such bytes when the host has changed them: free values (R424). -/
opaque alteredStrand : Nat → Option Sys2Proof.Machine.Strand
opaque alteredTile : Nat → Option Sys2Proof.Machine.Tile
opaque alteredTasks : Nat → Option (List Sys2Proof.Machine.Task)
opaque alteredItem : Nat → Option Sys2Proof.Machine.FalloutItem

end Sys2Proof.Config

namespace Sys2Proof.Machine

/-! ## The save area (R422, R423) -/

/-- The control word's fields. -/
def saveHeaderWord (stamp fall gen nl sprio state : Nat) : Nat :=
  stamp * 2 ^ 192 + fall * 2 ^ 128 + gen % 2 ^ 32 * 2 ^ 96 + nl * 2 ^ 88 + sprio * 2 ^ 80 + state
/-- A control word that a restore accepts: reserved bits zero, STATE 2 (R424). -/
def saveHeaderOk (h : Nat) : Bool := bits h 256 256 == 0 && bits h 83 5 == 0 && bits h 4 76 == 0 && bits h 0 4 == 2
/-- STATE is the low byte of the control word. -/
def State.setSaveState (s : State) (p st : Nat) : State := s.writePa (s.part p).saveBase 1 st
/-- A saved-launch entry: its record, then LID, channel and remaining watchdog time. -/
def State.writeEntry (s : State) (base : Nat) (l : Launch) : State :=
  let s := s.writePa base 64 (bits l.record.toNat 0 512)
  let s := s.writePa (base + 64) 64 (bits l.record.toNat 512 512)
  s.writePa (base + 128) 64 ((l.wdtUs * 1000 - l.usedNs) * 2 ^ 64 + l.ch * 2 ^ 32 + l.lid.toNat)
/-- The region of a zone of a partition, and that of logical tile `t` (zone × 132 + row × 11 + column) in it (R422). -/
def Partition.zoneRegion (p : Partition) (z : Nat) : Nat := p.saveBase + 65536 + p.zoneList.idxOf z * zoneRegionBytes
def Partition.tileRegion (p : Partition) (t : Nat) : Nat := p.zoneRegion (t / 132) + 65536 + 16 * 2 ^ 20 + 4 * 2 ^ 20 * (t % 132)
/-- Fallout record `i` of a zone: a descriptor of 64 bytes and a payload of 64. -/
def Partition.falloutRecord (p : Partition) (z i : Nat) : Nat := p.zoneRegion z + 65536 + 128 * i
/-- The tile store, the carry store, the accumulators, strand context `j` and what follows the contexts, in a tile's region. -/
def offStore : Nat := 3 * 2 ^ 20
def offCarry : Nat := offStore + 512 * 1024
def offAccs : Nat := offCarry + 64 * 1024
def offContext (j : Nat) : Nat := offAccs + 64 * 1024 + 2048 * j
def offQueues : Nat := offContext 16

/-- Granules go to the save area, each with its poison: `f` gives the bytes and the poison of the j-th. -/
def State.spill (s : State) (pa n : Nat) (f : Nat → Nat × Bool) : State :=
  (List.range (n / 64)).foldl
    (fun s j =>
      let q := f j
      let s := s.writePa (pa + 64 * j) 64 q.1
      if q.2 then s.setPoison (pa + 64 * j) else s) s
/-- Bytes as the save area now holds them, and which of their granules are poisoned. -/
def State.fillBytes (s : State) (pa n : Nat) : Memory :=
  (s.mem.filter fun c => pa ≤ c.1 && c.1 < pa + n && !s.marked (c.1 / 4096)).map fun c => (c.1 - pa, c.2)
def State.fillPoison (s : State) (pa n : Nat) : List Nat := (List.range (n / 64)).filter fun j => s.poisoned (pa + 64 * j)
/-- A part whose layout the spec does not give: its bytes are a free value, which the image remembers, so that a later write of the
host shows (R424). -/
def State.spillOpen (s : State) (p pa n : Nat) : State :=
  let x := Config.savedBlock s.free % 2 ^ (8 * n)
  let s := s.spill pa n fun j => (bits x (512 * j) 512, false)
  let q := s.part p
  { s.setPart p { q with saved := q.saved.map fun v => { v with blocks := v.blocks ++ [(pa, n, x)] } } with free := s.free + 1 }
/-- The bytes of such a part, if they are no longer those that were saved. -/
def State.altered (s : State) (v : Saved) (pa : Nat) : Option Nat :=
  (v.blocks.find? fun b => b.1 == pa).bind fun b =>
    let x := (List.range (b.2.1 / 64)).foldl (fun x j => x + s.readPa (pa + 64 * j) 64 * 2 ^ (512 * j)) 0
    if x = b.2.2 then none else some x

/-- SAVE_START (R418, R419, R423): every core and engine of partition `input.part` has stopped: no access of it is outstanding,
no row of a TSST is half written (R335), and no shadow handler runs. -/
def execSaveStart (s : State) : Res :=
  let p := s.input.part
  let part := s.part p
  let busy := (s.accesses.any fun a => s.inPart p (strandCore a.strand))
    || (s.ops.any fun o => o.part == p && s.midStep o && o.held.isEmpty)
    || s.tiles.entries.any fun e => part.hasZone (siteZone e.1) && e.2.shadow.isSome
  if !part.live || part.frozen || part.gang != .stopping || busy then .next s
  else .next ((s.setPart p { part with gang := .saving }).setSaveState p 1)

/-! ## Saving (R419, R420) -/

/-- The tile numbers of a partition's zones. -/
def Partition.tileNos (p : Partition) : List Nat := p.zoneList.flatMap fun z => (List.range 132).map fun k => z * 132 + k

/-- What a tile keeps, its image having been taken: what lasts from launch to launch, its stores, accumulators and semaphores
(R327, R336). -/
def Tile.vacated (t : Tile) : Tile := { t.drained with accs := t.accs, accPoison := t.accPoison, sems := t.sems }
/-- The carve-outs of a tile's two cores, with where each stands in the tile's image: they follow one another from USZ on, as their
order is the dispatcher's choice (R244, R422). -/
def carveStarts : Nat → List (Nat × Carve) → List (Nat × Carve × Nat)
  | _, [] => []
  | a, (c, v) :: t => (c, v, a) :: carveStarts (a + v.size) t
/-- The carve-outs of logical tile `t` in an image. -/
def Saved.carvesOn (v : Saved) (t : Nat) : List (Nat × Carve × Nat) :=
  carveStarts (v.starts.getD t 0)
    ((v.places.filter fun e => e.2 / 2 == t).flatMap fun e => (v.cores.getD e.1 {}).carves.values.map fun c => (e.1, c))
/-- Bytes of the tile store, the carry store and the accumulators of a tile (R325, R330, R348). -/
def storeBytes (t : Config.TileType) : Nat := 256 * Config.storeRows t
def tileCarryBytes (t : Config.TileType) : Nat := if t = .attention then 65536 else 0
def accBytes (t : Config.TileType) : Nat := if t = .dense ∨ t = .sparse then 65536 else 0
/-- One tile's stores, and the carve-outs and strand contexts of the saved launches on it, go to the save area. A tile without any of
them leaves its bytes unwritten, but for its event lines, returned messages and the like. -/
def State.saveTile (s : State) (p : Nat) (v : Saved) (t : Nat) : State :=
  match s.siteOfTile? t with
  | none => s
  | some site =>
    let base := (s.part p).tileRegion t
    let x := v.tiles.getD t {}
    let type := tileType site
    let rest := base + offQueues
    if !v.used.contains t then
      (if x.lines.entries.isEmpty && x.faultq.isEmpty then s else s.spillOpen p rest (4 * 2 ^ 20 - offQueues))
    else
      let s := (v.carvesOn t).foldl
        (fun s c => s.spill (base + c.2.2) c.2.1.size fun j =>
          let pa := sramPa site (c.2.1.base + 64 * j)
          (s.readPa pa 64, s.poisoned pa)) s
      let s := s.spill (base + offStore) (storeBytes type) fun j => (x.store.readN (64 * j) 64, x.storePoison.contains j)
      let s := s.spill (base + offCarry) (tileCarryBytes type) fun j => (x.carry.readN (64 * j) 64, false)
      let s := s.spill (base + offAccs) (accBytes type) fun j => (x.accs.readN (64 * j) 64, x.accPoison.contains (j / 4))
      let live := (List.range 16).filter fun j => (v.strands.getD (strandOf (2 * site + j / 8) (j % 8)) {}).st != .dormant
      let s := live.foldl (fun s j => s.spillOpen p (base + offContext j) 2048) s
      s.spillOpen p rest (4 * 2 ^ 20 - offQueues)

/-! ## Fallout (R419) -/

/-- The class, source and destination of what falls out. -/
def FalloutItem.route : FalloutItem → Nat × Nat × Nat
  | .message m => (2, m.srcCore, m.target)
  | .packet k => (3, strandCore k.strand, k.target)
  | .signal g => (5, 2 * g.src, 2 * g.site)
  | .tree m => (5, m.item, m.node)
/-- The records of what falls out, numbered within each pair of source and destination. -/
def falloutOf : List FalloutItem → List Fallout → List Fallout
  | [], done => done
  | x :: t, done =>
    let r := x.route
    let n := (done.filter fun f => f.src == r.2.1 && f.dst == r.2.2).length
    falloutOf t (done ++ [{ cls := r.1, src := r.2.1, dst := r.2.2, seq := n, item := x }])
/-- The zone of the partition whose region takes a record: that of its source, or of its destination, or the lowest. -/
def Partition.falloutZone (p : Partition) (f : Fallout) : Nat :=
  if p.hasZone (coreZone f.src) then coreZone f.src
  else if p.hasZone (coreZone f.dst) then coreZone f.dst
  else p.zoneList.headD 0
/-- A zone's records of the fallout. -/
def Saved.falloutIn (v : Saved) (p : Partition) (z : Nat) : List Fallout := v.fallout.filter fun f => p.falloutZone f == z
/-- A record is written: of a message the payload; the rest has no layout of the spec. -/
def State.saveFallout (s : State) (p pa : Nat) (f : Fallout) : State :=
  let s := s.spillOpen p pa 64
  match f.item with
  | .message m => s.writePa (pa + 64) 64 m.payload.toNat
  | _ => s.spillOpen p (pa + 64) 64
/-- A zone's image and fallout. -/
def State.saveZone (s : State) (p : Nat) (v : Saved) (z : Nat) : State :=
  let part := s.part p
  let s := s.spillOpen p (part.zoneRegion z) 65536
  let fs := v.falloutIn part z
  (fs.zip (List.range fs.length)).foldl (fun s e => s.saveFallout p (part.falloutRecord z e.2) e.1) s

/-! ## The image of a partition (R419) -/

/-- The logical tiles on which the saved launches have a core, a strand, an operation, a mailbox or a carve-out. -/
def State.usedTiles (s : State) (p : Nat) : List Nat :=
  let cores := (s.strands.keys.map strandCore) ++ s.ops.map (·.core)
    ++ (s.cores.entries.filter fun e => !e.2.mboxes.entries.isEmpty || !e.2.carves.entries.isEmpty).map (·.1)
  let sites := ((cores.filter fun c => s.inPart p c).map coreSite) ++ (s.partSites p).filter fun t =>
    (s.boundIn p).any fun e => s.boundOn e.2 t
  (sites.filterMap s.tileNo?).dedup
/-- The image of a partition. -/
def State.image (s : State) (p : Nat) : Saved :=
  let part := s.part p
  let ls := s.boundIn p
  let mine (c : Nat) : Bool := s.inPart p c
  { sprio := ls.foldl (fun m e => if m.ult e.2.prio then e.2.prio else m) 0#3
    launches := ls.map (·.1)
    underPcap := part.pcapSwitch
    places := (s.cores.keys ++ s.strands.keys.map strandCore).dedup.filterMap fun c =>
      if mine c then (s.logCore? c).map fun l => (c, l) else none
    strands := ⟨s.strands.entries.filter fun e => mine (strandCore e.1)⟩
    cores := ⟨s.cores.entries.filter fun e => mine e.1⟩
    tiles := ⟨part.tileNos.filterMap fun t => (s.siteOfTile? t).map fun site => (t, s.tile site)⟩
    used := s.usedTiles p
    starts := ⟨part.tileNos.filterMap fun t => (s.siteOfTile? t).map fun site => (t, s.userScratch site)⟩
    ops := s.ops.filter fun o => mine o.core
    rings := ⟨(s.cores.entries.filter fun e => mine e.1).flatMap fun e => e.2.mboxes.values.flatMap fun b =>
      (b.waiting.map (·.1) ++ b.given).map fun i =>
        let pa := ringSlotPa e.1 b i
        (e.1 * 2 ^ 22 + pa % 2 ^ 22, marked512 (s.readPa pa 64) (s.poisoned pa))⟩
    fallout :=
      let ms := (s.messages.filter fun m => mine m.srcCore || (m.module.isNone && mine m.target)).map FalloutItem.message
      let ks := (s.packets.filter fun k => mine (strandCore k.strand)).map FalloutItem.packet
      let gs := (s.signals.filter fun g => mine (2 * g.src) || (g.module.isNone && mine (2 * g.site))).map FalloutItem.signal
      let ts := (s.treeMsgs.filter fun m => ls.any fun e => e.1 == m.launch).map FalloutItem.tree
      falloutOf (ms ++ ks ++ gs ++ ts) []
    tasks := ⟨part.zoneList.map fun z => (z, (s.zone z).tasks)⟩
    commits := ⟨part.zoneList.map fun z => (z, (s.zone z).lastCommit)⟩ }

def Saved.fell (v : Saved) (x : FalloutItem) : Bool := v.fallout.any fun f => f.item == x
/-- The live partition after its image has been taken: no strand, operation or message of it remains. A host page that a strand has
asked for is still asked for. -/
def State.vacate (s : State) (p : Nat) (v : Saved) : State :=
  let mine (c : Nat) : Bool := s.inPart p c
  let part := s.part p
  { s with
    strands := s.strands.keep fun k => !mine (strandCore k)
    cores := s.cores.mapValues fun c x =>
      if mine c then { x with cdone := x.cnext, returned := [], mboxes := ⟨[]⟩, carves := ⟨[]⟩ } else x
    tiles := s.tiles.mapValues fun t x => if part.hasZone (siteZone t) then x.vacated else x
    zones := s.zones.mapValues fun z x => if part.hasZone z then { x with tasks := [] } else x
    ops := s.ops.filter fun o => !mine o.core
    messages := s.messages.filter fun m => !v.fell (.message m)
    packets := s.packets.filter fun k => !v.fell (.packet k)
    signals := s.signals.filter fun g => !v.fell (.signal g)
    treeMsgs := s.treeMsgs.filter fun m => !v.fell (.tree m)
    pri := s.pri.map fun r => if r.asker.onCore mine then { r with asker := .nobody } else r
    hostRefused := s.hostRefused.filter fun r => !r.asker.onCore mine
    launches := s.launches.mapValues fun n l => if v.launches.contains n then { l with saved := true } else l }
/-- Tokens above the floor are released, or all of them under R214. -/
def State.releaseTokens (s : State) (p : Nat) (all : Bool) : State :=
  (s.partSites p).foldl
    (fun s site =>
      let t := s.tile site
      let keep := if all then 0 else min t.account.tokh (s.floorShare site)
      s.setTile site { t with account := { t.account with tokh := keep } }) s

/-- SAVE_COMPLETE (R418, R420, R423): the images of partition `input.part` stand, and STATE becomes 2. A freeze does not hold
it (R429). A PARTCTL RESET that came meanwhile takes effect now (R421). -/
def execSaveComplete (s : State) : Res :=
  let p := s.input.part
  let part := s.part p
  if !part.live || part.gang != .saving then .next s
  else
    let v := s.image p
    let ls := s.boundIn p
    let s := s.writeBackSlices (fun t => part.hasZone (t / 132)) false
    let s := s.setPart p { part with saved := some v }
    let s := part.zoneList.foldl (fun s z => s.saveZone p v z) s
    let s := part.tileNos.foldl (fun s t => s.saveTile p v t) s
    let s := (ls.zip (List.range 64)).foldl (fun s e => s.writeEntry (part.saveBase + 64 + 256 * e.2) e.1.2) s
    let gen := part.gen + 1#32
    let s := s.vacate p v
    let s := s.setPart p { s.part p with gang := .saved, gen := gen, pcapSwitch := false }
    let s := s.releaseTokens p v.underPcap
    let s := s.writePa part.saveBase 64 (saveHeaderWord part.stamp v.fallout.length gen.toNat v.launches.length v.sprio.toNat 2)
    .next (if part.resetDue then s.startDrain p part.drainSts else s)

/-! ## Restoring (R424–R426) -/

/-- The records of the saved launches as the save area now holds them. -/
def State.savedRecord (s : State) (p i : Nat) : BitVec 1024 :=
  let base := (s.part p).saveBase + 64 + 256 * i
  BitVec.ofNat 1024 (s.readPa base 64 + s.readPa (base + 64) 64 * 2 ^ 512)
/-- Whether the saved set may come back. -/
inductive Restorable where
  | ok
  | bad
  | later (s : State)
  deriving DecidableEq, Repr
/-- One saved record against R150. One that still is what the dispatcher bound is judged in itself; one that the host has changed is
judged as at binding, group table and all. DEDUCED (log 103). -/
def State.recordRestorable (s : State) (l : Launch) (r : BitVec 1024) : Restorable :=
  let x := { l with record := r }
  if recordBad x then .bad
  else if r = l.record then .ok
  else match s.judge x with
    | .bad _ => .bad
    | .later s => .later s
    | .plan _ _ => .ok
def State.restorable (s : State) (p : Nat) (v : Saved) : Restorable :=
  if !saveHeaderOk (s.readPa (s.part p).saveBase 64) then .bad
  else (v.launches.zip (List.range 64)).foldl
    (fun r e => match r, s.launch? e.1 with
      | .ok, some l => s.recordRestorable l (s.savedRecord p e.2)
      | .ok, none => .bad
      | r, _ => r) .ok

/-- Where each saved core now is. -/
def State.newPlace (s : State) (v : Saved) (c : Nat) : Nat :=
  ((v.places.find? fun e => e.1 == c).bind fun e => s.physCore? e.2).getD c
/-- A saved set's strands, each where it now is. -/
def State.slotsFree (s : State) (v : Saved) : Bool :=
  v.strands.entries.all fun e =>
    let k := strandOf (s.newPlace v (strandCore e.1)) (strandSlot e.1)
    e.2.st == .dormant || (s.strand k).st == .dormant
/-- Promised cores keep their slots, and every tile its scratch and its L2 share (R244, R245, R418). -/
def State.roomFor (s : State) (v : Saved) : Bool :=
  (v.launches.filterMap s.launch?).all fun l =>
    let x : Plan := { cids := l.cids, coreSet := l.coreSet, remote := 0, groups := [] }
    (l.toWake.all fun i => match s.physCore? (l.cids.getD i 0) with
      | some c => recSpc l.record ≤ s.freeSlots c
      | none => false)
      && (s.planSites x).all fun t =>
        let all := (v.launches.filterMap s.launch?).filter fun o => (s.planSites { x with cids := o.cids, coreSet := o.coreSet }).contains t
        s.tileRoom t (natSum (all.map carveNeed)) (recL2sh l.record * 2 ^ 19)
/-- No other launch's task is to be rolled back by a saved irrevocable one: such a task of a zone comes back once none runs there that
is irrevocable too, or that comes before it and has begun (R181, R184). DEDUCED (log 132). -/
def State.tasksFree (s : State) (v : Saved) : Bool :=
  v.tasks.entries.all fun e => e.2.all fun (t : Sys2Proof.Machine.Task) =>
    !t.irrevocable || (s.zone e.1).tasks.all fun (u : Sys2Proof.Machine.Task) => u.st == .waiting || (!u.irrevocable && t.before u)
/-- The set's own slots and scratch are free, and its tiles are there (R418). -/
def State.setFree (s : State) (v : Saved) : Bool :=
  (v.used.all fun t => match s.siteOfTile? t with
    | some site => !s.deadSite site
    | none => false)
    && s.slotsFree v && s.roomFor v && s.tasksFree v
/-- The KIND 3 record of a restore that fails, whatever state its queue is in (R424). -/
def State.restoreFault (s : State) (p q : Nat) : State :=
  let x := s.queue p q
  if x.st == .off || x.st == .faulted then
    let bad : Queue := { x with st := .faulted, fcode := fcodeRing }
    s.dispReport p
      (recordBody 3 p (s.part p).tenant false 0 0 0 0#64 0#64 (BitVec.ofNat 64 (queueSelector p q)) (BitVec.ofNat 64 bad.qstat))
  else s.faultQueue p q fcodeRing 0
/-- RESTORE_START (R424, R425): the selected saved set of partition `input.part` begins to come back once its slots and
scratch are free and no request above its priority waits (R421). A save area that fails its checks drains the partition instead. -/
def execRestoreStart (s : State) : Res :=
  let p := s.input.part
  let part := s.part p
  match part.saved with
  | none => .next s
  | some v =>
    if !part.live || part.frozen || part.gang != .saved || !v.selected || !s.setFree v || s.waitsAbove p v.sprio then .next s
    else match s.restorable p v with
    | .ok =>
      let s := { s with launches := s.launches.mapValues fun _ l => if l.part == p then l.pause s.time else l }
      .next ((s.setPart p { part with gang := .restoring }).setSaveState p 3)
    | .later s => .next s
    | .bad =>
      let q := ((v.launches.head?.bind s.launch?).map (·.wdtQueue)).getD 0
      .next ((s.restoreFault p q).startDrain p 4#4)

/-- A renaming of cores, and what it does to strands, sites and everything that names them. -/
def renStrand (r : Nat → Nat) (k : Nat) : Nat := strandOf (r (strandCore k)) (strandSlot k)
def renSite (r : Nat → Nat) (t : Nat) : Nat := coreSite (r (2 * t))
def Message.rename (r : Nat → Nat) (m : Message) : Message :=
  { m with srcCore := r m.srcCore, target := if m.module.isNone then r m.target else m.target }
def Mailbox.rename (r : Nat → Nat) (m : Mailbox) : Mailbox :=
  { m with waiting := m.waiting.map fun e => (e.1, e.2.rename r), handlers := m.handlers.map (renStrand r) }
def Core.rename (r : Nat → Nat) (c : Core) : Core :=
  { c with returned := c.returned.map (Message.rename r), mboxes := c.mboxes.mapValues fun _ m => m.rename r }
def Line.rename (r : Nat → Nat) (l : Line) : Line :=
  { l with waiters := l.waiters.map (renStrand r), later := l.later.map (Option.map (renStrand r)) }
def Tile.rename (r : Nat → Nat) (t : Tile) : Tile :=
  { t with
    lines := t.lines.mapValues fun _ l => l.rename r
    semWait := t.semWait.mapValues fun _ w => w.map fun e => (renStrand r e.1, e.2) }
def Strand.rename (r : Nat → Nat) (x : Strand) : Strand :=
  { x with handler := x.handler.map fun h => { h with msgs := h.msgs.map (Message.rename r), held := h.held.map (Message.rename r) } }
def Task.rename (r : Nat → Nat) (t : Sys2Proof.Machine.Task) : Sys2Proof.Machine.Task :=
  { t with st := match t.st with
      | .running k => .running (renStrand r k)
      | x => x }
def Group.rename (r : Nat → Nat) (g : Group) : Group := { g with barWaiters := g.barWaiters.map (renStrand r) }
def Packet.rename (r : Nat → Nat) (k : Packet) : Packet :=
  { k with strand := renStrand r k.strand, target := if k.module.isNone then r k.target else k.target, before := k.before.rename r }
def Signal.rename (r : Nat → Nat) (g : Signal) : Signal :=
  { g with src := renSite r g.src, site := if g.module.isNone then renSite r g.site else g.site }
def Op.rename (r : Nat → Nat) (o : Op) : Op := { o with core := r o.core, strand := renStrand r o.strand }

/-- A tile's carve-outs come back, with their poison. -/
def State.restoreCarves (s : State) (v : Saved) (t base site : Nat) : State :=
  (v.carvesOn t).foldl
    (fun s c =>
      let lo := sramPa site c.2.1.base
      let n := c.2.1.size
      let s := s.zeroSram site c.2.1.base n
      let bad := s.fillPoison (base + c.2.2) n
      let s := { s with mem := (s.fillBytes (base + c.2.2) n).foldl (fun m b => m.write (lo + b.1) b.2) s.mem }
      bad.foldl (fun s j => s.setPoison (lo + 64 * j)) s) s
/-- The entries of `a`, and those of `b` that it has not. -/
def FMap.over {α : Type} (a b : FMap α) : FMap α := a.entries.foldl (fun m e => m.set e.1 e.2) b
/-- What the host has made of a tile's free part reaches that tile alone: its semaphores and the format of its last matrix instruction
(R424). -/
def Tile.altered (x y : Tile) : Tile := { x with sems := y.sems, mxeFmt := y.mxeFmt }
/-- Every row of the tile store is judged afresh: its bytes are those that the save area held (R326). -/
def Tile.remetaAll (x : Tile) : Tile :=
  x.rowMeta.entries.foldl (fun x e => x.remeta e.1 e.2.me.toNat) x
/-- One tile's image comes back as the save area now holds it; KVTB, L2 share and TOKH are the tile's own, and so are event lines that
were set up meanwhile. -/
def State.restoreTile (s : State) (p : Nat) (v : Saved) (r : Nat → Nat) (t : Nat) (x : Tile) : State :=
  match s.siteOfTile? t with
  | none => s
  | some site =>
    let base := (s.part p).tileRegion t
    let type := tileType site
    let live := s.tile site
    let x := (((s.altered v (base + offQueues)).bind Config.alteredTile).map x.altered).getD x
    let acct := if x.account.st == .requesting then { live.account with st := .requesting, pend := x.account.pend } else live.account
    let x := x.rename r
    let x := { x with
      lines := x.lines.over live.lines
      store := s.fillBytes (base + offStore) (storeBytes type), storePoison := s.fillPoison (base + offStore) (storeBytes type)
      carry := s.fillBytes (base + offCarry) (tileCarryBytes type)
      accs := s.fillBytes (base + offAccs) (accBytes type)
      accPoison := ((s.fillPoison (base + offAccs) (accBytes type)).map (· / 4)).dedup
      s2 := live.s2, kvtb := live.kvtb, account := acct, sramBad := live.sramBad, sramFailed := live.sramFailed, shadow := none }
    let bad := (s.fillPoison (base + offCarry) (tileCarryBytes type)).filter fun j => x.carryValid.contains (j / 128)
    s.setTile site (bad.foldl (fun x j => x.poisonCarry (j / 128) (carryRows (j % 128))) x.remetaAll)
/-- A tile on which nothing of the saved launches was keeps what it has now, and gets its event lines and its cores' returned messages
back (R160, R426). -/
def State.restoreLines (s : State) (r : Nat → Nat) (t : Nat) (x : Tile) : State :=
  match s.siteOfTile? t with
  | none => s
  | some site => let live := s.tile site; s.setTile site { live with lines := (x.rename r).lines.over live.lines }
/-- The ring slots of the saved mailboxes hold their messages again, those that a handler holds too (R422, R426). -/
def State.refillRings (s : State) (v : Saved) (r : Nat → Nat) : State :=
  v.rings.entries.foldl (fun s e =>
    let pa := sramPa (coreSite (r (e.1 / 2 ^ 22))) (e.1 % 2 ^ 22)
    let s := s.writePa pa 64 (e.2 % 2 ^ 512)
    if bitAt e.2 512 then s.setPoison pa else s) s
/-- A message whose destination has since been quarantined is returned DEAD (R426). -/
def State.reinject (s : State) (m : Message) : State :=
  s.pushMessage (if m.sts == 0#4 && m.module.isNone && s.deadSite (coreSite m.target) then m.back 3#4 else m)

/-- What fell out goes back on its way (R426). -/
def State.reinjectItem (s : State) (r : Nat → Nat) : FalloutItem → State
  | .message m => s.reinject (m.rename r)
  | .packet k => { s with packets := s.packets ++ [k.rename r] }
  | .signal g => { s with signals := s.signals ++ [g.rename r] }
  | .tree m => { s with treeMsgs := s.treeMsgs ++ [m] }
/-- A record of the fallout that the host has changed: a message goes on its way with another payload, to a core of the partition. -/
def State.alteredFallout (s : State) (p : Nat) (x y : FalloutItem) : FalloutItem :=
  match x, y with
  | .message m, .message n =>
    .message { m with
      payload := n.payload, tag := n.tag, mbox := n.mbox % 8
      target := if m.module.isNone && s.inPart p n.target then n.target else m.target }
  | x, _ => x
/-- A record of the fallout as the save area now holds it (R424). -/
def State.readFallout (s : State) (p : Nat) (v : Saved) (pa : Nat) (x : FalloutItem) : FalloutItem :=
  match (s.altered v pa).bind Config.alteredItem with
  | some y => s.alteredFallout p x y
  | none => match x with
    | .message m => .message { m with payload := BitVec.ofNat 384 (s.readPa (pa + 64) 64) }
    | x => (((s.altered v (pa + 64)).bind Config.alteredItem).map (s.alteredFallout p x)).getD x
/-- A zone's fallout, in the order of its records: within each pair that of their numbers. -/
def State.restoreZone (s : State) (p : Nat) (v : Saved) (r : Nat → Nat) (z : Nat) : State :=
  let part := s.part p
  let live := s.zone z
  let saved := (((s.altered v (part.zoneRegion z)).bind Config.alteredTasks).map fun ts =>
    ts.filter fun t => v.launches.contains t.launch && t.buffer.isEmpty && t.st == .waiting).getD (v.tasks.getD z [])
  let last := v.commits.getD z 0#64
  let s := s.setZone z
    { live with
      tasks := saved.map (Task.rename r) ++ live.tasks
      lastCommit := if live.tasks.isEmpty || live.lastCommit.ult last then last else live.lastCommit }
  let fs := v.falloutIn part z
  (fs.zip (List.range fs.length)).foldl (fun s e => s.reinjectItem r (s.readFallout p v (part.falloutRecord z e.2) e.1.item)) s
/-- A saved launch as its entry in the save area now gives it: the record, the identifier, the channel and the time left. -/
def State.readEntry (s : State) (p i : Nat) (l : Launch) : Launch :=
  let x := s.readPa ((s.part p).saveBase + 64 + 256 * i + 128) 64
  let left := bits x 64 64
  { l with
    record := s.savedRecord p i, lid := BitVec.ofNat 32 (bits x 0 32), ch := bits x 32 32
    usedNs := l.wdtUs * 1000 - left, wdtUs := max l.wdtUs (ceilDiv left 1000) }
/-- What the host has made of a strand's context: its registers, and nothing that reaches beyond its launch. Reserved bits read 0 (R9,
R424). -/
def Strand.altered (x y : Strand) : Strand :=
  { x with
    regs := y.regs, pc := y.pc &&& ~~~7#64, ovfp := y.ovfp &&& ~~~63#64, msgid := y.msgid
    tcause := y.tcause &&& ~~~(0xC0#10), taddr := y.taddr, tinfo := y.tinfo
    st := if y.st == .ready || y.st == .parked then y.st else x.st }
/-- A saved strand as its context now gives it. A request for a host page is made again when its pair is examined. -/
def State.restoredStrand (s : State) (p : Nat) (v : Saved) (r : Nat → Nat) (k : Nat) (x : Strand) : Strand :=
  let at_ := (v.tileNo? (strandCore k)).map fun t => (s.part p).tileRegion t + offContext (strandCore k % 2 * 8 + strandSlot k)
  let y := (((at_.bind (s.altered v)).bind Config.alteredStrand).map x.altered).getD x
  let y := y.rename r
  if y.st == .waiting .pri then { y with st := .ready } else y
/-- R426 on partition `p`. -/
def State.restore (s : State) (p : Nat) (v : Saved) : State :=
  let r := s.newPlace v
  let part := s.part p
  let records := v.launches.zip (List.range 64)
  let s := records.foldl
    (fun s e => match s.launch? e.1 with
      | none => s
      | some l =>
        let l := { s.readEntry p e.2 l with saved := false, groups := l.groups.map (Group.rename r) }
        let s := s.setLaunch e.1 l
        (s.planSites { cids := l.cids, coreSet := l.coreSet, remote := 0, groups := [] }).foldl
          (fun s t => (s.resizeL2 t (recL2sh l.record * 2 ^ 19)).beginHosting t) s) s
  let s := v.tiles.entries.foldl (fun s e => if v.used.contains e.1 then s.restoreTile p v r e.1 e.2 else s.restoreLines r e.1 e.2) s
  let s := v.cores.entries.foldl (fun s e =>
    let live := s.core (r e.1)
    let x := e.2.rename r
    if !((v.tileNo? e.1).any v.used.contains) then s.setCore (r e.1) { live with returned := x.returned ++ live.returned }
    else
      s.setCore (r e.1)
        { x with
          mboxes := x.mboxes.over live.mboxes, carves := x.carves.over live.carves
          last := live.last, cycBase := live.cycBase, plb := live.plb, plbTenant := live.plbTenant, stopped := live.stopped
          lastBeat := live.lastBeat, dead := live.dead }) s
  let s := s.refillRings v r
  let s := v.used.foldl (fun s t => match s.siteOfTile? t with
    | some site => s.restoreCarves v t (part.tileRegion t) site
    | none => s) s
  let s := v.strands.entries.foldl
    (fun s e => (s.setStrand (renStrand r e.1) (s.restoredStrand p v r e.1 e.2)).beginHosting (strandSite (renStrand r e.1))) s
  let s := v.ops.foldl (fun s o => s.beginHosting (coreSite (r o.core))) s
  let s := part.zoneList.foldl (fun s z => s.restoreZone p v r z) s
  let dropped := v.dropped.foldl (fun s m => s.reinject (m.rename r)) s
  { dropped with ops := dropped.ops ++ v.ops.map (Op.rename r) }

/-- RESTORE_COMPLETE (R418, R426, R427): partition `input.part` runs again from its image, and the deadlines of its launches go on. -/
def execRestoreComplete (s : State) : Res :=
  let p := s.input.part
  let part := s.part p
  match part.saved with
  | none => .next s
  | some v =>
    if !part.live || part.frozen || part.gang != .restoring then .next s
    else
      let s := (s.restore p v).setSaveState p 0
      let s := { s with launches := s.launches.mapValues fun _ l => if l.part == p then l.unpause s.time else l }
      .next (s.setPart p { s.part p with gang := .running, saved := none })

end Sys2Proof.Machine
end

