-- ==== Sys2Proof/Machine/Scalar.lean ====
section
/-! DEFINITION. Integer, bit, compare, select, predicate and FMT instructions (05_scalar R94–R102, R110–R116, R121–R123). -/

namespace Sys2Proof.Machine

/-- The result of an A-slot integer form: g[D] := x, and nothing else (R94). -/
def State.putG (s : State) (d : Reg) (x : Word) : Res := .next (s.setG d x)

/-! The functions of R110–R112. -/

def shiftCount (b : Word) : Nat := (b.extractLsb' 0 6).toNat
def smin (a b : Word) : Word := if a.slt b then a else b
def smax (a b : Word) : Word := if a.slt b then b else a
def umin (a b : Word) : Word := if a.ult b then a else b
def umax (a b : Word) : Word := if a.ult b then b else a
def mulHighSigned (a b : Word) : Word := ((a.signExtend 128) * (b.signExtend 128)).extractLsb' 64 64
def mulHighUnsigned (a b : Word) : Word := ((a.setWidth 128) * (b.setWidth 128)).extractLsb' 64 64
/-- R111: −1 for a zero divisor; −2^63 / −1 wraps to −2^63. -/
def divSigned (a b : Word) : Word := if b = 0#64 then minusOne else a.sdiv b
def divUnsigned (a b : Word) : Word := if b = 0#64 then minusOne else a / b
/-- R111: a for a zero divisor; the remainder has the sign of a. -/
def remSigned (a b : Word) : Word := if b = 0#64 then a else a.srem b
def remUnsigned (a b : Word) : Word := if b = 0#64 then a else a % b
def bitList (a : Word) : List Bool := (List.range 64).map a.getLsbD
def leadingZeros (a : Word) : Word := BitVec.ofNat 64 ((bitList a).reverse.takeWhile (!·)).length
def trailingZeros (a : Word) : Word := BitVec.ofNat 64 ((bitList a).takeWhile (!·)).length
def setBits (a : Word) : Word := BitVec.ofNat 64 ((bitList a).filter id).length
def reverseBits (a : Word) : Word := a.reverse
/-- Bits of a at the set positions of b, packed low (R112). -/
def bitExtractFrom (a b : Word) : Nat → Nat → Nat → Word → Word
  | 0, _, _, r => r
  | n + 1, i, k, r =>
    if b.getLsbD i then bitExtractFrom a b n (i + 1) (k + 1) (if a.getLsbD i then r ||| BitVec.ofNat 64 (2 ^ k) else r)
    else bitExtractFrom a b n (i + 1) k r
def bitExtract (a b : Word) : Word := bitExtractFrom a b 64 0 0 0#64
/-- Low bits of a placed at the set positions of b (R112). -/
def bitDepositFrom (a b : Word) : Nat → Nat → Nat → Word → Word
  | 0, _, _, r => r
  | n + 1, i, k, r =>
    if b.getLsbD i then bitDepositFrom a b n (i + 1) (k + 1) (if a.getLsbD k then r ||| BitVec.ofNat 64 (2 ^ i) else r)
    else bitDepositFrom a b n (i + 1) k r
def bitDeposit (a b : Word) : Word := bitDepositFrom a b 64 0 0 0#64
def imm12 (i : BitVec 12) : Word := i.signExtend 64

/-- ADD (R110). -/
def execAdd (d : Reg) (a b : Src) (s : State) : Res := s.putG d (s.g a + s.g b)

/-- SUB (R110). -/
def execSub (d : Reg) (a b : Src) (s : State) : Res := s.putG d (s.g a - s.g b)

/-- AND (R110). -/
def execAnd (d : Reg) (a b : Src) (s : State) : Res := s.putG d (s.g a &&& s.g b)

/-- OR (R110). -/
def execOr (d : Reg) (a b : Src) (s : State) : Res := s.putG d (s.g a ||| s.g b)

/-- XOR (R110). -/
def execXor (d : Reg) (a b : Src) (s : State) : Res := s.putG d (s.g a ^^^ s.g b)

/-- ANDN (R110). -/
def execAndn (d : Reg) (a b : Src) (s : State) : Res := s.putG d (s.g a &&& ~~~(s.g b))

/-- SHL (R110). -/
def execShl (d : Reg) (a b : Src) (s : State) : Res := s.putG d (s.g a <<< shiftCount (s.g b))

/-- SHR (R110). -/
def execShr (d : Reg) (a b : Src) (s : State) : Res := s.putG d (s.g a >>> shiftCount (s.g b))

/-- SAR (R110). -/
def execSar (d : Reg) (a b : Src) (s : State) : Res := s.putG d ((s.g a).sshiftRight (shiftCount (s.g b)))

/-- ROT (R110). -/
def execRot (d : Reg) (a b : Src) (s : State) : Res := s.putG d ((s.g a).rotateLeft (shiftCount (s.g b)))

/-- MIN (R110). -/
def execMin (d : Reg) (a b : Src) (s : State) : Res := s.putG d (smin (s.g a) (s.g b))

/-- MAX (R110). -/
def execMax (d : Reg) (a b : Src) (s : State) : Res := s.putG d (smax (s.g a) (s.g b))

/-- MINU (R110). -/
def execMinu (d : Reg) (a b : Src) (s : State) : Res := s.putG d (umin (s.g a) (s.g b))

/-- MAXU (R110). -/
def execMaxu (d : Reg) (a b : Src) (s : State) : Res := s.putG d (umax (s.g a) (s.g b))

/-- MUL (R110). -/
def execMul (d : Reg) (a b : Src) (s : State) : Res := s.putG d (s.g a * s.g b)

/-- MULH (R110). -/
def execMulh (d : Reg) (a b : Src) (s : State) : Res := s.putG d (mulHighSigned (s.g a) (s.g b))

/-- MULHU (R110). -/
def execMulhu (d : Reg) (a b : Src) (s : State) : Res := s.putG d (mulHighUnsigned (s.g a) (s.g b))

/-- DIV (R110). -/
def execDiv (d : Reg) (a b : Src) (s : State) : Res := s.putG d (divSigned (s.g a) (s.g b))

/-- DIVU (R110). -/
def execDivu (d : Reg) (a b : Src) (s : State) : Res := s.putG d (divUnsigned (s.g a) (s.g b))

/-- REM (R110). -/
def execRem (d : Reg) (a b : Src) (s : State) : Res := s.putG d (remSigned (s.g a) (s.g b))

/-- REMU (R110). -/
def execRemu (d : Reg) (a b : Src) (s : State) : Res := s.putG d (remUnsigned (s.g a) (s.g b))

/-- BEXT (R112). -/
def execBext (d : Reg) (a b : Src) (s : State) : Res := s.putG d (bitExtract (s.g a) (s.g b))

/-- BDEP (R112). -/
def execBdep (d : Reg) (a b : Src) (s : State) : Res := s.putG d (bitDeposit (s.g a) (s.g b))

/-- CLZ (R112). -/
def execClz (d : Reg) (a : Src) (s : State) : Res := s.putG d (leadingZeros (s.g a))

/-- CTZ (R112). -/
def execCtz (d : Reg) (a : Src) (s : State) : Res := s.putG d (trailingZeros (s.g a))

/-- POPC (R112). -/
def execPopc (d : Reg) (a : Src) (s : State) : Res := s.putG d (setBits (s.g a))

/-- BREV (R112). -/
def execBrev (d : Reg) (a : Src) (s : State) : Res := s.putG d (reverseBits (s.g a))

/-- ADDI (R113). -/
def execAddi (d : Reg) (a : Src) (imm : BitVec 12) (s : State) : Res := s.putG d (s.g a + imm12 imm)

/-- ANDI (R113). -/
def execAndi (d : Reg) (a : Src) (imm : BitVec 12) (s : State) : Res := s.putG d (s.g a &&& imm12 imm)

/-- ORI (R113). -/
def execOri (d : Reg) (a : Src) (imm : BitVec 12) (s : State) : Res := s.putG d (s.g a ||| imm12 imm)

/-- XORI (R113). -/
def execXori (d : Reg) (a : Src) (imm : BitVec 12) (s : State) : Res := s.putG d (s.g a ^^^ imm12 imm)

/-- SHLI (R113). -/
def execShli (d : Reg) (a : Src) (sh : BitVec 6) (s : State) : Res := s.putG d (s.g a <<< sh.toNat)

/-- SHRI (R113). -/
def execShri (d : Reg) (a : Src) (sh : BitVec 6) (s : State) : Res := s.putG d (s.g a >>> sh.toNat)

/-- SARI (R113). -/
def execSari (d : Reg) (a : Src) (sh : BitVec 6) (s : State) : Res := s.putG d ((s.g a).sshiftRight sh.toNat)

/-- LEA (R114). -/
def execLea (d : Reg) (a b : Src) (sh : BitVec 2) (s : State) : Res := s.putG d (s.g a + (s.g b <<< sh.toNat))

/-- MOVI (R102). -/
def execMovi (d : Reg) (imm : BitVec 12) (s : State) : Res := s.putG d (imm12 imm)

/-- The value of R77: sext(IMM12), or the 44-bit sext(literal : IMM12). -/
def movlValue (imm : Ext 12) : Word :=
  match imm.lit with
  | none => imm12 imm.short
  | some l => (l ++ imm.short).signExtend 64

/-- MOVL (R101). -/
def execMovl (d : Reg) (a : Src) (imm : Ext 12) (s : State) : Res := s.putG d ((s.g a <<< 44) + movlValue imm)

/-- CMP (R115). -/
def execCmp (cc : BitVec 4) (p : Pred) (a b : Src) (s : State) : Res := .next (s.setP p (intCond cc (s.g a) (s.g b)))

/-- CMPI (R115). -/
def execCmpi (cc : BitVec 4) (p : Pred) (a : Src) (imm : BitVec 12) (s : State) : Res := .next (s.setP p (intCond cc (s.g a) (imm12 imm)))

/-- SEL (R116). -/
def execSel (d : Reg) (p : Pred) (n : Bool) (a b : Src) (s : State) : Res := s.putG d (if s.p p != n then s.g a else s.g b)

/-- PAND (R121). -/
def execPand (d a b : Pred) (s : State) : Res := .next (s.setP d (s.p a && s.p b))

/-- POR (R121). -/
def execPor (d a b : Pred) (s : State) : Res := .next (s.setP d (s.p a || s.p b))

/-- PXOR (R121). -/
def execPxor (d a b : Pred) (s : State) : Res := .next (s.setP d (s.p a != s.p b))

/-- PNOT (R121). -/
def execPnot (d a : Pred) (s : State) : Res := .next (s.setP d (!s.p a))

/-- PMOV (R121). -/
def execPmov (d a : Pred) (s : State) : Res := .next (s.setP d (s.p a))

/-- The bits of FMT that an FMTSET field names: position and width (R79, R122). -/
def fmtField (field : BitVec 4) : Nat × Nat :=
  match field.toNat with
  | 0 => (0, 4)
  | 1 => (4, 4)
  | 2 => (8, 2)
  | 3 => (10, 2)
  | 4 => (12, 1)
  | 5 => (13, 1)
  | _ => (0, 14)

/-- FMT with `v` in the bits [lo + n − 1 : lo]. -/
def putField (f : BitVec 14) (lo n v : Nat) : BitVec 14 :=
  (f &&& ~~~(BitVec.ofNat 14 ((2 ^ n - 1) * 2 ^ lo))) ||| BitVec.ofNat 14 (v * 2 ^ lo)

def State.setFmt (s : State) (f : BitVec 14) : State := s.mapRegs fun r => { r with fmt := f }

/-- FMTSET (R122): a value wider than the field traps ILLEGAL and leaves FMT unchanged. -/
def execFmtset (field : BitVec 4) (a : Src) (imm : BitVec 12) (s : State) : Res :=
  let v := (s.g a + imm12 imm).toNat
  let (lo, n) := fmtField field
  if v ≥ 2 ^ n then s.illegal else .next (s.setFmt (putField s.self.regs.fmt lo n v))

/-- FMTGET (R123). -/
def execFmtget (d : Reg) (s : State) : Res := s.putG d (s.fmt.setWidth 64)

/-- NOPC (R100). -/
def execNopc (s : State) : Res := .next s
/-- NOPA (R100). -/
def execNopa (s : State) : Res := .next s

end Sys2Proof.Machine
end

