-- ==== Sys2Proof/Machine/Vector.lean ====
section
/-! DEFINITION. Vector A-slot instructions (06_vector R124–R142). A vector is handled as the list of its lanes' patterns,
lane 0 first. -/

namespace Sys2Proof.Machine

/-! ## Lanes (R124) -/

/-- The element type of an ET code. -/
def etType (et : BitVec 3) : NumType := typeOf et.toNat
def etWidth (et : BitVec 3) : Nat := (etType et).width
def etLanes (et : BitVec 3) : Nat := 512 / etWidth et
def lanesOf (w : Nat) (v : VWord) : List Nat := (List.range (512 / w)).map fun j => bits v.toNat (w * j) w
/-- The vector whose lanes of width `w` are given, lane 0 first. -/
def packLanes (w : Nat) : List Nat → Nat
  | [] => 0
  | x :: t => x % 2 ^ w + 2 ^ w * packLanes w t
def ofLanes (w : Nat) (xs : List Nat) : VWord := BitVec.ofNat 512 (packLanes w xs)
/-- The vector of lane results, with the OR of their flags (R125). -/
def ofResults (w : Nat) (rs : List FpRes) : VWord × Flags := (ofLanes w (rs.map (·.bits)), rs.foldl (fun f r => f ||| r.flags) 0)

def State.putV (s : State) (d : Reg) (r : VWord × Flags) : Res := .next ((s.setV d r.1).raise r.2)
def State.lanes (s : State) (et : BitVec 3) (r : Reg) : List Nat := lanesOf (etWidth et) (s.vr r)
/-- B's lanes: a vector register, or with BS = 1 a general register's low bits in every lane (R129). -/
def State.lanesB (s : State) (et : BitVec 3) (b : Src) (bs : Bool) : List Nat :=
  if bs then List.replicate (etLanes et) ((s.g b).toNat % 2 ^ etWidth et) else s.lanes et b.r

/-! ## Lane arithmetic (R129–R131) -/

/-- A binary lane operation: the FP function, or the exact integer result wrapped or saturated (R129). -/
def laneBin (t : NumType) (sat : Bool) (ff : Format → Nat → Nat → FpRes) (fi : Int → Int → Int) (x y : Nat) : FpRes :=
  match t with
  | .fp f => ff f x y
  | .int w sg => satInt w sg sat (fi (intOf w sg x) (intOf w sg y))

def State.vbin (s : State) (et : BitVec 3) (d : Reg) (a b : Src) (bs sat : Bool)
    (ff : Format → Nat → Nat → FpRes) (fi : Int → Int → Int) : Res :=
  s.putV d (ofResults (etWidth et) ((s.lanes et a.r).zipWith (laneBin (etType et) sat ff fi) (s.lanesB et b bs)))

def laneFma (t : NumType) (sat : Bool) (x y z : Nat) : FpRes :=
  match t with
  | .fp f => fpFma f x y z
  | .int w sg => satInt w sg sat (intOf w sg x * intOf w sg y + intOf w sg z)

/-- VADD (R129). -/
def execVadd (et : BitVec 3) (d : Reg) (a b : Src) (bs sat : Bool) (s : State) : Res :=
  s.vbin et d a b bs sat fpAdd (· + ·)

/-- VSUB (R129). -/
def execVsub (et : BitVec 3) (d : Reg) (a b : Src) (bs sat : Bool) (s : State) : Res :=
  s.vbin et d a b bs sat fpSub (· - ·)

/-- VMUL (R129). -/
def execVmul (et : BitVec 3) (d : Reg) (a b : Src) (bs sat : Bool) (s : State) : Res :=
  s.vbin et d a b bs sat fpMul (· * ·)

/-- VMIN (R129). -/
def execVmin (et : BitVec 3) (d : Reg) (a b : Src) (bs sat : Bool) (s : State) : Res :=
  s.vbin et d a b bs sat fpMin min

/-- VMAX (R129). -/
def execVmax (et : BitVec 3) (d : Reg) (a b : Src) (bs sat : Bool) (s : State) : Res :=
  s.vbin et d a b bs sat fpMax max

/-- VFMA (R129): the addend is the old v[D]. -/
def execVfma (et : BitVec 3) (d : Reg) (a b : Src) (bs sat : Bool) (s : State) : Res :=
  s.putV d (ofResults (etWidth et)
    (((s.lanes et a.r).zip (s.lanesB et b bs)).zipWith (fun xy z => laneFma (etType et) sat xy.1 xy.2 z) (s.lanes et d)))

/-- A one-operand lane operation. -/
def State.vmap (s : State) (et : BitVec 3) (d : Reg) (a : Src) (f : NumType → Nat → FpRes) : Res :=
  s.putV d (ofResults (etWidth et) ((s.lanes et a.r).map (f (etType et))))

def laneAbs (t : NumType) (x : Nat) : FpRes :=
  match t with
  | .fp f => ⟨fpAbsBits f x, 0⟩
  | .int w sg => ⟨wrapInt w ((intOf w sg x).natAbs : Int), 0⟩
def laneNeg (t : NumType) (x : Nat) : FpRes :=
  match t with
  | .fp f => ⟨fpNegBits f x, 0⟩
  | .int w _ => ⟨wrapInt w (-(x : Int)), 0⟩
/-- The lane form of EX2, LG2, RCP or RSQ; an integer ET does not decode. -/
def laneVia (g : Nat → FpRes) (t : NumType) (x : Nat) : FpRes :=
  match t with
  | .fp f => viaFp32 g f x
  | .int _ _ => ⟨x, 0⟩

/-- VABS (R130). -/
def execVabs (et : BitVec 3) (d : Reg) (a : Src) (s : State) : Res :=
  s.vmap et d a laneAbs

/-- VNEG (R130). -/
def execVneg (et : BitVec 3) (d : Reg) (a : Src) (s : State) : Res :=
  s.vmap et d a laneNeg

/-- VEX2 (R130). -/
def execVex2 (et : BitVec 3) (d : Reg) (a : Src) (s : State) : Res :=
  s.vmap et d a (laneVia ex2)

/-- VLG2 (R130). -/
def execVlg2 (et : BitVec 3) (d : Reg) (a : Src) (s : State) : Res :=
  s.vmap et d a (laneVia lg2)

/-- VRCP (R130). -/
def execVrcp (et : BitVec 3) (d : Reg) (a : Src) (s : State) : Res :=
  s.vmap et d a (laneVia rcp)

/-- VRSQ (R130). -/
def execVrsq (et : BitVec 3) (d : Reg) (a : Src) (s : State) : Res :=
  s.vmap et d a (laneVia rsq)

/-- VAND (R131). -/
def execVand (_et : BitVec 3) (d : Reg) (a b : Src) (s : State) : Res :=
  .next (s.setV d (s.vr a.r &&& s.vr b.r))

/-- VOR (R131). -/
def execVor (_et : BitVec 3) (d : Reg) (a b : Src) (s : State) : Res :=
  .next (s.setV d (s.vr a.r ||| s.vr b.r))

/-- VXOR (R131). -/
def execVxor (_et : BitVec 3) (d : Reg) (a b : Src) (s : State) : Res :=
  .next (s.setV d (s.vr a.r ^^^ s.vr b.r))

/-- A shift count, b[log₂w − 1 : 0] (R131). -/
def laneCount (w x : Nat) : Nat := x % w
def laneShl (t : NumType) (x y : Nat) : Nat := (x <<< laneCount t.width y) % 2 ^ t.width
/-- Arithmetic for the signed types, logical for NAT8 (R131). -/
def laneShr (t : NumType) (x y : Nat) : Nat :=
  match t with
  | .int w true => wrapInt w (signed w x / ((2 ^ laneCount w y : Nat) : Int))
  | t => x >>> laneCount t.width y

/-- VSHL (R131). -/
def execVshl (et : BitVec 3) (d : Reg) (a b : Src) (s : State) : Res :=
  .next (s.setV d (ofLanes (etWidth et) ((s.lanes et a.r).zipWith (laneShl (etType et)) (s.lanes et b.r))))

/-- VSHR (R131). -/
def execVshr (et : BitVec 3) (d : Reg) (a b : Src) (s : State) : Res :=
  .next (s.setV d (ofLanes (etWidth et) ((s.lanes et a.r).zipWith (laneShr (etType et)) (s.lanes et b.r))))

/-! ## Compare, select and movement (R132–R135) -/

def laneCmp (t : NumType) (cc : BitVec 3) (x y : Nat) : Bool × Flags :=
  match t with
  | .fp f => fpCompare cc (Fp.ofBits f x) (Fp.ofBits f y)
  | .int w sg => (laneCond cc (intOf w sg x) (intOf w sg y), 0)

/-- VCMP (R132). -/
def execVcmp (cc : BitVec 3) (et : BitVec 3) (d : Reg) (a b : Src) (s : State) : Res :=
  let w := etWidth et
  s.putV d (ofResults w ((s.lanes et a.r).zipWith
    (fun x y => let r := laneCmp (etType et) cc x y; ⟨if r.1 then 2 ^ w - 1 else 0, r.2⟩) (s.lanes et b.r)))

/-- VSEL (R133): the old v[D] is the mask. -/
def execVsel (_et : BitVec 3) (d : Reg) (a b : Src) (s : State) : Res :=
  .next (s.setV d ((s.vr a.r &&& s.vr d) ||| (s.vr b.r &&& ~~~(s.vr d))))

/-- VSHUF (R134). -/
def execVshuf (et : BitVec 3) (d : Reg) (a b : Src) (s : State) : Res :=
  let xs := s.lanes et a.r
  .next (s.setV d (ofLanes (etWidth et) ((s.lanes et b.r).map fun k => xs.getD k 0)))

/-- VBCAST (R135). -/
def execVbcast (et : BitVec 3) (d : Reg) (a : Src) (s : State) : Res :=
  .next (s.setV d (ofLanes (etWidth et) (List.replicate (etLanes et) ((s.g a).toNat % 2 ^ etWidth et))))

/-- VINS (R135). -/
def execVins (et : BitVec 3) (d : Reg) (a b : Src) (s : State) : Res :=
  .next (s.setV d (ofLanes (etWidth et) ((s.lanes et d).set (s.g b).toNat ((s.g a).toNat % 2 ^ etWidth et))))

/-- VEXT (R135). -/
def execVext (et : BitVec 3) (d : Reg) (a b : Src) (s : State) : Res :=
  let k := (s.g b).toNat
  .next (s.setG d (if k ≥ etLanes et then 0#64 else extendTo64 (etType et) ((s.lanes et a.r).getD k 0)))

/-- VIOTA (R135). -/
def execViota (et : BitVec 3) (d : Reg) (s : State) : Res :=
  .next (s.setV d (ofLanes (etWidth et) (List.range (etLanes et))))

/-! ## Reductions and scans (R136, R137) -/

/-- One level of the binary tree. -/
def pairUp (op : Nat → Nat → FpRes) : List Nat → List FpRes
  | x :: y :: t => op x y :: pairUp op t
  | _ => []
/-- The tree of R136 over 2^levels lanes. -/
def treeReduce (op : Nat → Nat → FpRes) : Nat → List Nat → FpRes
  | 0, xs => ⟨xs.headD 0, 0⟩
  | n + 1, xs =>
    let rs := pairUp op xs
    let r := treeReduce op n (rs.map (·.bits))
    ⟨r.bits, rs.foldl (fun f r => f ||| r.flags) r.flags⟩

/-- The type in which the tree works (R136): BF16 and FP16 in FP32, integers in 64 bits. -/
def treeType : NumType → NumType
  | .fp f => if f = fp64 then .fp fp64 else .fp fp32
  | .int _ sg => .int 64 sg

/-- Widening a lane to the tree's type; a signalling NaN stays one for the node that reads it (R56, R136). -/
def widenLane (t : NumType) (x : Nat) : Nat :=
  match t with
  | .fp f =>
    if f = fp64 ∨ f = fp32 then x
    else
      match Fp.ofBits f x with
      | .nan sig => if sig then fp32.infCode + 1 else fp32.nan
      | _ => (cvtFpFp f fp32 .rne false x).bits
  | .int w sg => wrapInt 64 (intOf w sg x)

def treeOp (t : NumType) (ff : Format → Nat → Nat → FpRes) (fi : Int → Int → Int) : Nat → Nat → FpRes :=
  laneBin (treeType t) false ff fi

def State.vred (s : State) (et : BitVec 3) (d : Reg) (a : Src) (op : Nat → Nat → FpRes) : Res :=
  let t := etType et
  let r := treeReduce op (etLanes et).log2 ((s.lanes et a.r).map (widenLane t))
  .next ((s.setG d (BitVec.ofNat 64 r.bits)).raise r.flags)

def natOp (f : Nat → Nat → Nat) (x y : Nat) : FpRes := ⟨f x y, 0⟩

/-- VRED.add (R136). -/
def execVredAdd (et : BitVec 3) (d : Reg) (a : Src) (s : State) : Res :=
  s.vred et d a (treeOp (etType et) fpAdd (· + ·))

/-- VRED.min (R136). -/
def execVredMin (et : BitVec 3) (d : Reg) (a : Src) (s : State) : Res :=
  s.vred et d a (treeOp (etType et) fpMin min)

/-- VRED.max (R136). -/
def execVredMax (et : BitVec 3) (d : Reg) (a : Src) (s : State) : Res :=
  s.vred et d a (treeOp (etType et) fpMax max)

/-- VRED.and (R136). -/
def execVredAnd (et : BitVec 3) (d : Reg) (a : Src) (s : State) : Res :=
  s.vred et d a (natOp (· &&& ·))

/-- VRED.or (R136). -/
def execVredOr (et : BitVec 3) (d : Reg) (a : Src) (s : State) : Res :=
  s.vred et d a (natOp (· ||| ·))

/-- VRED.xor (R136). -/
def execVredXor (et : BitVec 3) (d : Reg) (a : Src) (s : State) : Res :=
  s.vred et d a (natOp (· ^^^ ·))

/-- The inclusive scan of R137, ascending, in the element type. -/
def scanFrom (op : Nat → Nat → FpRes) : Nat → List Nat → List FpRes
  | _, [] => []
  | acc, x :: t => let r := op acc x; r :: scanFrom op r.bits t

/-- Lane 0 of a scan: a NaN made canonical, NV if signalling (R137). -/
def scanFirst (t : NumType) (x : Nat) : FpRes := convert t t .rne false x

def State.vscan (s : State) (et : BitVec 3) (d : Reg) (a : Src) (op : Nat → Nat → FpRes) : Res :=
  match s.lanes et a.r with
  | [] => .next s
  | x :: t => let r := scanFirst (etType et) x; s.putV d (ofResults (etWidth et) (r :: scanFrom op r.bits t))

/-- VSCAN.add (R137). -/
def execVscanAdd (et : BitVec 3) (d : Reg) (a : Src) (s : State) : Res :=
  s.vscan et d a (laneBin (etType et) false fpAdd (· + ·))

/-- VSCAN.min (R137). -/
def execVscanMin (et : BitVec 3) (d : Reg) (a : Src) (s : State) : Res :=
  s.vscan et d a (laneBin (etType et) false fpMin min)

/-- VSCAN.max (R137). -/
def execVscanMax (et : BitVec 3) (d : Reg) (a : Src) (s : State) : Res :=
  s.vscan et d a (laneBin (etType et) false fpMax max)

/-! ## Conversions (R138–R141) -/

/-- VCVT (R138): min(Ls, Ld) lanes convert, the rest of the destination is 0. -/
def execVcvt (dst src : BitVec 3) (d : Reg) (a : Src) (s : State) : Res :=
  let n := min (etLanes src) (etLanes dst)
  s.putV d (ofResults (etWidth dst)
    (((s.lanes src a.r).take n).map (convert (etType src) (etType dst) (fmtRm s.fmt) (fmtSat s.fmt))))

/-- floor(log₂ |x|) of a finite nonzero value. -/
def fpLog2 : Fp → Int
  | .fin _ m e => e + m.log2
  | _ => 0

def mxFormat (fp4 : Bool) : Format := if fp4 then fp4e2m1 else fp8e4m3
def mxEmax (fp4 : Bool) : Int := if fp4 then 2 else 8

/-- The largest magnitude of finite values, as (mantissa, exponent); 0 when all are zero. -/
def fpMaxMag (vs : List Fp) : Fp :=
  vs.foldl (fun m v =>
    match v with
    | .fin _ a e => if fpOrder (.fin false a e) m == .gt then .fin false a e else m
    | _ => m) (.fin false 0 0)

/-- The scale of a block (R139). -/
def mxScale (fp4 : Bool) (vs : List Fp) : Nat :=
  let m := fpMaxMag vs
  if m.isZero then 0 else (min (max (fpLog2 m - mxEmax fp4 + 127) 0) 254).toNat

/-- One element: x × 2^(127 − S) rounded in FMT.RM and clamped to ±max; no OF (R139). -/
def mxElement (fp4 : Bool) (rm : RMode) (scale : Nat) (v : Fp) : FpRes :=
  let f := mxFormat fp4
  match v with
  | .fin n m e =>
    if m = 0 then ⟨withSign f n 0, 0⟩
    else
      let (code, exact) := roundCode f rm n m (e + 127 - scale)
      let clamped := code > f.maxCode
      let inexact := !exact || clamped
      ⟨withSign f n (min code f.maxCode), flagIf inexact flagNX ||| flagIf (inexact && code < 2 ^ f.mbits) flagUF⟩
  | _ => ⟨0, 0⟩

/-- The block of R139 in the layout of R140. -/
def mxQuantise (fp4 : Bool) (rm : RMode) (vs : List Fp) : VWord × Flags :=
  let w := if fp4 then 4 else 8
  if vs.any (fun v => v.isNaN || v.isInf) then (BitVec.ofNat 512 (0xFF * 2 ^ (32 * w)), flagNV)
  else
    let scale := mxScale fp4 vs
    let rs := vs.map (mxElement fp4 rm scale)
    (BitVec.ofNat 512 (packLanes w (rs.map (·.bits)) + scale * 2 ^ (32 * w)), rs.foldl (fun f r => f ||| r.flags) 0)

/-- VQNT (R139, R140). -/
def execVqnt (et : BitVec 3) (fp4 : Bool) (d : Reg) (a b : Src) (s : State) : Res :=
  let f := match etType et with
    | .fp f => f
    | .int _ _ => fp32
  let xs := if et == 0#3 then s.lanes et a.r ++ s.lanes et b.r else s.lanes et a.r
  s.putV d (mxQuantise fp4 (fmtRm s.fmt) (xs.map (Fp.ofBits f)))

/-- Element `i` of a block, scaled and rounded RNE to `f` (R141). -/
def mxDequant (fp4 : Bool) (f : Format) (v : Nat) (i : Nat) : FpRes :=
  let w := if fp4 then 4 else 8
  let scale := bits v (32 * w) 8
  if scale = 0xFF then ⟨f.nan, 0⟩
  else
    match Fp.ofBits (mxFormat fp4) (bits v (w * i) w) with
    | .fin n m e => rne f n m (e + scale - 127)
    | _ => ⟨f.nan, 0⟩

/-- VDQNT (R141). With ET 0, lanes 16–31 go to the second destination. -/
def execVdqnt (et : BitVec 3) (fp4 : Bool) (d : Reg) (a : Src) (d2 : Reg) (s : State) : Res :=
  let f := match etType et with
    | .fp f => f
    | .int _ _ => fp32
  let rs := (List.range 32).map (mxDequant fp4 f (s.vr a.r).toNat)
  if et == 0#3 then
    let lo := ofResults 32 (rs.take 16)
    let hi := ofResults 32 (rs.drop 16)
    .next (((s.setV d lo.1).setV d2 hi.1).raise (lo.2 ||| hi.2))
  else s.putV d (ofResults f.width rs)

/-! ## Dot product (R142) -/

/-- The products of `k` consecutive lanes, summed. -/
def dotGroup (w : Nat) (sg : Bool) (k : Nat) (xs ys : List Nat) (j : Nat) : Int :=
  (List.range k).foldl
    (fun acc i => acc + intOf w sg (xs.getD (k * j + i) 0) * intOf w sg (ys.getD (k * j + i) 0)) 0

/-- VDOT (R142). -/
def execVdot (et : BitVec 3) (d : Reg) (a b : Src) (s : State) : Res :=
  let w := etWidth et
  let sg := et != 7#3
  let accs := lanesOf 32 (s.vr d)
  s.putV d (ofResults 32 (accs.mapIdx fun j acc =>
    satInt 32 true (fmtSat s.fmt) (signed 32 acc + dotGroup w sg (32 / w) (s.lanes et a.r) (s.lanes et b.r) j)))

end Sys2Proof.Machine
end

