-- ==== Sys2Proof/Machine/Dispatch.lean ====
section
/-! DEFINITION. Which meaning each instruction and each event has. -/

namespace Sys2Proof.Machine

def exec (i : Instr) (s : State) : Host.Outcome State Fault Refusal :=
  match i with
  | .nopc => Sys2Proof.Machine.execNopc s
  | .nopa => Sys2Proof.Machine.execNopa s
  | .br off => Sys2Proof.Machine.execBr off s
  | .brl off => Sys2Proof.Machine.execBrl off s
  | .jmp a => Sys2Proof.Machine.execJmp a s
  | .jmpl a => Sys2Proof.Machine.execJmpl a s
  | .ret => Sys2Proof.Machine.execRet s
  | .dbnz d off => Sys2Proof.Machine.execDbnz d off s
  | .endStrand => Sys2Proof.Machine.execEndStrand s
  | .yieldTurn => Sys2Proof.Machine.execYieldTurn s
  | .pause a => Sys2Proof.Machine.execPause a s
  | .hend => Sys2Proof.Machine.execHend s
  | .movl d a imm => Sys2Proof.Machine.execMovl d a imm s
  | .movi d imm => Sys2Proof.Machine.execMovi d imm s
  | .ld d base sz sg off => Sys2Proof.Machine.execLd d base sz sg off s
  | .st src base sz off => Sys2Proof.Machine.execSt src base sz off s
  | .ldx d base idx sz sg sc => Sys2Proof.Machine.execLdx d base idx sz sg sc s
  | .stx src base idx sz sc => Sys2Proof.Machine.execStx src base idx sz sc s
  | .mfs d num => Sys2Proof.Machine.execMfs d num s
  | .mts src num => Sys2Proof.Machine.execMts src num s
  | .trap code => Sys2Proof.Machine.execTrap code s
  | .add d a b => Sys2Proof.Machine.execAdd d a b s
  | .sub d a b => Sys2Proof.Machine.execSub d a b s
  | .and d a b => Sys2Proof.Machine.execAnd d a b s
  | .or d a b => Sys2Proof.Machine.execOr d a b s
  | .xor d a b => Sys2Proof.Machine.execXor d a b s
  | .andn d a b => Sys2Proof.Machine.execAndn d a b s
  | .shl d a b => Sys2Proof.Machine.execShl d a b s
  | .shr d a b => Sys2Proof.Machine.execShr d a b s
  | .sar d a b => Sys2Proof.Machine.execSar d a b s
  | .rot d a b => Sys2Proof.Machine.execRot d a b s
  | .min d a b => Sys2Proof.Machine.execMin d a b s
  | .max d a b => Sys2Proof.Machine.execMax d a b s
  | .minu d a b => Sys2Proof.Machine.execMinu d a b s
  | .maxu d a b => Sys2Proof.Machine.execMaxu d a b s
  | .mul d a b => Sys2Proof.Machine.execMul d a b s
  | .mulh d a b => Sys2Proof.Machine.execMulh d a b s
  | .mulhu d a b => Sys2Proof.Machine.execMulhu d a b s
  | .div d a b => Sys2Proof.Machine.execDiv d a b s
  | .divu d a b => Sys2Proof.Machine.execDivu d a b s
  | .rem d a b => Sys2Proof.Machine.execRem d a b s
  | .remu d a b => Sys2Proof.Machine.execRemu d a b s
  | .clz d a => Sys2Proof.Machine.execClz d a s
  | .ctz d a => Sys2Proof.Machine.execCtz d a s
  | .popc d a => Sys2Proof.Machine.execPopc d a s
  | .brev d a => Sys2Proof.Machine.execBrev d a s
  | .bext d a b => Sys2Proof.Machine.execBext d a b s
  | .bdep d a b => Sys2Proof.Machine.execBdep d a b s
  | .addi d a imm => Sys2Proof.Machine.execAddi d a imm s
  | .andi d a imm => Sys2Proof.Machine.execAndi d a imm s
  | .ori d a imm => Sys2Proof.Machine.execOri d a imm s
  | .xori d a imm => Sys2Proof.Machine.execXori d a imm s
  | .shli d a sh => Sys2Proof.Machine.execShli d a sh s
  | .shri d a sh => Sys2Proof.Machine.execShri d a sh s
  | .sari d a sh => Sys2Proof.Machine.execSari d a sh s
  | .lea d a b sh => Sys2Proof.Machine.execLea d a b sh s
  | .cmp cc p a b => Sys2Proof.Machine.execCmp cc p a b s
  | .cmpi cc p a imm => Sys2Proof.Machine.execCmpi cc p a imm s
  | .sel d p n a b => Sys2Proof.Machine.execSel d p n a b s
  | .fadd et d a b => Sys2Proof.Machine.execFadd et d a b s
  | .fsub et d a b => Sys2Proof.Machine.execFsub et d a b s
  | .fmul et d a b => Sys2Proof.Machine.execFmul et d a b s
  | .ffma et d a b => Sys2Proof.Machine.execFfma et d a b s
  | .fdiv et d a b => Sys2Proof.Machine.execFdiv et d a b s
  | .fmin et d a b => Sys2Proof.Machine.execFmin et d a b s
  | .fmax et d a b => Sys2Proof.Machine.execFmax et d a b s
  | .fsqrt et d a => Sys2Proof.Machine.execFsqrt et d a s
  | .fabs et d a => Sys2Proof.Machine.execFabs et d a s
  | .fneg et d a => Sys2Proof.Machine.execFneg et d a s
  | .ex2 et d a => Sys2Proof.Machine.execEx2 et d a s
  | .lg2 et d a => Sys2Proof.Machine.execLg2 et d a s
  | .rcp et d a => Sys2Proof.Machine.execRcp et d a s
  | .rsq et d a => Sys2Proof.Machine.execRsq et d a s
  | .fcmp cc et p a b => Sys2Proof.Machine.execFcmp cc et p a b s
  | .fcvt dst src d a => Sys2Proof.Machine.execFcvt dst src d a s
  | .pand d a b => Sys2Proof.Machine.execPand d a b s
  | .por d a b => Sys2Proof.Machine.execPor d a b s
  | .pxor d a b => Sys2Proof.Machine.execPxor d a b s
  | .pnot d a => Sys2Proof.Machine.execPnot d a s
  | .pmov d a => Sys2Proof.Machine.execPmov d a s
  | .fmtset field a imm => Sys2Proof.Machine.execFmtset field a imm s
  | .fmtget d => Sys2Proof.Machine.execFmtget d s
  | .ldv d base off => Sys2Proof.Machine.execLdv d base off s
  | .stv src base off => Sys2Proof.Machine.execStv src base off s
  | .ldvb d base esz off => Sys2Proof.Machine.execLdvb d base esz off s
  | .vadd et d a b bs sat => Sys2Proof.Machine.execVadd et d a b bs sat s
  | .vsub et d a b bs sat => Sys2Proof.Machine.execVsub et d a b bs sat s
  | .vmul et d a b bs sat => Sys2Proof.Machine.execVmul et d a b bs sat s
  | .vfma et d a b bs sat => Sys2Proof.Machine.execVfma et d a b bs sat s
  | .vmin et d a b bs sat => Sys2Proof.Machine.execVmin et d a b bs sat s
  | .vmax et d a b bs sat => Sys2Proof.Machine.execVmax et d a b bs sat s
  | .vabs et d a => Sys2Proof.Machine.execVabs et d a s
  | .vneg et d a => Sys2Proof.Machine.execVneg et d a s
  | .vex2 et d a => Sys2Proof.Machine.execVex2 et d a s
  | .vlg2 et d a => Sys2Proof.Machine.execVlg2 et d a s
  | .vrcp et d a => Sys2Proof.Machine.execVrcp et d a s
  | .vrsq et d a => Sys2Proof.Machine.execVrsq et d a s
  | .vand et d a b => Sys2Proof.Machine.execVand et d a b s
  | .vor et d a b => Sys2Proof.Machine.execVor et d a b s
  | .vxor et d a b => Sys2Proof.Machine.execVxor et d a b s
  | .vshl et d a b => Sys2Proof.Machine.execVshl et d a b s
  | .vshr et d a b => Sys2Proof.Machine.execVshr et d a b s
  | .vcmp cc et d a b => Sys2Proof.Machine.execVcmp cc et d a b s
  | .vsel et d a b => Sys2Proof.Machine.execVsel et d a b s
  | .vshuf et d a b => Sys2Proof.Machine.execVshuf et d a b s
  | .vbcast et d a => Sys2Proof.Machine.execVbcast et d a s
  | .vins et d a b => Sys2Proof.Machine.execVins et d a b s
  | .vext et d a b => Sys2Proof.Machine.execVext et d a b s
  | .viota et d => Sys2Proof.Machine.execViota et d s
  | .vredAdd et d a => Sys2Proof.Machine.execVredAdd et d a s
  | .vredMin et d a => Sys2Proof.Machine.execVredMin et d a s
  | .vredMax et d a => Sys2Proof.Machine.execVredMax et d a s
  | .vredAnd et d a => Sys2Proof.Machine.execVredAnd et d a s
  | .vredOr et d a => Sys2Proof.Machine.execVredOr et d a s
  | .vredXor et d a => Sys2Proof.Machine.execVredXor et d a s
  | .vscanAdd et d a => Sys2Proof.Machine.execVscanAdd et d a s
  | .vscanMin et d a => Sys2Proof.Machine.execVscanMin et d a s
  | .vscanMax et d a => Sys2Proof.Machine.execVscanMax et d a s
  | .vcvt dst src d a => Sys2Proof.Machine.execVcvt dst src d a s
  | .vqnt et fp4 d a b => Sys2Proof.Machine.execVqnt et fp4 d a b s
  | .vdqnt et fp4 d a d2 => Sys2Proof.Machine.execVdqnt et fp4 d a d2 s
  | .vdot et d a b => Sys2Proof.Machine.execVdot et d a b s
  | .lda d base sz scope off => Sys2Proof.Machine.execLda d base sz scope off s
  | .stl src base sz scope off => Sys2Proof.Machine.execStl src base sz scope off s
  | .amoAdd d a b w scope => Sys2Proof.Machine.execAmoAdd d a b w scope s
  | .amoAnd d a b w scope => Sys2Proof.Machine.execAmoAnd d a b w scope s
  | .amoOr d a b w scope => Sys2Proof.Machine.execAmoOr d a b w scope s
  | .amoXor d a b w scope => Sys2Proof.Machine.execAmoXor d a b w scope s
  | .amoMin d a b w scope => Sys2Proof.Machine.execAmoMin d a b w scope s
  | .amoMax d a b w scope => Sys2Proof.Machine.execAmoMax d a b w scope s
  | .amoMinu d a b w scope => Sys2Proof.Machine.execAmoMinu d a b w scope s
  | .amoMaxu d a b w scope => Sys2Proof.Machine.execAmoMaxu d a b w scope s
  | .amoSwap d a b w scope => Sys2Proof.Machine.execAmoSwap d a b w scope s
  | .amoCas d a b w scope => Sys2Proof.Machine.execAmoCas d a b w scope s
  | .fence scope kind => Sys2Proof.Machine.execFence scope kind s
  | .pref a scope kind => Sys2Proof.Machine.execPref a scope kind s
  | .flush a scope => Sys2Proof.Machine.execFlush a scope s
  | .inv a scope => Sys2Proof.Machine.execInv a scope s
  | .kvfill d a b => Sys2Proof.Machine.execKvfill d a b s
  | .kvinv d a b => Sys2Proof.Machine.execKvinv d a b s
  | .kvprobe d a m => Sys2Proof.Machine.execKvprobe d a m s
  | .pgmig d a b => Sys2Proof.Machine.execPgmig d a b s
  | .pgownGive d a m => Sys2Proof.Machine.execPgownGive d a m s
  | .pgownTake d a m => Sys2Proof.Machine.execPgownTake d a m s
  | .plbinv a m => Sys2Proof.Machine.execPlbinv a m s
  | .xfer d a b c m => Sys2Proof.Machine.execXfer d a b c m s
  | .xfer2d d a b c m => Sys2Proof.Machine.execXfer2d d a b c m s
  | .xwait d a b => Sys2Proof.Machine.execXwait d a b s
  | .xpoll d a b => Sys2Proof.Machine.execXpoll d a b s
  | .tsld d a b c m => Sys2Proof.Machine.execTsld d a b c m s
  | .tsst d a b c m => Sys2Proof.Machine.execTsst d a b c m s
  | .tscpy d a b c m => Sys2Proof.Machine.execTscpy d a b c m s
  | .tszero d a c m => Sys2Proof.Machine.execTszero d a c m s
  | .mma d a b m => Sys2Proof.Machine.execMma d a b m s
  | .bsmma d a b m => Sys2Proof.Machine.execBsmma d a b m s
  | .mmal d a b c m => Sys2Proof.Machine.execMmal d a b c m s
  | .gmm d a m => Sys2Proof.Machine.execGmm d a m s
  | .aczero d m => Sys2Proof.Machine.execAczero d m s
  | .acld d a m => Sys2Proof.Machine.execAcld d a m s
  | .acst d a m => Sys2Proof.Machine.execAcst d a m s
  | .semv a m => Sys2Proof.Machine.execSemv a m s
  | .semp d a m => Sys2Proof.Machine.execSemp d a m s
  | .semq d a => Sys2Proof.Machine.execSemq d a s
  | .atts d a b => Sys2Proof.Machine.execAtts d a b s
  | .attm d a m => Sys2Proof.Machine.execAttm d a m s
  | .attn d a b m => Sys2Proof.Machine.execAttn d a b m s
  | .kvnext d a b => Sys2Proof.Machine.execKvnext d a b s
  | .cbinit d a m => Sys2Proof.Machine.execCbinit d a m s
  | .cbld d a m => Sys2Proof.Machine.execCbld d a m s
  | .cbst d a m => Sys2Proof.Machine.execCbst d a m s
  | .gath d a b c m => Sys2Proof.Machine.execGath d a b c m s
  | .scat d a b c m => Sys2Proof.Machine.execScat d a b c m s
  | .greplay d a b => Sys2Proof.Machine.execGreplay d a b s
  | .gcancel d a b m => Sys2Proof.Machine.execGcancel d a b m s
  | .fqpeek d a b m => Sys2Proof.Machine.execFqpeek d a b m s
  | .smerge d a b c m => Sys2Proof.Machine.execSmerge d a b c m s
  | .collAr d a b c m => Sys2Proof.Machine.execCollAr d a b c m s
  | .collSr d a b c m => Sys2Proof.Machine.execCollSr d a b c m s
  | .collBc d a b c m => Sys2Proof.Machine.execCollBc d a b c m s
  | .send d a b m => Sys2Proof.Machine.execSend d a b m s
  | .sendReturned d a m => Sys2Proof.Machine.execSendReturned d a m s
  | .hop a m => Sys2Proof.Machine.execHop a m s
  | .spawn d a b c => Sys2Proof.Machine.execSpawn d a b c s
  | .launch d a => Sys2Proof.Machine.execLaunch d a s
  | .launchi d a => Sys2Proof.Machine.execLaunchi d a s
  | .launchQ d a b => Sys2Proof.Machine.execLaunchQ d a b s
  | .mbcfg d a b m => Sys2Proof.Machine.execMbcfg d a b m s
  | .evcfg a b => Sys2Proof.Machine.execEvcfg a b s
  | .evwait d a => Sys2Proof.Machine.execEvwait d a s
  | .evsig a b m => Sys2Proof.Machine.execEvsig a b m s
  | .evpoll d a => Sys2Proof.Machine.execEvpoll d a s
  | .grank d a => Sys2Proof.Machine.execGrank d a s
  | .gsize d a => Sys2Proof.Machine.execGsize d a s
  | .gmap d a b => Sys2Proof.Machine.execGmap d a b s
  | .bar d a => Sys2Proof.Machine.execBar d a s
  | .tenq a b c => Sys2Proof.Machine.execTenq a b c s
  | .tend m => Sys2Proof.Machine.execTend m s
  | .tself d m => Sys2Proof.Machine.execTself d m s
  | .tkreq d a => Sys2Proof.Machine.execTkreq d a s
  | .tklend d a => Sys2Proof.Machine.execTklend d a s
  | .tkqry d => Sys2Proof.Machine.execTkqry d s
  | .resume d a b c m => Sys2Proof.Machine.execResume d a b c m s
  | .kill d a m => Sys2Proof.Machine.execKill d a m s
  | .mbxrd d a m => Sys2Proof.Machine.execMbxrd d a m s
  | .mbxack d a m => Sys2Proof.Machine.execMbxack d a m s
  | .mapset d a b => Sys2Proof.Machine.execMapset d a b s
  | .routesetSite d a b => Sys2Proof.Machine.execRoutesetSite d a b s
  | .routesetPort d a b => Sys2Proof.Machine.execRoutesetPort d a b s
  | .partctlCreate d a b c m => Sys2Proof.Machine.execPartctlCreate d a b c m s
  | .partctlResize d a b c m => Sys2Proof.Machine.execPartctlResize d a b c m s
  | .partctlDestroy d a b c m => Sys2Proof.Machine.execPartctlDestroy d a b c m s
  | .partctlFloor d a b c m => Sys2Proof.Machine.execPartctlFloor d a b c m s
  | .partctlQcreate d a b c m => Sys2Proof.Machine.execPartctlQcreate d a b c m s
  | .partctlQdelete d a b c m => Sys2Proof.Machine.execPartctlQdelete d a b c m s
  | .partctlSetreg d a b c m => Sys2Proof.Machine.execPartctlSetreg d a b c m s
  | .partctlFreeze d a b c m => Sys2Proof.Machine.execPartctlFreeze d a b c m s
  | .partctlRelease d a b c m => Sys2Proof.Machine.execPartctlRelease d a b c m s
  | .partctlReset d a b c m => Sys2Proof.Machine.execPartctlReset d a b c m s
  | .partctlSavearea d a b c m => Sys2Proof.Machine.execPartctlSavearea d a b c m s
  | .toksetCap d a b m => Sys2Proof.Machine.execToksetCap d a b m s
  | .toksetClear d a b m => Sys2Proof.Machine.execToksetClear d a b m s
  | .rft m => Sys2Proof.Machine.execRft m s
  | .diagnostic body => Sys2Proof.Machine.execDiagnostic body s
  | .pauseExpiry => Sys2Proof.Machine.execPauseExpiry s
  | .accessCompletion => Sys2Proof.Machine.execAccessCompletion s
  | .translationFaultReturn => Sys2Proof.Machine.execTranslationFaultReturn s
  | .shadowHandlerStart => Sys2Proof.Machine.execShadowHandlerStart s
  | .pageMigration => Sys2Proof.Machine.execPageMigration s
  | .xferGranuleDelivery => Sys2Proof.Machine.execXferGranuleDelivery s
  | .engineOperationComplete => Sys2Proof.Machine.execEngineOperationComplete s
  | .attentionSweepStop => Sys2Proof.Machine.execAttentionSweepStop s
  | .gatherElementArrival => Sys2Proof.Machine.execGatherElementArrival s
  | .scatterElementApply => Sys2Proof.Machine.execScatterElementApply s
  | .mergeNode => Sys2Proof.Machine.execMergeNode s
  | .messageArrival => Sys2Proof.Machine.execMessageArrival s
  | .messageReturn => Sys2Proof.Machine.execMessageReturn s
  | .mailboxFire => Sys2Proof.Machine.execMailboxFire s
  | .hopArrival => Sys2Proof.Machine.execHopArrival s
  | .hopPacketReturn => Sys2Proof.Machine.execHopPacketReturn s
  | .remoteSignalArrival => Sys2Proof.Machine.execRemoteSignalArrival s
  | .groupTreeArrival => Sys2Proof.Machine.execGroupTreeArrival s
  | .groupTreeRelease => Sys2Proof.Machine.execGroupTreeRelease s
  | .taskDispatch => Sys2Proof.Machine.execTaskDispatch s
  | .taskCommit => Sys2Proof.Machine.execTaskCommit s
  | .taskRollback => Sys2Proof.Machine.execTaskRollback s
  | .taskIrrevocable => Sys2Proof.Machine.execTaskIrrevocable s
  | .armatureCycle => Sys2Proof.Machine.execArmatureCycle s
  | .tokhRaise => Sys2Proof.Machine.execTokhRaise s
  | .tokhLower => Sys2Proof.Machine.execTokhLower s
  | .loanTermEnd => Sys2Proof.Machine.execLoanTermEnd s
  | .dispatcherSelection => Sys2Proof.Machine.execDispatcherSelection s
  | .launchBinding => Sys2Proof.Machine.execLaunchBinding s
  | .wakeFlood => Sys2Proof.Machine.execWakeFlood s
  | .launchCompletion => Sys2Proof.Machine.execLaunchCompletion s
  | .sealRead => Sys2Proof.Machine.execSealRead s
  | .stalePacketTimeout => Sys2Proof.Machine.execStalePacketTimeout s
  | .dependencesSatisfied => Sys2Proof.Machine.execDependencesSatisfied s
  | .kick => Sys2Proof.Machine.execKick s
  | .qctlResume => Sys2Proof.Machine.execQctlResume s
  | .qctlDisable => Sys2Proof.Machine.execQctlDisable s
  | .qctlClrk => Sys2Proof.Machine.execQctlClrk s
  | .watchdogExpiry => Sys2Proof.Machine.execWatchdogExpiry s
  | .drainResetComplete => Sys2Proof.Machine.execDrainResetComplete s
  | .gangSwitchArm => Sys2Proof.Machine.execGangSwitchArm s
  | .gangSwitchStop => Sys2Proof.Machine.execGangSwitchStop s
  | .saveStart => Sys2Proof.Machine.execSaveStart s
  | .saveComplete => Sys2Proof.Machine.execSaveComplete s
  | .restoreStart => Sys2Proof.Machine.execRestoreStart s
  | .restoreComplete => Sys2Proof.Machine.execRestoreComplete s
  | .heartbeat => Sys2Proof.Machine.execHeartbeat s
  | .coreDead => Sys2Proof.Machine.execCoreDead s
  | .atelierTakeover => Sys2Proof.Machine.execAtelierTakeover s
  | .zoneOutOfService => Sys2Proof.Machine.execZoneOutOfService s
  | .tileStateError => Sys2Proof.Machine.execTileStateError s
  | .sramPatrolRead => Sys2Proof.Machine.execSramPatrolRead s
  | .sramBankSweep => Sys2Proof.Machine.execSramBankSweep s
  | .meshFlitRetry => Sys2Proof.Machine.execMeshFlitRetry s
  | .errorCounterClear => Sys2Proof.Machine.execErrorCounterClear s
  | .firstTouchZeroing => Sys2Proof.Machine.execFirstTouchZeroing s
  | .scrubZeroingPass => Sys2Proof.Machine.execScrubZeroingPass s
  | .scrubReadPass => Sys2Proof.Machine.execScrubReadPass s
  | .wearSensorSample => Sys2Proof.Machine.execWearSensorSample s
  | .wearRecordWrite => Sys2Proof.Machine.execWearRecordWrite s
  | .powerGood => Sys2Proof.Machine.execPowerGood s
  | .firmwareVerification => Sys2Proof.Machine.execFirmwareVerification s
  | .storedResultsCheck => Sys2Proof.Machine.execStoredResultsCheck s
  | .hbmTrainingComplete => Sys2Proof.Machine.execHbmTrainingComplete s
  | .portTrainingComplete => Sys2Proof.Machine.execPortTrainingComplete s
  | .atelierCoresStart => Sys2Proof.Machine.execAtelierCoresStart s
  | .moduleReady => Sys2Proof.Machine.execModuleReady s
  | .moduleReset => Sys2Proof.Machine.execModuleReset s
  | .pcapWrite => Sys2Proof.Machine.execPcapWrite s
  | .shootdownGo => Sys2Proof.Machine.execShootdownGo s
  | .shootdownComplete => Sys2Proof.Machine.execShootdownComplete s
  | .shctlClre => Sys2Proof.Machine.execShctlClre s
  | .hreq => Sys2Proof.Machine.execHreq s
  | .hrlostClear => Sys2Proof.Machine.execHrlostClear s
  | .eventRingTailWrite => Sys2Proof.Machine.execEventRingTailWrite s
  | .eventRingConfigWrite => Sys2Proof.Machine.execEventRingConfigWrite s
  | .spanConfigWrite => Sys2Proof.Machine.execSpanConfigWrite s
  | .registerWrite => Sys2Proof.Machine.execRegisterWrite s
  | .priResponse => Sys2Proof.Machine.execPriResponse s
  | .spanLaunchSequence => Sys2Proof.Machine.execSpanLaunchSequence s
  | .spanShareComplete => Sys2Proof.Machine.execSpanShareComplete s
  | .flitReceive => Sys2Proof.Machine.execFlitReceive s
  | .nakReplay => Sys2Proof.Machine.execNakReplay s
  | .idleFlit => Sys2Proof.Machine.execIdleFlit s
  | .linkFailure => Sys2Proof.Machine.execLinkFailure s
  | .linkReconciliation => Sys2Proof.Machine.execLinkReconciliation s
  | .spanBreak => Sys2Proof.Machine.execSpanBreak s
  | .laneShed => Sys2Proof.Machine.execLaneShed s
  | .laneWiden => Sys2Proof.Machine.execLaneWiden s
  | .laneTrainingComplete => Sys2Proof.Machine.execLaneTrainingComplete s
  | .getVersion => Sys2Proof.Machine.execGetVersion s
  | .getCapabilities => Sys2Proof.Machine.execGetCapabilities s
  | .negotiateAlgorithms => Sys2Proof.Machine.execNegotiateAlgorithms s
  | .getDigests => Sys2Proof.Machine.execGetDigests s
  | .getCertificate => Sys2Proof.Machine.execGetCertificate s
  | .challenge => Sys2Proof.Machine.execChallenge s
  | .getMeasurements => Sys2Proof.Machine.execGetMeasurements s
  | .laneFault => Sys2Proof.Machine.execLaneFault s
  | .powerLoss => Sys2Proof.Machine.execPowerLoss s
  | .answerArrival => Sys2Proof.Machine.execAnswerArrival s
  | .vfEnable => Sys2Proof.Machine.execVfEnable s
  | .blockFold => Sys2Proof.Machine.execBlockFold s
  | .engineMemoryGranule => Sys2Proof.Machine.execEngineMemoryGranule s

end Sys2Proof.Machine
end

