-- ==== Sys2Proof/WellFormed.lean ====
section
/-! DEFINITION. Which terms of Instr stand for an encodable instruction (04_pairs R74–R82): the limits that the
operand types do not already give. An event has no encoding; its operands must name an object that exists. -/

namespace Sys2Proof

/-- SG = 1 is reserved in a load with SZ = 3 (R75). -/
def wfLoadSize (sz : BitVec 2) (sg : Bool) : Bool := !(sg && sz == 3#2)
/-- SCOPE 5–7 is reserved in MEMS and CACHE (R75). -/
def wfScope (s : BitVec 3) : Bool := s.toNat ≤ 4
/-- Conversion type codes run from 0 to 13 (R81). -/
def wfType (t : BitVec 4) : Bool := t.toNat ≤ 13
/-- The integer element types, ET 4–7 (R82). -/
def etInt (et : BitVec 3) : Bool := et.getLsbD 2
/-- SAT only with an integer type (R82). -/
def wfSat (et : BitVec 3) (sat : Bool) : Bool := !sat || etInt et
/-- The operand B of a non-broadcast form that the form leaves unused is zero (R76). -/
def unusedSrc (b : Src) : Bool := b == ⟨0#4, false⟩


/-- An instruction that some word encodes, or an event that names objects within the module. -/
def WellFormed : Instr → Bool
  | .ld _ _ sz sg _ => wfLoadSize sz sg
  | .ldx _ _ _ sz sg _ => wfLoadSize sz sg
  | .dbnz d _ => d != 0#4
  | .cmp cc _ _ _ => cc.toNat ≤ 9
  | .cmpi cc _ _ _ => cc.toNat ≤ 9
  | .fcvt dst src _ _ => wfType dst && wfType src
  | .fmtset field _ _ => field.toNat ≤ 5 || field == 15#4
  | .vadd et _ _ _ _ sat => wfSat et sat
  | .vsub et _ _ _ _ sat => wfSat et sat
  | .vmul et _ _ _ _ sat => wfSat et sat
  | .vfma et _ _ _ _ sat => wfSat et sat
  | .vmin et _ _ _ _ sat => wfSat et sat
  | .vmax et _ _ _ _ sat => wfSat et sat
  | .vex2 et _ _ => !etInt et
  | .vlg2 et _ _ => !etInt et
  | .vrcp et _ _ => !etInt et
  | .vrsq et _ _ => !etInt et
  | .vand et _ _ _ => etInt et
  | .vor et _ _ _ => etInt et
  | .vxor et _ _ _ => etInt et
  | .vshl et _ _ _ => etInt et
  | .vshr et _ _ _ => etInt et
  | .vcmp cc et _ _ _ => !etInt et || cc.toNat ≤ 5
  | .viota et _ => etInt et
  | .vredAnd et _ _ => etInt et
  | .vredOr et _ _ => etInt et
  | .vredXor et _ _ => etInt et
  | .vqnt et _ _ _ b => et.toNat ≤ 2 && (et == 0#3 || unusedSrc b)
  | .vdqnt et _ d _ d2 => et.toNat ≤ 2 && (if et == 0#3 then d2 != d else d2 == 0#4)
  | .vdot et _ _ _ => et.toNat ≥ 5
  | .lda _ _ _ sc _ => wfScope sc
  | .stl _ _ _ sc _ => wfScope sc
  | .fence sc _ => wfScope sc
  | .pref _ sc kind => (sc == 0#3 || sc == 3#3) && kind.toNat ≤ 1
  | .flush _ sc => wfScope sc
  | .inv _ sc => wfScope sc
  | .pgownGive _ _ m => !m.getLsbD 0
  | .pgownTake _ _ m => m.getLsbD 0
  | .plbinv a m => !m.getLsbD 1 || unusedSrc a
  | .send _ _ _ m => !m.getLsbD 3
  | .sendReturned _ _ m => m.getLsbD 3
  | .evsig _ b m => m.getLsbD 0 || unusedSrc b
  | .partctlCreate _ _ _ _ m => m.extractLsb' 0 8 == 0#8 || (m.extractLsb' 0 8).toNat > 10
  | .partctlResize _ _ _ _ m => m.extractLsb' 0 8 == 1#8
  | .partctlDestroy _ _ _ _ m => m.extractLsb' 0 8 == 2#8
  | .partctlFloor _ _ _ _ m => m.extractLsb' 0 8 == 3#8
  | .partctlQcreate _ _ _ _ m => m.extractLsb' 0 8 == 4#8
  | .partctlQdelete _ _ _ _ m => m.extractLsb' 0 8 == 5#8
  | .partctlSetreg _ _ _ _ m => m.extractLsb' 0 8 == 6#8
  | .partctlFreeze _ _ _ _ m => m.extractLsb' 0 8 == 7#8
  | .partctlRelease _ _ _ _ m => m.extractLsb' 0 8 == 8#8
  | .partctlReset _ _ _ _ m => m.extractLsb' 0 8 == 9#8
  | .partctlSavearea _ _ _ _ m => m.extractLsb' 0 8 == 10#8
  | .toksetCap _ _ _ m => m.extractLsb' 0 2 != 1#2
  | .toksetClear _ _ _ m => m.extractLsb' 0 2 == 1#2
  | _ => true

end Sys2Proof
end

