-- ==== Sys2Proof/Decode.lean ====
section
/-! DEFINITION. The decoder of an instruction pair's slots, total on any words (04_pairs R71–R84), and after it the
encoder written from the same tables. -/

namespace Sys2Proof

/-- Why a slot does not decode (R74, R83). -/
inductive Reject where
  /-- a reserved major opcode -/
  | opcode
  /-- an unassigned selector -/
  | selector
  /-- a nonzero reserved bit or unused field -/
  | reserved
  /-- an element, type, scope or condition code that the row does not allow -/
  | code
  deriving DecidableEq, Repr

/-- What decoding a slot gives. -/
abbrev Decoded := Except Reject Instr

def accept (ok : Bool) (i : Instr) : Decoded := if ok then .ok i else .error .reserved
def acceptCode (ok : Bool) (r : Decoded) : Decoded := if ok then r else .error .code

/-! Fields of a 21-bit body (R75). -/

def bD (b : BitVec 21) : Reg := b.extractLsb' 17 4
def bA (b : BitVec 21) : Src := ⟨b.extractLsb' 13 4, b.getLsbD 12⟩
def bB (b : BitVec 21) : Src := ⟨b.extractLsb' 8 4, b.getLsbD 7⟩
def bC (b : BitVec 21) : Src := ⟨b.extractLsb' 3 4, b.getLsbD 2⟩
def bSub (b : BitVec 21) : BitVec 2 := b.extractLsb' 0 2
def bFn (b : BitVec 21) : BitVec 7 := b.extractLsb' 0 7
def bEt (b : BitVec 21) : BitVec 3 := b.extractLsb' 4 3
def bFn4 (b : BitVec 21) : BitVec 4 := b.extractLsb' 0 4
def bImm (b : BitVec 21) : BitVec 12 := b.extractLsb' 0 12
def bP (b : BitVec 21) : Pred := b.extractLsb' 17 3

def noD (b : BitVec 21) : Bool := bD b == 0#4
def noA (b : BitVec 21) : Bool := unusedSrc (bA b)
def noB (b : BitVec 21) : Bool := unusedSrc (bB b)
def noC (b : BitVec 21) : Bool := unusedSrc (bC b)

/-! The C slot (R78). `lit` is the literal when X = 1; `modOf lit` is the modifier word (R77, R217). -/

def modOf (lit : Option (BitVec 32)) : BitVec 32 := lit.getD 0#32

/-- OPC 0x03: JMP, JMPL, RET. -/
def decJump (b : BitVec 21) : Decoded :=
  match bSub b with
  | 0#2 => accept (noD b && noB b && noC b) (.jmp (bA b))
  | 1#2 => accept (noD b && noB b && noC b) (.jmpl (bA b))
  | 2#2 => accept (noD b && noA b && noB b && noC b) .ret
  | _ => .error .selector

/-- OPC 0x05: END, YIELD, PAUSE, HEND. -/
def decEnd (b : BitVec 21) : Decoded :=
  match bSub b with
  | 0#2 => accept (noD b && noA b && noB b && noC b) .endStrand
  | 1#2 => accept (noD b && noA b && noB b && noC b) .yieldTurn
  | 2#2 => accept (noD b && noB b && noC b) (.pause (bA b))
  | _ => accept (noD b && noA b && noB b && noC b) .hend

/-- OPC 0x08 and 0x09: LD, ST. -/
def decLd (b : BitVec 21) (lit : Option (BitVec 32)) : Decoded :=
  let sz := b.extractLsb' 10 2
  accept (wfLoadSize sz (b.getLsbD 9)) (.ld (bD b) (bA b) sz (b.getLsbD 9) ⟨b.extractLsb' 0 9, lit⟩)
def decSt (b : BitVec 21) (lit : Option (BitVec 32)) : Decoded :=
  accept (!b.getLsbD 9) (.st (bD b) (bA b) (b.extractLsb' 10 2) ⟨b.extractLsb' 0 9, lit⟩)

/-- OPC 0x0A: LDX, STX. -/
def decMemx (b : BitVec 21) : Decoded :=
  let sz := b.extractLsb' 5 2
  let sg := b.getLsbD 4
  let sc := b.getLsbD 3
  if b.extractLsb' 1 2 != 0#2 then .error .reserved
  else if b.getLsbD 0 then accept (!sg) (.stx (bD b) (bA b) (bB b) sz sc)
  else accept (wfLoadSize sz sg) (.ldx (bD b) (bA b) (bB b) sz sg sc)

/-- OPC 0x0B: LDV, STV, LDVB. -/
def decVmem (b : BitVec 21) (lit : Option (BitVec 32)) : Decoded :=
  let esz := b.extractLsb' 8 2
  let off : Ext 8 := ⟨b.extractLsb' 0 8, lit⟩
  match b.extractLsb' 10 2 with
  | 0#2 => accept (esz == 0#2) (.ldv (bD b) (bA b) off)
  | 1#2 => accept (esz == 0#2) (.stv (bD b) (bA b) off)
  | 2#2 => .ok (.ldvb (bD b) (bA b) esz off)
  | _ => .error .selector

/-- OPC 0x0C: LDA, STL. -/
def decMems (b : BitVec 21) (lit : Option (BitVec 32)) : Decoded :=
  let sz := b.extractLsb' 10 2
  let sc := b.extractLsb' 6 3
  let off : Ext 6 := ⟨b.extractLsb' 0 6, lit⟩
  acceptCode (wfScope sc)
    (if b.getLsbD 9 then .ok (.stl (bD b) (bA b) sz sc off) else .ok (.lda (bD b) (bA b) sz sc off))

/-- OPC 0x0D: AMO. -/
def decAmo (b : BitVec 21) : Decoded :=
  let w := b.getLsbD 2
  let sc := b.extractLsb' 0 2
  match b.extractLsb' 3 4 with
  | 0#4 => .ok (.amoAdd (bD b) (bA b) (bB b) w sc)
  | 1#4 => .ok (.amoAnd (bD b) (bA b) (bB b) w sc)
  | 2#4 => .ok (.amoOr (bD b) (bA b) (bB b) w sc)
  | 3#4 => .ok (.amoXor (bD b) (bA b) (bB b) w sc)
  | 4#4 => .ok (.amoMin (bD b) (bA b) (bB b) w sc)
  | 5#4 => .ok (.amoMax (bD b) (bA b) (bB b) w sc)
  | 6#4 => .ok (.amoMinu (bD b) (bA b) (bB b) w sc)
  | 7#4 => .ok (.amoMaxu (bD b) (bA b) (bB b) w sc)
  | 8#4 => .ok (.amoSwap (bD b) (bA b) (bB b) w sc)
  | 9#4 => .ok (.amoCas (bD b) (bA b) (bB b) w sc)
  | _ => .error .selector

/-- OPC 0x0E: FENCE, PREF, FLUSH, INV. -/
def decCache (b : BitVec 21) : Decoded :=
  let sc := b.extractLsb' 9 3
  let kind := b.extractLsb' 7 2
  let res := b.extractLsb' 17 4 == 0#4 && b.extractLsb' 2 5 == 0#5
  match bSub b with
  | 0#2 => acceptCode (wfScope sc) (accept (res && noA b) (.fence sc kind))
  | 1#2 => acceptCode ((sc == 0#3 || sc == 3#3) && kind.toNat ≤ 1) (accept res (.pref (bA b) sc kind))
  | 2#2 => acceptCode (wfScope sc && kind == 0#2) (accept res (.flush (bA b) sc))
  | _ => acceptCode (wfScope sc && kind == 0#2) (accept res (.inv (bA b) sc))

/-- OPC 0x0F: the TS copies (R338). -/
def decTs (b : BitVec 21) (m : BitVec 32) : Decoded :=
  match bSub b with
  | 0#2 => .ok (.tsld (bD b) (bA b) (bB b) (bC b) m)
  | 1#2 => .ok (.tsst (bD b) (bA b) (bB b) (bC b) m)
  | 2#2 => .ok (.tscpy (bD b) (bA b) (bB b) (bC b) m)
  | _ => accept (noB b) (.tszero (bD b) (bA b) (bC b) m)

/-- OPC 0x10, 0x11: XFER, XFER.2d; XWAIT, XPOLL. -/
def decXfer (b : BitVec 21) (m : BitVec 32) : Decoded :=
  match bSub b with
  | 0#2 => .ok (.xfer (bD b) (bA b) (bB b) (bC b) m)
  | 1#2 => .ok (.xfer2d (bD b) (bA b) (bB b) (bC b) m)
  | _ => .error .selector
def decXwait (b : BitVec 21) : Decoded :=
  match bSub b with
  | 0#2 => accept (noC b) (.xwait (bD b) (bA b) (bB b))
  | 1#2 => accept (noC b) (.xpoll (bD b) (bA b) (bB b))
  | _ => .error .selector

/-- OPC 0x12–0x16: the sparse unit and collectives (R366). -/
def decGath (b : BitVec 21) (m : BitVec 32) : Decoded :=
  match bSub b with
  | 0#2 => .ok (.gath (bD b) (bA b) (bB b) (bC b) m)
  | _ => .error .selector
def decScat (b : BitVec 21) (m : BitVec 32) : Decoded :=
  match bSub b with
  | 0#2 => .ok (.scat (bD b) (bA b) (bB b) (bC b) m)
  | _ => .error .selector
def decReplay (b : BitVec 21) (m : BitVec 32) : Decoded :=
  match bSub b with
  | 0#2 => accept (noC b) (.greplay (bD b) (bA b) (bB b))
  | 1#2 => accept (noC b) (.gcancel (bD b) (bA b) (bB b) m)
  | 2#2 => accept (noC b) (.fqpeek (bD b) (bA b) (bB b) m)
  | _ => .error .selector
def decSmerge (b : BitVec 21) (m : BitVec 32) : Decoded :=
  match bSub b with
  | 0#2 => .ok (.smerge (bD b) (bA b) (bB b) (bC b) m)
  | _ => .error .selector
def decColl (b : BitVec 21) (m : BitVec 32) : Decoded :=
  match bSub b with
  | 0#2 => .ok (.collAr (bD b) (bA b) (bB b) (bC b) m)
  | 1#2 => .ok (.collSr (bD b) (bA b) (bB b) (bC b) m)
  | 2#2 => .ok (.collBc (bD b) (bA b) (bB b) (bC b) m)
  | _ => .error .selector

/-- OPC 0x17–0x1B: the matrix engine and the semaphores (R338). -/
def decMma (b : BitVec 21) (m : BitVec 32) : Decoded :=
  match bSub b with
  | 0#2 => accept (noC b) (.mma (bD b) (bA b) (bB b) m)
  | _ => .error .selector
def decMmal (b : BitVec 21) (m : BitVec 32) : Decoded :=
  match bSub b with
  | 0#2 => .ok (.mmal (bD b) (bA b) (bB b) (bC b) m)
  | _ => .error .selector
def decGmm (b : BitVec 21) (m : BitVec 32) : Decoded :=
  match bSub b with
  | 0#2 => accept (noB b && noC b) (.gmm (bD b) (bA b) m)
  | 1#2 => accept (noC b) (.bsmma (bD b) (bA b) (bB b) m)
  | _ => .error .selector
def decAcc (b : BitVec 21) (m : BitVec 32) : Decoded :=
  match bSub b with
  | 0#2 => accept (noA b && noB b && noC b) (.aczero (bD b) m)
  | 1#2 => accept (noB b && noC b) (.acld (bD b) (bA b) m)
  | 2#2 => accept (noB b && noC b) (.acst (bD b) (bA b) m)
  | _ => .error .selector
def decSem (b : BitVec 21) (m : BitVec 32) : Decoded :=
  match bSub b with
  | 0#2 => accept (noD b && noB b && noC b) (.semv (bA b) m)
  | 1#2 => accept (noB b && noC b) (.semp (bD b) (bA b) m)
  | 2#2 => accept (noB b && noC b) (.semq (bD b) (bA b))
  | _ => .error .selector

/-- OPC 0x1C–0x1F: attention and KV (R301, R352). -/
def decAtts (b : BitVec 21) : Decoded :=
  match bSub b with
  | 0#2 => accept (noC b) (.atts (bD b) (bA b) (bB b))
  | _ => .error .selector
def decAttm (b : BitVec 21) (m : BitVec 32) : Decoded :=
  match bSub b with
  | 0#2 => accept (noB b && noC b) (.attm (bD b) (bA b) m)
  | 1#2 => accept (noC b) (.attn (bD b) (bA b) (bB b) m)
  | _ => .error .selector
def decKv (b : BitVec 21) (m : BitVec 32) : Decoded :=
  match bSub b with
  | 0#2 => accept (noC b) (.kvnext (bD b) (bA b) (bB b))
  | 1#2 => accept (noC b) (.kvfill (bD b) (bA b) (bB b))
  | 2#2 => accept (noC b) (.kvinv (bD b) (bA b) (bB b))
  | _ => accept (noB b && noC b) (.kvprobe (bD b) (bA b) m)
def decCb (b : BitVec 21) (m : BitVec 32) : Decoded :=
  match bSub b with
  | 0#2 => accept (noB b && noC b) (.cbinit (bD b) (bA b) m)
  | 1#2 => accept (noB b && noC b) (.cbld (bD b) (bA b) m)
  | 2#2 => accept (noB b && noC b) (.cbst (bD b) (bA b) m)
  | _ => .error .selector

/-- OPC 0x20–0x29: instructions for parallel work (R221). -/
def decSend (b : BitVec 21) (m : BitVec 32) : Decoded :=
  match bSub b with
  | 0#2 =>
    if m.getLsbD 3 then accept (noB b && noC b) (.sendReturned (bD b) (bA b) m)
    else accept (noC b) (.send (bD b) (bA b) (bB b) m)
  | _ => .error .selector
def decHop (b : BitVec 21) (m : BitVec 32) : Decoded :=
  match bSub b with
  | 0#2 => accept (noD b && noB b && noC b) (.hop (bA b) m)
  | _ => .error .selector
def decSpawn (b : BitVec 21) : Decoded :=
  match bSub b with
  | 0#2 => .ok (.spawn (bD b) (bA b) (bB b) (bC b))
  | _ => .error .selector
def decLaunch (b : BitVec 21) : Decoded :=
  match bSub b with
  | 0#2 => accept (noB b && noC b) (.launch (bD b) (bA b))
  | 1#2 => accept (noB b && noC b) (.launchi (bD b) (bA b))
  | 2#2 => accept (noC b) (.launchQ (bD b) (bA b) (bB b))
  | _ => .error .selector
def decMbcfg (b : BitVec 21) (m : BitVec 32) : Decoded :=
  match bSub b with
  | 0#2 => accept (noC b) (.mbcfg (bD b) (bA b) (bB b) m)
  | _ => .error .selector
def decEvent (b : BitVec 21) (m : BitVec 32) : Decoded :=
  match bSub b with
  | 0#2 => accept (noD b && noC b) (.evcfg (bA b) (bB b))
  | 1#2 => accept (noB b && noC b) (.evwait (bD b) (bA b))
  | 2#2 => accept (noD b && noC b && (m.getLsbD 0 || noB b)) (.evsig (bA b) (bB b) m)
  | _ => accept (noB b && noC b) (.evpoll (bD b) (bA b))
def decGroup (b : BitVec 21) : Decoded :=
  match bSub b with
  | 0#2 => accept (noB b && noC b) (.grank (bD b) (bA b))
  | 1#2 => accept (noB b && noC b) (.gsize (bD b) (bA b))
  | 2#2 => accept (noC b) (.gmap (bD b) (bA b) (bB b))
  | _ => accept (noB b && noC b) (.bar (bD b) (bA b))
def decTenq (b : BitVec 21) : Decoded :=
  match bSub b with
  | 0#2 => accept (noD b) (.tenq (bA b) (bB b) (bC b))
  | _ => .error .selector
def decTask (b : BitVec 21) (m : BitVec 32) : Decoded :=
  match bSub b with
  | 0#2 => accept (noD b && noA b && noB b && noC b) (.tend m)
  | 1#2 => accept (noA b && noB b && noC b) (.tself (bD b) m)
  | _ => .error .selector
def decToken (b : BitVec 21) : Decoded :=
  match bSub b with
  | 0#2 => accept (noB b && noC b) (.tkreq (bD b) (bA b))
  | 1#2 => accept (noB b && noC b) (.tklend (bD b) (bA b))
  | 2#2 => accept (noA b && noB b && noC b) (.tkqry (bD b))
  | _ => .error .selector

/-- OPC 0x30–0x36: special registers, TRAP, RFT, the atelier instructions and the page instructions. -/
def decSpr (b : BitVec 21) (write : Bool) : Decoded :=
  let num := b.extractLsb' 3 10
  accept (b.extractLsb' 13 4 == 0#4 && b.extractLsb' 0 3 == 0#3) (if write then .mts (bD b) num else .mfs (bD b) num)
def decTrap (b : BitVec 21) : Decoded := accept (b.extractLsb' 8 13 == 0#13) (.trap (b.extractLsb' 0 8))
def decRft (b : BitVec 21) (m : BitVec 32) : Decoded :=
  match bSub b with
  | 0#2 => accept (noD b && noA b && noB b && noC b) (.rft m)
  | _ => .error .selector

/-- PARTCTL's operation is modifier bits [7:0] (R405, R413); a value above 10 is refused when it runs. A B or C field that an operation
does not use is an operand of the one form, whatever it names. DEDUCED (log 107). -/
def decPartctl (d : Reg) (a b : Src) (c : Reg) (m : BitVec 32) : Instr :=
  match (m.extractLsb' 0 8).toNat with
  | 1 => .partctlResize d a b c m
  | 2 => .partctlDestroy d a b c m
  | 3 => .partctlFloor d a b c m
  | 4 => .partctlQcreate d a b c m
  | 5 => .partctlQdelete d a b c m
  | 6 => .partctlSetreg d a b c m
  | 7 => .partctlFreeze d a b c m
  | 8 => .partctlRelease d a b c m
  | 9 => .partctlReset d a b c m
  | 10 => .partctlSavearea d a b c m
  | _ => .partctlCreate d a b c m

/-- OPC 0x34, the ATL body: [6:3] C without a T bit, [2:0] SUB3. ROUTESET's two rows share one encoding, and which
of them a pair is depends on g[A][31]; the decoder answers the site row, and `routesetForm` chooses at issue. -/
def decAtl (b : BitVec 21) (m : BitVec 32) : Decoded :=
  let c : Reg := b.extractLsb' 3 4
  let noAtlC := c == 0#4
  match b.extractLsb' 0 3 with
  | 0#3 => .ok (.resume (bD b) (bA b) (bB b) c m)
  | 1#3 => accept (noB b && noAtlC) (.kill (bD b) (bA b) m)
  | 2#3 => accept (noB b && noAtlC) (.mbxrd (bD b) (bA b) m)
  | 3#3 => accept (noB b && noAtlC) (.mbxack (bD b) (bA b) m)
  | 4#3 => accept noAtlC (.mapset (bD b) (bA b) (bB b))
  | 5#3 => accept noAtlC (.routesetSite (bD b) (bA b) (bB b))
  | 6#3 => .ok (decPartctl (bD b) (bA b) (bB b) c m)
  | _ => accept noAtlC
      (if m.extractLsb' 0 2 == 1#2 then .toksetClear (bD b) (bA b) (bB b) m else .toksetCap (bD b) (bA b) (bB b) m)

def decPlbinv (b : BitVec 21) (m : BitVec 32) : Decoded :=
  match bSub b with
  | 0#2 => accept (noD b && noB b && noC b && (!m.getLsbD 1 || noA b)) (.plbinv (bA b) m)
  | _ => .error .selector
def decPage (b : BitVec 21) (m : BitVec 32) : Decoded :=
  match bSub b with
  | 0#2 => accept (noC b) (.pgmig (bD b) (bA b) (bB b))
  | 1#2 => accept (noB b && noC b)
      (if m.getLsbD 0 then .pgownTake (bD b) (bA b) m else .pgownGive (bD b) (bA b) m)
  | _ => .error .selector

/-- The C-slot map of R78. -/
def decodeBodyC (opc : BitVec 6) (b : BitVec 21) (lit : Option (BitVec 32)) : Decoded :=
  let m := modOf lit
  match opc.toNat with
  | 0x00 => accept (b == 0#21) .nopc
  | 0x01 => .ok (.br ⟨b, lit⟩)
  | 0x02 => .ok (.brl ⟨b, lit⟩)
  | 0x03 => decJump b
  | 0x04 => if bD b == 0#4 then .error .selector else .ok (.dbnz (bD b) ⟨b.extractLsb' 0 17, lit⟩)
  | 0x05 => decEnd b
  | 0x06 => .ok (.movl (bD b) (bA b) ⟨bImm b, lit⟩)
  | 0x08 => decLd b lit
  | 0x09 => decSt b lit
  | 0x0A => decMemx b
  | 0x0B => decVmem b lit
  | 0x0C => decMems b lit
  | 0x0D => decAmo b
  | 0x0E => decCache b
  | 0x0F => decTs b m
  | 0x10 => decXfer b m
  | 0x11 => decXwait b
  | 0x12 => decGath b m
  | 0x13 => decScat b m
  | 0x14 => decReplay b m
  | 0x15 => decSmerge b m
  | 0x16 => decColl b m
  | 0x17 => decMma b m
  | 0x18 => decMmal b m
  | 0x19 => decGmm b m
  | 0x1A => decAcc b m
  | 0x1B => decSem b m
  | 0x1C => decAtts b
  | 0x1D => decAttm b m
  | 0x1E => decKv b m
  | 0x1F => decCb b m
  | 0x20 => decSend b m
  | 0x21 => decHop b m
  | 0x22 => decSpawn b
  | 0x23 => decLaunch b
  | 0x24 => decMbcfg b m
  | 0x25 => decEvent b m
  | 0x26 => decGroup b
  | 0x27 => decTenq b
  | 0x28 => decTask b m
  | 0x29 => decToken b
  | 0x30 => decSpr b false
  | 0x31 => decSpr b true
  | 0x32 => decTrap b
  | 0x33 => decRft b m
  | 0x34 => decAtl b m
  | 0x35 => decPlbinv b m
  | 0x36 => decPage b m
  | _ => .error .opcode

/-- Word 0 of a pair, with word 1 as its literal when X = 1 (R71, R73). OPC 0x3F is DIAGNOSTIC whatever its body
(R83, R416). -/
def decodeC (w0 w1 : BitVec 32) : Decoded :=
  let opc := w0.extractLsb' 25 6
  let lit := if w0.getLsbD 31 then some w1 else none
  if opc == 0x3F#6 then .ok (.diagnostic (w0.extractLsb' 0 25))
  else decodeBodyC opc (w0.extractLsb' 0 21) lit

/-! The A slot (R79, R82). -/

/-- OPA 0x01: the fourteen two-operand forms. -/
def decAlu (b : BitVec 21) : Decoded :=
  let d := bD b
  let x := bA b
  let y := bB b
  match (bFn b).toNat with
  | 0 => .ok (.add d x y)
  | 1 => .ok (.sub d x y)
  | 2 => .ok (.and d x y)
  | 3 => .ok (.or d x y)
  | 4 => .ok (.xor d x y)
  | 5 => .ok (.andn d x y)
  | 6 => .ok (.shl d x y)
  | 7 => .ok (.shr d x y)
  | 8 => .ok (.sar d x y)
  | 9 => .ok (.rot d x y)
  | 10 => .ok (.min d x y)
  | 11 => .ok (.max d x y)
  | 12 => .ok (.minu d x y)
  | 13 => .ok (.maxu d x y)
  | _ => .error .selector

/-- OPA 0x02: multiply and divide. -/
def decMul (b : BitVec 21) : Decoded :=
  let d := bD b
  let x := bA b
  let y := bB b
  match (bFn b).toNat with
  | 0 => .ok (.mul d x y)
  | 1 => .ok (.mulh d x y)
  | 2 => .ok (.mulhu d x y)
  | 3 => .ok (.div d x y)
  | 4 => .ok (.divu d x y)
  | 5 => .ok (.rem d x y)
  | 6 => .ok (.remu d x y)
  | _ => .error .selector

/-- OPA 0x03: bit operations. -/
def decBits (b : BitVec 21) : Decoded :=
  let d := bD b
  let x := bA b
  match (bFn b).toNat with
  | 0 => accept (noB b) (.clz d x)
  | 1 => accept (noB b) (.ctz d x)
  | 2 => accept (noB b) (.popc d x)
  | 3 => accept (noB b) (.brev d x)
  | 4 => .ok (.bext d x (bB b))
  | 5 => .ok (.bdep d x (bB b))
  | _ => .error .selector

def decSel (b : BitVec 21) : Decoded :=
  accept (b.extractLsb' 4 3 == 0#3) (.sel (bD b) (b.extractLsb' 0 3) (b.getLsbD 3) (bA b) (bB b))
def decCmp (b : BitVec 21) : Decoded :=
  if (bFn4 b).toNat > 9 then .error .code
  else accept (b.extractLsb' 4 3 == 0#3 && !b.getLsbD 20) (.cmp (bFn4 b) (bP b) (bA b) (bB b))
def decShiftImm (b : BitVec 21) (mk : Reg → Src → BitVec 6 → Instr) : Decoded :=
  accept (b.extractLsb' 6 6 == 0#6) (mk (bD b) (bA b) (b.extractLsb' 0 6))
/-- CMPI at OPA 0x19 + k: cc is 2k + D[3] (R79, R80). -/
def decCmpi (k : BitVec 3) (b : BitVec 21) : Decoded :=
  .ok (.cmpi (k ++ BitVec.ofBool (b.getLsbD 20)) (bP b) (bA b) (bImm b))

/-- OPA 0x20, 0x21, 0x22: ET 4–7 is not allowed. -/
def decFp (b : BitVec 21) : Decoded :=
  let et : BitVec 2 := b.extractLsb' 4 2
  acceptCode (!b.getLsbD 6)
    (match (bFn4 b).toNat with
     | 0 => .ok (.fadd et (bD b) (bA b) (bB b))
     | 1 => .ok (.fsub et (bD b) (bA b) (bB b))
     | 2 => .ok (.fmul et (bD b) (bA b) (bB b))
     | 3 => .ok (.ffma et (bD b) (bA b) (bB b))
     | 4 => .ok (.fdiv et (bD b) (bA b) (bB b))
     | 5 => .ok (.fmin et (bD b) (bA b) (bB b))
     | 6 => .ok (.fmax et (bD b) (bA b) (bB b))
     | _ => .error .selector)
def decFp1 (b : BitVec 21) : Decoded :=
  let et : BitVec 2 := b.extractLsb' 4 2
  acceptCode (!b.getLsbD 6)
    (match (bFn4 b).toNat with
     | 0 => accept (noB b) (.fsqrt et (bD b) (bA b))
     | 1 => accept (noB b) (.fabs et (bD b) (bA b))
     | 2 => accept (noB b) (.fneg et (bD b) (bA b))
     | 3 => accept (noB b) (.ex2 et (bD b) (bA b))
     | 4 => accept (noB b) (.lg2 et (bD b) (bA b))
     | 5 => accept (noB b) (.rcp et (bD b) (bA b))
     | 6 => accept (noB b) (.rsq et (bD b) (bA b))
     | _ => .error .selector)
def decFcmp (b : BitVec 21) : Decoded :=
  acceptCode (!b.getLsbD 6)
    (accept (!b.getLsbD 3 && !b.getLsbD 20) (.fcmp (b.extractLsb' 0 3) (b.extractLsb' 4 2) (bP b) (bA b) (bB b)))
def decFcvt (b : BitVec 21) : Decoded :=
  let dst : BitVec 4 := b.extractLsb' 8 4
  acceptCode (wfType dst && wfType (bFn4 b))
    (accept (!b.getLsbD 7 && b.extractLsb' 4 3 == 0#3) (.fcvt dst (bFn4 b) (bD b) (bA b)))

/-- OPA 0x60: predicate operations; bit 3 of each field and the T bits are reserved (R121). -/
def decPred (b : BitVec 21) : Decoded :=
  let d : Pred := bP b
  let x : Pred := b.extractLsb' 13 3
  let y : Pred := b.extractLsb' 8 3
  let res := !b.getLsbD 20 && !b.getLsbD 16 && !b.getLsbD 12 && !b.getLsbD 11 && !b.getLsbD 7
  match (bFn b).toNat with
  | 0 => accept res (.pand d x y)
  | 1 => accept res (.por d x y)
  | 2 => accept res (.pxor d x y)
  | 3 => accept (res && y == 0#3) (.pnot d x)
  | 4 => accept (res && y == 0#3) (.pmov d x)
  | _ => .error .selector
def decFmtset (b : BitVec 21) : Decoded :=
  if (bD b).toNat ≤ 5 || bD b == 15#4 then .ok (.fmtset (bD b) (bA b) (bImm b)) else .error .selector
def decFmtget (b : BitVec 21) : Decoded :=
  if bFn b == 0#7 then accept (noA b && noB b) (.fmtget (bD b)) else .error .selector

/-- OPA 0x30–0x35: FN[0] is BS, FN[1] SAT, FN[3:2] reserved; SAT only with an integer type. -/
def decVbin (b : BitVec 21) (mk : BitVec 3 → Reg → Src → Src → Bool → Bool → Instr) : Decoded :=
  acceptCode (wfSat (bEt b) (b.getLsbD 1))
    (accept (b.extractLsb' 2 2 == 0#2) (mk (bEt b) (bD b) (bA b) (bB b) (b.getLsbD 0) (b.getLsbD 1)))
def decV1 (b : BitVec 21) (mk : BitVec 3 → Reg → Src → Instr) : Decoded := accept (noB b) (mk (bEt b) (bD b) (bA b))
def decV2 (b : BitVec 21) (mk : BitVec 3 → Reg → Src → Src → Instr) : Decoded :=
  .ok (mk (bEt b) (bD b) (bA b) (bB b))
def decVone (b : BitVec 21) : Decoded :=
  match (bFn4 b).toNat with
  | 0 => decV1 b .vabs
  | 1 => decV1 b .vneg
  | 2 => acceptCode (!etInt (bEt b)) (decV1 b .vex2)
  | 3 => acceptCode (!etInt (bEt b)) (decV1 b .vlg2)
  | 4 => acceptCode (!etInt (bEt b)) (decV1 b .vrcp)
  | 5 => acceptCode (!etInt (bEt b)) (decV1 b .vrsq)
  | _ => .error .selector
def decVlogic (b : BitVec 21) : Decoded :=
  acceptCode (etInt (bEt b))
    (match (bFn4 b).toNat with
     | 0 => decV2 b .vand
     | 1 => decV2 b .vor
     | 2 => decV2 b .vxor
     | 3 => decV2 b .vshl
     | 4 => decV2 b .vshr
     | _ => .error .selector)
def decVcmp (b : BitVec 21) : Decoded :=
  let cc : BitVec 3 := b.extractLsb' 0 3
  acceptCode (!etInt (bEt b) || cc.toNat ≤ 5)
    (accept (!b.getLsbD 3) (.vcmp cc (bEt b) (bD b) (bA b) (bB b)))
/-- A form whose only selector value is FN 0. -/
def decFn0 (b : BitVec 21) (r : Decoded) : Decoded := if bFn4 b == 0#4 then r else .error .selector
def decVred (b : BitVec 21) : Decoded :=
  match (bFn4 b).toNat with
  | 0 => decV1 b .vredAdd
  | 1 => decV1 b .vredMin
  | 2 => decV1 b .vredMax
  | 3 => acceptCode (etInt (bEt b)) (decV1 b .vredAnd)
  | 4 => acceptCode (etInt (bEt b)) (decV1 b .vredOr)
  | 5 => acceptCode (etInt (bEt b)) (decV1 b .vredXor)
  | _ => .error .selector
def decVscan (b : BitVec 21) : Decoded :=
  match (bFn4 b).toNat with
  | 0 => decV1 b .vscanAdd
  | 1 => decV1 b .vscanMin
  | 2 => decV1 b .vscanMax
  | _ => .error .selector
def decVcvt (b : BitVec 21) : Decoded :=
  accept (!b.getLsbD 3 && noB b) (.vcvt (bEt b) (b.extractLsb' 0 3) (bD b) (bA b))
def decVqnt (b : BitVec 21) : Decoded :=
  acceptCode ((bEt b).toNat ≤ 2)
    (accept (b.extractLsb' 1 3 == 0#3 && (bEt b == 0#3 || noB b))
      (.vqnt (bEt b) (b.getLsbD 0) (bD b) (bA b) (bB b)))
/-- With ET 0, B names a second destination and B = D traps ILLEGAL; otherwise B is reserved (R141). -/
def decVdqnt (b : BitVec 21) : Decoded :=
  let d2 := (bB b).r
  acceptCode ((bEt b).toNat ≤ 2 && (if bEt b == 0#3 then d2 != bD b else d2 == 0#4))
    (accept (b.extractLsb' 1 3 == 0#3 && !(bB b).t) (.vdqnt (bEt b) (b.getLsbD 0) (bD b) (bA b) d2))

/-- The A-slot map of R79 and R82. -/
def decodeBodyA (opa : BitVec 7) (b : BitVec 21) : Decoded :=
  match opa.toNat with
  | 0x00 => accept (b == 0#21) .nopa
  | 0x01 => decAlu b
  | 0x02 => decMul b
  | 0x03 => decBits b
  | 0x04 => decSel b
  | 0x05 => decCmp b
  | 0x10 => .ok (.addi (bD b) (bA b) (bImm b))
  | 0x11 => .ok (.andi (bD b) (bA b) (bImm b))
  | 0x12 => .ok (.ori (bD b) (bA b) (bImm b))
  | 0x13 => .ok (.xori (bD b) (bA b) (bImm b))
  | 0x14 => decShiftImm b .shli
  | 0x15 => decShiftImm b .shri
  | 0x16 => decShiftImm b .sari
  | 0x17 => accept (noA b) (.movi (bD b) (bImm b))
  | 0x18 => accept (b.extractLsb' 2 5 == 0#5) (.lea (bD b) (bA b) (bB b) (b.extractLsb' 0 2))
  | 0x19 => decCmpi 0#3 b
  | 0x1A => decCmpi 1#3 b
  | 0x1B => decCmpi 2#3 b
  | 0x1C => decCmpi 3#3 b
  | 0x1D => decCmpi 4#3 b
  | 0x20 => decFp b
  | 0x21 => decFp1 b
  | 0x22 => decFcmp b
  | 0x23 => decFcvt b
  | 0x30 => decVbin b .vadd
  | 0x31 => decVbin b .vsub
  | 0x32 => decVbin b .vmul
  | 0x33 => decVbin b .vfma
  | 0x34 => decVbin b .vmin
  | 0x35 => decVbin b .vmax
  | 0x36 => decVone b
  | 0x37 => decVlogic b
  | 0x38 => decVcmp b
  | 0x39 => decFn0 b (decV2 b .vsel)
  | 0x3A => decFn0 b (decV2 b .vshuf)
  | 0x3B => decFn0 b (decV1 b .vbcast)
  | 0x3C => decFn0 b (decV2 b .vins)
  | 0x3D => decFn0 b (decV2 b .vext)
  | 0x3E => decFn0 b (acceptCode (etInt (bEt b)) (accept (noA b && noB b) (.viota (bEt b) (bD b))))
  | 0x3F => decVred b
  | 0x40 => decVscan b
  | 0x41 => decVcvt b
  | 0x42 => decVqnt b
  | 0x43 => decVdqnt b
  | 0x44 => decFn0 b (acceptCode ((bEt b).toNat ≥ 5) (decV2 b .vdot))
  | 0x60 => decPred b
  | 0x61 => decFmtset b
  | 0x62 => decFmtget b
  | _ => .error .opcode

/-- Word 1 of a pair with X = 0 (R71). -/
def decodeA (w1 : BitVec 32) : Decoded := decodeBodyA (w1.extractLsb' 25 7) (w1.extractLsb' 0 21)

/-- The A slot of a pair: NOPA when word 1 is a literal (R73). -/
def decodeSlotA (w0 w1 : BitVec 32) : Decoded := if w0.getLsbD 31 then .ok .nopa else decodeA w1

/-- The guard of a slot (R72): G and GN. -/
def guardOf (w : BitVec 32) : Pred × Bool := (w.extractLsb' 22 3, w.getLsbD 21)

/-- OPC 0x34 and OPC 0x3F trap PRIV in user mode, whatever their body (R83). -/
def privilegedC (w0 : BitVec 32) : Bool := let opc := w0.extractLsb' 25 6; opc == 0x34#6 || opc == 0x3F#6

/-- The instruction a word numbered as the opcode table numbers bits stands for: word 0 is bits [31:0], word 1 bits
[63:32]. Where the pair's C slot is NOPC, the instruction is the A slot's. -/
def decodePair (w0 w1 : BitVec 32) : Option Instr :=
  match decodeC w0 w1, decodeSlotA w0 w1 with
  | .ok .nopc, .ok a => some (if a = .nopa then .nopc else a)
  | .ok c, _ => some c
  | .error _, _ => none

def decodeTableWord (nbits w : Nat) : Option Instr :=
  let bits := w % 2 ^ nbits
  decodePair (BitVec.ofNat 32 bits) (BitVec.ofNat 32 (bits / 2 ^ 32))

/-! The encoder. -/

/-- What an instruction encodes to: its slot, its word with a zero guard, and the literal of an X = 1 pair. -/
structure Encoded where
  cslot : Bool
  word : BitVec 32
  lit : Option (BitVec 32)
  deriving DecidableEq, Repr

def tbit (s : Src) : BitVec 1 := BitVec.ofBool s.t
def regBody (d : Reg) (a b : Src) (fn : BitVec 7) : BitVec 21 := d ++ a.r ++ tbit a ++ b.r ++ tbit b ++ fn
def regvBody (d : Reg) (a b : Src) (et : BitVec 3) (fn : BitVec 4) : BitVec 21 :=
  d ++ a.r ++ tbit a ++ b.r ++ tbit b ++ et ++ fn
def immBody (d : Reg) (a : Src) (imm : BitVec 12) : BitVec 21 := d ++ a.r ++ tbit a ++ imm
def engBody (d : Reg) (a b c : Src) (sub : BitVec 2) : BitVec 21 :=
  d ++ a.r ++ tbit a ++ b.r ++ tbit b ++ c.r ++ tbit c ++ sub
def atlBody (d : Reg) (a b : Src) (c : Reg) (sub : BitVec 3) : BitVec 21 :=
  d ++ a.r ++ tbit a ++ b.r ++ tbit b ++ c ++ sub
def memBody (d : Reg) (a : Src) (sz : BitVec 2) (sg : Bool) (off : BitVec 9) : BitVec 21 :=
  d ++ a.r ++ tbit a ++ sz ++ BitVec.ofBool sg ++ off
def memxBody (d : Reg) (a i : Src) (sz : BitVec 2) (sg sc st : Bool) : BitVec 21 :=
  d ++ a.r ++ tbit a ++ i.r ++ tbit i ++ sz ++ BitVec.ofBool sg ++ BitVec.ofBool sc ++ 0#2 ++ BitVec.ofBool st
def memsBody (d : Reg) (a : Src) (sz : BitVec 2) (st : Bool) (sc : BitVec 3) (off : BitVec 6) : BitVec 21 :=
  d ++ a.r ++ tbit a ++ sz ++ BitVec.ofBool st ++ sc ++ off
def vmemBody (d : Reg) (a : Src) (vop esz : BitVec 2) (off : BitVec 8) : BitVec 21 :=
  d ++ a.r ++ tbit a ++ vop ++ esz ++ off
def amoBody (d : Reg) (a b : Src) (aop : BitVec 4) (w : Bool) (sc : BitVec 2) : BitVec 21 :=
  d ++ a.r ++ tbit a ++ b.r ++ tbit b ++ aop ++ BitVec.ofBool w ++ sc
def cacheBody (a : Src) (sc : BitVec 3) (kind sub : BitVec 2) : BitVec 21 :=
  0#4 ++ a.r ++ tbit a ++ sc ++ kind ++ 0#5 ++ sub
def sprBody (d : Reg) (num : BitVec 10) : BitVec 21 := d ++ 0#4 ++ num ++ 0#3

def noSrc : Src := ⟨0#4, false⟩
def predReg (p : Pred) : Reg := 0#1 ++ p
def predSrc (p : Pred) : Src := ⟨predReg p, false⟩

/-- A C-slot word: X is set by `Encoded.words` when there is a literal. -/
def encC (opc : BitVec 6) (body : BitVec 21) (lit : Option (BitVec 32)) : Option Encoded :=
  some ⟨true, BitVec.ofBool lit.isSome ++ opc ++ 0#4 ++ body, lit⟩
def encA (opa : BitVec 7) (body : BitVec 21) : Option Encoded := some ⟨false, opa ++ 0#4 ++ body, none⟩
/-- `ilas` sets X = 1 whenever the modifier word is nonzero (R88). -/
def modLit (m : BitVec 32) : Option (BitVec 32) := if m = 0#32 then none else some m

/-- The words of the pair that holds the instruction alone, its other slot NOPC or NOPA. -/
def Encoded.words (e : Encoded) : BitVec 32 × BitVec 32 :=
  if e.cslot then (e.word, e.lit.getD 0#32) else (0#32, e.word)

def encAlu (fn : BitVec 7) (d : Reg) (a b : Src) : Option Encoded := encA 0x01#7 (regBody d a b fn)
def encMul (fn : BitVec 7) (d : Reg) (a b : Src) : Option Encoded := encA 0x02#7 (regBody d a b fn)
def encBit (fn : BitVec 7) (d : Reg) (a b : Src) : Option Encoded := encA 0x03#7 (regBody d a b fn)
def encFp (opa : BitVec 7) (fn : BitVec 4) (et : BitVec 2) (d : Reg) (a b : Src) : Option Encoded :=
  encA opa (regvBody d a b (0#1 ++ et) fn)
def encV (opa : BitVec 7) (fn : BitVec 4) (et : BitVec 3) (d : Reg) (a b : Src) : Option Encoded :=
  encA opa (regvBody d a b et fn)
def encVbin (opa : BitVec 7) (et : BitVec 3) (d : Reg) (a b : Src) (bs sat : Bool) : Option Encoded :=
  encV opa (0#2 ++ BitVec.ofBool sat ++ BitVec.ofBool bs) et d a b
def encEng (opc : BitVec 6) (sub : BitVec 2) (d : Reg) (a b c : Src) (m : BitVec 32) : Option Encoded :=
  encC opc (engBody d a b c sub) (modLit m)
def encAmo (aop : BitVec 4) (d : Reg) (a b : Src) (w : Bool) (sc : BitVec 2) : Option Encoded :=
  encC 0x0D#6 (amoBody d a b aop w sc) none
def encAtl (sub : BitVec 3) (d : Reg) (a b : Src) (c : Reg) (m : BitVec 32) : Option Encoded :=
  encC 0x34#6 (atlBody d a b c sub) (modLit m)
def encPred (fn : BitVec 7) (d a b : Pred) : Option Encoded :=
  encA 0x60#7 (regBody (predReg d) (predSrc a) (predSrc b) fn)

/-- The encoding of an instruction; an event has none. -/
def encode : Instr → Option Encoded
  | .nopc => encC 0x00#6 0#21 none
  | .nopa => encA 0x00#7 0#21
  | .br off => encC 0x01#6 off.short off.lit
  | .brl off => encC 0x02#6 off.short off.lit
  | .jmp a => encEng 0x03#6 0#2 0#4 a noSrc noSrc 0#32
  | .jmpl a => encEng 0x03#6 1#2 0#4 a noSrc noSrc 0#32
  | .ret => encEng 0x03#6 2#2 0#4 noSrc noSrc noSrc 0#32
  | .dbnz d off => encC 0x04#6 (d ++ off.short) off.lit
  | .endStrand => encEng 0x05#6 0#2 0#4 noSrc noSrc noSrc 0#32
  | .yieldTurn => encEng 0x05#6 1#2 0#4 noSrc noSrc noSrc 0#32
  | .pause a => encEng 0x05#6 2#2 0#4 a noSrc noSrc 0#32
  | .hend => encEng 0x05#6 3#2 0#4 noSrc noSrc noSrc 0#32
  | .movl d a imm => encC 0x06#6 (immBody d a imm.short) imm.lit
  | .movi d imm => encA 0x17#7 (immBody d noSrc imm)
  | .ld d a sz sg off => encC 0x08#6 (memBody d a sz sg off.short) off.lit
  | .st s a sz off => encC 0x09#6 (memBody s a sz false off.short) off.lit
  | .ldx d a i sz sg sc => encC 0x0A#6 (memxBody d a i sz sg sc false) none
  | .stx s a i sz sc => encC 0x0A#6 (memxBody s a i sz false sc true) none
  | .mfs d num => encC 0x30#6 (sprBody d num) none
  | .mts s num => encC 0x31#6 (sprBody s num) none
  | .trap code => encC 0x32#6 (0#13 ++ code) none
  | .add d a b => encAlu 0#7 d a b
  | .sub d a b => encAlu 1#7 d a b
  | .and d a b => encAlu 2#7 d a b
  | .or d a b => encAlu 3#7 d a b
  | .xor d a b => encAlu 4#7 d a b
  | .andn d a b => encAlu 5#7 d a b
  | .shl d a b => encAlu 6#7 d a b
  | .shr d a b => encAlu 7#7 d a b
  | .sar d a b => encAlu 8#7 d a b
  | .rot d a b => encAlu 9#7 d a b
  | .min d a b => encAlu 10#7 d a b
  | .max d a b => encAlu 11#7 d a b
  | .minu d a b => encAlu 12#7 d a b
  | .maxu d a b => encAlu 13#7 d a b
  | .mul d a b => encMul 0#7 d a b
  | .mulh d a b => encMul 1#7 d a b
  | .mulhu d a b => encMul 2#7 d a b
  | .div d a b => encMul 3#7 d a b
  | .divu d a b => encMul 4#7 d a b
  | .rem d a b => encMul 5#7 d a b
  | .remu d a b => encMul 6#7 d a b
  | .clz d a => encBit 0#7 d a noSrc
  | .ctz d a => encBit 1#7 d a noSrc
  | .popc d a => encBit 2#7 d a noSrc
  | .brev d a => encBit 3#7 d a noSrc
  | .bext d a b => encBit 4#7 d a b
  | .bdep d a b => encBit 5#7 d a b
  | .addi d a imm => encA 0x10#7 (immBody d a imm)
  | .andi d a imm => encA 0x11#7 (immBody d a imm)
  | .ori d a imm => encA 0x12#7 (immBody d a imm)
  | .xori d a imm => encA 0x13#7 (immBody d a imm)
  | .shli d a sh => encA 0x14#7 (immBody d a (0#6 ++ sh))
  | .shri d a sh => encA 0x15#7 (immBody d a (0#6 ++ sh))
  | .sari d a sh => encA 0x16#7 (immBody d a (0#6 ++ sh))
  | .lea d a b sh => encA 0x18#7 (regBody d a b (0#5 ++ sh))
  | .cmp cc p a b => encA 0x05#7 (regBody (predReg p) a b (0#3 ++ cc))
  | .cmpi cc p a imm =>
    encA (0x19#7 + (0#4 ++ cc.extractLsb' 1 3)) (immBody (BitVec.ofBool (cc.getLsbD 0) ++ p) a imm)
  | .sel d p n a b => encA 0x04#7 (regBody d a b (0#3 ++ BitVec.ofBool n ++ p))
  | .fadd et d a b => encFp 0x20#7 0#4 et d a b
  | .fsub et d a b => encFp 0x20#7 1#4 et d a b
  | .fmul et d a b => encFp 0x20#7 2#4 et d a b
  | .ffma et d a b => encFp 0x20#7 3#4 et d a b
  | .fdiv et d a b => encFp 0x20#7 4#4 et d a b
  | .fmin et d a b => encFp 0x20#7 5#4 et d a b
  | .fmax et d a b => encFp 0x20#7 6#4 et d a b
  | .fsqrt et d a => encFp 0x21#7 0#4 et d a noSrc
  | .fabs et d a => encFp 0x21#7 1#4 et d a noSrc
  | .fneg et d a => encFp 0x21#7 2#4 et d a noSrc
  | .ex2 et d a => encFp 0x21#7 3#4 et d a noSrc
  | .lg2 et d a => encFp 0x21#7 4#4 et d a noSrc
  | .rcp et d a => encFp 0x21#7 5#4 et d a noSrc
  | .rsq et d a => encFp 0x21#7 6#4 et d a noSrc
  | .fcmp cc et p a b => encFp 0x22#7 (0#1 ++ cc) et (predReg p) a b
  | .fcvt dst src d a => encA 0x23#7 (regBody d a ⟨dst, false⟩ (0#3 ++ src))
  | .pand d a b => encPred 0#7 d a b
  | .por d a b => encPred 1#7 d a b
  | .pxor d a b => encPred 2#7 d a b
  | .pnot d a => encPred 3#7 d a 0#3
  | .pmov d a => encPred 4#7 d a 0#3
  | .fmtset field a imm => encA 0x61#7 (immBody field a imm)
  | .fmtget d => encA 0x62#7 (regBody d noSrc noSrc 0#7)
  | .ldv d a off => encC 0x0B#6 (vmemBody d a 0#2 0#2 off.short) off.lit
  | .stv s a off => encC 0x0B#6 (vmemBody s a 1#2 0#2 off.short) off.lit
  | .ldvb d a esz off => encC 0x0B#6 (vmemBody d a 2#2 esz off.short) off.lit
  | .vadd et d a b bs sat => encVbin 0x30#7 et d a b bs sat
  | .vsub et d a b bs sat => encVbin 0x31#7 et d a b bs sat
  | .vmul et d a b bs sat => encVbin 0x32#7 et d a b bs sat
  | .vfma et d a b bs sat => encVbin 0x33#7 et d a b bs sat
  | .vmin et d a b bs sat => encVbin 0x34#7 et d a b bs sat
  | .vmax et d a b bs sat => encVbin 0x35#7 et d a b bs sat
  | .vabs et d a => encV 0x36#7 0#4 et d a noSrc
  | .vneg et d a => encV 0x36#7 1#4 et d a noSrc
  | .vex2 et d a => encV 0x36#7 2#4 et d a noSrc
  | .vlg2 et d a => encV 0x36#7 3#4 et d a noSrc
  | .vrcp et d a => encV 0x36#7 4#4 et d a noSrc
  | .vrsq et d a => encV 0x36#7 5#4 et d a noSrc
  | .vand et d a b => encV 0x37#7 0#4 et d a b
  | .vor et d a b => encV 0x37#7 1#4 et d a b
  | .vxor et d a b => encV 0x37#7 2#4 et d a b
  | .vshl et d a b => encV 0x37#7 3#4 et d a b
  | .vshr et d a b => encV 0x37#7 4#4 et d a b
  | .vcmp cc et d a b => encV 0x38#7 (0#1 ++ cc) et d a b
  | .vsel et d a b => encV 0x39#7 0#4 et d a b
  | .vshuf et d a b => encV 0x3A#7 0#4 et d a b
  | .vbcast et d a => encV 0x3B#7 0#4 et d a noSrc
  | .vins et d a b => encV 0x3C#7 0#4 et d a b
  | .vext et d a b => encV 0x3D#7 0#4 et d a b
  | .viota et d => encV 0x3E#7 0#4 et d noSrc noSrc
  | .vredAdd et d a => encV 0x3F#7 0#4 et d a noSrc
  | .vredMin et d a => encV 0x3F#7 1#4 et d a noSrc
  | .vredMax et d a => encV 0x3F#7 2#4 et d a noSrc
  | .vredAnd et d a => encV 0x3F#7 3#4 et d a noSrc
  | .vredOr et d a => encV 0x3F#7 4#4 et d a noSrc
  | .vredXor et d a => encV 0x3F#7 5#4 et d a noSrc
  | .vscanAdd et d a => encV 0x40#7 0#4 et d a noSrc
  | .vscanMin et d a => encV 0x40#7 1#4 et d a noSrc
  | .vscanMax et d a => encV 0x40#7 2#4 et d a noSrc
  | .vcvt dst src d a => encV 0x41#7 (0#1 ++ src) dst d a noSrc
  | .vqnt et fp4 d a b => encV 0x42#7 (0#3 ++ BitVec.ofBool fp4) et d a b
  | .vdqnt et fp4 d a d2 => encV 0x43#7 (0#3 ++ BitVec.ofBool fp4) et d a ⟨d2, false⟩
  | .vdot et d a b => encV 0x44#7 0#4 et d a b
  | .lda d a sz sc off => encC 0x0C#6 (memsBody d a sz false sc off.short) off.lit
  | .stl s a sz sc off => encC 0x0C#6 (memsBody s a sz true sc off.short) off.lit
  | .amoAdd d a b w sc => encAmo 0#4 d a b w sc
  | .amoAnd d a b w sc => encAmo 1#4 d a b w sc
  | .amoOr d a b w sc => encAmo 2#4 d a b w sc
  | .amoXor d a b w sc => encAmo 3#4 d a b w sc
  | .amoMin d a b w sc => encAmo 4#4 d a b w sc
  | .amoMax d a b w sc => encAmo 5#4 d a b w sc
  | .amoMinu d a b w sc => encAmo 6#4 d a b w sc
  | .amoMaxu d a b w sc => encAmo 7#4 d a b w sc
  | .amoSwap d a b w sc => encAmo 8#4 d a b w sc
  | .amoCas d a b w sc => encAmo 9#4 d a b w sc
  | .fence sc kind => encC 0x0E#6 (cacheBody noSrc sc kind 0#2) none
  | .pref a sc kind => encC 0x0E#6 (cacheBody a sc kind 1#2) none
  | .flush a sc => encC 0x0E#6 (cacheBody a sc 0#2 2#2) none
  | .inv a sc => encC 0x0E#6 (cacheBody a sc 0#2 3#2) none
  | .kvfill d a b => encEng 0x1E#6 1#2 d a b noSrc 0#32
  | .kvinv d a b => encEng 0x1E#6 2#2 d a b noSrc 0#32
  | .kvprobe d a m => encEng 0x1E#6 3#2 d a noSrc noSrc m
  | .pgmig d a b => encEng 0x36#6 0#2 d a b noSrc 0#32
  | .pgownGive d a m => encEng 0x36#6 1#2 d a noSrc noSrc m
  | .pgownTake d a m => encEng 0x36#6 1#2 d a noSrc noSrc m
  | .plbinv a m => encEng 0x35#6 0#2 0#4 a noSrc noSrc m
  | .xfer d a b c m => encEng 0x10#6 0#2 d a b c m
  | .xfer2d d a b c m => encEng 0x10#6 1#2 d a b c m
  | .xwait d a b => encEng 0x11#6 0#2 d a b noSrc 0#32
  | .xpoll d a b => encEng 0x11#6 1#2 d a b noSrc 0#32
  | .tsld d a b c m => encEng 0x0F#6 0#2 d a b c m
  | .tsst d a b c m => encEng 0x0F#6 1#2 d a b c m
  | .tscpy d a b c m => encEng 0x0F#6 2#2 d a b c m
  | .tszero d a c m => encEng 0x0F#6 3#2 d a noSrc c m
  | .mma d a b m => encEng 0x17#6 0#2 d a b noSrc m
  | .bsmma d a b m => encEng 0x19#6 1#2 d a b noSrc m
  | .mmal d a b c m => encEng 0x18#6 0#2 d a b c m
  | .gmm d a m => encEng 0x19#6 0#2 d a noSrc noSrc m
  | .aczero d m => encEng 0x1A#6 0#2 d noSrc noSrc noSrc m
  | .acld d a m => encEng 0x1A#6 1#2 d a noSrc noSrc m
  | .acst d a m => encEng 0x1A#6 2#2 d a noSrc noSrc m
  | .semv a m => encEng 0x1B#6 0#2 0#4 a noSrc noSrc m
  | .semp d a m => encEng 0x1B#6 1#2 d a noSrc noSrc m
  | .semq d a => encEng 0x1B#6 2#2 d a noSrc noSrc 0#32
  | .atts d a b => encEng 0x1C#6 0#2 d a b noSrc 0#32
  | .attm d a m => encEng 0x1D#6 0#2 d a noSrc noSrc m
  | .attn d a b m => encEng 0x1D#6 1#2 d a b noSrc m
  | .kvnext d a b => encEng 0x1E#6 0#2 d a b noSrc 0#32
  | .cbinit d a m => encEng 0x1F#6 0#2 d a noSrc noSrc m
  | .cbld d a m => encEng 0x1F#6 1#2 d a noSrc noSrc m
  | .cbst d a m => encEng 0x1F#6 2#2 d a noSrc noSrc m
  | .gath d a b c m => encEng 0x12#6 0#2 d a b c m
  | .scat d a b c m => encEng 0x13#6 0#2 d a b c m
  | .greplay d a b => encEng 0x14#6 0#2 d a b noSrc 0#32
  | .gcancel d a b m => encEng 0x14#6 1#2 d a b noSrc m
  | .fqpeek d a b m => encEng 0x14#6 2#2 d a b noSrc m
  | .smerge d a b c m => encEng 0x15#6 0#2 d a b c m
  | .collAr d a b c m => encEng 0x16#6 0#2 d a b c m
  | .collSr d a b c m => encEng 0x16#6 1#2 d a b c m
  | .collBc d a b c m => encEng 0x16#6 2#2 d a b c m
  | .send d a b m => encEng 0x20#6 0#2 d a b noSrc m
  | .sendReturned d a m => encEng 0x20#6 0#2 d a noSrc noSrc m
  | .hop a m => encEng 0x21#6 0#2 0#4 a noSrc noSrc m
  | .spawn d a b c => encEng 0x22#6 0#2 d a b c 0#32
  | .launch d a => encEng 0x23#6 0#2 d a noSrc noSrc 0#32
  | .launchi d a => encEng 0x23#6 1#2 d a noSrc noSrc 0#32
  | .launchQ d a b => encEng 0x23#6 2#2 d a b noSrc 0#32
  | .mbcfg d a b m => encEng 0x24#6 0#2 d a b noSrc m
  | .evcfg a b => encEng 0x25#6 0#2 0#4 a b noSrc 0#32
  | .evwait d a => encEng 0x25#6 1#2 d a noSrc noSrc 0#32
  | .evsig a b m => encEng 0x25#6 2#2 0#4 a b noSrc m
  | .evpoll d a => encEng 0x25#6 3#2 d a noSrc noSrc 0#32
  | .grank d a => encEng 0x26#6 0#2 d a noSrc noSrc 0#32
  | .gsize d a => encEng 0x26#6 1#2 d a noSrc noSrc 0#32
  | .gmap d a b => encEng 0x26#6 2#2 d a b noSrc 0#32
  | .bar d a => encEng 0x26#6 3#2 d a noSrc noSrc 0#32
  | .tenq a b c => encEng 0x27#6 0#2 0#4 a b c 0#32
  | .tend m => encEng 0x28#6 0#2 0#4 noSrc noSrc noSrc m
  | .tself d m => encEng 0x28#6 1#2 d noSrc noSrc noSrc m
  | .tkreq d a => encEng 0x29#6 0#2 d a noSrc noSrc 0#32
  | .tklend d a => encEng 0x29#6 1#2 d a noSrc noSrc 0#32
  | .tkqry d => encEng 0x29#6 2#2 d noSrc noSrc noSrc 0#32
  | .resume d a b c m => encAtl 0#3 d a b c m
  | .kill d a m => encAtl 1#3 d a noSrc 0#4 m
  | .mbxrd d a m => encAtl 2#3 d a noSrc 0#4 m
  | .mbxack d a m => encAtl 3#3 d a noSrc 0#4 m
  | .mapset d a b => encAtl 4#3 d a b 0#4 0#32
  | .routesetSite d a b => encAtl 5#3 d a b 0#4 0#32
  | .routesetPort d a b => encAtl 5#3 d a b 0#4 0#32
  | .partctlCreate d a b c m => encAtl 6#3 d a b c m
  | .partctlResize d a b c m => encAtl 6#3 d a b c m
  | .partctlDestroy d a b c m => encAtl 6#3 d a b c m
  | .partctlFloor d a b c m => encAtl 6#3 d a b c m
  | .partctlQcreate d a b c m => encAtl 6#3 d a b c m
  | .partctlQdelete d a b c m => encAtl 6#3 d a b c m
  | .partctlSetreg d a b c m => encAtl 6#3 d a b c m
  | .partctlFreeze d a b c m => encAtl 6#3 d a b c m
  | .partctlRelease d a b c m => encAtl 6#3 d a b c m
  | .partctlReset d a b c m => encAtl 6#3 d a b c m
  | .partctlSavearea d a b c m => encAtl 6#3 d a b c m
  | .toksetCap d a b m => encAtl 7#3 d a b 0#4 m
  | .toksetClear d a b m => encAtl 7#3 d a b 0#4 m
  | .rft m => encEng 0x33#6 0#2 0#4 noSrc noSrc noSrc m
  | .diagnostic body => some ⟨true, 0#1 ++ 0x3F#6 ++ body, none⟩
  | .pauseExpiry => none
  | .accessCompletion => none
  | .translationFaultReturn => none
  | .shadowHandlerStart => none
  | .pageMigration => none
  | .xferGranuleDelivery => none
  | .engineOperationComplete => none
  | .attentionSweepStop => none
  | .gatherElementArrival => none
  | .scatterElementApply => none
  | .mergeNode => none
  | .messageArrival => none
  | .messageReturn => none
  | .mailboxFire => none
  | .hopArrival => none
  | .hopPacketReturn => none
  | .remoteSignalArrival => none
  | .groupTreeArrival => none
  | .groupTreeRelease => none
  | .taskDispatch => none
  | .taskCommit => none
  | .taskRollback => none
  | .taskIrrevocable => none
  | .armatureCycle => none
  | .tokhRaise => none
  | .tokhLower => none
  | .loanTermEnd => none
  | .dispatcherSelection => none
  | .launchBinding => none
  | .wakeFlood => none
  | .launchCompletion => none
  | .sealRead => none
  | .stalePacketTimeout => none
  | .dependencesSatisfied => none
  | .kick => none
  | .qctlResume => none
  | .qctlDisable => none
  | .qctlClrk => none
  | .watchdogExpiry => none
  | .drainResetComplete => none
  | .gangSwitchArm => none
  | .gangSwitchStop => none
  | .saveStart => none
  | .saveComplete => none
  | .restoreStart => none
  | .restoreComplete => none
  | .heartbeat => none
  | .coreDead => none
  | .atelierTakeover => none
  | .zoneOutOfService => none
  | .tileStateError => none
  | .sramPatrolRead => none
  | .sramBankSweep => none
  | .meshFlitRetry => none
  | .errorCounterClear => none
  | .firstTouchZeroing => none
  | .scrubZeroingPass => none
  | .scrubReadPass => none
  | .wearSensorSample => none
  | .wearRecordWrite => none
  | .powerGood => none
  | .firmwareVerification => none
  | .storedResultsCheck => none
  | .hbmTrainingComplete => none
  | .portTrainingComplete => none
  | .atelierCoresStart => none
  | .moduleReady => none
  | .moduleReset => none
  | .pcapWrite => none
  | .shootdownGo => none
  | .shootdownComplete => none
  | .shctlClre => none
  | .hreq => none
  | .hrlostClear => none
  | .eventRingTailWrite => none
  | .eventRingConfigWrite => none
  | .spanConfigWrite => none
  | .registerWrite => none
  | .priResponse => none
  | .spanLaunchSequence => none
  | .spanShareComplete => none
  | .flitReceive => none
  | .nakReplay => none
  | .idleFlit => none
  | .linkFailure => none
  | .linkReconciliation => none
  | .spanBreak => none
  | .laneShed => none
  | .laneWiden => none
  | .laneTrainingComplete => none
  | .getVersion => none
  | .getCapabilities => none
  | .negotiateAlgorithms => none
  | .getDigests => none
  | .getCertificate => none
  | .challenge => none
  | .getMeasurements => none
  | .laneFault => none
  | .powerLoss => none
  | .answerArrival => none
  | .vfEnable => none
  | .blockFold => none
  | .engineMemoryGranule => none

end Sys2Proof
end

