-- ==== Sys2Proof/Machine/Operands.lean ====
section
/-! DEFINITION. The operands of a pair: which registers a slot reads, with what T bit, and which destinations it names
(R31, R32, R36, R76), and the examination of a pair for issue (R33, R38). -/

namespace Sys2Proof.Machine

/-- A source register with its T bit (R31). -/
inductive SrcName where
  | g (r : Reg) (t : Bool)
  | v (r : Reg) (t : Bool)
  deriving DecidableEq, Repr

/-- A destination that R36 compares. -/
inductive DstName where
  | g (r : Reg)
  | v (r : Reg)
  | p (r : Pred)
  | fmt
  | stat
  deriving DecidableEq, Repr

structure Uses where
  srcs : List SrcName
  dsts : List DstName
  deriving DecidableEq, Repr

/-- What an instruction reads and writes. Events are never in a slot. Two fields follow narrower rules: MOVL's A reads as with
T = 0 when it names D (R76; R101 says no more than that g[A] follows TA), and FQPEEK's B is a source for WORD 3 alone (R366). -/
def uses : Instr → Uses
  | .nopc => ⟨[], []⟩
  | .nopa => ⟨[], []⟩
  | .br _ => ⟨[], []⟩
  | .brl _ => ⟨[], [.g 15#4]⟩
  | .jmp a => ⟨[.g a.r a.t], []⟩
  | .jmpl a => ⟨[.g a.r a.t], [.g 15#4]⟩
  | .ret => ⟨[.g 15#4 false], []⟩
  | .dbnz d _ => ⟨[.g d false], [.g d]⟩
  | .endStrand => ⟨[], []⟩
  | .yieldTurn => ⟨[], []⟩
  | .pause a => ⟨[.g a.r a.t], []⟩
  | .hend => ⟨[], []⟩
  | .movl d a _ => ⟨[.g a.r (a.t && a.r != d)], [.g d]⟩
  | .movi d _ => ⟨[], [.g d]⟩
  | .ld d base _ _ _ => ⟨[.g base.r base.t], [.g d]⟩
  | .st s base _ _ => ⟨[.g s false] ++ [.g base.r base.t], []⟩
  | .ldx d base idx _ _ _ => ⟨[.g base.r base.t] ++ [.g idx.r idx.t], [.g d]⟩
  | .stx s base idx _ _ => ⟨[.g s false] ++ [.g base.r base.t] ++ [.g idx.r idx.t], []⟩
  | .mfs d _ => ⟨[], [.g d]⟩
  | .mts s num => ⟨[.g s false], (if num == 1#10 then [.fmt] else if num == 2#10 then [.stat] else [])⟩
  | .trap _ => ⟨[], []⟩
  | .add d a b => ⟨[.g a.r a.t] ++ [.g b.r b.t], [.g d]⟩
  | .sub d a b => ⟨[.g a.r a.t] ++ [.g b.r b.t], [.g d]⟩
  | .and d a b => ⟨[.g a.r a.t] ++ [.g b.r b.t], [.g d]⟩
  | .or d a b => ⟨[.g a.r a.t] ++ [.g b.r b.t], [.g d]⟩
  | .xor d a b => ⟨[.g a.r a.t] ++ [.g b.r b.t], [.g d]⟩
  | .andn d a b => ⟨[.g a.r a.t] ++ [.g b.r b.t], [.g d]⟩
  | .shl d a b => ⟨[.g a.r a.t] ++ [.g b.r b.t], [.g d]⟩
  | .shr d a b => ⟨[.g a.r a.t] ++ [.g b.r b.t], [.g d]⟩
  | .sar d a b => ⟨[.g a.r a.t] ++ [.g b.r b.t], [.g d]⟩
  | .rot d a b => ⟨[.g a.r a.t] ++ [.g b.r b.t], [.g d]⟩
  | .min d a b => ⟨[.g a.r a.t] ++ [.g b.r b.t], [.g d]⟩
  | .max d a b => ⟨[.g a.r a.t] ++ [.g b.r b.t], [.g d]⟩
  | .minu d a b => ⟨[.g a.r a.t] ++ [.g b.r b.t], [.g d]⟩
  | .maxu d a b => ⟨[.g a.r a.t] ++ [.g b.r b.t], [.g d]⟩
  | .mul d a b => ⟨[.g a.r a.t] ++ [.g b.r b.t], [.g d]⟩
  | .mulh d a b => ⟨[.g a.r a.t] ++ [.g b.r b.t], [.g d]⟩
  | .mulhu d a b => ⟨[.g a.r a.t] ++ [.g b.r b.t], [.g d]⟩
  | .div d a b => ⟨[.g a.r a.t] ++ [.g b.r b.t], [.g d]⟩
  | .divu d a b => ⟨[.g a.r a.t] ++ [.g b.r b.t], [.g d]⟩
  | .rem d a b => ⟨[.g a.r a.t] ++ [.g b.r b.t], [.g d]⟩
  | .remu d a b => ⟨[.g a.r a.t] ++ [.g b.r b.t], [.g d]⟩
  | .clz d a => ⟨[.g a.r a.t], [.g d]⟩
  | .ctz d a => ⟨[.g a.r a.t], [.g d]⟩
  | .popc d a => ⟨[.g a.r a.t], [.g d]⟩
  | .brev d a => ⟨[.g a.r a.t], [.g d]⟩
  | .bext d a b => ⟨[.g a.r a.t] ++ [.g b.r b.t], [.g d]⟩
  | .bdep d a b => ⟨[.g a.r a.t] ++ [.g b.r b.t], [.g d]⟩
  | .addi d a _ => ⟨[.g a.r a.t], [.g d]⟩
  | .andi d a _ => ⟨[.g a.r a.t], [.g d]⟩
  | .ori d a _ => ⟨[.g a.r a.t], [.g d]⟩
  | .xori d a _ => ⟨[.g a.r a.t], [.g d]⟩
  | .shli d a _ => ⟨[.g a.r a.t], [.g d]⟩
  | .shri d a _ => ⟨[.g a.r a.t], [.g d]⟩
  | .sari d a _ => ⟨[.g a.r a.t], [.g d]⟩
  | .lea d a b _ => ⟨[.g a.r a.t] ++ [.g b.r b.t], [.g d]⟩
  | .cmp _ p a b => ⟨[.g a.r a.t] ++ [.g b.r b.t], [.p p]⟩
  | .cmpi _ p a _ => ⟨[.g a.r a.t], [.p p]⟩
  | .sel d _ _ a b => ⟨[.g a.r a.t] ++ [.g b.r b.t], [.g d]⟩
  | .fadd _ d a b => ⟨[.g a.r a.t] ++ [.g b.r b.t], [.g d]⟩
  | .fsub _ d a b => ⟨[.g a.r a.t] ++ [.g b.r b.t], [.g d]⟩
  | .fmul _ d a b => ⟨[.g a.r a.t] ++ [.g b.r b.t], [.g d]⟩
  | .ffma _ d a b => ⟨[.g d false] ++ [.g a.r a.t] ++ [.g b.r b.t], [.g d]⟩
  | .fdiv _ d a b => ⟨[.g a.r a.t] ++ [.g b.r b.t], [.g d]⟩
  | .fmin _ d a b => ⟨[.g a.r a.t] ++ [.g b.r b.t], [.g d]⟩
  | .fmax _ d a b => ⟨[.g a.r a.t] ++ [.g b.r b.t], [.g d]⟩
  | .fsqrt _ d a => ⟨[.g a.r a.t], [.g d]⟩
  | .fabs _ d a => ⟨[.g a.r a.t], [.g d]⟩
  | .fneg _ d a => ⟨[.g a.r a.t], [.g d]⟩
  | .ex2 _ d a => ⟨[.g a.r a.t], [.g d]⟩
  | .lg2 _ d a => ⟨[.g a.r a.t], [.g d]⟩
  | .rcp _ d a => ⟨[.g a.r a.t], [.g d]⟩
  | .rsq _ d a => ⟨[.g a.r a.t], [.g d]⟩
  | .fcmp _ _ p a b => ⟨[.g a.r a.t] ++ [.g b.r b.t], [.p p]⟩
  | .fcvt _ _ d a => ⟨[.g a.r a.t], [.g d]⟩
  | .pand d _ _ => ⟨[], [.p d]⟩
  | .por d _ _ => ⟨[], [.p d]⟩
  | .pxor d _ _ => ⟨[], [.p d]⟩
  | .pnot d _ => ⟨[], [.p d]⟩
  | .pmov d _ => ⟨[], [.p d]⟩
  | .fmtset _ a _ => ⟨[.g a.r a.t], [.fmt]⟩
  | .fmtget d => ⟨[], [.g d]⟩
  | .ldv d base _ => ⟨[.g base.r base.t], [.v d]⟩
  | .stv s base _ => ⟨[.v s false] ++ [.g base.r base.t], []⟩
  | .ldvb d base _ _ => ⟨[.g base.r base.t], [.v d]⟩
  | .vadd _ d a b bs _ => ⟨[.v a.r a.t] ++ (if bs then [.g b.r b.t] else [.v b.r b.t]), [.v d]⟩
  | .vsub _ d a b bs _ => ⟨[.v a.r a.t] ++ (if bs then [.g b.r b.t] else [.v b.r b.t]), [.v d]⟩
  | .vmul _ d a b bs _ => ⟨[.v a.r a.t] ++ (if bs then [.g b.r b.t] else [.v b.r b.t]), [.v d]⟩
  | .vfma _ d a b bs _ => ⟨[.v d false] ++ [.v a.r a.t] ++ (if bs then [.g b.r b.t] else [.v b.r b.t]), [.v d]⟩
  | .vmin _ d a b bs _ => ⟨[.v a.r a.t] ++ (if bs then [.g b.r b.t] else [.v b.r b.t]), [.v d]⟩
  | .vmax _ d a b bs _ => ⟨[.v a.r a.t] ++ (if bs then [.g b.r b.t] else [.v b.r b.t]), [.v d]⟩
  | .vabs _ d a => ⟨[.v a.r a.t], [.v d]⟩
  | .vneg _ d a => ⟨[.v a.r a.t], [.v d]⟩
  | .vex2 _ d a => ⟨[.v a.r a.t], [.v d]⟩
  | .vlg2 _ d a => ⟨[.v a.r a.t], [.v d]⟩
  | .vrcp _ d a => ⟨[.v a.r a.t], [.v d]⟩
  | .vrsq _ d a => ⟨[.v a.r a.t], [.v d]⟩
  | .vand _ d a b => ⟨[.v a.r a.t] ++ [.v b.r b.t], [.v d]⟩
  | .vor _ d a b => ⟨[.v a.r a.t] ++ [.v b.r b.t], [.v d]⟩
  | .vxor _ d a b => ⟨[.v a.r a.t] ++ [.v b.r b.t], [.v d]⟩
  | .vshl _ d a b => ⟨[.v a.r a.t] ++ [.v b.r b.t], [.v d]⟩
  | .vshr _ d a b => ⟨[.v a.r a.t] ++ [.v b.r b.t], [.v d]⟩
  | .vcmp _ _ d a b => ⟨[.v a.r a.t] ++ [.v b.r b.t], [.v d]⟩
  | .vsel _ d a b => ⟨[.v d false] ++ [.v a.r a.t] ++ [.v b.r b.t], [.v d]⟩
  | .vshuf _ d a b => ⟨[.v a.r a.t] ++ [.v b.r b.t], [.v d]⟩
  | .vbcast _ d a => ⟨[.g a.r a.t], [.v d]⟩
  | .vins _ d a b => ⟨[.v d false] ++ [.g a.r a.t] ++ [.g b.r b.t], [.v d]⟩
  | .vext _ d a b => ⟨[.v a.r a.t] ++ [.g b.r b.t], [.g d]⟩
  | .viota _ d => ⟨[], [.v d]⟩
  | .vredAdd _ d a => ⟨[.v a.r a.t], [.g d]⟩
  | .vredMin _ d a => ⟨[.v a.r a.t], [.g d]⟩
  | .vredMax _ d a => ⟨[.v a.r a.t], [.g d]⟩
  | .vredAnd _ d a => ⟨[.v a.r a.t], [.g d]⟩
  | .vredOr _ d a => ⟨[.v a.r a.t], [.g d]⟩
  | .vredXor _ d a => ⟨[.v a.r a.t], [.g d]⟩
  | .vscanAdd _ d a => ⟨[.v a.r a.t], [.v d]⟩
  | .vscanMin _ d a => ⟨[.v a.r a.t], [.v d]⟩
  | .vscanMax _ d a => ⟨[.v a.r a.t], [.v d]⟩
  | .vcvt _ _ d a => ⟨[.v a.r a.t], [.v d]⟩
  | .vqnt et _ d a b => ⟨[.v a.r a.t] ++ (if et == 0#3 then [.v b.r b.t] else []), [.v d]⟩
  | .vdqnt et _ d a d2 => ⟨[.v a.r a.t], [.v d] ++ (if et == 0#3 then [.v d2] else [])⟩
  | .vdot _ d a b => ⟨[.v d false] ++ [.v a.r a.t] ++ [.v b.r b.t], [.v d]⟩
  | .lda d base _ _ _ => ⟨[.g base.r base.t], [.g d]⟩
  | .stl s base _ _ _ => ⟨[.g s false] ++ [.g base.r base.t], []⟩
  | .amoAdd d a b _ _ => ⟨[.g a.r a.t] ++ [.g b.r b.t], [.g d]⟩
  | .amoAnd d a b _ _ => ⟨[.g a.r a.t] ++ [.g b.r b.t], [.g d]⟩
  | .amoOr d a b _ _ => ⟨[.g a.r a.t] ++ [.g b.r b.t], [.g d]⟩
  | .amoXor d a b _ _ => ⟨[.g a.r a.t] ++ [.g b.r b.t], [.g d]⟩
  | .amoMin d a b _ _ => ⟨[.g a.r a.t] ++ [.g b.r b.t], [.g d]⟩
  | .amoMax d a b _ _ => ⟨[.g a.r a.t] ++ [.g b.r b.t], [.g d]⟩
  | .amoMinu d a b _ _ => ⟨[.g a.r a.t] ++ [.g b.r b.t], [.g d]⟩
  | .amoMaxu d a b _ _ => ⟨[.g a.r a.t] ++ [.g b.r b.t], [.g d]⟩
  | .amoSwap d a b _ _ => ⟨[.g a.r a.t] ++ [.g b.r b.t], [.g d]⟩
  | .amoCas d a b _ _ => ⟨[.g d false] ++ [.g a.r a.t] ++ [.g b.r b.t], [.g d]⟩
  | .fence _ _ => ⟨[], []⟩
  | .pref a _ _ => ⟨[.g a.r a.t], []⟩
  | .flush a _ => ⟨[.g a.r a.t], []⟩
  | .inv a _ => ⟨[.g a.r a.t], []⟩
  | .kvfill d a b => ⟨[.g a.r a.t] ++ [.g b.r b.t], [.g d]⟩
  | .kvinv d a b => ⟨[.g a.r a.t] ++ [.g b.r b.t], [.g d]⟩
  | .kvprobe d a _ => ⟨[.g a.r a.t], [.g d]⟩
  | .pgmig d a b => ⟨[.g a.r a.t] ++ [.g b.r b.t], [.g d]⟩
  | .pgownGive d a _ => ⟨[.g a.r a.t], [.g d]⟩
  | .pgownTake d a _ => ⟨[.g a.r a.t], [.g d]⟩
  | .plbinv a _ => ⟨[.g a.r a.t], []⟩
  | .xfer d a b c _ => ⟨[.g a.r a.t] ++ [.g b.r b.t] ++ [.g c.r c.t], [.g d]⟩
  | .xfer2d d a b c _ => ⟨[.g a.r a.t] ++ [.g b.r b.t] ++ [.g c.r c.t], [.g d]⟩
  | .xwait d a b => ⟨[.g a.r a.t] ++ [.g b.r b.t], [.g d] ++ [.p 7#3]⟩
  | .xpoll d a b => ⟨[.g a.r a.t] ++ [.g b.r b.t], [.g d] ++ [.p 7#3]⟩
  | .tsld d a b c _ => ⟨[.g a.r a.t] ++ [.g b.r b.t] ++ [.g c.r c.t], [.g d]⟩
  | .tsst d a b c _ => ⟨[.g a.r a.t] ++ [.g b.r b.t] ++ [.g c.r c.t], [.g d]⟩
  | .tscpy d a b c _ => ⟨[.g a.r a.t] ++ [.g b.r b.t] ++ [.g c.r c.t], [.g d]⟩
  | .tszero d a c _ => ⟨[.g a.r a.t] ++ [.g c.r c.t], [.g d]⟩
  | .mma d a b _ => ⟨[.g a.r a.t] ++ [.g b.r b.t], [.g d]⟩
  | .bsmma d a b _ => ⟨[.g a.r a.t] ++ [.g b.r b.t], [.g d]⟩
  | .mmal d a b c _ => ⟨[.g a.r a.t] ++ [.g b.r b.t] ++ [.g c.r c.t], [.g d]⟩
  | .gmm d a _ => ⟨[.g a.r a.t], [.g d]⟩
  | .aczero d _ => ⟨[], [.g d]⟩
  | .acld d a _ => ⟨[.g a.r a.t], [.g d]⟩
  | .acst d a _ => ⟨[.g a.r a.t], [.g d]⟩
  | .semv a _ => ⟨[.g a.r a.t], []⟩
  | .semp d a _ => ⟨[.g a.r a.t], [.g d]⟩
  | .semq d a => ⟨[.g a.r a.t], [.g d]⟩
  | .atts d a b => ⟨[.g a.r a.t] ++ [.g b.r b.t], [.g d]⟩
  | .attm d a _ => ⟨[.g a.r a.t], [.g d]⟩
  | .attn d a b _ => ⟨[.g a.r a.t] ++ [.g b.r b.t], [.g d]⟩
  | .kvnext d a b => ⟨[.g a.r a.t] ++ [.g b.r b.t], [.g d]⟩
  | .cbinit d a _ => ⟨[.g a.r a.t], [.g d]⟩
  | .cbld d a _ => ⟨[.g a.r a.t], [.g d]⟩
  | .cbst d a _ => ⟨[.g a.r a.t], [.g d]⟩
  | .gath d a b c _ => ⟨[.g a.r a.t] ++ [.g b.r b.t] ++ [.g c.r c.t], [.g d]⟩
  | .scat d a b c _ => ⟨[.g a.r a.t] ++ [.g b.r b.t] ++ [.g c.r c.t], [.g d]⟩
  | .greplay d a b => ⟨[.g a.r a.t] ++ [.g b.r b.t], [.g d]⟩
  | .gcancel d a b _ => ⟨[.g a.r a.t] ++ [.g b.r b.t], [.g d]⟩
  | .fqpeek d a b m => ⟨[.g a.r a.t] ++ (if m.extractLsb' 0 2 == 3#2 then [.g b.r b.t] else []), [.g d]⟩
  | .smerge d a b c _ => ⟨[.g a.r a.t] ++ [.g b.r b.t] ++ [.g c.r c.t], [.g d]⟩
  | .collAr d a b c _ => ⟨[.g a.r a.t] ++ [.g b.r b.t] ++ [.g c.r c.t], [.g d]⟩
  | .collSr d a b c _ => ⟨[.g a.r a.t] ++ [.g b.r b.t] ++ [.g c.r c.t], [.g d]⟩
  | .collBc d a b c _ => ⟨[.g a.r a.t] ++ [.g b.r b.t] ++ [.g c.r c.t], [.g d]⟩
  | .send d a b _ => ⟨[.g a.r a.t] ++ [.g b.r b.t], [.g d]⟩
  | .sendReturned d a _ => ⟨[.g a.r a.t], [.g d]⟩
  | .hop a _ => ⟨[.g a.r a.t], []⟩
  | .spawn d a b c => ⟨[.g a.r a.t] ++ [.g b.r b.t] ++ [.g c.r c.t], [.g d]⟩
  | .launch d a => ⟨[.g a.r a.t], [.g d]⟩
  | .launchi d a => ⟨[.g a.r a.t], [.g d]⟩
  | .launchQ d a b => ⟨[.g a.r a.t] ++ [.g b.r b.t], [.g d]⟩
  | .mbcfg d a b _ => ⟨[.g a.r a.t] ++ [.g b.r b.t], [.g d]⟩
  | .evcfg a b => ⟨[.g a.r a.t] ++ [.g b.r b.t], []⟩
  | .evwait d a => ⟨[.g a.r a.t], [.g d] ++ [.p 7#3]⟩
  | .evsig a b _ => ⟨[.g a.r a.t] ++ [.g b.r b.t], []⟩
  | .evpoll d a => ⟨[.g a.r a.t], [.g d]⟩
  | .grank d a => ⟨[.g a.r a.t], [.g d]⟩
  | .gsize d a => ⟨[.g a.r a.t], [.g d]⟩
  | .gmap d a b => ⟨[.g a.r a.t] ++ [.g b.r b.t], [.g d]⟩
  | .bar d a => ⟨[.g a.r a.t], [.g d]⟩
  | .tenq a b c => ⟨[.g a.r a.t] ++ [.g b.r b.t] ++ [.g c.r c.t], []⟩
  | .tend _ => ⟨[], []⟩
  | .tself d _ => ⟨[], [.g d] ++ [.p 7#3]⟩
  | .tkreq d a => ⟨[.g a.r a.t], [.g d]⟩
  | .tklend d a => ⟨[.g a.r a.t], [.g d]⟩
  | .tkqry d => ⟨[], [.g d]⟩
  | .resume d a b c m => ⟨[.g a.r a.t] ++ (if m.getLsbD 1 then [.g b.r b.t] else []) ++ (if m.getLsbD 2 then [.g c false] else []), [.g d]⟩
  | .kill d a _ => ⟨[.g a.r a.t], [.g d]⟩
  | .mbxrd d a _ => ⟨[.g a.r a.t], [.g d]⟩
  | .mbxack d a _ => ⟨[.g a.r a.t], [.g d]⟩
  | .mapset d a b => ⟨[.g a.r a.t] ++ [.g b.r b.t], [.g d]⟩
  | .routesetSite d a b => ⟨[.g a.r a.t] ++ [.g b.r b.t], [.g d]⟩
  | .routesetPort d a b => ⟨[.g a.r a.t] ++ [.g b.r b.t], [.g d]⟩
  | .partctlCreate d a b c _ => ⟨[.g a.r a.t] ++ [.g b.r b.t] ++ [.g c false], [.g d]⟩
  | .partctlResize d a b c _ => ⟨[.g a.r a.t] ++ [.g b.r b.t] ++ [.g c false], [.g d]⟩
  | .partctlDestroy d a b c _ => ⟨[.g a.r a.t] ++ [.g b.r b.t] ++ [.g c false], [.g d]⟩
  | .partctlFloor d a b c _ => ⟨[.g a.r a.t] ++ [.g b.r b.t] ++ [.g c false], [.g d]⟩
  | .partctlQcreate d a b c _ => ⟨[.g a.r a.t] ++ [.g b.r b.t] ++ [.g c false], [.g d]⟩
  | .partctlQdelete d a b c _ => ⟨[.g a.r a.t] ++ [.g b.r b.t] ++ [.g c false], [.g d]⟩
  | .partctlSetreg d a b c _ => ⟨[.g a.r a.t] ++ [.g b.r b.t] ++ [.g c false], [.g d]⟩
  | .partctlFreeze d a b c _ => ⟨[.g a.r a.t] ++ [.g b.r b.t] ++ [.g c false], [.g d]⟩
  | .partctlRelease d a b c _ => ⟨[.g a.r a.t] ++ [.g b.r b.t] ++ [.g c false], [.g d]⟩
  | .partctlReset d a b c _ => ⟨[.g a.r a.t] ++ [.g b.r b.t] ++ [.g c false], [.g d]⟩
  | .partctlSavearea d a b c _ => ⟨[.g a.r a.t] ++ [.g b.r b.t] ++ [.g c false], [.g d]⟩
  | .toksetCap d a b _ => ⟨[.g a.r a.t] ++ [.g b.r b.t], [.g d]⟩
  | .toksetClear d a b _ => ⟨[.g a.r a.t] ++ [.g b.r b.t], [.g d]⟩
  | .rft _ => ⟨[], []⟩
  | .diagnostic _ => ⟨[], []⟩
  | _ => ⟨[], []⟩

/-- g0 and p0 name no destination (R27, R36). -/
def DstName.real : DstName → Bool
  | .g r => r != 0#4
  | .p r => r != 0#3
  | _ => true

/-- The destination that both slots name, if any (R36). -/
def conflict? (c a : Uses) : Option DstName := c.dsts.find? fun x => x.real && a.dsts.contains x

/-- TINFO of a register cause (R397). -/
def registerInfo : DstName → Word
  | .g r => BitVec.ofNat 64 r.toNat
  | .v r => BitVec.ofNat 64 (16 + r.toNat)
  | .p r => BitVec.ofNat 64 (32 + r.toNat)
  | .fmt => 48#64
  | .stat => 49#64

def SrcName.full (r : RegFile) : SrcName → Bool
  | .g i _ => r.fullG i
  | .v i _ => r.fullV i
def SrcName.marked : SrcName → Bool
  | .g _ t => t
  | .v _ t => t
def SrcName.name : SrcName → DstName
  | .g i _ => .g i
  | .v i _ => .v i
def DstName.full (r : RegFile) : DstName → Bool
  | .g i => r.fullG i
  | .v i => r.fullV i
  | _ => true

/-- The empty source with T = 1, if any (R33 step 2). -/
def Uses.trapping (u : Uses) (r : RegFile) : Option DstName :=
  (u.srcs.find? fun x => x.marked && !x.full r).map SrcName.name
/-- An empty source or destination makes the strand wait (R33 step 3). -/
def Uses.mustWait (u : Uses) (r : RegFile) : Bool := u.srcs.any (fun x => !x.full r) || u.dsts.any (fun x => !x.full r)

/-- A slot is enabled when p[G] XOR GN is 1 (R72). -/
def enabled (r : RegFile) (w : BitVec 32) : Bool := let (g, n) := guardOf w; r.readP g != n

/-- What the examination of a pair decides (R33, R36, R38). -/
inductive Examined where
  /-- trap, reported for slot A when `slotA` -/
  | traps (slotA : Bool) (t : TrapInfo)
  | waits
  /-- the slots that are enabled, in order -/
  | issues (c a : Option Instr)
  deriving DecidableEq, Repr

/-- A slot as decoded: PRIV for the privileged opcodes in user mode, ILLEGAL for OPC 0x3F in atelier mode whatever its guard, otherwise
ILLEGAL where it does not decode (R74, R83, R416). -/
def slotDecode (atelier : Bool) (w0 w1 : BitVec 32) (slotA : Bool) : Except (BitVec 6) Instr :=
  if slotA then
    match decodeSlotA w0 w1 with
    | .ok i => .ok i
    | .error _ => .error causeIllegal
  else if !atelier && privilegedC w0 then .error causePriv
  else if atelier && w0.extractLsb' 25 6 == 0x3F#6 then .error causeIllegal
  else
    match decodeC w0 w1 with
    | .ok i => .ok i
    | .error _ => .error causeIllegal

/-- A guarded slot: none when it is disabled. -/
def guarded (en : Bool) (i : Instr) : Option Instr := if en then some i else none

/-- The examination. A slot that does not decode traps whatever its guard (R33 step 1, R38). Of several empty sources the C slot's
first one in the order of its operands is named. DESIGN CHOICE (log 104). -/
def examine (atelier : Bool) (r : RegFile) (w0 w1 : BitVec 32) : Examined :=
  let c := slotDecode atelier w0 w1 false
  let a := slotDecode atelier w0 w1 true
  let enC := enabled r w0
  -- a literal has no guard: the A slot of an X = 1 pair is NOPA (R73)
  let enA := w0.getLsbD 31 || enabled r w1
  match c, a with
  | .error t, _ => .traps false { cause := t }
  | .ok _, .error t => .traps true { cause := t }
  | .ok ci, .ok ai =>
    match conflict? (uses ci) (uses ai) with
    | some x => .traps true { cause := causePairConflict, info := registerInfo x }
    | none =>
      let uc : Uses := if enC then uses ci else ⟨[], []⟩
      let ua : Uses := if enA then uses ai else ⟨[], []⟩
      match uc.trapping r, ua.trapping r with
      | some x, _ => .traps false { cause := causeEmptyOperand, info := registerInfo x }
      | none, some x => .traps true { cause := causeEmptyOperand, info := registerInfo x }
      | none, none =>
        if uc.mustWait r || ua.mustWait r then .waits else .issues (guarded enC ci) (guarded enA ai)

end Sys2Proof.Machine
end

