-- ==== Sys2Proof/Machine/Pair.lean ====
section
/-! DEFINITION. One strand's pair, from its fetch to its end, and which strand issues next
(02 R33–R38, 04 R71–R73, 05 R97, 07 R144, R147, 09 R218, 15 R305, 18 R418, R421, R429). -/

namespace Sys2Proof.Machine

/-! ## Fetch (R97, R241, R255) -/

/-- The task that a strand runs, when it trapped while speculative and has yet to run as an irrevocable one (R183). -/
def State.retried (s : State) (k : Nat) : Option Sys2Proof.Machine.Task :=
  ((s.strand k).task.bind fun o => (s.zone (coreZone (strandCore k))).task? o).filter fun t => t.retry && !t.irrevocable
/-- The pair of strand `k` begins. A task that trapped while speculative has become irrevocable by then (R183, R399). -/
def State.begin (s : State) (k : Nat) : State :=
  let s := match s.retried k with
    | some t => s.makeIrrevocable (coreZone (strandCore k)) t.order
    | none => s
  { s with cur := { strand := k, before := s.strand k } }

/-- What the fetch at the pc of the strand that has begun comes to. -/
inductive Fetched where
  | words (w0 w1 : BitVec 32) (s : State)
  /-- it traps, waits, or is held; the state that this leaves -/
  | ended (s : State)
  deriving DecidableEq, Repr

/-- A fetched line comes through the core's L1 of instructions (R249, R312). -/
def State.fetched (s : State) (pa : Nat) (cached : Option (Nat × Nat)) : Fetched :=
  let s := s.touch pa
  let s := match cached with
    | none => s
    | some c => s.chargeFor s.payer c (pa / 64) (if s.inAtelier then none else some (s.selfL1 + 1)) .read
  let x := if paIsSystem pa then s.sysRead pa 4 + s.sysRead (pa + 4) 4 * 2 ^ 32 else s.readPa pa 8
  .words (BitVec.ofNat 32 x) (BitVec.ofNat 32 (x / 2 ^ 32)) s
/-- The eight bytes at the strand's pc. -/
def State.fetchPair (s : State) : Fetched :=
  let pc := s.pairPc
  match s.check .fetch pc 8 with
  | .trap t => .ended (s.takeTrap false { t with addr := pc })
  | .defer t => .ended ((s.faultMet t).hold (.translation false { t with addr := pc, fresh := none, refusal := none }))
  | .hold w s => .ended (s.hold w)
  | .remote _ _ s => .ended (s.takeTrap false (protAt 0 .fetch pc))
  | .ok pa cached s =>
    if s.poisonedIn pa 8 then .ended (s.takeTrap false { cause := causePoison, addr := pc, info := accInfo .fetch, granule := pa / 64 * 64 })
    else s.fetched pa cached

/-! ## The two slots (R34–R37, R218) -/

/-- ROUTESET's two rows share one encoding: g[A][31] selects the port (R412). -/
def State.routesetForm (s : State) (i : Instr) : Instr :=
  match i with
  | .routesetSite d a b => if bitAt (s.g a).toNat 31 then .routesetPort d a b else i
  | i => i
/-- The core has issued from this slot (R147). The shadow register set is not one of the rotation's slots. -/
def State.noteIssue (s : State) : State :=
  let k := s.cur.strand
  let c := s.core (strandCore k)
  let i := strandSlot k
  if i = shadowSlot then s else s.setCore (strandCore k) { c with last := i, yieldTo := setRemove i c.yieldTo }
/-- The strand's pc moves past the pair, and a delivered grant is the pair's to use (R34, R218). -/
def State.startPair (s : State) : State :=
  (s.noteIssue).setSelf { s.self with pc := s.self.pc + 8#64, grant := none }
/-- The C slot's meaning. -/
def State.runC (s : State) (c : Option Instr) : Res :=
  match c with
  | none => .next s
  | some i => exec (s.routesetForm i) s
def State.inSlotA (s : State) : State := s.setCur { s.cur with slotA := true }
/-- The trap of the A slot, judged on the state before the pair. -/
def State.slotATrap (s0 : State) (a : Instr) : Option State :=
  match exec a s0.inSlotA with
  | .next t => if t.cur.trapped then some t else none
  | _ => none
/-- Waits at whose end the instruction's own checks may still find a fault. The others follow every check of their instruction. -/
def Wait.mayFault (w : Wait) : Bool :=
  match w with
  | .translation _ _ => true
  | .remote _ _ => true
  | .pri => true
  | .taskSpace => true
  | .oldest => true
  | .remap _ => true
  | .page => true
  | .accesses => true
  | .answer => true
  | .channelRoom _ => true
  | .engineRoom => true
  | .attention => true
  | .record => true
  | .register => false
  | .pause _ => false
  | .completion _ _ => false
  | .semaphore _ => false
  | .event => false
/-- The C slot waits, and may yet fault: its cause ranks before a trap of the A slot (R38). DEDUCED (log 91). -/
def State.faultAwaited (s : State) : Bool :=
  s.cur.stopped && (match s.self.st with
    | .waiting w => w.mayFault
    | _ => false)
/-- The A slot's meaning, on what the C slot left. A trap of the A slot undoes the whole pair; a pair that the C slot holds
takes effect later, both slots together. -/
def State.runA (s0 s : State) (a : Option Instr) : Res :=
  match a with
  | none => .next s
  | some i =>
    if s.cur.trapped || s.faultAwaited then .next s
    else match s0.slotATrap i with
      | some t => .next t
      | none => if s.cur.stopped then .next s else exec i s.inSlotA

/-- What the A slot wrote goes with a HOP: the packet, or the strand on its own core, holds the carried registers alone
(R35, R177). -/
def State.endHop (s : State) (m : BitVec 32) : State :=
  let k := s.cur.strand
  let x := s.strand k
  let regs := hopRegs x.regs (m.extractLsb' 0 8)
  if x.st == .migrating then
    { s with packets := s.packets.map fun p => if p.strand == k then { p with regs := regs } else p }
  else s.setStrand k { x with regs := regs }
/-- A slot that its C slot has freed keeps nothing (R145). -/
def State.endPair (s : State) (c : Option Instr) : State :=
  let k := s.cur.strand
  if s.cur.stopped then s
  else match c with
    | some (.hop _ m) => s.endHop m
    | _ => if (s.strand k).st == .dormant then s.setStrand k {} else s
/-- Nothing issues between two steps. -/
def State.idle (s : State) : State := { s with cur := {} }

/-- Is the A slot to trap? What the C slot then asks of another module is its checks alone (R37, log 91). -/
def State.doom (s : State) (a : Option Instr) : State :=
  s.setCur { s.cur with doomed := (a.bind s.slotATrap).isSome }
/-- A pair whose order asks that an access complete which waits for a MAPSET (R438, R487) waits with it. -/
def State.overtakes (s t : State) : Bool := s.accesses.any fun a => s.accessWaits a && !t.accesses.contains a
/-- Both slots of a pair that issues. -/
def State.runPair (s : State) (c a : Option Instr) : Res :=
  let s0 := s.startPair.doom a
  match s0.runC c with
  | .next s1 =>
    if s0.overtakes s1 then .next (s0.hold .accesses).idle
    else
    (match s0.runA s1 a with
     | .next s2 => .next (s2.endPair c).idle
     | r => r)
  | r => r
/-- A fetched pair is examined (R33, R38). -/
def State.runWords (s : State) (w0 w1 : BitVec 32) : Res :=
  match examine s.inAtelier s.before.regs w0 w1 with
  | .traps slotA t => .next (s.takeTrap slotA t).idle
  | .waits => .next (s.hold .register).idle
  | .issues c a => s.runPair c a
/-- Strand `k` fetches and runs its pair. -/
def State.issue (s : State) (k : Nat) : Res :=
  match (s.begin k).fetchPair with
  | .ended s => .next s.idle
  | .words w0 w1 s => s.runWords w0 w1

/-! ## Which strand issues (R147, R305, R418, R419, R421, R429) -/

/-- A strand whose task must run as the irrevocable one waits until it may (R181, R183). -/
def State.mustWaitTurn (s : State) (k : Nat) : Bool :=
  (s.retried k).any fun t => !(s.zone (coreZone (strandCore k))).mayTurn t.order
/-- May strand `k` issue a pair, its state apart? -/
def State.strandRuns (s : State) (k : Nat) : Bool :=
  let core := strandCore k
  if (s.core core).stopped || s.mustWaitTurn k then false
  else if coreIsAtelier core then s.module.ateliersStarted
  else match s.zonePart (coreZone core) with
    | none => false
    | some p =>
      s.partRuns p
        || ((s.strand k).inShadow && !(s.part p).frozen && ((s.part p).gang == .armed || (s.part p).gang == .stopping))
/-- Waits that end with a condition which the pair's own examination shows, and not with an answer. -/
def Wait.reexamined (w : Wait) : Bool :=
  match w with
  | .register => true
  | .accesses => true
  | .completion _ _ => true
  | .channelRoom _ => true
  | .engineRoom => true
  | .taskSpace => true
  | .oldest => true
  | .attention => true
  | .record => true
  | .remap _ => true
  | .page => true
  | .pri => false
  | .remote _ _ => false
  | .translation _ _ => false
  | .pause _ => false
  | .semaphore _ => false
  | .event => false
  | .answer => false
/-- The awaited condition of a re-examined wait has become true: the pair would not wait for it again. -/
def State.waitOver (s : State) (k : Nat) (w : Wait) : Bool :=
  match s.issue k with
  | .next t => (t.strand k).st != .waiting w
  | _ => true
/-- A WAITING strand whose condition has become true is READY (R144). -/
def State.rouse (s : State) (k : Nat) : State :=
  match (s.strand k).st with
  | .waiting w => if w.reexamined && s.strandRuns k && s.waitOver k w then s.wake k else s
  | _ => s
/-- The strand slots of a core from the one after the last to issue. -/
def Core.rotation (c : Core) : List Nat := (List.range 8).map fun i => (c.last + 1 + i) % 8
/-- The slots of a core in the order in which it examines them: the shadow handler's first (R305), or last while it has given
up its turn to a READY strand (R99). -/
def State.slotOrder (s : State) (core : Nat) : List Nat :=
  let c := s.core core
  if c.yieldTo.any fun i => (s.strand (strandOf core i)).st == .ready then c.rotation ++ [shadowSlot] else shadowSlot :: c.rotation
def State.rouseCore (s : State) (core : Nat) : State :=
  (s.slotOrder core).foldl (fun s i => s.rouse (strandOf core i)) s
/-- The strand that a core issues next. -/
def State.pick (s : State) (core : Nat) : Option Nat :=
  ((s.slotOrder core).map (strandOf core)).find? fun k => (s.strand k).st == .ready && s.strandRuns k
/-- One core's turn to issue. -/
def State.issueTurn (s : State) (core : Nat) : Res :=
  let s := s.rouseCore core
  match s.pick core with
  | some k => s.issue k
  | none => .next s

/-! ## Events, and the order of turns -/

/-- Events have no encoding. -/
def isEvent (i : Instr) : Bool := (encode i).isNone
/-- An event runs with its operands, which do not outlive it. An instruction is none. -/
def State.eventTurn (s : State) (i : Instr) (x : Input) : Res :=
  if isEvent i then
    (match exec i { s with input := x } with
     | .next t => .next { t with input := {}, cur := {} }
     | r => r)
  else .next s
/-- A store of the host to its own memory or to HBM (R280, R424): it conflicts as any agent's does, and touches one line. -/
def State.hostWrite (s : State) (pa n x : Nat) : State :=
  if paIsHost pa || paIsHbm pa then s.writeShared none pa (min n (64 - pa % 64)) x else s
/-- Wafer time passes: `ns`, or as far as the first sample at which a launch expires. That expiry comes before anything else, and the
rest of the time after it (R492). -/
def State.pass (s : State) (ns : Nat) : State :=
  match s.expiries (s.time + ns) with
  | none => { s with time := s.time + ns }
  | some (t, ls) =>
    { s with time := t, agenda := ls.map (fun n => .event .watchdogExpiry { launch := n }) ++ .advance (s.time + ns - t) :: s.agenda }
def State.runTurn (s : State) (t : Turn) : Res :=
  match t with
  | .issue core => s.issueTurn core
  | .event i x => s.eventTurn i x
  | .advance ns => .next (s.pass ns)
  | .evict line => .next (s.evict line)
  | .dropCopy line l1 => .next (s.giveUp line l1)
  | .hostWrite pa n x => .next (s.hostWrite pa n x)

/-- Could the core issue now, or does one of its strands wait for what it may find by looking again? -/
def State.mayIssue (s : State) (core : Nat) : Bool :=
  (s.slotOrder core).any fun i =>
    let k := strandOf core i
    s.strandRuns k && (match (s.strand k).st with
      | .ready => true
      | .waiting w => w.reexamined && s.waitOver k w
      | _ => false)
/-- The turn that is taken when the agenda names none: an outstanding access completes, else the first core that can issue
does, else wafer time moves on. -/
def State.defaultTurn (s : State) : Turn :=
  match (List.range s.accesses.length).find? s.mayComplete with
  | some i => .event .accessCompletion { index := i }
  | none =>
    match (s.strands.keys.map strandCore).find? s.mayIssue with
    | some core => .issue core
    | none => .advance 1

end Sys2Proof.Machine
end

