-- ==== Sys2Proof/Machine/Place.lean ====
section
/-! DEFINITION. How an instruction is placed where the next step fetches it: in the page that the next strand runs in, or in
a small partition of its own, as a launch would have left it. -/

namespace Sys2Proof.Machine

/-- The strand that issues at the next step, once its wait is over. -/
def State.nextStrand (s : State) : Option (Nat × State) :=
  match s.agenda with
  | [] =>
    (match s.defaultTurn with
     | .issue core => let t := s.rouseCore core; (t.pick core).map fun k => (k, t)
     | _ => none)
  | .issue core :: _ => let t := s.rouseCore core; (t.pick core).map fun k => (k, t)
  | _ => none
/-- The physical address that it fetches from. -/
def State.nextFetch (s : State) : Option Nat :=
  s.nextStrand.bind fun x =>
    match (x.2.begin x.1).check .fetch (x.2.strand x.1).pc 8 with
    | .ok pa _ _ => some pa
    | _ => none
/-- A pair's eight bytes at a physical address; whole and unpoisoned. -/
def State.placePair (s : State) (pa w : Nat) : State := (s.writePa pa 8 w).clearPoison pa

/-- The program page of a lone strand, at virtual and physical address 0x20_0000; its tables stand below. -/
abbrev loneEntry : Nat := 0x200000
/-- A record whose core set is one core: ENTRY, and the fields that R150 asks for. -/
def loneRecord : BitVec 1024 := BitVec.ofNat 1024 (loneEntry + 2 ^ 548)
/-- The maquette row of which every column is its own site. -/
def plainRow : Word := 0x00000A9876543210#64
/-- Page tables that map the first GiB to itself, and one region with every right. -/
def State.loneTables (s : State) : State :=
  let s := s.writePa 0x101000 8 (0x102000 + 1)
  let s := s.writePa 0x102000 8 (0x103000 + 1)
  let s := s.writePa 0x103000 8 (2 ^ 63 + 0x80 + 1)
  let s := s.writePa 0x104000 8 (30 * 2 ^ 17 + 15)
  s.writePa 0x104008 8 1
/-- One partition on zone 0, one bound launch, one READY strand on the CC of tile (0, 0): what power-good, the maquette,
a partition, a queue and a launch lead to. -/
def State.lone (s : State) : State :=
  let z := s.zone 0
  let s := s.loneTables
  let s := s.setZone 0 { z with rows := z.rows.set 0 plainRow, quarantined := [], retired := [] }
  let s := { s with
    parts := ⟨[(0, { live := true, zones := 1#64, floor := 11 })]⟩
    tenants := s.tenants.set 0 { ptroot := BitVec.ofNat 64 (2 ^ 52 + 0x104000) }
    module := { s.module with pgroot := 0x101000#64 }
    launches := ⟨[(1,
      { part := 0, tenant := 0, queue := 0, record := loneRecord, indirect := false, addr := 0#64, slotAddr := none
        prio := 0#3, ch := 0, lid := 1#32, count := 0#32, bound := true, cids := [1], coreSet := [0] })]⟩
    strands := ⟨[(strandOf 1 0, { st := .ready, pc := BitVec.ofNat 64 loneEntry, launch := 1, regs := { g := ⟨[(14, swin)]⟩ } })]⟩
    accesses := [], agenda := [] }
  s.setCore 1 {}

end Sys2Proof.Machine
end

