-- ==== Sys2Proof/Machine/Step.lean ====
section
/-! DEFINITION. One step of the module: the next turn of the agenda, or the default one. -/

namespace Sys2Proof.Machine

/-- One step. -/
def step (s : State) : Host.Outcome State Fault Refusal :=
  match s.agenda with
  | [] => s.runTurn s.defaultTurn
  | t :: rest => State.runTurn { s with agenda := rest } t

/-- `s` with an instruction where `step` fetches its next one. Where no strand would fetch next, the machine is as a launch
leaves it: that stands for the load of a program from outside. -/
def State.withFetchWord (s : State) (nbits w : Nat) : State :=
  match s.nextFetch with
  | some pa => s.placePair pa (w % 2 ^ nbits)
  | none => s.lone.placePair loneEntry (w % 2 ^ nbits)

end Sys2Proof.Machine
end

