-- ==== Sys2Proof/Safety.lean ====
section
/-! DEFINITION. What counts as a safe run, and the words in which claims speak of a step: which part of the state a step
may have changed (R13), and what a slot's effect leaves behind. -/

namespace Sys2Proof.Machine

/-! ## Safe states and runs -/

/-- Memory in its one canonical form, so that equal memories are equal data. -/
def MemCanonical (s : State) : Prop := s.mem.wf = true
/-- Between two steps no pair is half done and no event's operands linger. -/
def Settled (s : State) : Prop := s.cur = {} ∧ s.input = {}
/-- A safe state. -/
def Safe (s : State) : Prop := MemCanonical s ∧ Settled s
/-- `n` steps that each answer a safe next state. -/
def SafeRun : Nat → State → Prop
  | 0, s => Safe s
  | n + 1, s => Safe s ∧ ∃ t, step s = .next t ∧ SafeRun n t

/-! ## Frames (R13) -/

/-- Nothing but the issuing strand differs. -/
def OnlySelf (s t : State) : Prop :=
  t = { s with strands := t.strands } ∧ ∀ k, k ≠ s.cur.strand → t.strand k = s.strand k
/-- Nothing but registers of the issuing strand differs. -/
def OnlyRegs (s t : State) : Prop := OnlySelf s t ∧ t.self = { s.self with regs := t.self.regs }

/-- The one effect is g[d] := x, discarded when d is g0 (R27). -/
def WritesG (d : Reg) (x : Word) (s t : State) : Prop :=
  OnlyRegs s t ∧
  (∀ i, t.self.regs.readG i = if d ≠ 0#4 ∧ i = d then x else s.self.regs.readG i) ∧
  t.self.regs = { s.self.regs with g := t.self.regs.g }
/-- g[d] := x, and the flags `f` are raised in STAT (R43, R94). -/
def WritesGF (d : Reg) (x : Word) (f : Flags) (s t : State) : Prop :=
  OnlyRegs s t ∧
  (∀ i, t.self.regs.readG i = if d ≠ 0#4 ∧ i = d then x else s.self.regs.readG i) ∧
  t.self.regs = { s.self.regs with g := t.self.regs.g, stat := s.self.regs.stat ||| f }
/-- v[d] := x, and the flags `f` are raised in STAT (R28, R125). -/
def WritesVF (d : Reg) (x : VWord) (f : Flags) (s t : State) : Prop :=
  OnlyRegs s t ∧
  (∀ i, t.self.regs.readV i = if i = d then x else s.self.regs.readV i) ∧
  t.self.regs = { s.self.regs with v := t.self.regs.v, stat := s.self.regs.stat ||| f }
/-- p[d] := b, discarded when d is p0, and the flags `f` are raised (R29, R43). -/
def WritesPF (d : Pred) (b : Bool) (f : Flags) (s t : State) : Prop :=
  OnlyRegs s t ∧
  (∀ i, t.self.regs.readP i = if d ≠ 0#3 ∧ i = d then b else s.self.regs.readP i) ∧
  t.self.regs = { s.self.regs with pw := t.self.regs.pw, stat := s.self.regs.stat ||| f }

/-- The one effect is that the strand goes on at `pc` (R96). -/
def Jumps (pc : Word) (s t : State) : Prop := OnlySelf s t ∧ t.self = { s.self with pc := pc }
/-- The strand goes on at `pc`, and g[d] := x. -/
def JumpsWith (d : Reg) (x pc : Word) (s t : State) : Prop :=
  OnlySelf s t ∧ t.self = { s.self with pc := pc, regs := t.self.regs } ∧
  (∀ i, t.self.regs.readG i = if d ≠ 0#4 ∧ i = d then x else s.self.regs.readG i) ∧
  t.self.regs = { s.self.regs with g := t.self.regs.g }

/-! ## Conditions -/

/-- The integer condition of code `cc`, 0 to 9, over numbers (R80). -/
def IntHolds (cc : BitVec 4) (a b : Word) : Prop :=
  match cc.toNat with
  | 0 => a = b
  | 1 => a ≠ b
  | 2 => a.toInt < b.toInt
  | 3 => b.toInt ≤ a.toInt
  | 4 => a.toInt ≤ b.toInt
  | 5 => b.toInt < a.toInt
  | 6 => a.toNat < b.toNat
  | 7 => b.toNat ≤ a.toNat
  | 8 => a.toNat ≤ b.toNat
  | _ => b.toNat < a.toNat

/-! ## Kinds of strand -/

/-- The issuing strand is an ordinary one: no handler, task or shadow handler (R173, R183, R306), and in user mode. -/
def PlainStrand (s : State) : Prop :=
  s.before.inHandler = false ∧ s.before.inTask = false ∧ s.before.inShadow = false ∧ s.before.task = none ∧
  s.inAtelier = false

/-! ## Engine commands (R291, R317, R318) -/

/-- The core's earlier accesses complete; operation `o` then joins the engines' operations under its identifier, which
g[D] receives, with the regions that its range checks met; the channel's next identifier counts up, and its record slot holds it,
not complete. Nothing else changes. -/
def Forks (d : Reg) (o : Op) (s t : State) : Prop :=
  let u := s.drainCore s.selfCore
  t = { u with strands := t.strands, cores := t.cores, ops := u.ops ++ [{ o with regions := s.cur.regions }] } ∧
  t.core o.core =
    { u.core o.core with
      cnext := (u.core o.core).cnext.set o.ch (o.id + 1#32)
      records := (u.core o.core).records.set (32 * o.ch + o.id.toNat % 32) { id := o.id, word := 0xE000000000000000#64 } } ∧
  (∀ c, c ≠ o.core → t.core c = u.core c) ∧ (∀ k, k ≠ u.cur.strand → t.strand k = u.strand k) ∧
  t.self = { u.self with regs := { u.self.regs with g := t.self.regs.g } } ∧
  ∀ i, t.self.regs.readG i = if d ≠ 0#4 ∧ i = d then o.id.setWidth 64 else u.self.regs.readG i
/-- The identifier is taken and at once complete with status `sts`: no operation runs, and the record stands. -/
def EndsAtOnce (d : Reg) (o : Op) (sts : Nat) (s t : State) : Prop :=
  t.ops = s.ops.filter (fun q => !q.is o.core o.ch o.id) ∧ (t.core o.core).next o.ch = o.id + 1#32 ∧
  (t.core o.core).records.find? (32 * o.ch + o.id.toNat % 32) = some { id := o.id, word := BitVec.ofNat 64 (sts * 2 ^ 61) } ∧
  (∀ c, c ≠ o.core → t.core c = s.core c) ∧ (∀ k, k ≠ s.cur.strand → t.strand k = s.strand k) ∧
  t = { s with strands := t.strands, cores := t.cores, ops := t.ops } ∧
  ∀ i, t.self.regs.readG i = if d ≠ 0#4 ∧ i = d then o.id.setWidth 64 else s.self.regs.readG i
/-- The identifier of the next operation of the issuing core on channel `ch` can be taken (R317). -/
def HasRoom (s : State) (ch : Nat) : Prop := (s.core s.selfCore).room ch = true

end Sys2Proof.Machine
end

