-- ==== Sys2Proof/Certificates/Slice0/Obligations.lean ====
section
/-! DEFINITION. The statements for the provers. Each docstring names the rules of the spec that it formalises. -/

open Sys2Proof Sys2Proof.Machine

/-! ## Scalar instructions (05) -/

/-- R94, R102, R110, R113, R114: the A-slot integer instructions of one line complete with g[D] as their tables say, and
change nothing else.

Concluded to complete, each by its own effect: ADD, SUB, AND, OR, XOR, ANDN, SHL, SHR, SAR, ROT, MUL, ADDI, ANDI, ORI, XORI,
SHLI, SHRI, SARI, LEA, MOVI. -/
def Obligations.IntegerInstructionsComplete : Prop :=
  ∀ (s : State) (d : Reg) (a b : Src) (imm : BitVec 12) (sh : BitVec 6) (sh2 : BitVec 2),
    (∃ t, exec (.add d a b) s = .next t ∧ WritesG d (s.g a + s.g b) s t) ∧
    (∃ t, exec (.sub d a b) s = .next t ∧ WritesG d (s.g a - s.g b) s t) ∧
    (∃ t, exec (.and d a b) s = .next t ∧ WritesG d (s.g a &&& s.g b) s t) ∧
    (∃ t, exec (.or d a b) s = .next t ∧ WritesG d (s.g a ||| s.g b) s t) ∧
    (∃ t, exec (.xor d a b) s = .next t ∧ WritesG d (s.g a ^^^ s.g b) s t) ∧
    (∃ t, exec (.andn d a b) s = .next t ∧ WritesG d (s.g a &&& ~~~(s.g b)) s t) ∧
    (∃ t, exec (.shl d a b) s = .next t ∧ WritesG d (s.g a <<< ((s.g b).toNat % 64)) s t) ∧
    (∃ t, exec (.shr d a b) s = .next t ∧ WritesG d (s.g a >>> ((s.g b).toNat % 64)) s t) ∧
    (∃ t, exec (.sar d a b) s = .next t ∧ WritesG d ((s.g a).sshiftRight ((s.g b).toNat % 64)) s t) ∧
    (∃ t, exec (.rot d a b) s = .next t ∧ WritesG d ((s.g a).rotateLeft ((s.g b).toNat % 64)) s t) ∧
    (∃ t, exec (.mul d a b) s = .next t ∧ WritesG d (s.g a * s.g b) s t) ∧
    (∃ t, exec (.addi d a imm) s = .next t ∧ WritesG d (s.g a + imm.signExtend 64) s t) ∧
    (∃ t, exec (.andi d a imm) s = .next t ∧ WritesG d (s.g a &&& imm.signExtend 64) s t) ∧
    (∃ t, exec (.ori d a imm) s = .next t ∧ WritesG d (s.g a ||| imm.signExtend 64) s t) ∧
    (∃ t, exec (.xori d a imm) s = .next t ∧ WritesG d (s.g a ^^^ imm.signExtend 64) s t) ∧
    (∃ t, exec (.shli d a sh) s = .next t ∧ WritesG d (s.g a <<< sh.toNat) s t) ∧
    (∃ t, exec (.shri d a sh) s = .next t ∧ WritesG d (s.g a >>> sh.toNat) s t) ∧
    (∃ t, exec (.sari d a sh) s = .next t ∧ WritesG d ((s.g a).sshiftRight sh.toNat) s t) ∧
    (∃ t, exec (.lea d a b sh2) s = .next t ∧ WritesG d (s.g a + (s.g b <<< sh2.toNat)) s t) ∧
    (∃ t, exec (.movi d imm) s = .next t ∧ WritesG d (imm.signExtend 64) s t)

/-- R110, R111: minimum, maximum, the upper products, quotients and remainders, as numbers. A zero divisor gives −1 and the
dividend; −2^63 by −1 gives −2^63 and 0.

Concluded to complete, each by its own effect: MIN, MAX, MINU, MAXU, MULH, MULHU, DIV, DIVU, REM, REMU. -/
def Obligations.MultiplyDivideComplete : Prop :=
  ∀ (s : State) (d : Reg) (a b : Src),
    (∃ t x, exec (.min d a b) s = .next t ∧ WritesG d x s t ∧ x.toInt = min (s.g a).toInt (s.g b).toInt) ∧
    (∃ t x, exec (.max d a b) s = .next t ∧ WritesG d x s t ∧ x.toInt = max (s.g a).toInt (s.g b).toInt) ∧
    (∃ t x, exec (.minu d a b) s = .next t ∧ WritesG d x s t ∧ x.toNat = min (s.g a).toNat (s.g b).toNat) ∧
    (∃ t x, exec (.maxu d a b) s = .next t ∧ WritesG d x s t ∧ x.toNat = max (s.g a).toNat (s.g b).toNat) ∧
    (∃ t x, exec (.mulh d a b) s = .next t ∧ WritesG d x s t ∧ x.toInt = (s.g a).toInt * (s.g b).toInt / 2 ^ 64) ∧
    (∃ t x, exec (.mulhu d a b) s = .next t ∧ WritesG d x s t ∧ x.toNat = (s.g a).toNat * (s.g b).toNat / 2 ^ 64) ∧
    (∃ t x, exec (.div d a b) s = .next t ∧ WritesG d x s t ∧
      (s.g b = 0#64 → x = BitVec.allOnes 64) ∧
      (s.g b ≠ 0#64 → ¬(s.g a = 0x8000000000000000#64 ∧ s.g b = BitVec.allOnes 64) →
        x.toInt = (s.g a).toInt.tdiv (s.g b).toInt) ∧
      (s.g a = 0x8000000000000000#64 → s.g b = BitVec.allOnes 64 → x = 0x8000000000000000#64)) ∧
    (∃ t x, exec (.divu d a b) s = .next t ∧ WritesG d x s t ∧
      (s.g b = 0#64 → x = BitVec.allOnes 64) ∧ (s.g b ≠ 0#64 → x.toNat = (s.g a).toNat / (s.g b).toNat)) ∧
    (∃ t x, exec (.rem d a b) s = .next t ∧ WritesG d x s t ∧
      (s.g b = 0#64 → x = s.g a) ∧ (s.g b ≠ 0#64 → x.toInt = (s.g a).toInt.tmod (s.g b).toInt)) ∧
    (∃ t x, exec (.remu d a b) s = .next t ∧ WritesG d x s t ∧
      (s.g b = 0#64 → x = s.g a) ∧ (s.g b ≠ 0#64 → x.toNat = (s.g a).toNat % (s.g b).toNat))

/-- R112: the bit instructions. CLZ and CTZ count up to the first set bit and give 64 for zero, POPC counts the set bits,
BREV mirrors; BEXT packs the bits at the set positions of b, whose n-th lies where b has n set bits below it, and BDEP puts
them back there.

R101: MOVL builds a constant from a 12-bit immediate, or from the literal and the immediate, over g[A] moved up by 44
bits.

R80, R115, R116, R121: comparisons write one predicate, SEL picks by a predicate, and the predicate instructions
combine predicates; p0 reads 1 and takes no write.

Concluded to complete, each by its own effect: CLZ, CTZ, POPC, BREV, BEXT, BDEP, MOVL, CMP, CMPI, SEL, PAND, POR, PXOR, PNOT,
PMOV. -/
def Obligations.BitCompareSelectComplete : Prop :=
  (∀ (s : State) (d : Reg) (a b : Src),
    (∃ t x, exec (.clz d a) s = .next t ∧ WritesG d x s t ∧
      (s.g a = 0#64 → x = 64#64) ∧
      (s.g a ≠ 0#64 → x.toNat < 64 ∧ (s.g a).getLsbD (63 - x.toNat) = true ∧ ∀ i, 63 - x.toNat < i → (s.g a).getLsbD i = false)) ∧
    (∃ t x, exec (.ctz d a) s = .next t ∧ WritesG d x s t ∧
      (s.g a = 0#64 → x = 64#64) ∧
      (s.g a ≠ 0#64 → (s.g a).getLsbD x.toNat = true ∧ ∀ i, i < x.toNat → (s.g a).getLsbD i = false)) ∧
    (∃ t x, exec (.popc d a) s = .next t ∧ WritesG d x s t ∧
      x.toNat = ((List.range 64).filter fun i => (s.g a).getLsbD i).length) ∧
    (∃ t x, exec (.brev d a) s = .next t ∧ WritesG d x s t ∧ ∀ i, i < 64 → x.getLsbD i = (s.g a).getLsbD (63 - i)) ∧
    (∃ t x, exec (.bext d a b) s = .next t ∧ WritesG d x s t ∧
      (∀ i, i < 64 → (s.g b).getLsbD i = true → x.getLsbD (((List.range i).filter fun j => (s.g b).getLsbD j).length) = (s.g a).getLsbD i) ∧
      (∀ k, ((List.range 64).filter fun j => (s.g b).getLsbD j).length ≤ k → x.getLsbD k = false)) ∧
    (∃ t x, exec (.bdep d a b) s = .next t ∧ WritesG d x s t ∧
      ∀ i, i < 64 → x.getLsbD i = ((s.g b).getLsbD i &&
        (s.g a).getLsbD (((List.range i).filter fun j => (s.g b).getLsbD j).length)))) ∧
  (∀ (s : State) (d : Reg) (a : Src) (short : BitVec 12) (lit : BitVec 32),
    (∃ t, exec (.movl d a ⟨short, none⟩) s = .next t ∧ WritesG d ((s.g a <<< 44) + short.signExtend 64) s t) ∧
    (∃ t, exec (.movl d a ⟨short, some lit⟩) s = .next t ∧ WritesG d ((s.g a <<< 44) + (lit ++ short).signExtend 64) s t)) ∧
  (∀ (s : State) (d : Reg) (p q r : Pred) (n : Bool) (a b : Src) (imm : BitVec 12) (cc : BitVec 4),
    (cc.toNat ≤ 9 →
      ∃ t v, exec (.cmp cc p a b) s = .next t ∧ WritesPF p v 0#6 s t ∧ (v = true ↔ IntHolds cc (s.g a) (s.g b))) ∧
    (cc.toNat ≤ 9 →
      ∃ t v, exec (.cmpi cc p a imm) s = .next t ∧ WritesPF p v 0#6 s t ∧ (v = true ↔ IntHolds cc (s.g a) (imm.signExtend 64))) ∧
    (∃ t, exec (.sel d p n a b) s = .next t ∧ WritesG d (if s.p p = !n then s.g a else s.g b) s t) ∧
    (∃ t, exec (.pand p q r) s = .next t ∧ WritesPF p (s.p q && s.p r) 0#6 s t) ∧
    (∃ t, exec (.por p q r) s = .next t ∧ WritesPF p (s.p q || s.p r) 0#6 s t) ∧
    (∃ t, exec (.pxor p q r) s = .next t ∧ WritesPF p (s.p q ^^ s.p r) 0#6 s t) ∧
    (∃ t, exec (.pnot p q) s = .next t ∧ WritesPF p (!s.p q) 0#6 s t) ∧
    (∃ t, exec (.pmov p q) s = .next t ∧ WritesPF p (s.p q) 0#6 s t))

/-- R42, R79, R122, R123: FMTSET with a value that fits its field writes that field of FMT alone, or all of it; FMTGET
reads FMT as the pair found it.

Concluded to complete, each by its own effect: FMTGET, FMTSET. -/
def Obligations.FormatInstructionsComplete : Prop :=
  (∀ (s : State) (d : Reg), ∃ t, exec (.fmtget d) s = .next t ∧ WritesG d (s.before.regs.fmt.setWidth 64) s t) ∧
  ∀ (s : State) (field : BitVec 4) (a : Src) (imm : BitVec 12) (lo n : Nat),
    ((field, lo, n) ∈ [(0#4, 0, 4), (1#4, 4, 4), (2#4, 8, 2), (3#4, 10, 2), (4#4, 12, 1), (5#4, 13, 1), (15#4, 0, 14)]) →
    (s.g a + imm.signExtend 64).toNat < 2 ^ n →
    ∃ t, exec (.fmtset field a imm) s = .next t ∧ OnlyRegs s t ∧
      t.self.regs = { s.self.regs with fmt := t.self.regs.fmt } ∧
      ∀ i, i < 14 → t.self.regs.fmt.getLsbD i =
        if lo ≤ i ∧ i < lo + n then (s.g a + imm.signExtend 64).getLsbD (i - lo) else s.self.regs.fmt.getLsbD i

/-- R34, R96, R98: a register jump to an address that is no multiple of 8 traps MISALIGNED, and any branch to an address of
2^57 or more traps PROT, TADDR being the target.

R122: an FMTSET whose value is wider than its field traps ILLEGAL, and FMT stays as the pair found it.

R9, R39, R40, R107, R108, R416: a number of 0x100 or more is PRIV in user mode, for MFS and MTS alike; MTS of
0x000, 0x004 and 0x0FF, which no table lists, and a write of a nonzero value to a reserved field, trap ILLEGAL; opcode 0x3F is PRIV
in user mode and ILLEGAL in atelier mode, where every pair with it decodes, whatever its body (log 70).

Concluded to complete by the trap that is its whole effect: DIAGNOSTIC. -/
def Obligations.OperandsThatTrap : Prop :=
  (∀ (s : State) (off : Ext 21) (off17 : Ext 17) (d : Reg) (a : Src),
    let prot := fun (t : Word) => s.takeTrap s.cur.slotA { cause := 0x08#6, addr := t, info := BitVec.ofNat 64 (2 * 2 ^ 48) }
    let mis := fun (t : Word) => s.takeTrap s.cur.slotA { cause := 0x05#6, addr := t }
    (2 ^ 57 ≤ (branchTarget s.before.pc off).toNat →
      exec (.br off) s = .next (prot (branchTarget s.before.pc off)) ∧
      exec (.brl off) s = .next (prot (branchTarget s.before.pc off))) ∧
    ((s.g a).toNat % 8 ≠ 0 → exec (.jmp a) s = .next (mis (s.g a)) ∧ exec (.jmpl a) s = .next (mis (s.g a))) ∧
    ((s.g a).toNat % 8 = 0 → 2 ^ 57 ≤ (s.g a).toNat →
      exec (.jmp a) s = .next (prot (s.g a)) ∧ exec (.jmpl a) s = .next (prot (s.g a))) ∧
    ((s.gr 15#4).toNat % 8 ≠ 0 → exec .ret s = .next (mis (s.gr 15#4))) ∧
    ((s.gr 15#4).toNat % 8 = 0 → 2 ^ 57 ≤ (s.gr 15#4).toNat → exec .ret s = .next (prot (s.gr 15#4))) ∧
    (s.gr d ≠ 1#64 → 2 ^ 57 ≤ (branchTarget s.before.pc off17).toNat →
      exec (.dbnz d off17) s = .next (prot (branchTarget s.before.pc off17)))) ∧
  (∀ (s : State) (field : BitVec 4) (a : Src) (imm : BitVec 12) (lo n : Nat),
    ((field, lo, n) ∈ [(0#4, 0, 4), (1#4, 4, 4), (2#4, 8, 2), (3#4, 10, 2), (4#4, 12, 1), (5#4, 13, 1), (15#4, 0, 14)]) →
    2 ^ n ≤ (s.g a + imm.signExtend 64).toNat →
    exec (.fmtset field a imm) s = .next (s.takeTrap s.cur.slotA { cause := 0x01#6 })) ∧
  (∀ (s : State) (d : Reg) (num : BitVec 10) (body : BitVec 25),
    let trap := fun (c : BitVec 6) (info : Word) => Host.Outcome.next (s.takeTrap s.cur.slotA { cause := c, addr := 0#64, info := info })
    (s.inAtelier = false → 0x100 ≤ num.toNat → exec (.mfs d num) s = trap 0x02#6 0#64 ∧ exec (.mts d num) s = trap 0x02#6 0#64) ∧
    (num ∈ [0x000#10, 0x004#10, 0x0FF#10] → exec (.mts d num) s = trap 0x01#6 0#64) ∧
    (2 ^ 14 ≤ (s.gr d).toNat → exec (.mts d 0x001#10) s = trap 0x01#6 0#64) ∧
    (2 ^ 6 ≤ (s.gr d).toNat → exec (.mts d 0x002#10) s = trap 0x01#6 0#64) ∧
    ((s.gr d).toNat % 64 ≠ 0 → exec (.mts d 0x030#10) s = trap 0x01#6 0#64) ∧
    (s.inAtelier = false → exec (.diagnostic body) s = trap 0x02#6 0#64) ∧
    (s.inAtelier = true → exec (.diagnostic body) s = trap 0x01#6 0#64) ∧
    (s.inAtelier = true → ∀ w0 w1 : BitVec 32, w0.extractLsb' 25 6 = 0x3F#6 →
      ∃ i, decodeC w0 w1 = .ok i ∧ exec i s = trap 0x01#6 0#64))

/-- R100: NOPC and NOPA do nothing. Their bodies must be zero, their guards may be anything, and NOPC ignores a literal.

Concluded to complete, each by its own effect: NOPC, NOPA. -/
def Obligations.NopsDoNothing : Prop :=
  ∀ (s : State) (w0 w1 : BitVec 32),
    exec .nopc s = .next s ∧ exec .nopa s = .next s ∧
    (w0.extractLsb' 25 6 = 0x00#6 → decodeC w0 w1 = if w0.extractLsb' 0 21 = 0#21 then .ok .nopc else .error .reserved) ∧
    (w1.extractLsb' 25 7 = 0x00#7 → decodeA w1 = if w1.extractLsb' 0 21 = 0#21 then .ok .nopa else .error .reserved)

/-- R94, R117, R118: scalar floating point reads its operands in the low bits at the format's width, writes the rounded
result zero-extended, and raises the flags of the operation and nothing else.

R119, R120: FCMP writes its predicate and raises NV; FCVT converts under the FMT.RM and FMT.SAT that the pair found.

Concluded to complete, each by its own effect: FADD, FSUB, FMUL, FFMA, FDIV, FMIN, FMAX, FSQRT, FABS, FNEG, EX2, LG2, RCP, RSQ,
FCMP, FCVT. -/
def Obligations.FloatingPointComplete : Prop :=
  (∀ (s : State) (et : BitVec 2) (d : Reg) (a b : Src) (f : Format) (x y z : Nat),
    (et, f) ∈ [(0#2, fp32), (1#2, bf16), (2#2, fp16), (3#2, fp64)] →
    x = (s.g a).toNat % 2 ^ f.width → y = (s.g b).toNat % 2 ^ f.width → z = (s.gr d).toNat % 2 ^ f.width →
    let done := fun (i : Instr) (r : FpRes) => ∃ t, exec i s = .next t ∧ WritesGF d (BitVec.ofNat 64 r.bits) r.flags s t
    done (.fadd et d a b) (fpAdd f x y) ∧ done (.fsub et d a b) (fpSub f x y) ∧ done (.fmul et d a b) (fpMul f x y) ∧
    done (.ffma et d a b) (fpFma f x y z) ∧ done (.fdiv et d a b) (fpDiv f x y) ∧ done (.fmin et d a b) (fpMin f x y) ∧
    done (.fmax et d a b) (fpMax f x y) ∧ done (.fsqrt et d a) (fpSqrt f x) ∧
    done (.fabs et d a) ⟨x % 2 ^ (f.width - 1), 0#6⟩ ∧ done (.fneg et d a) ⟨x ^^^ 2 ^ (f.width - 1), 0#6⟩ ∧
    done (.ex2 et d a) (viaFp32 ex2 f x) ∧ done (.lg2 et d a) (viaFp32 lg2 f x) ∧
    done (.rcp et d a) (viaFp32 rcp f x) ∧ done (.rsq et d a) (viaFp32 rsq f x)) ∧
  (∀ (s : State) (cc : BitVec 3) (et : BitVec 2) (f : Format) (p : Pred) (d : Reg) (a b : Src) (dst src : BitVec 4),
    (et, f) ∈ [(0#2, fp32), (1#2, bf16), (2#2, fp16), (3#2, fp64)] →
    (∃ t, exec (.fcmp cc et p a b) s = .next t ∧
      WritesPF p (fpCompare cc (Fp.ofBits f ((s.g a).toNat % 2 ^ f.width)) (Fp.ofBits f ((s.g b).toNat % 2 ^ f.width))).1
        (fpCompare cc (Fp.ofBits f ((s.g a).toNat % 2 ^ f.width)) (Fp.ofBits f ((s.g b).toNat % 2 ^ f.width))).2 s t) ∧
    (dst.toNat ≤ 13 → src.toNat ≤ 13 →
      let r := convert (typeOf src.toNat) (typeOf dst.toNat) (RMode.ofBits (s.before.regs.fmt.extractLsb' 10 2))
        (s.before.regs.fmt.getLsbD 12) ((s.g a).toNat % 2 ^ (typeOf src.toNat).width)
      ∃ t, exec (.fcvt dst src d a) s = .next t ∧ WritesGF d (extendTo64 (typeOf dst.toNat) r.bits) r.flags s t))

/-- R55, R59, R63, R117: the sum and the product do not depend on the order of their operands, flags included; a difference
is the sum with the sign of the second operand inverted, NaNs apart.

R51, R59, R63: a finite value that its format holds rounds to itself in every rounding mode, with no flag. -/
def Obligations.FloatingPointLaws : Prop :=
  (∀ (f : Format) (x y : Nat), f ∈ [fp64, fp32, fp16, bf16] →
    fpAdd f x y = fpAdd f y x ∧ fpMul f x y = fpMul f y x ∧
    ((Fp.ofBits f y).isNaN = false → fpSub f x y = fpAdd f x (fpNegBits f y))) ∧
  (∀ (f : Format) (rm : RMode) (sat : Bool) (x : Nat) (n : Bool) (m : Nat) (e : Int),
    f ∈ [fp64, fp32, fp16, bf16, fp8e4m3, fp8e5m2, fp4e2m1] → x < 2 ^ f.width → Fp.ofBits f x = .fin n m e →
    roundTo f rm sat n m e = ⟨x, 0#6⟩)

/-! ## Vector instructions (06) -/

/-- R124, R129, R130: the lane arithmetic. Lane by lane, with the flags of every lane raised; with BS = 1 the second operand
is one general register in every lane; VFMA adds the old v[D].

R131–R135: logic, shifts, comparison into a mask, selection by a mask, and movement between lanes and registers.

R124: a vector is its lanes, lane 0 in the low bits: 512/w numbers of w bits put into a vector read back as they are,
and a vector's lanes put together are the vector.

Concluded to complete, each by its own effect: VADD, VSUB, VMUL, VMIN, VMAX, VFMA, VABS, VNEG, VEX2, VLG2, VRCP, VRSQ, VSEL,
VSHUF, VBCAST, VINS, VEXT, VAND, VOR, VXOR, VSHL, VSHR, VIOTA, VCMP. -/
def Obligations.VectorArithmeticMovementComplete : Prop :=
  (∀ (s : State) (et : BitVec 3) (d : Reg) (a b : Src) (bs sat : Bool),
    let t := etType et
    let x := s.lanes et a.r
    let y := if bs then List.replicate (etLanes et) ((s.g b).toNat % 2 ^ etWidth et) else s.lanes et b.r
    let done := fun (i : Instr) (rs : List FpRes) =>
      ∃ u, exec i s = .next u ∧ WritesVF d (ofLanes (etWidth et) (rs.map (·.bits))) (rs.foldl (fun f r => f ||| r.flags) 0#6) s u
    done (.vadd et d a b bs sat) (x.zipWith (laneBin t sat fpAdd (· + ·)) y) ∧
    done (.vsub et d a b bs sat) (x.zipWith (laneBin t sat fpSub (· - ·)) y) ∧
    done (.vmul et d a b bs sat) (x.zipWith (laneBin t sat fpMul (· * ·)) y) ∧
    done (.vmin et d a b bs sat) (x.zipWith (laneBin t sat fpMin min) y) ∧
    done (.vmax et d a b bs sat) (x.zipWith (laneBin t sat fpMax max) y) ∧
    done (.vfma et d a b bs sat) ((x.zip y).zipWith (fun xy z => laneFma t sat xy.1 xy.2 z) (s.lanes et d)) ∧
    done (.vabs et d a) (x.map (laneAbs t)) ∧ done (.vneg et d a) (x.map (laneNeg t)) ∧
    (etInt et = false →
      done (.vex2 et d a) (x.map (laneVia ex2 t)) ∧ done (.vlg2 et d a) (x.map (laneVia lg2 t)) ∧
      done (.vrcp et d a) (x.map (laneVia rcp t)) ∧ done (.vrsq et d a) (x.map (laneVia rsq t)))) ∧
  (∀ (s : State) (et cc : BitVec 3) (d : Reg) (a b : Src),
    let w := etWidth et
    let x := s.lanes et a.r
    let y := s.lanes et b.r
    let puts := fun (i : Instr) (v : VWord) => ∃ t, exec i s = .next t ∧ WritesVF d v 0#6 s t
    puts (.vsel et d a b) ((s.vr a.r &&& s.vr d) ||| (s.vr b.r &&& ~~~(s.vr d))) ∧
    puts (.vshuf et d a b) (ofLanes w (y.map fun k => x.getD k 0)) ∧
    puts (.vbcast et d a) (ofLanes w (List.replicate (etLanes et) ((s.g a).toNat % 2 ^ w))) ∧
    puts (.vins et d a b) (ofLanes w ((s.lanes et d).set (s.g b).toNat ((s.g a).toNat % 2 ^ w))) ∧
    (∃ t, exec (.vext et d a b) s = .next t ∧ WritesG d
      (if (s.g b).toNat < etLanes et then extendTo64 (etType et) (x.getD (s.g b).toNat 0) else 0#64) s t) ∧
    (etInt et = true →
      puts (.vand et d a b) (s.vr a.r &&& s.vr b.r) ∧ puts (.vor et d a b) (s.vr a.r ||| s.vr b.r) ∧
      puts (.vxor et d a b) (s.vr a.r ^^^ s.vr b.r) ∧
      puts (.vshl et d a b) (ofLanes w (x.zipWith (fun p q => (p * 2 ^ (q % w)) % 2 ^ w) y)) ∧
      puts (.vshr et d a b) (ofLanes w (x.zipWith
        (fun p q => wrapInt w (intOf w (et != 7#3) p / ((2 ^ (q % w) : Nat) : Int))) y)) ∧
      puts (.viota et d) (ofLanes w (List.range (etLanes et)))) ∧
    ((etInt et = true → cc.toNat ≤ 5) →
      ∃ t, exec (.vcmp cc et d a b) s = .next t ∧ WritesVF d
        (ofLanes w (x.zipWith (fun p q => if (laneCmp (etType et) cc p q).1 then 2 ^ w - 1 else 0) y))
        ((x.zipWith (fun p q => (laneCmp (etType et) cc p q).2) y).foldl (· ||| ·) 0#6) s t)) ∧
  (∀ (w : Nat), w ∈ [8, 16, 32, 64] →
    (∀ xs : List Nat, xs.length = 512 / w → (∀ x ∈ xs, x < 2 ^ w) → lanesOf w (ofLanes w xs) = xs) ∧
    ∀ v : VWord, ofLanes w (lanesOf w v) = v)

/-- R136, R137: a reduction folds neighbours level by level in the wider type and writes one general register; a scan runs
upwards through the lanes in the element type.

R138–R142: conversion of the lanes that both types have, quantisation to a block with a common scale and back, and the
dot product of groups of lanes into 32-bit lanes.

Concluded to complete, each by its own effect: VRED_ADD, VRED_MIN, VRED_MAX, VRED_AND, VRED_OR, VRED_XOR, VSCAN_ADD, VSCAN_MIN,
VSCAN_MAX, VCVT, VQNT, VDQNT, VDOT. -/
def Obligations.VectorReductionsConversionsComplete : Prop :=
  (∀ (s : State) (et : BitVec 3) (d : Reg) (a : Src),
    let t := etType et
    let x := (s.lanes et a.r).map (widenLane t)
    let red := fun (i : Instr) (op : Nat → Nat → FpRes) =>
      ∃ u, exec i s = .next u ∧ WritesGF d (BitVec.ofNat 64 (treeReduce op (etLanes et).log2 x).bits)
        (treeReduce op (etLanes et).log2 x).flags s u
    let scan := fun (i : Instr) (op : Nat → Nat → FpRes) =>
      ∃ u r rs, exec i s = .next u ∧ r = scanFirst t ((s.lanes et a.r).headD 0) ∧
        rs = r :: scanFrom op r.bits (s.lanes et a.r).tail ∧
        WritesVF d (ofLanes (etWidth et) (rs.map (·.bits))) (rs.foldl (fun f q => f ||| q.flags) 0#6) s u
    red (.vredAdd et d a) (treeOp t fpAdd (· + ·)) ∧ red (.vredMin et d a) (treeOp t fpMin min) ∧
    red (.vredMax et d a) (treeOp t fpMax max) ∧
    (etInt et = true →
      red (.vredAnd et d a) (fun p q => ⟨p &&& q, 0#6⟩) ∧ red (.vredOr et d a) (fun p q => ⟨p ||| q, 0#6⟩) ∧
      red (.vredXor et d a) (fun p q => ⟨p ^^^ q, 0#6⟩)) ∧
    scan (.vscanAdd et d a) (laneBin t false fpAdd (· + ·)) ∧ scan (.vscanMin et d a) (laneBin t false fpMin min) ∧
    scan (.vscanMax et d a) (laneBin t false fpMax max)) ∧
  (∀ (s : State) (et dst : BitVec 3) (fp4 : Bool) (d d2 : Reg) (a b : Src),
    let rm := RMode.ofBits (s.before.regs.fmt.extractLsb' 10 2)
    let sat := s.before.regs.fmt.getLsbD 12
    (∃ t rs, exec (.vcvt dst et d a) s = .next t ∧
      rs = ((s.lanes et a.r).take (min (etLanes et) (etLanes dst))).map (convert (etType et) (etType dst) rm sat) ∧
      WritesVF d (ofLanes (etWidth dst) (rs.map (·.bits))) (rs.foldl (fun f r => f ||| r.flags) 0#6) s t) ∧
    (∀ f, (et, f) ∈ [(0#3, fp32), (1#3, bf16), (2#3, fp16)] →
      (∃ t r, exec (.vqnt et fp4 d a b) s = .next t ∧
        r = mxQuantise fp4 rm ((if et = 0#3 then s.lanes et a.r ++ s.lanes et b.r else s.lanes et a.r).map (Fp.ofBits f)) ∧
        WritesVF d r.1 r.2 s t) ∧
      let out := (List.range 32).map (mxDequant fp4 f (s.vr a.r).toNat)
      (et ≠ 0#3 → ∃ t, exec (.vdqnt et fp4 d a 0#4) s = .next t ∧
        WritesVF d (ofLanes 16 (out.map (·.bits))) (out.foldl (fun f r => f ||| r.flags) 0#6) s t) ∧
      (et = 0#3 → d ≠ d2 → ∃ t, exec (.vdqnt et fp4 d a d2) s = .next t ∧ OnlyRegs s t ∧
        t.self.regs.readV d = ofLanes 32 ((out.take 16).map (·.bits)) ∧
        t.self.regs.readV d2 = ofLanes 32 ((out.drop 16).map (·.bits)) ∧
        (∀ i, i ≠ d → i ≠ d2 → t.self.regs.readV i = s.self.regs.readV i))) ∧
    (5 ≤ et.toNat →
      ∃ t rs, exec (.vdot et d a b) s = .next t ∧
        rs = (lanesOf 32 (s.vr d)).mapIdx (fun j acc => satInt 32 true sat (signed 32 acc +
          dotGroup (etWidth et) (et != 7#3) (32 / etWidth et) (s.lanes et a.r) (s.lanes et b.r) j)) ∧
        WritesVF d (ofLanes 32 (rs.map (·.bits))) (rs.foldl (fun f r => f ||| r.flags) 0#6) s t))

/-! ## Control flow and special registers (05, 02) -/

/-- R77, R96, R98: the branches and jumps. The target of BR, BRL and DBNZ is the branch's own pc plus 8 × the extended
offset; the register jumps go where the register says. BRL and JMPL write pc + 8 to g15, after reading it. DBNZ counts g[D]
down and falls through at 0. Each target here lies below 2^57 and, for the register jumps, on an 8-byte boundary.

Concluded to complete, each by its own effect: BR, BRL, JMP, JMPL, RET, DBNZ. -/
def Obligations.BranchesComplete : Prop :=
  ∀ (s : State) (off : Ext 21) (off17 : Ext 17) (d : Reg) (a : Src),
    let pc := s.before.pc
    let near := branchTarget pc off
    let near17 := branchTarget pc off17
    let fine := fun (t : Word) => t.toNat < 2 ^ 57 ∧ t.toNat % 8 = 0
    (∀ (n : Nat) (short : BitVec n) (lit : BitVec 32),
      branchTarget pc ⟨short, none⟩ = pc + 8#64 * short.signExtend 64 ∧
      branchTarget pc ⟨short, some lit⟩ = pc + 8#64 * (lit ++ short).signExtend 64) ∧
    (near.toNat < 2 ^ 57 → ∃ t, exec (.br off) s = .next t ∧ Jumps near s t) ∧
    (near.toNat < 2 ^ 57 → ∃ t, exec (.brl off) s = .next t ∧ JumpsWith 15#4 (pc + 8#64) near s t) ∧
    (fine (s.g a) → ∃ t, exec (.jmp a) s = .next t ∧ Jumps (s.g a) s t) ∧
    (fine (s.g a) → ∃ t, exec (.jmpl a) s = .next t ∧ JumpsWith 15#4 (pc + 8#64) (s.g a) s t) ∧
    (fine (s.gr 15#4) → ∃ t, exec .ret s = .next t ∧ Jumps (s.gr 15#4) s t) ∧
    (s.gr d = 1#64 → ∃ t, exec (.dbnz d off17) s = .next t ∧ WritesG d 0#64 s t) ∧
    (s.gr d ≠ 1#64 → near17.toNat < 2 ^ 57 →
      ∃ t, exec (.dbnz d off17) s = .next t ∧ JumpsWith d (s.gr d - 1#64) near17 s t)

/-- R99, R145: END of a plain strand with nothing outstanding frees its slot and leaves every other strand; YIELD changes
nothing, but that a shadow handler's leaves the turn to each READY strand of its core; PAUSE waits until its core cycles, at most 2^24, have passed on the wafer clock, and a PAUSE of 0 only yields;
PAUSE_EXPIRY wakes a strand whose time has come, unless its tenant is frozen (R429).

Concluded to complete, each by its own effect: YIELD, END, PAUSE, PAUSE_EXPIRY. -/
def Obligations.EndYieldPauseComplete : Prop :=
  ∀ (s : State) (a : Src),
    (s.before.inShadow = false → exec .yieldTurn s = .next s) ∧
    (s.before.inShadow = true → ∃ t, exec .yieldTurn s = .next t ∧ t = { s with cores := t.cores } ∧
      (∀ c, c ≠ s.selfCore → t.core c = s.core c) ∧ t.core s.selfCore = { s.core s.selfCore with yieldTo := (t.core s.selfCore).yieldTo } ∧
      ∀ i, i ∈ (t.core s.selfCore).yieldTo ↔ i < 8 ∧ (s.strand (strandOf s.selfCore i)).st = .ready) ∧
    (PlainStrand s → s.drained s.cur.strand = true →
      ∃ t, exec .endStrand s = .next t ∧ (t.strand s.cur.strand).st = .dormant ∧
        (∀ k, k ≠ s.cur.strand → t.strand k = s.strand k) ∧ t = { s with strands := t.strands, accesses := t.accesses } ∧
        ∀ x, x ∈ t.accesses ↔ x ∈ s.accesses ∧ x.strand ≠ s.cur.strand) ∧
    (PlainStrand s → s.g a = 0#64 → exec (.pause a) s = .next s) ∧
    (PlainStrand s → s.g a ≠ 0#64 →
      ∃ t ns, exec (.pause a) s = .next t ∧ OnlySelf s t ∧ t.self = { s.self with st := .waiting (.pause (s.time + ns)) } ∧
        (let rate := Config.cyclesPer10ns (Config.zonePoint s.selfZone)
         let n := min (s.g a).toNat (2 ^ 24)
         10 * n ≤ rate * ns ∧ rate * ns < 10 * n + rate)) ∧
    (∀ until_, (s.strand s.input.strand).st = .waiting (.pause until_) → until_ ≤ s.time →
      s.frozen (s.tenantOf s.input.strand) = false →
      ∃ t, exec .pauseExpiry s = .next t ∧ t = { s with strands := t.strands } ∧
        t.strand s.input.strand = { s.strand s.input.strand with st := .ready } ∧
        ∀ k, k ≠ s.input.strand → t.strand k = s.strand k)

/-- R40–R49, R107, R401: MFS completes for every number: a number below 0x100 in either mode, one of 0x100 or more in atelier
mode. But for those marked remote it writes g[D] at once, with the register's value, or with 0 for a number that no table lists.
(What CYC counts while clock-gated, that RMQCNT stops at 65,535, and what unlisted numbers and a tile's registers read on an atelier
core, are the model's choices: logs 79, 89 and 71.)

R41, R45, R46, R107, R401, R402: MFS of the registers that a launch sets, and in atelier mode of the fixed atelier
registers; a register marked remote leaves as an access that fills g[D] later.

Concluded to complete, each by its own effect: MFS. -/
def Obligations.MfsReadsSpecialRegistersEach : Prop :=
  (∀ (s : State) (d : Reg) (num : BitVec 10),
    let reads := fun (x : Word) => ∃ t, exec (.mfs d num) s = .next t ∧ WritesG d x s t
    let core := s.core s.selfCore
    (num ∉ [0x070#10, 0x080#10, 0x081#10, 0x082#10, 0x084#10, 0x108#10] → num.toNat < 0x100 ∨ s.inAtelier = true → ∃ x, reads x) ∧
    (∀ x, (num, x) ∈
      [(0x001#10, s.before.regs.fmt.setWidth 64), (0x002#10, s.before.regs.stat.setWidth 64),
       (0x003#10, (s.before.regs.vf ++ (s.before.regs.gf ||| 1#16)).setWidth 64), (0x011#10, s.before.index.setWidth 64),
       (0x020#10, BitVec.ofNat 64 s.time), (0x021#10, BitVec.ofNat 64 ((s.time - core.cycBase) *
          Config.cyclesPer10ns (Config.zonePoint s.selfZone) / 10)),
       (0x030#10, s.before.ovfp), (0x031#10, 0x01FE000000000000#64), (0x060#10, s.before.tcause.setWidth 64),
       (0x061#10, s.before.taddr), (0x062#10, s.before.tinfo), (0x071#10, s.before.msgid.setWidth 64),
       (0x072#10, BitVec.ofNat 64 (min core.returned.length 65535))] → reads x) ∧
    (∀ i, i < 16 → num.toNat = 0x40 + i → reads ((core.cdone.getD i 0#32).setWidth 64)) ∧
    (∀ i, i < 16 → num.toNat = 0x50 + i → reads ((core.cnext.getD i 0#32).setWidth 64)) ∧
    (num.toNat < 0x100 → num.toNat ∉ [0x01, 0x02, 0x03, 0x10, 0x11, 0x12, 0x13, 0x14, 0x20, 0x21, 0x30, 0x31, 0x60, 0x61, 0x62, 0x70,
        0x71, 0x72, 0x80, 0x81, 0x82, 0x83, 0x84] → ¬(0x18 ≤ num.toNat ∧ num.toNat < 0x1C) →
      ¬(0x40 ≤ num.toNat ∧ num.toNat < 0x60) → reads 0#64) ∧
    (s.inAtelier = true → 0x100 ≤ num.toNat → num.toNat ∉ [0x100, 0x101, 0x102, 0x103, 0x104, 0x108] →
      ¬(0x140 ≤ num.toNat ∧ num.toNat < 0x14C) → reads 0#64)) ∧
  (∀ (s : State) (d : Reg),
    (∀ l, s.selfLaunch = some l →
      (∃ t, exec (.mfs d 0x010#10) s = .next t ∧ WritesG d (BitVec.ofNat 64 (s.cidWord l s.selfCore)) s t) ∧
      (∃ t, exec (.mfs d 0x012#10) s = .next t ∧ WritesG d (BitVec.ofNat 64 l.ncore) s t) ∧
      (∃ t, exec (.mfs d 0x013#10) s = .next t ∧ WritesG d (recArg l.record) s t) ∧
      (∃ t, exec (.mfs d 0x014#10) s = .next t ∧ WritesG d (l.count.setWidth 64) s t) ∧
      (∀ i, i < 4 → ∃ t, exec (.mfs d (BitVec.ofNat 10 (0x018 + i))) s = .next t ∧
        WritesG d (BitVec.ofNat 64 (s.gslotWord l s.selfCore i)) s t) ∧
      (∃ t, exec (.mfs d 0x083#10) s = .next t ∧ WritesG d (BitVec.ofNat 64 (recEclass l.record)) s t)) ∧
    (s.inAtelier = true →
      (∃ t, exec (.mfs d 0x100#10) s = .next t ∧
        WritesG d (BitVec.ofNat 64 (s.selfZone * 2 ^ 16 + (if s.isPrimary s.selfCore then 0 else 2 ^ 8))) s t) ∧
      (∃ t, exec (.mfs d 0x101#10) s = .next t ∧
        WritesG d (BitVec.ofNat 64 ((s.ownMailbox s.selfCore).filter fun r => !r.read).length) s t) ∧
      (∃ t, exec (.mfs d 0x102#10) s = .next t ∧ WritesG d (s.core s.selfCore).atvec s t) ∧
      (∃ t, exec (.mfs d 0x103#10) s = .next t ∧ WritesG d (s.core s.selfCore).atepc s t) ∧
      (∃ t, exec (.mfs d 0x104#10) s = .next t ∧ WritesG d (if (s.core s.selfCore).intrap then 1#64 else 0#64) s t) ∧
      (∀ r, r < 12 → ∃ t, exec (.mfs d (BitVec.ofNat 10 (0x140 + r))) s = .next t ∧
        WritesG d ((s.zdef s.selfZone r).setWidth 64) s t)) ∧
    (∀ n, n ∈ [0x070#10, 0x080#10, 0x081#10, 0x082#10, 0x084#10] ∨ n = 0x108#10 ∧ s.inAtelier = true →
      ∃ t, exec (.mfs d n) s = .next t ∧
        t.accesses = s.accesses ++ [{ strand := s.cur.strand, kind := .special, dest := if d = 0#4 then .none else .g d, pa := 0, n := 0, data := n.toNat }] ∧
        t = { s with strands := t.strands, accesses := t.accesses } ∧ OnlySelf { s with accesses := t.accesses } t ∧
        t.self = { s.self with regs := { s.self.regs with gf := t.self.regs.gf } } ∧
        ∀ i, i < 16 → t.self.regs.gf.getLsbD i = (s.self.regs.gf.getLsbD i && !(d != 0#4 && i == d.toNat))))

/-- R9, R40, R42, R43, R47, R108, R402: MTS writes FMT, STAT and OVFP whole, and ATVEC in atelier mode; a write to a field
marked ro is ignored.

R37, R48, R109, R393, R403: TRAP completes by its own effect, the entry of BREAK: the strand keeps its registers and the pair's
pc and is PARKED, TCAUSE being 0x3F with the slot's bit, TADDR 0 and TINFO the code. On an
atelier core with INTRAP 0, ATEPC takes the pc, INTRAP becomes 1 and the strand goes on at ATVEC.

Concluded to complete, each by its own effect: MTS, TRAP. -/
def Obligations.MtsAndTrapComplete : Prop :=
  (∀ (s : State) (d : Reg),
    let v := s.gr d
    (v.toNat < 2 ^ 14 → ∃ t, exec (.mts d 0x001#10) s = .next t ∧ OnlyRegs s t ∧
      t.self.regs = { s.self.regs with fmt := v.setWidth 14 }) ∧
    (v.toNat < 2 ^ 6 → ∃ t, exec (.mts d 0x002#10) s = .next t ∧ OnlyRegs s t ∧
      t.self.regs = { s.self.regs with stat := v.setWidth 6 }) ∧
    (v.toNat % 64 = 0 → ∃ t, exec (.mts d 0x030#10) s = .next t ∧ OnlySelf s t ∧ t.self = { s.self with ovfp := v }) ∧
    (s.inAtelier = true → v.toNat < 2 ^ 52 → v.toNat % 8 = 0 →
      ∃ t, exec (.mts d 0x102#10) s = .next t ∧ t = { s with cores := t.cores } ∧
        t.core s.selfCore = { s.core s.selfCore with atvec := v } ∧ ∀ c, c ≠ s.selfCore → t.core c = s.core c) ∧
    (∀ n, n ∈ [0x013#10, 0x020#10, 0x021#10, 0x031#10, 0x061#10, 0x062#10] → exec (.mts d n) s = .next s)) ∧
  (∀ (s : State) (code : BitVec 8),
    let entered := fun (t : State) =>
      exec (.trap code) s = .next t ∧ t.self.regs = s.before.regs ∧ t.self.taddr = 0#64 ∧ t.self.tinfo = code.setWidth 64 ∧
      t.self.tcause = BitVec.ofNat 10 ((if s.cur.slotA then 256 else 0) + 0x3F) ∧ t.mem = s.mem ∧
      ∀ k, k ≠ s.cur.strand → t.strand k = s.strand k
    (PlainStrand s → ∃ t, entered t ∧ t.self.st = .parked ∧ t.self.pc = s.before.pc) ∧
    (s.inAtelier = true → (s.core s.selfCore).intrap = false →
      ∃ t, entered t ∧ t.self.pc = (s.core s.selfCore).atvec ∧
        t.core s.selfCore = { s.core s.selfCore with atepc := s.before.pc, intrap := true }))

/-! ## Memory (10, 11, 12) -/

/-- R4, R433, R465: the bytes of memory. A write of `n` bytes within one frame reads back little-endian, and every byte
outside them reads as before; the first touch of a zero-pending frame changes what no byte reads as; a write of one whole
granule leaves it unpoisoned, a narrower one leaves poison as it is, and no write poisons anything. -/
def Obligations.PhysicalWritesReadBack : Prop :=
  ∀ (s : State) (pa n x q : Nat), 0 < n → pa / 4096 = (pa + n - 1) / 4096 →
    (s.writePa pa n x).readPa pa n = x % 256 ^ n ∧
    (q < pa ∨ pa + n ≤ q → (s.writePa pa n x).readPa q 1 = s.readPa q 1) ∧
    (s.touch pa).readPa q 1 = s.readPa q 1 ∧
    ((s.writePa pa n x).poisoned q = true → s.poisoned q = true) ∧
    (pa % 64 = 0 → n = 64 → (s.writePa pa n x).poisoned pa = false) ∧
    (pa / 64 = (pa + n - 1) / 64 → n < 64 → (s.writePa pa n x).poisoned pa = s.poisoned pa)

/-- R30, R77, R103, R104, R105, R127: where the checks of an access outside any task pass, a load issues: its destination
becomes empty and the access joins the outstanding ones, with the address base + offset or base + scaled index, and its line is
charged (R312); a store issues with the low bytes of its register, and is charged as it becomes visible.

R13, R30: issuing an access empties its destination register and adds the access; every other register, every other
strand, memory and all else stay.

Concluded to complete, each by its own effect: LD, LDX, LDV, LDVB, ST, STX, STV. -/
def Obligations.LoadsAndStoresIssueTheirAccess : Prop :=
  (∀ (s s' : State) (d : Reg) (base idx : Src) (sz esz : BitVec 2) (sg sc : Bool) (off : Ext 9) (off8 : Ext 8)
    (pa : Nat) (cached : Option (Nat × Nat)), s.before.task = none →
    let n := 2 ^ sz.toNat
    let near := s.g base + offsetOf off n
    let at8 := s.g base + offsetOf off8 64
    let atx := s.g base + (if sc then s.g idx <<< sz.toNat else s.g idx)
    let load := fun (kind : AccessKind) (dest : Dest) (va : Word) (n : Nat) =>
      ((s'.touch pa).account va pa cached .read).issueAccess
        { strand := s'.cur.strand, kind := kind, dest := dest, pa := pa, n := n, data := 0, line := cached, window := s'.windowed va }
    let store := fun (va : Word) (n x : Nat) =>
      (s'.touch pa).issueAccess
        { strand := s'.cur.strand, kind := .store, dest := .none, pa := pa, n := n, data := x % 2 ^ (8 * n), line := cached
          tenant := s'.payer, l1 := s'.viaAt va, window := s'.windowed va }
    let bc := s.g base + offsetOf off8 (2 ^ esz.toNat)
    let gd := if d = 0#4 then Dest.none else Dest.g d
    (s.check .load near n = .ok pa cached s' → exec (.ld d base sz sg off) s = .next (load (.load sg) gd near n)) ∧
    (s.check .load atx n = .ok pa cached s' →
      exec (.ldx d base idx sz sg sc) s = .next (load (.load sg) gd atx n)) ∧
    (s.check .load at8 64 = .ok pa cached s' → exec (.ldv d base off8) s = .next (load (.load false) (.v d) at8 64)) ∧
    (s.check .load bc (2 ^ esz.toNat) = .ok pa cached s' →
      exec (.ldvb d base esz off8) s = .next (load .bcast (.v d) bc (2 ^ esz.toNat))) ∧
    (s.check .store near n = .ok pa cached s' →
      exec (.st d base sz off) s = .next (store near n (s.gr d).toNat)) ∧
    (s.check .store atx n = .ok pa cached s' →
      exec (.stx d base idx sz sc) s = .next (store atx n (s.gr d).toNat)) ∧
    (s.check .store at8 64 = .ok pa cached s' →
      exec (.stv d base off8) s = .next (store at8 64 (s.vr d).toNat))) ∧
  (∀ (s : State) (a : Access),
    let t := s.issueAccess a
    t = { s with strands := t.strands, accesses := s.accesses ++ [a] } ∧
    (∀ k, k ≠ s.cur.strand → t.strand k = s.strand k) ∧
    t.self = { s.self with regs := { s.self.regs with gf := t.self.regs.gf, vf := t.self.regs.vf } } ∧
    (∀ i : Reg, t.self.regs.fullG i = (s.self.regs.fullG i && !(i != 0#4 && a.dest == .g i))) ∧
    (∀ i : Reg, t.self.regs.fullV i = (s.self.regs.fullV i && !(a.dest == .v i))))

/-- R4, R30, R103, R127, R276: ACCESS_COMPLETION of an outstanding access that nothing older holds back and that waits for no MAPSET. A load's register
receives the bytes of memory, little-endian, zero- or sign-extended or copied to every lane, and becomes full; an access that
carries its value delivers that; a store's bytes come to stand in memory, where nothing else changes but that its page's leaf
becomes dirty (R259). No other access goes, but those of speculative tasks that it rolls back (R182).

R36, R218, R260, R449: an answer sets its waiting strand going with the value that came; a deferred walk's fault, or a fault
of another module, parks it at its pair with nothing of the pair done.

Concluded to complete, each by its own effect: ACCESS_COMPLETION, ANSWER_ARRIVAL. -/
def Obligations.AccessesAndAnswersComplete : Prop :=
  (∀ (s : State) (a : Access) (i : Nat), s.input.index = i → s.accesses[i]? = some a →
    (s.accesses.take i).any (fun b => b.orders a) = false → s.accessWaits a = false → paIsSystem a.pa = false →
    let u := match a.line, a.tenant with
      | some c, some _ => s.markDirty none c.2
      | _, _ => s
    ∃ t, exec .accessCompletion s = .next t ∧ (∀ x, x ∈ t.accesses → x ∈ s.accesses.eraseIdx i) ∧
      ((∀ z x, x ∈ (s.zone z).tasks → x.irrevocable = true) → t.accesses = s.accesses.eraseIdx i) ∧
      (∀ sg d, a.kind = .load sg → a.dest = .g d → d ≠ 0#4 →
        (t.strand a.strand).regs.fullG d = true ∧
        (t.strand a.strand).regs.readG d =
          BitVec.ofNat 64 (if sg then (BitVec.ofInt 64 (signed (8 * a.n) (s.readPa a.pa a.n))).toNat else s.readPa a.pa a.n)) ∧
      (∀ sg d, a.kind = .load sg → a.dest = .v d → sg = false →
        (t.strand a.strand).regs.fullV d = true ∧ (t.strand a.strand).regs.readV d = BitVec.ofNat 512 (s.readPa a.pa a.n)) ∧
      (∀ d, a.kind = .bcast → a.dest = .v d →
        (t.strand a.strand).regs.fullV d = true ∧
        (t.strand a.strand).regs.readV d = BitVec.ofNat 512 (broadcastBytes a.n (s.readPa a.pa a.n))) ∧
      (∀ d, a.kind = .value → a.dest = .g d → d ≠ 0#4 →
        (t.strand a.strand).regs.fullG d = true ∧ (t.strand a.strand).regs.readG d = BitVec.ofNat 64 a.data) ∧
      (a.kind = .store → 0 < a.n → a.pa / 4096 = (a.pa + a.n - 1) / 4096 →
        t.readPa a.pa a.n = a.data % 256 ^ a.n ∧ ∀ q, q < a.pa ∨ a.pa + a.n ≤ q → t.readPa q 1 = u.readPa q 1) ∧
      (a.kind ≠ .store → ∀ q, t.readPa q 1 = s.readPa q 1)) ∧
  (∀ s : State,
    let i := s.input
    let k := i.strand
    let x := s.strand k
    (x.st = .waiting .answer → s.silentStrand k = false →
      exec .answerArrival s = .next (s.setStrand k { x with st := .ready, grant := some { value := 0#512 } })) ∧
    (∀ acc va, x.st = .waiting (.remote acc va) → s.silentStrand k = false → i.flag = false →
      exec .answerArrival s = .next (s.setStrand k { x with st := .ready, grant := some { value := i.wide } })) ∧
    (∀ acc va, x.st = .waiting (.remote acc va) → s.silentStrand k = false → i.flag = true → coreIsAtelier (strandCore k) = false → x.inHandler = false →
      x.inTask = false → x.inShadow = false → x.task = none →
      ∃ t : State, exec .answerArrival s = .next t ∧ (t.strand k).st = .parked ∧ (t.strand k).pc = x.pc ∧
        (t.strand k).regs = x.regs ∧ (t.strand k).tcause = BitVec.ofNat 10 (i.off % 64) ∧ (t.strand k).taddr = va ∧
        (t.strand k).tinfo = BitVec.ofNat 64 (i.level * 2 ^ 56 + acc * 2 ^ 48)))

/-- R105, R128, R247, R255, R296, R461: the checks of an access in their order: alignment first, then the address itself, then
for system space an atomic, its width and its rights, and last, for a read, poison that no store of the strand's own replaces;
a fault in the overflow area names the ordinary address. A translation fault is not taken at once: the strand
waits for the walk's answer, and parks at TRANSLATION_FAULT_RETURN.

Concluded to complete, each by its own effect: TRANSLATION_FAULT_RETURN. -/
def Obligations.AccessChecksInOrder : Prop :=
  ∀ (s : State) (w : Who) (acc : Acc) (va : Word) (n : Nat),
    (va.toNat % n ≠ 0 → s.checkAs w acc va n = .trap { cause := 0x05#6, addr := va }) ∧
    (va.toNat % n = 0 → ∀ t, s.resolve w acc va = .error t →
      s.checkAs w acc va n = if t.cause == 0x09#6 || t.cause == 0x0A#6 then .defer t else .trap t) ∧
    (va.toNat % n = 0 → ∀ pa cached s', s.resolve w acc va = .ok (.phys pa cached, s') →
      (paIsSystem pa = true → acc = .amo →
        s.checkAs w acc va n = .trap { cause := 0x08#6, addr := s'.reported w va, info := BitVec.ofNat 64 (2 * 2 ^ 56 + 3 * 2 ^ 48) }) ∧
      (paIsSystem pa = true → acc ≠ .amo → 8 < n →
        s.checkAs w acc va n =
          .trap { cause := 0x08#6, addr := s'.reported w va, info := BitVec.ofNat 64 (9 * 2 ^ 56 + acc.code * 2 ^ 48) }) ∧
      (paIsSystem pa = true → acc ≠ .amo → n ≤ 8 → coreIsAtelier w.core = false → pa % 2 ^ 48 < 0x14000000 →
        s.checkAs w acc va n = .trap { cause := 0x08#6, addr := s'.reported w va, info := BitVec.ofNat 64 (acc.code * 2 ^ 48) }) ∧
      (paIsSystem pa = false → paIsHost pa = false → acc = .load ∨ acc = .amo → s'.poisonedIn pa n = true →
        s'.ownWhole w.strand pa = false →
        s.checkAs w acc va n =
          .trap { cause := 0x0B#6, addr := s'.reported w va, info := BitVec.ofNat 64 (acc.code * 2 ^ 48), granule := pa / 64 * 64 })) ∧
    (∀ k slotA t, s.input.strand = k → s.silentStrand k = false → (s.strand k).st = .waiting (.translation slotA t) →
      exec .translationFaultReturn s =
        .next (State.takeTrap { s with cur := { strand := k, before := { s.strand k with st := .ready } } } slotA t))

/-- R279, R287, R295, R296: the atomics let the core's earlier accesses complete, then pass the checks of
an access; that those of the whole core complete, and in this step, is the model's choice (log 6), and so is which of an AMO's
runs count as near and far (log 14). An atomic reads the old value into g[D], which fills later, and writes what its table says; a CAS that does not
find g[D] writes nothing, makes no page dirty and names no last dirtier (R312). A write rolls back the tasks that it conflicts
with (R182). Signed and unsigned values are of the operation's own width.

Concluded to complete, each by its own effect: AMO_ADD, AMO_AND, AMO_OR, AMO_XOR, AMO_MIN, AMO_MAX, AMO_MINU, AMO_MAXU,
AMO_SWAP, AMO_CAS. -/
def Obligations.AtomicsComplete : Prop :=
  ∀ (s s' : State) (d : Reg) (a b : Src) (w : Bool) (m : BitVec 2) (pa : Nat) (cached : Option (Nat × Nat)),
    s.before.task = none →
    let n := if w then 8 else 4
    let old := s'.readPa pa n
    let x := (s.g b).toNat % 2 ^ (8 * n)
    let cmp := (s.gr d).toNat % 2 ^ (8 * n)
    let less := signed (8 * n) old ≤ signed (8 * n) x
    let result := fun (new : Option Nat) =>
      let c := s'.countAmo (s.g a) pa
      ({ (match new with
        | some y => (c.touch pa).storeVisible c.payer c.selfTag cached (s'.amoVia (s.g a)) pa n y
        | none => ((c.touch pa).accountVia (s'.amoVia (s.g a)) pa cached .own).touchLine c.selfTag (pa / 64)) with free := s'.free + 1 } : State).issueAccess
        { strand := s.cur.strand, kind := .value, dest := if d = 0#4 then .none else .g d, pa := 0, n := 0, data := old }
    (s.drainCore s.selfCore).cur.stopped = false → (s.drainCore s.selfCore).check .amo (s.g a) n = .ok pa cached s' →
    exec (.amoAdd d a b w m) s = .next (result (some ((old + x) % 2 ^ (8 * n)))) ∧
    exec (.amoAnd d a b w m) s = .next (result (some (old &&& x))) ∧
    exec (.amoOr d a b w m) s = .next (result (some (old ||| x))) ∧
    exec (.amoXor d a b w m) s = .next (result (some (old ^^^ x))) ∧
    (less → exec (.amoMin d a b w m) s = .next (result (some old)) ∧ exec (.amoMax d a b w m) s = .next (result (some x))) ∧
    (¬less → exec (.amoMin d a b w m) s = .next (result (some x)) ∧ exec (.amoMax d a b w m) s = .next (result (some old))) ∧
    exec (.amoMinu d a b w m) s = .next (result (some (min old x))) ∧
    exec (.amoMaxu d a b w m) s = .next (result (some (max old x))) ∧
    exec (.amoSwap d a b w m) s = .next (result (some x)) ∧
    (old = cmp → exec (.amoCas d a b w m) s = .next (result (some x))) ∧
    (old ≠ cmp → exec (.amoCas d a b w m) s = .next (result none))

/-- R279, R293: LDA reads its value at once, after the core's earlier accesses and before every later one; STL is a store
that the core's earlier accesses complete before. That LDA too lets the earlier ones complete is the model's choice (log 6).

R298, R299, R300, R312, R465: FENCE lets every earlier access of its core complete, in order, and no other; PREF never traps, and
where a check fails only the first touch of the frame that it read remains;
FLUSH and INV of a line that the strand may read write a dirty copy back, FLUSH with scope core from its own L1 to the home, and INV
drops the line, or with scope core its own L1s' copies; no byte of memory changes by PREF, FLUSH or INV. That a FENCE of any scope and kind drains the core is the model's choice (log
6), and so is what a cache operation does to the one copy that the model keeps of a line (log 25) and that it waits for a quarantined
home's MAPSET (R438).

R249, R253, R312, R313: a tenant's miss is a fill charged to it; an access that its core's L1 does not serve is a hit, counted
when the line was another's fill; a reading L1 beyond four sharers invokes the directory handler; a store makes its tenant the
last dirtier and leaves its L1 the only sharer; what an L1 takes in costs it at most one other line, of the same set, VA[12:6], which
one being a free value (log 25); the eviction of a dirty line is counted for its last dirtier.

Concluded to complete, each by its own effect: LDA, STL, FENCE, PREF, FLUSH, INV. -/
def Obligations.OrderedAccessesFencesCacheComplete : Prop :=
  (∀ (s s' : State) (d : Reg) (base : Src) (sz : BitVec 2) (scope : BitVec 3) (off : Ext 6) (pa : Nat)
    (cached : Option (Nat × Nat)), s.before.task = none →
    let n := 2 ^ sz.toNat
    let va := s.g base + offsetOf off n
    let read := ((s'.touch pa).account va pa cached .read).touchLine s'.selfTag (pa / 64)
    (s.drainCore s.selfCore).cur.stopped = false →
    ((s.drainCore s.selfCore).check .load va n = .ok pa cached s' →
      exec (.lda d base sz scope off) s =
        .next (read.issueAccess
          { strand := s.cur.strand, kind := .value, dest := if d = 0#4 then .none else .g d, pa := 0, n := 0
            data := if paIsSystem pa then read.sysRead pa n else read.readPa pa n })) ∧
    ((s.drainCore s.selfCore).check .store va n = .ok pa cached s' →
      exec (.stl d base sz scope off) s =
        .next ((s'.touch pa).issueAccess
          { strand := s'.cur.strand, kind := .store, dest := .none, pa := pa, n := n, data := (s.gr d).toNat % 2 ^ (8 * n), line := cached
            tenant := s'.payer, l1 := s'.viaAt va, window := s'.windowed va }))) ∧
  (∀ (s : State) (a : Src) (scope : BitVec 3) (m : BitVec 2),
    let va := s.g a
    let line := va.toNat / 64
    let sameBytes := fun (t u : State) => ∀ q, t.readPa q 1 = u.readPa q 1
    (exec (.fence scope m) s = .next (s.drainCore s.selfCore)) ∧
    (∀ x, x ∈ (s.drainCore s.selfCore).accesses → x ∈ s.accesses ∧ strandCore x.strand ≠ s.selfCore) ∧
    ((∀ z x, x ∈ (s.zone z).tasks → x.irrevocable = true) → ∀ x, x ∈ s.accesses → strandCore x.strand ≠ s.selfCore →
      x ∈ (s.drainCore s.selfCore).accesses) ∧
    (∀ pa c s', outsideCaches va = false → s.check .load va 1 = .ok pa (some c) s' →
      ∃ t, exec (.pref a scope m) s = .next t ∧ sameBytes t s' ∧
        t = (s'.touch pa).chargeFor s'.payer c (pa / 64) (if scope = 0#3 then s'.viaAt va else none)
          (if scope = 0#3 ∧ m = 1#2 then .own else .read)) ∧
    (∀ t, outsideCaches va = false → s.check .load va 1 = .trap t ∨ s.check .load va 1 = .defer t → exec (.pref a scope m) s = .next (s.faultMet t)) ∧
    (∀ r s', s.inAtelier = false → va.toNat < 2 ^ 57 → outsideCaches va = false → s.protect s.who .load va = .ok (r, s') →
      ((s'.l2.find? line).bind fun x => s'.homeHeld x.home) = none →
      (scope = 0#3 → (∃ t, exec (.flush a scope) s = .next t ∧ t = { s' with l2 := t.l2 } ∧
          ∀ j, t.l2.find? j = (s'.l2.find? j).map fun x =>
            if j = line ∧ 2 * s'.selfCore ∈ x.sharers then { x with atHome := true } else x) ∧
        ∃ t, exec (.inv a scope) s = .next t ∧ t = { s' with l2 := t.l2 } ∧
        ∀ j, t.l2.find? j = (s'.l2.find? j).map fun x =>
          if j = line then { x with sharers := x.sharers.filter fun c => c / 2 ≠ s'.selfCore } else x) ∧
      (scope ≠ 0#3 →
        (∃ t, exec (.flush a scope) s = .next t ∧ sameBytes t s' ∧ (∀ j, j ≠ line → t.l2.find? j = s'.l2.find? j) ∧
          ∀ x d, s'.l2.find? line = some x → x.dirtier = some d →
            t.l2.find? line = some { x with dirtier := none, below := false, atHome := true } ∧
            (t.tenant d).l2wbf = (s'.tenant d).l2wbf + 1#64 ∧ ∀ k, k ≠ d → t.tenant k = s'.tenant k) ∧
        ∃ t, exec (.inv a scope) s = .next t ∧ t = s'.dropLines line (line + 1) ∧ sameBytes t s' ∧
          ∀ j, t.l2.find? j = if j = line then none else s'.l2.find? j)) ∧
    (s.inAtelier = true → va.toNat < 2 ^ 52 → s.heldLine (s.linesOf line) = none →
      (s.linesOf line = [] → exec (.flush a scope) s = .next s ∧ exec (.inv a scope) s = .next s) ∧
      (∀ k, s.linesOf line = [k] → scope ≠ 0#3 →
        exec (.flush a scope) s = .next (s.forceWriteBack k) ∧ exec (.inv a scope) s = .next (s.dropLines k (k + 1)))) ∧
    (s.inAtelier = false → va.toNat < 2 ^ 57 → outsideCaches va = true →
      exec (.flush a scope) s = .next s ∧ exec (.inv a scope) s = .next s)) ∧
  ((∀ (s : State) (tenant home line frame c : Nat) (how : LineUse),
    let t := s.charge tenant (home, line) frame (some c) how
    let x0 := s.tenant tenant
    let x1 := t.tenant tenant
    t = { s with tenants := t.tenants, l2 := t.l2, free := t.free } ∧ (∀ k, k ≠ tenant → t.tenant k = s.tenant k) ∧
    (∃ v, ∀ j, j ≠ line → t.l2.find? j = s.l2.find? j ∨
      j = v ∧ ∃ x, s.l2.find? j = some x ∧ j % 128 = line % 128 ∧
        t.l2.find? j = some { x with sharers := x.sharers.filter (· != c) }) ∧
    (s.l2.find? line = none → x1.l2fill = x0.l2fill + 1#64 ∧ x1.l2xhit = x0.l2xhit ∧ x1.dirovf = x0.dirovf ∧
      t.l2.find? line = some { frame := frame, home := home, filler := tenant, dirtier := if how = .store then some tenant else none,
                                 sharers := [c], atHome := how != .store }) ∧
    ∀ x, s.l2.find? line = some x → x1.l2fill = x0.l2fill ∧
      (x.filler ≠ tenant → c ∉ x.sharers → x1.l2xhit = x0.l2xhit + 1#64) ∧
      (x.filler = tenant ∨ how = .read ∧ c ∈ x.sharers ∨ x.sharers = [c] → x1.l2xhit = x0.l2xhit) ∧
      (x1.dirovf = if how = .read ∧ c ∉ x.sharers ∧ 4 ≤ x.sharers.length then x0.dirovf + 1#64 else x0.dirovf) ∧
      ∃ y, t.l2.find? line = some y ∧ y.frame = x.frame ∧ y.home = x.home ∧ y.filler = x.filler ∧ y.dirtier = (if how = .store then some tenant else x.dirtier) ∧
        (how = .read → ∀ k, k ∈ y.sharers ↔ k = c ∨ k ∈ x.sharers) ∧ (how ≠ .read → y.sharers = [c])) ∧
  (∀ (s : State) (line d : Nat) (rest : List Turn) (x : L2Line),
    s.agenda = .evict line :: rest → s.l2.find? line = some x → x.dirtier = some d → s.homeHeld x.home = none →
      ∃ t, step s = .next t ∧ t = { s with agenda := rest, tenants := t.tenants, l2 := s.l2.erase line } ∧
        (t.tenant d).l2wb = (s.tenant d).l2wb + 1#64 ∧ (∀ k, k ≠ d → t.tenant k = s.tenant k)) ∧
  (∀ (s : State) (line c : Nat) (rest : List Turn) (x : L2Line),
    s.agenda = .dropCopy line c :: rest → s.l2.find? line = some x → s.homeHeld x.home = none →
      step s = .next { s with agenda := rest, l2 := s.l2.set line { x with sharers := x.sharers.filter fun k => k ≠ c } }))

/-! ## KV and page instructions (10, 12) -/

/-- R301, R302, R303, R307: KVPROBE answers its walk's word, whose HIT bit says that the KVTB of the core's probe tile holds the
block, or the block's frame; it installs nothing, and with KVROOT.V = 0 it answers RES 1 at LVL 0. KVINV answers 0, and each A tile
of the partition loses the entries of the blocks that it names and no other; with KVROOT.V = 0 it drops none. KVFILL, in a shadow
handler alone, answers 2 for another sequence, layer or head, 1 for a bad entry, and otherwise 0, with the entry in its tile's
KVTB; with KVROOT.V = 0 it answers 0 and installs nothing. Which entry of a full KVTB goes (log 22), HIT without an A tile (log 109)
or of a walk that stops before the descriptor (log 127), and that a malformed descriptor gives KVINV no block size (log 110) are the
model's readings.

Concluded to complete, each by its own effect: KVPROBE, KVINV, KVFILL. -/
def Obligations.KvInstructionsComplete : Prop :=
  ∀ (s : State) (d : Reg) (a b : Src) (m : BitVec 32),
    (∀ gr, s.before.grant = some gr → PlainStrand s →
      let u := s.useGrant
      let c := s.g a
      let walk := u.kvWalk u.who c fun _ => false
      let probes := fun (x : Nat) => exec (.kvprobe d a m) s = .next (walk.2.setG d (BitVec.ofNat 64 x))
      (walk.1.wait = false → m.getLsbD 0 = true →
        probes (if walk.1.res = 0 ∨ walk.1.res = 4 then (entryFrame (walk.1.entry.getD 0)).toNat else 0)) ∧
      (walk.1.wait = false → m.getLsbD 0 = false →
        (∀ x tl, walk.1.desc = some x → walk.2.probeTile walk.2.selfCore = some tl →
          probes (probeWord walk.1 ((walk.2.tile tl).kvFind walk.2.selfPart c (coordPos c / descB x)).isSome)) ∧
        (walk.1.desc = none ∨ walk.2.probeTile walk.2.selfCore = none → probes (probeWord walk.1 false))) ∧
      (bitAt (s.part s.selfPart).kvroot.toNat 0 = false →
        exec (.kvprobe d a m) s = .next (u.setG d (if m.getLsbD 0 then 0#64 else 0x1000000000000000#64)))) ∧
    (∀ gr v, s.before.grant = some gr → PlainStrand s → v = (s.drainCore s.selfCore).useGrant →
      let p := v.selfPart
      let c := v.g a
      let n := (v.g b).toNat
      let tiles := v.attentionTiles p
      let r := v.kvDesc v.who c fun k _ s => (k, s)
      let drops := fun (u : State) (named : KvEntry → Prop) =>
        ∃ t : State, exec (.kvinv d a b) s = .next (t.setG d 0#64) ∧ t = { u with tiles := t.tiles } ∧
          (∀ site, site ∉ tiles → t.tile site = u.tile site) ∧
          ∀ site, site ∈ tiles → t.tile site = { u.tile site with kvtb := (t.tile site).kvtb } ∧
            ∀ x, x ∈ (t.tile site).kvtb ↔ x ∈ (u.tile site).kvtb ∧ ¬named x
      (bitAt (v.part p).kvroot.toNat 0 = false → exec (.kvinv d a b) s = .next (v.setG d 0#64)) ∧
      (bitAt (v.part p).kvroot.toNat 0 = true → (tiles.any fun t => (v.tile t).shadow.isSome) = false →
        (n = 0 → drops v fun x => x.part = p ∧ x.seq = coordSeq c) ∧
        (n ≠ 0 → r.1.wait = false → r.1.desc = none → drops r.2 fun x => x.part = p ∧ x.seq = coordSeq c) ∧
        (∀ dsc, n ≠ 0 → r.1.wait = false → r.1.desc = some dsc →
          drops r.2 fun x => x.part = p ∧ x.seq = coordSeq c ∧ x.layer = coordLayer c ∧ x.head = coordHead c ∧
            coordPos c / descB dsc ≤ x.block ∧ x.block < coordPos c / descB dsc + min n (2 ^ 27)))) ∧
    (s.before.inShadow = false → exec (.kvfill d a b) s = .next (s.takeTrap s.cur.slotA { cause := 0x01#6 })) ∧
    (s.before.inShadow = true → (s.g b).toNat % 16 ≠ 0 →
      exec (.kvfill d a b) s = .next (s.takeTrap s.cur.slotA { cause := 0x05#6, addr := s.g b })) ∧
    (∀ run, s.before.inShadow = true → (s.g b).toNat % 16 = 0 → (s.tile s.selfSite).shadow = some run →
      bitAt (s.part run.part).kvroot.toNat 0 = false → exec (.kvfill d a b) s = .next (s.setG d 0#64)) ∧
    (∀ run e v gr, s.before.inShadow = true → (s.g b).toNat % 16 = 0 → (s.tile s.selfSite).shadow = some run →
      bitAt (s.part run.part).kvroot.toNat 0 = true →
      (s.drainCore s.selfCore).readBack (s.g b) 8 2 = .data e v → v.before.grant = some gr →
      let u := v.useGrant
      let c := v.g a
      let dsc := run.desc.toNat
      let site := v.selfSite
      let n := coordPos c / descB dsc
      let same := coordSeq c = coordSeq run.coord ∧ coordLayer c = coordLayer run.coord ∧ coordHead c = coordHead run.coord
      let bad := bits e 62 15 ≠ 0 ∨ bits e 3 37 ≠ 0 ∨ bitAt e 0 = false ∨ bitAt e 1 = true ∨ descB dsc < bits e 40 8 ∨
        u.kvHome? run.part (bits e 56 6) (bits e 52 4) (bits e 48 4) = none
      (¬same → exec (.kvfill d a b) s = .next (u.setG d 2#64)) ∧
      (same → bad → exec (.kvfill d a b) s = .next (u.setG d 1#64)) ∧
      (same → ¬bad → ∃ x, exec (.kvfill d a b) s = .next ((u.setTile site x).setG d 0#64) ∧
        x = { u.tile site with kvtb := x.kvtb } ∧
        x.kvFind run.part c n = some
          { part := run.part, seq := coordSeq c, layer := coordLayer c, head := coordHead c, block := n
            frame := (entryFrame e).toNat, zone := bits e 56 6, row := bits e 52 4, col := bits e 48 4, cow := bitAt e 2
            bsize := descB dsc, dim := bits dsc 382 2, kfmt := bits dsc 378 2, vfmt := bits dsc 376 2
            kscl := bitAt dsc 400, vscl := bitAt dsc 401 } ∧
        ∀ y, y ∈ x.kvtb → y ∈ (u.tile site).kvtb ∨ y.is run.part c n = true))

/-- R252, R262, R308, R309, R310: PGMIG refuses a bad target with 2 and a busy page with 4, places a granule and answers 0,
or hands a frame's migration to the host and answers 3; PGOWN gives a page away or asks for one. A page that is pinned is
refused with 1. The numbers of the reports to the host (log 52), the settling of the accesses that have issued (logs 5 and 61) and
the order of ownership and PIN (log 112) are the model's choices. Lines that are held for a quarantined home make PGMIG and
PGOWN wait (R263, R438).

R258, R261, R263, R311: PLBINV drops from its core's PLB the regions that cover its address, or every region; in the
form for the tenant, from the PLBs of all the tenant's cores. PAGE_MIGRATION, once the accesses that have issued are done, moves a page's bytes to its new frame
and points its leaf there, or changes the placed home of a granule; the settling of accesses is the model's (logs 5 and 61).

Concluded to complete, each by its own effect: PGMIG, PGOWN_GIVE, PGOWN_TAKE, PLBINV, PAGE_MIGRATION. -/
def Obligations.PagesAndMigrationComplete : Prop :=
  (∀ (s v : State) (rg : Region) (d : Reg) (a b : Src) (m : BitVec 32) (gr : Grant),
    PlainStrand s → s.before.grant = some gr → (s.g a).toNat < 2 ^ 57 →
    ¬(0x1FE ≤ windowOf (s.g a) ∨ (0x100 ≤ windowOf (s.g a) ∧ windowOf (s.g a) < 0x180)) →
    s.protect s.who .store (s.g a) = .ok (rg, v) →
    let u := v.useGrant
    let va := s.g a
    let w := (s.g b).toNat
    let done := fun (i : Instr) (t : State) (x : Word) => exec i s = .next (t.setG d x)
    (u.badTarget u.selfTenant w = true → done (.pgmig d a b) u 2#64) ∧
    (u.badTarget u.selfTenant w = false → u.pageBusy va = true → done (.pgmig d a b) u 4#64) ∧
    (u.pageBusy va = true → done (.pgownGive d a m) u 4#64 ∧ done (.pgownTake d a m) u 4#64) ∧
    (u.badTarget u.selfTenant w = false → u.pageBusy va = false → bitAt w 63 = false →
      u.heldIn (va.toNat / 4096 * 64) (va.toNat / 4096 * 64 + 64) = none →
      done (.pgmig d a b) (u.place va w) 0#64) ∧
    (∀ l, u.pageBusy va = false → u.walk va = .leaf l →
      (u.badTarget u.selfTenant w = false → bitAt w 63 = true → l.pin = true → done (.pgmig d a b) u 1#64) ∧
      (u.badTarget u.selfTenant w = false → bitAt w 63 = true → l.pin = false →
        u.heldIn (va.toNat / 4096 * 64) (va.toNat / 4096 * 64 + 64) = none →
        done (.pgmig d a b) ((u.place va w).toHost (1 + 64 * bits w 48 6) va) 3#64) ∧
      (l.own = false → done (.pgownGive d a m) u 0#64 ∧ done (.pgownTake d a m) (u.toHost 2 va) 3#64) ∧
      (l.own = true → done (.pgownTake d a m) u 0#64) ∧
      (l.own = true → l.pin = true → done (.pgownGive d a m) u 1#64) ∧
      (l.own = true → l.pin = false → u.heldIn (l.lines va).1 (l.lines va).2 = none → done (.pgownGive d a m) (u.giveToHost va l) 0#64))) ∧
  (∀ (s : State) (a : Src) (m : BitVec 32),
    (PlainStrand s → m.getLsbD 0 = false →
      ∃ t, exec (.plbinv a m) s = .next t ∧ t = { s with cores := t.cores } ∧
        (∀ c, c ≠ s.selfCore → t.core c = s.core c) ∧
        t.core s.selfCore = { s.core s.selfCore with plb := (t.core s.selfCore).plb } ∧
        ∀ r, r ∈ (t.core s.selfCore).plb ↔
          m.getLsbD 1 = false ∧ r ∈ (s.core s.selfCore).plb ∧ r.covers (s.g a).toNat = false) ∧
    (∀ gr, PlainStrand s → m.getLsbD 0 = true → s.before.grant = some gr →
      ∃ t, exec (.plbinv a m) s = .next t ∧
        ∀ c, c ∈ s.tenantCores s.selfTenant → ∀ r, r ∈ (t.core c).plb → m.getLsbD 1 = false ∧ r.covers (s.g a).toNat = false) ∧
    (∀ w, s.input.frame = none → s.input.wide = BitVec.ofNat 512 w → w < 2 ^ 64 →
      s.heldIn (s.input.value.toNat / 4096 * 64) (s.input.value.toNat / 4096 * 64 + 64) = none →
      exec .pageMigration s = .next (s.place s.input.value w)) ∧
    (∀ f l, s.input.frame = some f → s.walk s.input.value = .leaf l → (f * 4096) % l.size = 0 → l.size % 4096 = 0 → 0 < l.size →
      badFrame (f * 4096) = false → badFrame (f * 4096 + l.size - 1) = false → paIsSystem (f * 4096) = false → f * 4096 ≠ l.pa →
      s.heldIn (l.lines s.input.value).1 (l.lines s.input.value).2 = none →
      ∃ t base, exec .pageMigration s = .next t ∧ base = s.input.value.toNat / l.size * l.size ∧
        let moved := (s.settlePages.dropLines (base / 64) ((base + l.size) / 64)).moveFrame l.pa (f * 4096) l.size
        t = moved.writeShared none l.entryPa 8
          (let e := moved.readPa l.entryPa 8
           e - bits e 12 40 * 4096 + (f * 4096) % 2 ^ 52)))

/-! ## Event lines and groups (07, 09) -/

/-- R160, R163, R165, R232, R233: EVCFG gives a line the configuration of its word, starts it afresh and releases whoever
waited with status 1 (BROKEN); EVPOLL reads the line's word; a refused word traps ILLEGAL.

R161, R162, R163, R164, R232: EVWAIT, after the core's earlier accesses on a line of any kind (the model's choice, log 6). An
unconfigured line answers 2 with p7 = 0; a free mutex is taken and a set flag passed with status 0 and p7 = 1; the last arrival of a
local barrier goes on at once and releases every strand that waited; every other arrival waits. The last arrival on a group line
sends the tile's arrival up the tree, and one that comes after it is held for the next generation. A wait that has ended answers what
ended it.

Concluded to complete, each by its own effect: EVCFG, EVPOLL, EVWAIT. -/
def Obligations.EventsConfigureWaitComplete : Prop :=
  (∀ (s : State) (d : Reg) (a b : Src), PlainStrand s →
    let site := s.selfSite
    let i := (s.g a).toNat % 32
    let old := s.line site i
    let l := lineOf (s.g b).toNat
    (lineOk (s.g b).toNat = false → exec (.evcfg a b) s = .next (s.takeTrap s.cur.slotA { cause := 0x01#6 })) ∧
    (lineOk (s.g b).toNat = true → l.gv = false →
      exec (.evcfg a b) s = .next ((s.setLine site i l).releaseAll (old.waiters ++ old.later.filterMap id)
        { value := 1#512, p7 := false })) ∧
    (lineOk (s.g b).toNat = true → l.gv = true → ∀ g, s.selfGslot l.gs.toNat = some g →
      s.groupLineElsewhere site i g.index s.before.launch = false →
      exec (.evcfg a b) s = .next ((s.setLine site i { l with group := some (g.index, s.before.launch) }).releaseAll
        (old.waiters ++ old.later.filterMap id) { value := 1#512, p7 := false })) ∧
    (∃ t, exec (.evpoll d a) s = .next t ∧ WritesG d old.word s t)) ∧
  (∀ (s : State) (d : Reg) (a : Src), PlainStrand s →
    (∀ gr, s.before.grant = some gr →
      exec (.evwait d a) s = .next ((s.useGrant.setG d (gr.value.setWidth 64)).setP 7#3 gr.p7)) ∧
    (s.before.grant = none →
    let u := s.drainCore s.selfCore
    let site := s.selfSite
    let i := (u.g a).toNat % 32
    let k := s.cur.strand
    let l := u.line site i
    let goesOn := fun (t : State) (status : Word) (p7 : Bool) => exec (.evwait d a) s = .next ((t.setG d status).setP 7#3 p7)
    let waits := fun (t : State) => exec (.evwait d a) s = .next (t.hold .event)
    (l.mode = .off → goesOn u 2#64 false) ∧
    (l.mode = .mutex → l.set = false → goesOn (u.setLine site i { l with set := true }) 0#64 true) ∧
    (l.mode = .mutex → l.set = true → waits (u.setLine site i { l with waiters := l.waiters ++ [k] })) ∧
    (l.mode = .flag → l.set = true → goesOn (u.setLine site i { l with set := !l.ac }) 0#64 true) ∧
    (l.mode = .flag → l.set = false → waits (u.setLine site i { l with waiters := l.waiters ++ [k] })) ∧
    (l.mode = .barrier → l.arr + 1 < l.count →
      waits (u.setLine site i { l with arr := l.arr + 1, waiters := l.waiters ++ [k] })) ∧
    (l.mode = .barrier → l.gv = false → l.count ≤ l.arr + 1 → k ∉ l.waiters →
      goesOn ((u.setLine site i { l with arr := 0, gen := l.gen + 1#32, waiters := [] }).releaseAll l.waiters
        { value := 0#512, p7 := true }) 0#64 true) ∧
    (l.mode = .barrier → l.gv = true → l.count ≤ l.arr →
      waits (u.setLine site i { l with later := l.later ++ [some k] })) ∧
    (∀ g n lc x nd, l.mode = .barrier → l.gv = true → l.arr < l.count → l.count ≤ l.arr + 1 → l.group = some (g, n) →
      u.launch? n = some lc → lc.group? g = some x → x.node? (u.treeTileOf site) = some nd →
      ∃ t, waits t ∧ t.treeMsgs = u.treeMsgs ++ [{ launch := n, group := g, bar := false, node := nd, item := u.treeTileOf site }] ∧
        t = { u.setLine site i { l with arr := l.arr + 1, waiters := l.waiters ++ [k] } with treeMsgs := t.treeMsgs })))

/-- R161, R162, R167, R232: a signal on a line of the strand's own tile, or one that arrives from another tile. A signal
to an unconfigured line does nothing; it wakes the oldest waiter of a mutex or frees it, sets a flag and frees its waiters
(one alone with AC, which then stays clear), and counts as an arrival at a barrier.

Concluded to complete, each by its own effect: EVSIG, REMOTE_SIGNAL_ARRIVAL. -/
def Obligations.EventSignalsComplete : Prop :=
  ∀ (s : State) (a b : Src) (m : BitVec 32),
    let u := s.drainCore s.selfCore
    (PlainStrand s → m.getLsbD 0 = false →
      exec (.evsig a b m) s = .next (u.signal s.selfSite ((u.g a).toNat % 32))) ∧
    (∀ l c, PlainStrand s → m.getLsbD 0 = true → u.selfLaunch = some l → u.target l ((u.g b).toNat % 2 ^ 22) = .here c →
      exec (.evsig a b m) s = .next { u with
        signals := u.signals ++ [{ src := s.selfSite, site := coreSite c, line := (u.g a).toNat % 32 }] }) ∧
    (∀ i g, s.input.index = i → s.input.level ≠ 1 → s.signals[i]? = some g → g.module = none →
      (s.signals.take i).any (fun q => q.src == g.src && q.site == g.site && q.module == g.module) = false →
      s.silent g.site = false → s.deadSite g.site = false →
      exec .remoteSignalArrival s = .next (State.signal { s with signals := s.signals.eraseIdx i } g.site g.line)) ∧
    (∀ site i, let l := s.line site i
      (l.mode = .off → s.signal site i = s) ∧
      (l.mode = .mutex → l.waiters = [] → s.signal site i = s.setLine site i { l with set := false }) ∧
      (∀ k rest, l.mode = .mutex → l.waiters = k :: rest →
        s.signal site i = (s.setLine site i { l with waiters := rest }).release k { value := 0#512, p7 := true }) ∧
      (l.mode = .flag → l.ac = false →
        s.signal site i = (s.setLine site i { l with waiters := [], set := true }).releaseAll l.waiters { value := 0#512, p7 := true }) ∧
      (∀ k rest, l.mode = .flag → l.ac = true → l.waiters = k :: rest →
        s.signal site i = (s.setLine site i { l with waiters := rest, set := false }).release k { value := 0#512, p7 := true }) ∧
      (l.mode = .flag → l.ac = true → l.waiters = [] → s.signal site i = s.setLine site i { l with set := true }) ∧
      (l.mode = .barrier → l.arr + 1 < l.count →
        s.signal site i = s.setLine site i { l with arr := l.arr + 1 }) ∧
      (l.mode = .barrier → l.gv = true → l.count ≤ l.arr →
        s.signal site i = s.setLine site i { l with later := l.later ++ [none] }) ∧
      (l.mode = .barrier → l.gv = false → l.count ≤ l.arr + 1 →
        s.signal site i = (s.setLine site i { l with arr := 0, gen := l.gen + 1#32, waiters := [] }).releaseAll l.waiters
          { value := 0#512, p7 := true }))

/-- R156, R158, R159, R168, R234: GRANK, GSIZE and GMAP answer from the group's member list, −1 for a rank beyond it; BAR
makes its core's arrival and waits, and answers the generation when it is released; a GSLOT without a membership traps
GROUP_NOT_MEMBER.

R157, R162, R164, R168: an arrival raises its node's counter once, and a node that has its own arrivals and those of both
subtrees sends one to the node it feeds. The root, when it has them all, releases BAR's waiters with the generation's new number,
or the group's lines, and the counters start again.

Concluded to complete, each by its own effect: GRANK, GSIZE, GMAP, BAR, GROUP_TREE_ARRIVAL, GROUP_TREE_RELEASE. -/
def Obligations.GroupsComplete : Prop :=
  (∀ (s : State) (d : Reg) (a b : Src), PlainStrand s →
    (s.selfGslot ((s.g a).toNat % 4) = none → ∀ i, i ∈ [Instr.grank d a, .gsize d a, .gmap d a b, .bar d a] →
      exec i s = .next (s.takeTrap s.cur.slotA { cause := 0x18#6, info := BitVec.ofNat 64 ((s.g a).toNat % 4) })) ∧
    ∀ (g : Group) (l : Launch) (r : Nat),
    s.selfGslot ((s.g a).toNat % 4) = some g → s.selfLaunch = some l → g.rank? (s.cidWord l s.selfCore) = some r →
    (∃ t, exec (.grank d a) s = .next t ∧ WritesG d (BitVec.ofNat 64 r) s t) ∧
    (∃ t, exec (.gsize d a) s = .next t ∧ WritesG d (BitVec.ofNat 64 g.members.length) s t) ∧
    (∀ gr, s.before.grant = some gr →
      (∀ w, g.members[(s.g b).toNat]? = some w → exec (.gmap d a b) s = .next (s.useGrant.setG d (w.setWidth 64))) ∧
      (g.members.length ≤ (s.g b).toNat → exec (.gmap d a b) s = .next (s.useGrant.setG d (BitVec.allOnes 64))) ∧
      exec (.bar d a) s = .next (s.useGrant.setG d (gr.value.setWidth 64))) ∧
    (∀ u n, s.before.grant = none → u = s.drainCore s.selfCore → u.selfLaunch = some l →
      g.rank? (u.cidWord l s.selfCore) = some r → g.node? (u.treeTileOf s.selfSite) = some n →
      (∀ x, x ∈ g.tree → r ∉ x.bar) →
      let m : TreeMsg := { launch := s.before.launch, group := g.index, bar := true, node := n, item := r }
      m ∉ u.treeMsgs →
      ∃ t, exec (.bar d a) s = .next t ∧ t.self.st = .waiting .event ∧ t.treeMsgs = u.treeMsgs ++ [m])) ∧
  (∀ (s : State) (m : TreeMsg) (l : Launch) (g : Group),
    (s.input.flag = false → s.treeMsgs[s.input.index]? = some m → s.launch? m.launch = some l → l.group? m.group = some g →
      let u := State.mapGroup { s with treeMsgs := s.treeMsgs.eraseIdx s.input.index } m.launch m.group fun x => x.count m
      (g.full m.bar m.node = true ∨ (g.count m).full m.bar m.node = false ∨ m.node = 0 →
        exec .groupTreeArrival s = .next u) ∧
      (∀ n, g.full m.bar m.node = false → (g.count m).full m.bar m.node = true → m.node ≠ 0 →
        g.tree[(m.node - 1) / 2]? = some n → n.tile < 2 ^ 20 →
        exec .groupTreeArrival s =
          .next { u with treeMsgs := u.treeMsgs ++ [{ m with node := (m.node - 1) / 2, item := 2 ^ 21 + m.node }] })) ∧
    (s.launch? s.input.launch = some l → l.group? s.input.group = some g → g.tree ≠ [] → (∀ n, n ∈ g.tree → n.tile < 2 ^ 20) →
      let on := s.mapGroup s.input.launch s.input.group
      (s.input.flag = true → g.full true 0 = true →
        exec .groupTreeRelease s =
          .next ((on fun x =>
            { x with tree := x.tree.map fun n => { n with bar := [] }, barGen := g.barGen + 1#32, barWaiters := [] }).releaseAll
              g.barWaiters { value := (g.barGen + 1#32).setWidth 512 })) ∧
      (s.input.flag = false → g.full false 0 = true →
        exec .groupTreeRelease s =
          .next ((on fun x => { x with tree := x.tree.map fun n => { n with line := [] } }).releaseLines s.input.launch
            s.input.group (s.treeSites g))) ∧
      (g.full s.input.flag 0 = false → exec .groupTreeRelease s = .next s)))

/-! ## Messages, handlers and migration (07, 09) -/

/-- R222, R223: a SEND outside a handler puts one message on its way, with the core's serial number, which g[D] receives and
which then counts up; its payload is zero or the 48 bytes at g[B].

R176, R177, R178, R225: a HOP of a drained strand to its own core goes on there at the next pair with g1–g9, the vector
registers of its mask and PW, FMT and STAT; to another core it leaves as a packet, the slot waiting in MIGRATING. The packet is
admitted into a free slot of its target (the lowest, by the model's choice, log 48), unless a restore is to fill that core, and its
source slot is freed; one whose target is gone parks the strand at the
HOP, with HOP_TARGET_ABSENT.

R29, R47, R143, R146, R226: SPAWN starts a strand in a free slot of its own core (the lowest, by the model's choice, log 48), with g1 = g[B], g14 = SWIN and
every other register zero and full, and answers the slot; with no free slot it answers −1.

Concluded to complete, each by its own effect: SEND, HOP, HOP_ARRIVAL, HOP_PACKET_RETURN, SPAWN. -/
def Obligations.SendHopSpawnComplete : Prop :=
  (∀ (s u v : State) (d : Reg) (a b : Src) (m : BitVec 32) (l : Launch) (c x : Nat), PlainStrand s →
    s.self.handler = none → s.before.handler = none → s.selfLaunch = some l → s.target l ((s.g a).toNat % 2 ^ 22) = .here c →
    u = s.drainCore s.selfCore → u.self.handler = none →
    (s.g b = 0#64 ∧ u.g b = 0#64 ∧ v = u ∧ x = 0 ∨
      s.g b ≠ 0#64 ∧ (s.g b).toNat % 8 = 0 ∧ u.g b ≠ 0#64 ∧ u.readBack (u.g b) 8 6 = .data x v ∧ v.self.handler = none) →
    let serial := (v.core s.selfCore).sendSerial
    ∃ t msg, exec (.send d a b m) s = .next t ∧
      t = { v with strands := t.strands, cores := t.cores, messages := v.messages ++ [msg] } ∧
      msg.src = BitVec.ofNat 22 (v.cidWord l s.selfCore) ∧ msg.msgid = serial ∧ msg.tag = m.extractLsb' 16 16 ∧
      msg.payload = BitVec.ofNat 384 x ∧ msg.sts = 0#4 ∧ msg.srcCore = s.selfCore ∧ msg.target = c ∧
      msg.mbox = (m.extractLsb' 0 3).toNat ∧ msg.module = none ∧
      (t.core s.selfCore).sendSerial = serial + 1#32 ∧ (∀ i, i ≠ s.selfCore → t.core i = v.core i) ∧
      (∀ k, k ≠ s.cur.strand → t.strand k = v.strand k) ∧
      ∀ i, t.self.regs.readG i = if d ≠ 0#4 ∧ i = d then serial.setWidth 64 else v.self.regs.readG i) ∧
  (∀ (s : State) (a : Src) (m : BitVec 32),
    let k := s.cur.strand
    let core := s.selfCore
    let carried := hopRegs s.before.regs (m.extractLsb' 0 8)
    (∀ l c, PlainStrand s → s.selfLaunch = some l → s.target l ((s.g a).toNat % 2 ^ 22) = .here c → s.drained k = true →
      hasCarry core = false →
      (c = core → ∃ t, exec (.hop a m) s = .next t ∧ OnlySelf s t ∧ t.self.st = .ready ∧ t.self.pc = s.before.pc + 8#64 ∧
        t.self.regs = carried ∧ t.self.launch = s.before.launch) ∧
      (c ≠ core → ∃ t p, exec (.hop a m) s = .next t ∧ t.packets = s.packets ++ [p] ∧ t.self = { s.before with st := .migrating } ∧
        p.strand = k ∧ p.target = c ∧ p.pc = s.before.pc + 8#64 ∧ p.regs = carried ∧ p.module = none ∧
        t = { s with strands := t.strands, packets := t.packets })) ∧
    (∀ p slot, s.input.level ≠ 1 → s.packets[s.input.index]? = some p → p.module = none → s.deadSite (coreSite p.target) = false →
      s.silent (coreSite p.target) = false → p.minTime ≤ s.time → s.restoring p.target = false → s.freeSlot p.target = some slot →
      p.strand ≠ strandOf p.target slot →
      ∃ t x, exec .hopArrival s = .next t ∧ t.packets = s.packets.eraseIdx s.input.index ∧
        t.strand (strandOf p.target slot) = x ∧ x.st = .ready ∧ x.regs = p.regs ∧ x.pc = p.pc ∧ x.launch = p.launch ∧
        (t.strand p.strand).st = .dormant) ∧
    (∀ p, s.packets[s.input.index]? = some p → p.module = none → s.deadSite (coreSite p.target) = true →
      s.silentStrand p.strand = false → exec .hopPacketReturn s =
        .next (State.takeTrap { s with packets := s.packets.eraseIdx s.input.index, cur := { strand := p.strand, before := p.before } }
          false { cause := 0x19#6, info := p.cid.setWidth 64 })) ∧
    (∀ i : Reg, carried.readG i = if 1 ≤ i.toNat ∧ i.toNat ≤ 9 then s.before.regs.readG i else 0#64) ∧
    (∀ i : Reg, carried.readV i = if i.toNat < 8 ∧ m.getLsbD i.toNat = true then s.before.regs.readV i else 0#512) ∧
    carried.pw = s.before.regs.pw ∧ carried.fmt = s.before.regs.fmt ∧ carried.stat = s.before.regs.stat ∧
    carried.gf = BitVec.allOnes 16 ∧ carried.vf = BitVec.allOnes 16) ∧
  (∀ (s : State) (d : Reg) (a b c : Src), PlainStrand s → (s.g a).toNat < 2 ^ 57 → (s.g a).toNat % 8 = 0 →
    (s.freeSlot s.selfCore = none → ∃ t, exec (.spawn d a b c) s = .next t ∧ WritesG d (BitVec.allOnes 64) s t) ∧
    (∀ slot u, s.freeSlot s.selfCore = some slot → u = s.drainCore s.selfCore → s.cur.strand ≠ strandOf s.selfCore slot →
      ∃ t x, exec (.spawn d a b c) s = .next t ∧ t.strand (strandOf s.selfCore slot) = x ∧ x.st = .ready ∧ x.pc = u.g a ∧
        x.birth = .spawn ∧ x.index = BitVec.ofNat 3 slot ∧ x.ovfp = u.g c &&& ~~~0x3F#64 ∧ x.launch = s.before.launch ∧
        (∀ i, x.regs.readG i = if i = 1#4 then u.g b else if i = 14#4 then 0x01FE000000000000#64 else 0#64) ∧
        (∀ i, x.regs.readV i = 0#512) ∧ x.regs.pw = 0x01#8 ∧ x.regs.gf = BitVec.allOnes 16 ∧ x.regs.vf = BitVec.allOnes 16 ∧
        (∀ i, t.self.regs.readG i = if d ≠ 0#4 ∧ i = d then BitVec.ofNat 64 slot else u.self.regs.readG i) ∧
        ∀ k, k ≠ strandOf s.selfCore slot → k ≠ s.cur.strand → t.strand k = u.strand k))

/-- R170, R224: SEND of a returned message takes the oldest one, stores its 64 bytes at g[A] and gives its status, or −1 when
there is none. MESSAGE_RETURN puts a message that turned back into its sender's queue; of two that one dead tile turned away, the
earlier first (R488).

R170, R171, R172: a message takes its mailbox's next ring slot, its 64 bytes standing there, or turns back with status 3
(dead tile), 2 (no such mailbox) or 1 (slot occupied); a mailbox that holds THR messages starts its handler in a free slot
of its core: the lowest, by the model's choice (log 48).

R169, R230, R231, R450: MBCFG answers 3 for a busy mailbox, 4 for a bad descriptor, 1 for a handler that is not pinned and 2 for
a bad ring, traps PROT for a ring in a remote window (the model's reading, log 96), and otherwise configures the mailbox and answers
0; with A = g0 it takes a mailbox away. HEND frees the ring slots,
sends what the handler held, in order, and retires its strand.

Concluded to complete, each by its own effect: SEND_RETURNED, MESSAGE_RETURN, MESSAGE_ARRIVAL, MAILBOX_FIRE, MBCFG, HEND. -/
def Obligations.MessagesAndMailboxesComplete : Prop :=
  (∀ (s : State) (d : Reg) (a : Src) (m : BitVec 32),
    (PlainStrand s → (s.g a).toNat % 64 = 0 → (s.core s.selfCore).returned = [] →
      ∃ t, exec (.sendReturned d a m) s = .next t ∧ WritesG d (BitVec.allOnes 64) s t) ∧
    (∀ msg rest pa cached v, PlainStrand s → (s.g a).toNat % 64 = 0 → (s.core s.selfCore).returned = msg :: rest →
      s.check .store (s.g a) 64 = .ok pa cached v →
      ∃ t x, exec (.sendReturned d a m) s = .next t ∧ (t.core s.selfCore).returned = rest ∧
        t.accesses = v.accesses ++ [x] ∧ x.strand = s.cur.strand ∧ x.kind = .store ∧ x.dest = .none ∧ x.pa = pa ∧ x.n = 64 ∧
        x.data = msg.body ∧ x.line = cached ∧
        (d ≠ 0#4 → t.self.regs.readG d = msg.sts.setWidth 64)) ∧
    (∀ i msg, s.input.index = i → s.messages[i]? = some msg → msg.sts ≠ 0#4 → msg.origin = none → s.returnBlocked i msg = false →
      ∃ t, exec .messageReturn s = .next t ∧ t = { s with messages := s.messages.eraseIdx i, cores := t.cores } ∧
        (t.core msg.srcCore).returned = (s.core msg.srcCore).returned ++ [msg] ∧
        ∀ c, c ≠ msg.srcCore → t.core c = s.core c)) ∧
  (∀ (s : State) (i : Nat) (m : Message),
    (s.input.index = i → s.input.level ≠ 1 → s.messages[i]? = some m → m.sts = 0#4 → m.held = none → s.messageBlocked i m = false → m.module = none →
      s.silent (coreSite m.target) = false →
      let u := { s with messages := s.messages.eraseIdx i }
      let back := fun (n : BitVec 4) => { m with sts := n, target := m.srcCore }
      (s.deadSite (coreSite m.target) = true →
        exec .messageArrival s = .next { u with messages := u.messages ++ [{ back 3#4 with held := some (coreSite m.target) }] }) ∧
      (s.deadSite (coreSite m.target) = false → (s.core m.target).mboxes.find? m.mbox = none →
        exec .messageArrival s = .next { u with messages := u.messages ++ [back 2#4] }) ∧
      (∀ b, s.deadSite (coreSite m.target) = false → (s.core m.target).mboxes.find? m.mbox = some b →
        (b.occupied = true → exec .messageArrival s = .next { u with messages := u.messages ++ [back 1#4] }) ∧
        (b.occupied = false →
          ∃ t, exec .messageArrival s = .next t ∧
            (t.core m.target).mboxes.find? m.mbox = some { b with waiting := b.waiting ++ [(b.next, m)], next := (b.next + 1) % 64 } ∧
            t.mem = (u.writePa (ringSlotPa m.target b b.next) 64 m.body).mem ∧ t.messages = u.messages))) ∧
    (∀ core b l slot, s.input.core = core → (s.core core).mboxes.find? s.input.mbox = some b → s.launch? b.launch = some l →
      b.thr ≤ b.waiting.length → (b.ser = true → b.handlers = []) → s.partRuns l.part = true →
      s.deadSite (coreSite core) = false → s.silent (coreSite core) = false → s.pinned b.hpc = true → s.freeSlot core = some slot →
      ∃ t x, exec .mailboxFire s = .next t ∧ t.strand (strandOf core slot) = x ∧ x.st = .ready ∧ x.pc = b.hpc ∧
        x.birth = .handler ∧ x.regs.readG 2#4 = BitVec.ofNat 64 b.thr ∧ x.regs.readG 3#4 = BitVec.ofNat 64 s.input.mbox ∧
        x.regs.readG 1#4 = b.ring + BitVec.ofNat 64 (64 * ((b.waiting.take b.thr).map (·.1)).headD 0) ∧
        ∀ k, k ≠ strandOf core slot → t.strand k = s.strand k)) ∧
  (∀ (s : State) (d : Reg) (a b : Src) (m : BitVec 32),
    let mbox := (m.extractLsb' 0 3).toNat
    let core := s.selfCore
    let busy := (((s.core core).mboxes.find? mbox).map fun x => x.busy s.before.launch).getD false
    (PlainStrand s → a.r = 0#4 → busy = true → ∃ t, exec (.mbcfg d a b m) s = .next t ∧ WritesG d 3#64 s t) ∧
    (PlainStrand s → a.r = 0#4 → busy = false →
      exec (.mbcfg d a b m) s =
        .next ((s.setCore core { s.core core with mboxes := (s.core core).mboxes.erase mbox }).setG d 0#64)) ∧
    (∀ x v, PlainStrand s → a.r ≠ 0#4 → (s.g a).toNat % 16 = 0 →
      (s.drainCore core).readBack (s.g a) 8 2 = .data x v →
      let hpc : Word := BitVec.ofNat 64 (bits x 0 64)
      (busy = true → exec (.mbcfg d a b m) s = .next (v.setG d 3#64)) ∧
      (busy = false → badDescriptor x = true → exec (.mbcfg d a b m) s = .next (v.setG d 4#64)) ∧
      (busy = false → badDescriptor x = false → v.pinned hpc = false → exec (.mbcfg d a b m) s = .next (v.setG d 1#64)) ∧
      (busy = false → badDescriptor x = false → v.pinned hpc = true → inWindow (v.g b) = true →
        exec (.mbcfg d a b m) s = v.trap (protAt 0 .store (v.g b))) ∧
      (busy = false → badDescriptor x = false → v.pinned hpc = true → inWindow (v.g b) = false → v.ringOk core mbox (v.g b) = false →
        exec (.mbcfg d a b m) s = .next (v.setG d 2#64)) ∧
      (busy = false → badDescriptor x = false → v.pinned hpc = true → inWindow (v.g b) = false → v.ringOk core mbox (v.g b) = true →
        exec (.mbcfg d a b m) s =
          .next ((v.setCore core { v.core core with
            mboxes := (v.core core).mboxes.set mbox
              { launch := s.before.launch, hpc := hpc, thr := bits x 64 7, ser := bitAt x 71, ring := v.g b } }).setG d 0#64))) ∧
    (∀ h, s.before.inShadow = false → s.before.handler = some h → s.drained s.cur.strand = true →
      ∃ t, exec .hend s = .next t ∧ t.messages = s.messages ++ h.held ∧ (t.strand s.cur.strand).st = .dormant ∧
        (∀ k, k ≠ s.cur.strand → t.strand k = s.strand k) ∧
        ∀ q, (s.core core).mboxes.find? h.mbox = some q →
          (t.core core).mboxes.find? h.mbox = some { q with
            given := q.given.filter (fun i => !h.slots.contains i), handlers := q.handlers.filter (· != s.cur.strand) }))

/-! ## Ordered tasks and tokens (07, 08, 09) -/

/-- R179, R180, R183, R235, R236, R237: TENQ adds a task to its zone's unit, last in enqueue order, refusing a timestamp
below the zone's last commit; TEND of an irrevocable task commits it, of a speculative one leaves it ended, and either frees
the slot; TSELF answers the timestamp, with p7 saying whether the task is irrevocable.

R179, R180, R181, R182: a waiting task is started with its arguments in g1–g4 and its timestamp in g5; the oldest ended
task commits, its buffered bytes standing in memory; a speculative task rolls back to its beginning; the oldest becomes
irrevocable. That an earlier task waits while a later one runs irrevocably is the model's deduction (log 100).

R208, R238, R239: TKREQ asks for up to 1,023 tokens and answers how many; TKLEND lends at most what its account may lend
and answers how many; TKQRY answers the account's word. No other tile's account changes.

Concluded to complete, each by its own effect: TENQ, TEND, TSELF, TASK_DISPATCH, TASK_COMMIT, TASK_ROLLBACK, TASK_IRREVOCABLE,
TKREQ, TKLEND, TKQRY. -/
def Obligations.TasksAndTokensComplete : Prop :=
  (∀ (s : State) (d : Reg) (a b c : Src) (m : BitVec 32),
    (∀ u, PlainStrand s → (s.g b).toNat < 2 ^ 57 → (s.g b).toNat % 8 = 0 → c.r = 0#4 → u = s.drainCore s.selfCore →
      u.cur.stopped = false → (u.zone u.selfZone).tasks.length < 4096 →
      ((u.g a).ult (u.zone u.selfZone).lastCommit = true →
        exec (.tenq a b c) s = .next (u.takeTrap u.cur.slotA { cause := 0x11#6, addr := 0#64, info := u.g a })) ∧
      ((u.g a).ult (u.zone u.selfZone).lastCommit = false →
        ∃ t, exec (.tenq a b c) s = .next t ∧ t.nextOrder = u.nextOrder + 1 ∧
          (t.zone s.selfZone).tasks = (u.zone s.selfZone).tasks ++
            [{ order := u.nextOrder, timestamp := u.g a, hpc := u.g b, args := [0#64, 0#64, 0#64, 0#64], launch := s.before.launch }] ∧
          t = { u with zones := t.zones, nextOrder := t.nextOrder })) ∧
    (∀ k, s.selfTask = some k →
      (m.getLsbD 0 = true → exec (.tend m) s = .next (s.takeTrap s.cur.slotA { cause := 0x20#6, addr := 0#64, info := k.timestamp })) ∧
      (m.getLsbD 0 = false → s.drained s.cur.strand = true →
        ∃ t, exec (.tend m) s = .next t ∧ (t.strand s.cur.strand).st = .dormant ∧
          t.zone s.selfZone = if k.irrevocable then (s.zone s.selfZone).commit k
            else (s.zone s.selfZone).mapTask k.order fun x => { x with st := .ended }) ∧
      (m.getLsbD 0 = false →
        exec (.tself d m) s = .next ((s.setG d k.timestamp).setP 7#3 k.irrevocable)) ∧
      (m.getLsbD 0 = true → k.irrevocable = true →
        exec (.tself d m) s = .next ((s.setG d k.timestamp).setP 7#3 true))) ∧
    (s.selfTask = none → exec (.tend m) s = .next (s.takeTrap s.cur.slotA { cause := 0x01#6 }) ∧
      exec (.tself d m) s = .next (s.takeTrap s.cur.slotA { cause := 0x01#6 }))) ∧
  (∀ (s : State) (z : Nat) (t : Sys2Proof.Machine.Task), s.input.zone = z →
    (∀ l slot, (s.zone z).task? s.input.task = some t → s.launch? t.launch = some l → s.freeSlot s.input.core = some slot →
      t.st = .waiting → t.parent = none → t.retry = false → coreZone s.input.core = z → coreIsAtelier s.input.core = false →
      s.coreOf l s.input.core = true → s.partRuns l.part = true → s.deadSite (coreSite s.input.core) = false →
      s.silent (coreSite s.input.core) = false → (s.zone z).irrevocableAfter t = false →
      ∃ u x, exec .taskDispatch s = .next u ∧ u.strand (strandOf s.input.core slot) = x ∧ x.st = .ready ∧ x.pc = t.hpc ∧
        x.birth = .task ∧ x.task = some t.order ∧ x.regs = taskRegs t ∧
        ∀ k, k ≠ strandOf s.input.core slot → u.strand k = s.strand k) ∧
    ((s.zone z).oldest = some t → t.st = .ended → (∀ x, x ∈ (s.zone z).tasks → x.irrevocable = false) → s.mayPublish t = true →
      ∃ u v, exec .taskCommit s = .next u ∧ v = s.commitStores z t ∧ u.mem = v.mem ∧
        u.zone z = (v.zone z).commit t) ∧
    ((s.zone z).task? s.input.task = some t → t.irrevocable = false →
      exec .taskRollback s = .next (s.rollback z t.order)) ∧
    (∀ k, (s.zone z).task? s.input.task = some t → t.st = .running k → (s.strand k).st = .waiting .oldest →
      (s.zone z).mayTurn t.order = true → s.mayPublish t = true →
      exec .taskIrrevocable s = .next ((s.makeIrrevocable z t.order).wake k))) ∧
  (∀ (s : State) (d : Reg) (a : Src), PlainStrand s →
    let site := s.selfSite
    let n := min (s.g a).toNat 1023
    let most := lendable (s.tile site).account (s.floorShare site) n
    (∃ t, exec (.tkreq d a) s = .next t ∧ (t.tile site).account = (s.tile site).account.ask n ∧
      (d ≠ 0#4 → t.self.regs.readG d = BitVec.ofNat 64 n) ∧ (∀ x, x ≠ site → t.tile x = s.tile x) ∧
      t = { s with strands := t.strands, tiles := t.tiles }) ∧
    (∃ t, exec (.tklend d a) s = .next t ∧ (t.tile site).account = (s.tile site).account.lend most s.time ∧
      (d ≠ 0#4 → t.self.regs.readG d = BitVec.ofNat 64 most) ∧ (∀ x, x ≠ site → t.tile x = s.tile x) ∧
      t = { s with strands := t.strands, tiles := t.tiles }) ∧
    (∀ gr, s.before.grant = some gr → exec (.tkqry d) s = .next (s.useGrant.setG d (s.useGrant.accountWord site))))

/-! ## Engine commands (13, 14, 15, 16) -/

/-- R291, R317, R318, R321, R322, R450: XFER and XFER.2d fork a transfer of their shape, whose granules number it, the shape read
here or through another module's window; a transfer of no
bytes is complete at once with OK, one of 2^32 bytes or more, or with a reserved modifier bit, with RANGE. XWAIT and XPOLL give
a complete identifier's word, p7 saying whether it is OK; XWAIT waits for an outstanding one, and for one that was never issued
both give the word with STS 7 and p7 = 0.

Concluded to complete, each by its own effect: XFER, XFER_2D, XWAIT, XPOLL. -/
def Obligations.TransferCommandsComplete : Prop :=
  ∀ (s v : State) (d : Reg) (a b c : Src) (m : BitVec 32), PlainStrand s →
    let op := (m.extractLsb' 4 2).toNat
    let et := (m.extractLsb' 6 2).toNat
    let ch := (m.extractLsb' 0 4).toNat
    let aligned := fun (x : Shape) =>
      op = 0 ∨ et = 3 ∨ x.dst.toNat % elemSize et = 0 ∧ x.src.toNat % elemSize et = 0 ∧ x.len % elemSize et = 0 ∧
        x.sstr.toNat % elemSize et = 0 ∧ x.dstr.toNat % elemSize et = 0
    let uses := fun (x : Shape) => (List.range x.rows).flatMap fun r =>
      (⟨.engineRead, (x.srcRow r).toNat, x.len, inScratch x.src.toNat⟩ : RangeUse) ::
        (if op = 0 then [Acc.engineWrite] else [.engineRead, .engineWrite]).map fun q =>
          ⟨q, (x.dstRow r).toNat, x.len, inScratch x.dst.toNat⟩
    let good := m.extractLsb' 9 23 = 0#23 ∧ (op = 0 ∨ et ≠ 3)
    let o := fun (s : State) (x : Shape) =>
      { s.newOp ch (.xfer op et (m.getLsbD 8)) m [x.dst, x.src, BitVec.ofNat 64 x.rows, BitVec.ofNat 64 x.len, x.dstr, x.sstr] with
        total := x.granules }
    let one : Shape := ⟨s.g a, s.g b, 1, (s.g c).toNat, 0#64, 0#64⟩
    (aligned one → one.len < 2 ^ 32 → s.checkRanges s.who true (uses one) = .ok v → HasRoom v ch →
      (good → 0 < one.len → ∃ t, exec (.xfer d a b c m) s = .next t ∧ Forks d (o s one) v t) ∧
      (good → one.len = 0 → ∃ t, exec (.xfer d a b c m) s = .next t ∧ EndsAtOnce d (o s one) 0 v t) ∧
      (¬good → ∃ t, exec (.xfer d a b c m) s = .next t ∧ EndsAtOnce d (o s one) 5 v t)) ∧
    (aligned one → 2 ^ 32 ≤ one.len → HasRoom s ch →
      ∃ t, exec (.xfer d a b c m) s = .next t ∧ EndsAtOnce d (o s one) 5 s t) ∧
    (∀ x u w shape, (s.g c).toNat % 8 = 0 → u = s.drainCore s.selfCore →
      ((inWindow (s.g c) = false ∨ windowOf (s.g c) % 64 = u.ownModule u.selfPart) ∧ u.readBack (s.g c) 8 4 = .data x v ∨
        inWindow (s.g c) = true ∧ windowOf (s.g c) % 64 ≠ u.ownModule u.selfPart ∧
          ∃ mo va t gr, u.check .load (s.g c) 8 = .remote mo va t ∧ t.grant = some gr ∧ x = bits gr.value.toNat 0 256 ∧ v = t.useGrant) →
      shape = Shape.mk (v.g a) (v.g b) (bits x 32 32) (bits x 0 32) (BitVec.ofNat 64 (bits x 128 64)) (BitVec.ofNat 64 (bits x 64 64)) →
      aligned shape → shape.rows * shape.len < 2 ^ 32 → v.checkRanges v.who true (uses shape) = .ok w → HasRoom w ch →
      (good → bits x 192 64 = 0 → 0 < shape.rows * shape.len →
        ∃ t, exec (.xfer2d d a b c m) s = .next t ∧ Forks d (o v shape) w t) ∧
      (good → bits x 192 64 = 0 → shape.rows * shape.len = 0 →
        ∃ t, exec (.xfer2d d a b c m) s = .next t ∧ EndsAtOnce d (o v shape) 0 w t)) ∧
    (let ch := (s.g a).toNat % 16
     let i := (s.g b).setWidth 32
     let k := s.core s.selfCore
     let old : Word := 0x1000000000000000#64
     let word := match k.records.find? (32 * ch + i.toNat % 32) with
       | some r => if r.id = i then r.word else old
       | none => old
     let gives := fun (e : Instr) (x : Word) => exec e s = .next ((s.setG d x).setP 7#3 (x.toNat / 2 ^ 60 == 0))
     let never : Word := 0xE000000000000000#64
     (issuedId k ch i = false → gives (.xwait d a b) never ∧ gives (.xpoll d a b) never) ∧
     (issuedId k ch i = true → completeId k ch i = true → gives (.xwait d a b) word ∧ gives (.xpoll d a b) word) ∧
     (issuedId k ch i = true → completeId k ch i = false →
       exec (.xwait d a b) s = .next (s.hold (.completion ch i)) ∧ gives (.xpoll d a b) never))

/-- R323, R326, R327, R339, R340: the TS copies on a tile with a tile store. TSLD and TSST number four granules and one part
for each row, TSCPY and TSZERO one part for each row; the rows must lie in the tile's store.

R323, R328, R329, R331, R339, R341–R344, R346: the matrix instructions on a CC with an engine, in a valid combination of
formats, with their panels in the store and room in the queue, fork; MMAL's lines are 64-byte-aligned ranges that pass the
checks of a range, and GMM has read its descriptor and its sizes.

R336, R337, R338: SEMV adds n after the core's earlier accesses and serves the waiters from the oldest while the value
covers them, and traps SEM_OVERFLOW above 65,535; SEMP takes n at once where nobody waits and the value covers it, else waits
its turn; SEMQ reads the value.

Concluded to complete, each by its own effect: TSLD, TSST, TSCPY, TSZERO, MMA, BSMMA, ACZERO, ACLD, ACST, MMAL, GMM, SEMV, SEMP,
SEMQ. -/
def Obligations.StoreMatrixSemaphoreComplete : Prop :=
  (∀ (s v : State) (d : Reg) (a b c : Src) (m : BitVec 32), PlainStrand s → tileType s.selfSite ≠ .vector →
    let ch := (m.extractLsb' 0 4).toNat
    let n := (s.g c).toNat
    let fits := fun (x : Word) => x.toNat + n ≤ Config.storeRows (tileType s.selfSite)
    let o := fun (op : Nat) (other : Word) (total : Nat) => { s.newOp ch (.ts op) m [s.g a, other, s.g c] with total := total }
    let elements := (m.extractLsb' 4 3).toNat < 6 ∧ m.toNat < 2 ^ 7
    0 < n → fits (s.g a) →
    ((s.g b).toNat % 64 = 0 → elements → s.checkRanges s.who true [use .engineRead (s.g b) (256 * n)] = .ok v → HasRoom v ch →
      ∃ t, exec (.tsld d a b c m) s = .next t ∧ Forks d (o 0 (s.g b) (5 * n)) v t) ∧
    ((s.g b).toNat % 64 = 0 → m.toNat < 16 → s.checkRanges s.who true [use .engineWrite (s.g b) (256 * n)] = .ok v → HasRoom v ch →
      ∃ t, exec (.tsst d a b c m) s = .next t ∧ Forks d (o 1 (s.g b) (5 * n)) v t) ∧
    (elements → fits (s.g b) → HasRoom s ch → ∃ t, exec (.tscpy d a b c m) s = .next t ∧ Forks d (o 2 (s.g b) n) s t) ∧
    (elements → HasRoom s ch → ∃ t, exec (.tszero d a c m) s = .next t ∧ Forks d (o 3 0#64 n) s t)) ∧
  (∀ (s : State) (d : Reg) (a b c : Src) (m : BitVec 32), PlainStrand s → s.mxeAllowed false = true →
    let ch := (m.extractLsb' 0 4).toNat
    let f := s.before.regs.fmt
    let rows := Config.storeRows (tileType s.selfSite)
    let k := (m.extractLsb' 6 12).toNat + 1
    let n := if fmtAcc f = 1 then 32 else 64
    let fmts := fmtOk (fmtA f) (fmtB f) (fmtAcc f) (tileType s.selfSite == .dense) = true
    let mx := (isMx (fmtA f) || isMx (fmtB f)) = false ∨ k % 32 = 0
    let panels := (s.g a).toNat + 64 * lineRows (fmtA f) k ≤ rows ∧ (s.g b).toNat + n * lineRows (fmtB f) k ≤ rows
    (HasRoom s ch → s.mxeRoom = true →
      (fmts → mx → panels → m.toNat < 2 ^ 18 →
        (∃ t, exec (.mma d a b m) s = .next t ∧ Forks d (s.newOp ch (.mma 0) m [s.g a, s.g b]) s t) ∧
        (tileType s.selfSite = .sparse → fmtSparseOk (fmtA f) (fmtB f) (fmtAcc f) = true →
          ∃ t, exec (.bsmma d a b m) s = .next t ∧ Forks d (s.newOp ch (.mma 1) m [s.g a, s.g b]) s t)) ∧
      (m.toNat < 2 ^ 6 → ∃ t, exec (.aczero d m) s = .next t ∧ Forks d (s.newOp ch (.acc 0) m []) s t) ∧
      (m.toNat < 2 ^ 6 → (s.g a).toNat + 64 ≤ rows →
        ∃ t, exec (.acld d a m) s = .next t ∧ Forks d (s.newOp ch (.acc 1) m [s.g a]) s t) ∧
      (m.toNat < 2 ^ 8 → (m.extractLsb' 6 2).toNat ≠ 3 → (m.extractLsb' 6 2 = 0#2 ∨ fmtAcc f = 0) → (s.g a).toNat + 64 ≤ rows →
        ∃ t, exec (.acst d a m) s = .next t ∧ Forks d (s.newOp ch (.acc 2) m [s.g a]) s t)) ∧
    (fmts → mx → m.toNat < 2 ^ 18 →
      let x := mmalShape [s.g a, s.g b, s.g c] f k
      let lines := fun (base : Word) (str n l : Nat) =>
        (List.range n).map fun i => use .engineRead (base + BitVec.ofNat 64 (i * str)) l
      let us := lines x.a x.astr 64 x.la ++ lines x.b x.bstr x.n x.lb
      ∀ v, x.a.toNat % 64 = 0 → x.b.toNat % 64 = 0 → x.astr % 64 = 0 → x.bstr % 64 = 0 → (∀ q, q ∈ us → inScratch q.a = false) →
        s.checkRanges s.who false us = .ok v → HasRoom v ch → v.mxeRoom = true →
        ∃ t, exec (.mmal d a b c m) s = .next t ∧
          Forks d { s.newOp ch (.mma 2) m [s.g a, s.g b, s.g c] with total := 64 * ceilDiv x.la 64 + x.n * ceilDiv x.lb 64 } v t) ∧
    (fmts → m.toNat < 16 → (s.g a).toNat % 32 = 0 →
      ∀ u v w x sizes, u = s.drainCore s.selfCore → u.readBack (s.g a) 8 4 = .data x v →
        v.readBack (BitVec.ofNat 64 (bits x 0 64)) 4 (bits x 64 8 + 1) = .data sizes w →
        gmmReserved x = false → (gmmShape (x + sizes * 2 ^ 256)).bad f rows = false → w.selfSite = s.selfSite →
        HasRoom w ch → w.mxeRoom = true →
        ∃ t, exec (.gmm d a m) s = .next t ∧ Forks d { w.newOp ch (.mma 3) m [w.g a] with desc := x + sizes * 2 ^ 256 } w t)) ∧
  (∀ (s : State) (d : Reg) (a : Src) (m : BitVec 32), PlainStrand s →
    let site := s.selfSite
    let i := (s.g a).toNat % 16
    let n := (m.extractLsb' 0 8).toNat + 1
    let t := s.tile site
    let v := t.sems.getD i 0
    let u := s.drainCore s.selfCore
    (v + n ≤ 65535 → u.selfSite = site →
      exec (.semv a m) s = .next ((u.setTile site { u.tile site with sems := (u.tile site).sems.set i (v + n) }).serveSem site i
        ((u.tile site).semWait.getD i []))) ∧
    (65535 < v + n → exec (.semv a m) s =
      .next (s.takeTrap s.cur.slotA { cause := 0x12#6, addr := 0#64, info := BitVec.ofNat 64 v })) ∧
    (∀ x : State, x.serveSem site i [] = x) ∧
    (∀ (x : State) k q rest, let w := (x.tile site).sems.getD i 0
      (w < q → x.serveSem site i ((k, q) :: rest) = x) ∧
      (q ≤ w → x.serveSem site i ((k, q) :: rest) =
        State.serveSem ((x.setTile site { x.tile site with
            sems := (x.tile site).sems.set i (w - q), semWait := (x.tile site).semWait.set i rest }).release k
          { value := BitVec.ofNat 512 (w - q) }) site i rest)) ∧
    (s.before.grant = none → t.semWait.getD i [] = [] → n ≤ v →
      exec (.semp d a m) s = .next ((s.setTile site { t with sems := t.sems.set i (v - n) }).setG d (BitVec.ofNat 64 (v - n)))) ∧
    (s.before.grant = none → t.semWait.getD i [] ≠ [] ∨ v < n →
      exec (.semp d a m) s = .next ((s.setTile site { t with
        semWait := t.semWait.set i (t.semWait.getD i [] ++ [(s.cur.strand, n)]) }).hold (.semaphore i))) ∧
    (∀ gr, s.before.grant = some gr → exec (.semp d a m) s = .next (s.useGrant.setG d (gr.value.setWidth 64))) ∧
    (∃ w, exec (.semq d a) s = .next w ∧ WritesG d (BitVec.ofNat 64 v) s w))

/-- R347, R348, R351, R352, R361–R364: the attention instructions on the CC of an A tile. ATTS, and KVNEXT on any core, fork a
sweep that fills g[D] when it stops; the others take an identifier, over 64-byte-aligned ranges that pass the checks of a range,
with as many granules as they move.

Concluded to complete, each by its own effect: KVNEXT, ATTS, ATTM, CBLD, CBST, CBINIT, ATTN. -/
def Obligations.AttentionCommandsComplete : Prop :=
  ∀ (s : State) (d : Reg) (a b : Src) (m : BitVec 32), PlainStrand s → s.attRoom = true →
    let ch := (m.extractLsb' 0 4).toNat
    let u := s.drainCore s.selfCore
    let sweep := fun (kind : OpKind) => { u.newOp 0 kind 0#32 [u.g a, u.g b] with id := 0#32, dest := d }
    let forks := fun (e : Instr) (o : Op) (v : State) => ∃ t, exec e s = .next t ∧ Forks d o v t
    let free := fun (v : State) => HasRoom v ch ∧ v.attRoom = true
    (exec (.kvnext d a b) s = .next { u.mapRegs (fun r => r.markG d false) with ops := u.ops ++ [sweep .kvnext] }) ∧
    (hasCarry s.selfCore = true →
      exec (.atts d a b) s = .next { u.mapRegs (fun r => r.markG d false) with ops := u.ops ++ [sweep .atts] } ∧
      ((s.g a).toNat % 64 = 0 →
        (∀ v, m.toNat < 16 → s.checkRanges s.who false [use .engineRead (s.g a) 6272] = .ok v → free v →
          forks (.attm d a m) { s.newOp ch (.att 0) m [s.g a] with total := 98 } v ∧
          forks (.cbld d a m) { s.newOp ch (.att 3) m [s.g a] with total := 98 } v) ∧
        (∀ v, m.toNat < 16 → s.checkRanges s.who false [use .engineWrite (s.g a) 6272] = .ok v → free v →
          forks (.cbst d a m) { s.newOp ch (.att 4) m [s.g a] with total := 98 } v) ∧
        (∀ v w h, m.toNat < 16 → u.readBack (s.g a) 8 8 = .data h v → hdrReserved h = 0 →
          v.checkRanges v.who false [use .engineRead (v.g a) (64 + 2 * hdrD h * hdrRows h)] = .ok w → free w →
          forks (.cbinit d a m) { v.newOp ch (.att 2) m [v.g a] with desc := h, total := 2 * hdrD h * hdrRows h / 64 } w) ∧
        (∀ v, m.toNat < 32 → (s.g b).toNat % 64 = 0 → s.carryFilling s.cur.strand = false →
          (s.tile s.selfSite).carryOk s.cur.strand = true →
          let h := (s.tile s.selfSite).header s.cur.strand
          let row := hdrD h * (if m.getLsbD 4 then 2 else 4)
          s.checkRanges s.who false ((List.range (hdrRows h)).map fun r =>
            use .engineWrite (s.g a + BitVec.ofNat 64 r * s.g b) row) = .ok v → free v →
          forks (.attn d a b m)
            { s.newOp ch (.att 1) m [s.g a, s.g b] with desc := h, total := hdrRows h * (row / 64) } v)))

/-- R365, R367, R368, R374, R375: GATH and SCAT on an S tile read their descriptor and fork one operation of its elements; one of
no elements is complete at once with OK, and makes the arrival that it names.

R372, R376, R377: GREPLAY and GCANCEL of an operation with no entry in the fault queue answer 0; otherwise they take its
entries out, form its elements again or settle them as cancelled, and, once that has taken place for every one, answer how many;
before the answer's time, or while an element must wait for the host or a site, the pair is held. FQPEEK reads a word of an entry, 0 for
none, or the settlement word of an operation.

Concluded to complete, each by its own effect: GATH, SCAT, GREPLAY, GCANCEL, FQPEEK. -/
def Obligations.GatherScatterQueueComplete : Prop :=
  (∀ (s u v w : State) (d : Reg) (a b c : Src) (m : BitVec 32) (x : Nat), PlainStrand s → tileType s.selfSite = .sparse →
    (s.g c).toNat % 32 = 0 → (s.g a).toNat % 4 = 0 → (s.g b).toNat % 4 = 0 →
    u = s.drainCore s.selfCore → u.readBack (s.g c) 8 4 = .data x v →
    let ch := (m.extractLsb' 0 4).toNat
    let e := elemShape x
    let op := (m.extractLsb' 4 2).toNat
    let et := (m.extractLsb' 6 2).toNat
    let arriving := fun (t : State) => if m.getLsbD 13 = true then t.signal s.selfSite (m.extractLsb' 8 5).toNat else t
    m.toNat < 2 ^ 14 → (m.getLsbD 13 = true ∨ m.extractLsb' 8 5 = 0#5) → x < 2 ^ 193 → e.idxa.toNat % e.iw = 0 → HasRoom w ch →
    (m.extractLsb' 4 4 = 0#4 → 4 ≤ e.esize → e.esize ≤ 4096 → e.esize % 4 = 0 →
      v.checkRanges v.who false [use .engineRead e.idxa (e.count * e.iw), use .engineWrite (s.g a) (e.count * e.esize)] = .ok w →
      let o := { w.newOp ch .gath m [s.g a, s.g b] with desc := x, total := e.count }
      (0 < e.count → ∃ t, exec (.gath d a b c m) s = .next t ∧ Forks d o w t) ∧
      (e.count = 0 → ∃ t, exec (.gath d a b c m) s = .next (arriving t) ∧ EndsAtOnce d o 0 w t)) ∧
    (e.esize ∈ [4, 8, 16, 32, 64] → (s.g a).toNat % e.esize = 0 → et ≠ 3 → (op = 0 → et = 0) →
      (op ≠ 0 → e.esize % elemSize et = 0) →
      v.checkRanges v.who false [use .engineRead e.idxa (e.count * e.iw), use .engineRead (s.g b) (e.count * e.esize)] = .ok w →
      let o := { w.newOp ch .scat m [s.g b, s.g a] with desc := x, total := e.count }
      (0 < e.count → ∃ t, exec (.scat d a b c m) s = .next t ∧ Forks d o w t) ∧
      (e.count = 0 → ∃ t, exec (.scat d a b c m) s = .next (arriving t) ∧ EndsAtOnce d o 0 w t))) ∧
  (∀ (s : State) (d : Reg) (a b : Src) (m : BitVec 32), PlainStrand s → tileType s.selfSite = .sparse →
    let ch := (s.g a).toNat % 16
    let id := (s.g b).setWidth 32
    let es := (s.tile s.selfSite).faultq.filter fun e => e.ch == ch && e.id == id && e.cc == coreIsCC s.selfCore
    (es = [] → exec (.greplay d a b) s = .next (s.setG d 0#64) ∧ exec (.gcancel d a b m) s = .next (s.setG d 0#64)) ∧
    (∀ gr i, es ≠ [] → s.before.grant = some gr → (s.drainCore s.selfCore).before.grant = some gr →
      let u := (s.drainCore s.selfCore).useGrant
      u.ops.findIdx? (fun o => o.is u.selfCore ch id) = some i →
      let n := BitVec.ofNat 64 es.length
      let formed := (u.dropEntries ch id).reform i (sortedElems es)
      let filled := (sortedElems es).foldl
        (fun (r : State × Bool) k => ((r.1.cancelElement i m k).1, r.2 && (r.1.cancelElement i m k).2)) (u.dropEntries ch id, true)
      (formed.2 = true → exec (.greplay d a b) s = .next (formed.1.setG d n)) ∧
      (formed.2 = false → exec (.greplay d a b) s = .next ((u.raised formed.1).hold .answer)) ∧
      (filled.2 = true → exec (.gcancel d a b m) s = .next (filled.1.setG d n)) ∧
      (filled.2 = false → exec (.gcancel d a b m) s = .next ((u.raised filled.1).hold .answer)) ∧
      (∀ o, u.ops[i]? = some o → o.isScat = true →
        ∃ t : State, exec (.gcancel d a b m) s = .next (t.setG d n) ∧
          ∃ o' : Op, t.ops[i]? = some o' ∧ o'.st.cancelled = true ∧ ∀ k, k ∈ sortedElems es → k ∈ o'.done)) ∧
    (∀ gr, es ≠ [] → s.before.grant = some gr → (s.drainCore s.selfCore).before.grant = some gr →
      let u := (s.drainCore s.selfCore).useGrant
      u.ops.findIdx? (fun o => o.is u.selfCore ch id) = none →
      exec (.greplay d a b) s = .next ((u.dropEntries ch id).setG d (BitVec.ofNat 64 es.length)) ∧
      exec (.gcancel d a b m) s = .next ((u.dropEntries ch id).setG d (BitVec.ofNat 64 es.length))) ∧
    ((s.drainCore s.selfCore).before.grant = none → es ≠ [] →
      exec (.greplay d a b) s = .next ((s.drainCore s.selfCore).hold .answer) ∧
      exec (.gcancel d a b m) s = .next ((s.drainCore s.selfCore).hold .answer)) ∧
    ((m.extractLsb' 0 2).toNat ≠ 3 →
      (∀ e, (s.tile s.selfSite).faultq[(s.g a).toNat % 256]? = some e →
        exec (.fqpeek d a b m) s = .next (s.setG d (e.word (m.extractLsb' 0 2).toNat))) ∧
      ((s.tile s.selfSite).faultq[(s.g a).toNat % 256]? = none → exec (.fqpeek d a b m) s = .next (s.setG d 0#64))) ∧
    ((m.extractLsb' 0 2).toNat = 3 →
      exec (.fqpeek d a b m) s = .next (s.setG d (s.settlement ch id))))

/-- R383–R388: SMERGE on an S tile's CC, and the collectives on a CC that is a member of the group, fork; a collective also
takes the next number of its rank, by which its peers find it, and the members on other modules are told of its issue and its command
(log 116).

Concluded to complete, each by its own effect: SMERGE, COLL_AR, COLL_SR, COLL_BC. -/
def Obligations.MergeCollectivesComplete : Prop :=
  ∀ (s v : State) (d : Reg) (a b c : Src) (m : BitVec 32), PlainStrand s → coreIsCC s.selfCore = true →
    let ch := (m.extractLsb' 0 4).toNat
    let thr := (m.extractLsb' 4 5).toNat
    let cap := (m.extractLsb' 12 20).toNat
    let merges := 1 ≤ thr ∧ thr ≤ 16 ∧ 0 < cap ∧ m.extractLsb' 9 3 = 0#3
    HasRoom v ch →
    (tileType s.selfSite = .sparse → (s.g a).toNat % 64 = 0 → (s.g b).toNat % 64 = 0 → (s.g c).toNat % 64 = 0 → merges →
      s.checkRanges s.who false [use .engineWrite (s.g a) (64 * cap)] = .ok v →
      ∃ t, exec (.smerge d a b c m) s = .next t ∧ Forks d (s.newOp ch .smerge m [s.g a, s.g b, s.g c]) v t) ∧
    (∀ l g rank n, s.selfLaunch = some l → s.selfGslot ((s.g c).toNat % 4) = some g → g.quarantined = false →
      g.rank? (s.cidWord l s.selfCore) = some rank → n = g.collCount.getD rank 0 →
      let numbered := v.mapLaunch v.before.launch fun l => l.mapGroup g.index fun g =>
        { g with collCount := g.collCount.set rank (n + 1) }
      let o := fun (op : Nat) =>
        { s.newOp ch (.coll op) m [] with
          args := [s.g a, s.g b, BitVec.ofNat 64 g.index, BitVec.ofNat 64 rank, BitVec.ofNat 64 n] }
      let size := valueBytes (m.extractLsb' 4 2).toNat
      let count := (m.extractLsb' 8 24).toNat
      ((m.extractLsb' 4 2).toNat ≠ 3 → m.extractLsb' 6 2 = 0#2 → (s.g a).toNat % size = 0 → (s.g b).toNat % size = 0 →
        s.checkRanges s.who false [use .engineWrite (s.g a) (count * size)] = .ok v →
        ∃ t, exec (.collAr d a b c m) s = .next t ∧ Forks d (o 0) (numbered.tellIssue (o 0)) t) ∧
      (merges → (s.g b).toNat % 64 = 0 →
        (rank = 0 → (s.g a).toNat % 64 = 0 → s.checkRanges s.who false [use .engineWrite (s.g a) (64 * cap)] = .ok v →
          ∃ t, exec (.collSr d a b c m) s = .next t ∧ Forks d (o 1) (numbered.tellIssue (o 1)) t) ∧
        (rank ≠ 0 → v = s → ∃ t, exec (.collSr d a b c m) s = .next t ∧ Forks d (o 1) (numbered.tellIssue (o 1)) t)) ∧
      (m.extractLsb' 4 4 = 0#4 → (s.g a).toNat % 64 = 0 → (s.g b).toNat % 64 = 0 →
        s.checkRanges s.who false [use .engineWrite (s.g a) (64 * count)] = .ok v →
        ∃ t, exec (.collBc d a b c m) s = .next t ∧ Forks d (o 2) (numbered.tellIssue (o 2)) t))

/-! ## Engine events (13, 14, 15, 16) -/

/-- R315, R316, R319, R320: XFER_GRANULE_DELIVERY of a granule of a running transfer whose turn has come. A translation
fault holds it, with a report; a granule of system space ends the transfer RANGE, and so does a combination into host space; else every
piece of its destination is written and its bytes are counted. A written piece takes the source's bytes, or their combination; it is
poisoned from a poisoned source, and a poisoned destination is left alone. That host space ends a combination RANGE is the model's
reading (log 50).

R316, R327, R340, R343, R361: ENGINE_MEMORY_GRANULE brings a TSLD, an MMAL or an ATTM one granule of its
source, writes one granule of a TSST's rows, and makes one row of a TS copy take effect. PCNT of a TSST counts the granules that it
writes poisoned by the model's reading (log 39).

R317, R318, R319, R331, R374: ENGINE_OPERATION_COMPLETE of an operation whose parts have all taken place, and before
which its engine has no other: the record of its identifier stands, no operation holds the identifier any more, and the record
gives the first status of the list that applies. An MXE instruction goes on by one chunk, k step or line at an ENGINE_MEMORY_GRANULE beyond its parts (R335), and does the rest of
its work as it ends, which is the model's reading (log 35); the members of a collective that has ended complete together (R390).

Concluded to complete, each by its own effect: XFER_GRANULE_DELIVERY, ENGINE_MEMORY_GRANULE, ENGINE_OPERATION_COMPLETE. -/
def Obligations.EngineEventsComplete : Prop :=
  (∀ (s : State) (i k : Nat) (o : Op) (op et : Nat) (sq : Bool) (src dst : Word) (n : Nat),
    s.input.index = i → s.input.item = k → s.ops[i]? = some o → s.opRuns o = true → s.tileTurn i o = true → o.kind = .xfer op et sq →
    o.st.cancelled = false → o.done.contains k = false → o.held.contains k = false → s.inOrder o k = true →
    (s.ops.take i).any (fun p => s.transferHolds p o k) = false →
    o.shape.granule o.shape.rows 0 k = some (src, dst, n) →
    let parts := destParts dst.toNat n
    let rd := s.reachAll o .engineWrite parts
    let all := (s.reach o .engineRead src, 0, n) :: rd
    let o' := { o with done := setInsert k o.done }
    (∀ t, reachFault all = some t →
      exec .xferGranuleDelivery s = .next ((s.engineFault o t 0#64).setOp i { o.unask k with held := setInsert k o.held })) ∧
    (reachFault all = none → reachGone all = none → reachSpace all paIsSystem = true ∨ op ≠ 0 ∧ reachSpace rd paIsHost = true →
      exec .xferGranuleDelivery s = .next (s.setOp i { o' with st := { o'.st with range := true } })) ∧
    (∀ pa c s', s.reach o .engineRead src = .at pa c s' → reachFault all = none → reachGone all = none → reachesAway all = false →
      reachSpace all paIsSystem = false → (op = 0 ∨ reachSpace rd paIsHost = false) → o.sentFor k = none →
      let u := parts.foldl (fun s p => s.markReach o .engineWrite p.1) (s.markReach o .engineRead src.toNat)
      let r := (rd.zip (parts.mapIdx fun j p => (j, p.1))).foldl
        (fun so e => State.deliverPart so op et (u.readPa pa n) (u.poisonedIn pa n) e.2 e.1) (u.engineTouch o pa c false, o')
      exec .xferGranuleDelivery s = .next (r.1.setOp i { r.2 with dcnt := r.2.dcnt + n })) ∧
    (∀ (u : State) (p : Op) (pa off len data : Nat) (at_ : Nat × Nat) c (w : State),
      let v := u.engineTouch p pa c true
      let x := data / 2 ^ (8 * off) % 2 ^ (8 * len)
      (State.deliverPart (u, p) 0 et data false at_ (.at pa c w, off, len) = (v.writePa pa len x, p)) ∧
      ((State.deliverPart (u, p) op et data true at_ (.at pa c w, off, len)) = (v.poisonAt pa, p.poisonAtDest (at_.2 / 64))) ∧
      (op ≠ 0 → v.poisoned pa = true → (State.deliverPart (u, p) op et data false at_ (.at pa c w, off, len)).1 = v) ∧
      (op ≠ 0 → v.poisoned pa = false →
        (State.deliverPart (u, p) op et data false at_ (.at pa c w, off, len)).1 =
          v.writePa pa len (combineAll op et (len / elemSize et) (v.readPa pa len) x).1)) ∧
    (∀ (p : Op) (g : Nat), (p.poisonAtDest g).st.poisoned = true ∧ ((p.poisonAtDest g).poisonAtDest g).pcnt = (p.poisonAtDest g).pcnt ∧
      (p.data.find? (2 ^ 60 + g) = none → (p.poisonAtDest g).pcnt = p.pcnt + 1))) ∧
  (∀ (s : State) (i k : Nat) (o : Op),
    s.input.index = i → s.input.item = k → s.ops[i]? = some o → s.opRuns o = true → s.tileTurn i o = true → k < o.total →
    o.done.contains k = false → o.held.contains k = false →
    let n := (o.arg 2).toNat
    let gets := fun (t : State) => exec .engineMemoryGranule s = .next t
    let marked := fun (x : Nat) (psn : Bool) => x % 2 ^ 512 + (if psn then 2 ^ 512 else 0)
    (∀ x psn v, o.kind = .ts 0 → k < 4 * n → s.fetchPiece o (tagElem k 0) (o.arg 1 + BitVec.ofNat 64 (64 * k)) 64 = .data x psn v →
      gets (v.setOp i (o.take k (marked x psn)))) ∧
    (∀ t, o.kind = .ts 0 → k < 4 * n → s.fetchPiece o (tagElem k 0) (o.arg 1 + BitVec.ofNat 64 (64 * k)) 64 = .fault t →
      gets ((s.engineFault o t 0#64).setOp i { o.unask k with held := setInsert k o.held })) ∧
    (∀ x v, o.kind = .ts 1 → k < 4 * n → o.data.find? k = some x →
      s.putPiece o (tagElem k 0) (o.arg 1 + BitVec.ofNat 64 (64 * k)) 64 (x % 2 ^ 512) (x / 2 ^ 512 % 2 == 1) = .done v →
      let o' := { o with done := setInsert k o.done, dcnt := o.dcnt + 64 }
      gets (v.setOp i (if x / 2 ^ 512 % 2 == 1 then { o' with pcnt := o.pcnt + 1, st := { o.st with poisoned := true } } else o'))) ∧
    (∀ op r, o.kind = .ts op → s.partRuns o.part = true → k = tsBase op n + r → (r = 0 ∨ o.done.contains (k - 1) = true) →
      (op = 0 → ∀ j, j < 4 → o.done.contains (4 * r + j) = true) →
      (∀ p, p ∈ s.ops.take i → p.core = o.core → ∀ q, p.kind = .ts q → p.rowsDone q = true) →
      let x := tsRow (s.tile (coreSite o.core)) o op r
      gets ((s.setTile (coreSite o.core) x.1).setOp i x.2)) ∧
    (o.kind = .mma 2 →
      let p := (mmalShape o.args o.fmt (modK o.mod)).piece k
      ∀ x psn v, s.fetchPiece o (tagElem k 0) p.1 p.2.1 = .data x psn v → gets (v.setOp i (o.take k (marked x psn)))) ∧
    (∀ x v, o.kind = .att 0 → s.attBlocked i o = false → s.fetchPiece o (tagElem k 0) (o.arg 0 + BitVec.ofNat 64 (64 * k)) 64 = .data x false v →
      gets (v.setOp i { o.take k x with dcnt := 0 }))) ∧
  (∀ (s : State) (i : Nat) (o : Op), s.input.index = i → s.ops[i]? = some o → s.opRuns o = true → s.tileTurn i o = true →
    let ended := fun (t : State) (o : Op) =>
      (∀ q, q ∈ t.ops → q.is o.core o.ch o.id = false) ∧
      (t.core o.core).records.find? (32 * o.ch + o.id.toNat % 32) =
        some { id := o.id, word := BitVec.ofNat 64 (o.st.code * 2 ^ 61 + o.pcnt % 2 ^ 26 * 2 ^ 32 + o.dcnt % 2 ^ 32) }
    let allDone := ∀ j, j < o.total → o.done.contains j = true
    (∀ t : OpStatus, t.code =
      (match t.cancelled, t.linkLost, t.range, t.poisoned, t.overflow with
       | true, _, _, _, _ => 4 | _, true, _, _, _ => 3 | _, _, true, _, _ => 5 | _, _, _, true, _ => 1 | _, _, _, _, true => 6
       | _, _, _, _, _ => 0)) ∧
    (∀ op et sq, o.kind = .xfer op et sq → allDone → o.st.cancelled = false →
      ∃ t, exec .engineOperationComplete s = .next t ∧ ended t o ∧ t.mem = s.mem) ∧
    (∀ op, o.kind = .ts op → allDone ∨ o.st.cancelled = true →
      ∃ t, exec .engineOperationComplete s = .next t ∧ ended t o ∧ t.mem = s.mem ∧ t.tiles = s.tiles) ∧
    (∀ op, o.kind = .mma op → allDone → (s.ops.take i).any (fun p => p.core == o.core && p.kind.isMxe) = false →
      o.st.cancelled = false →
      (∃ t, exec .engineOperationComplete s = .next t ∧
        t.tile (coreSite o.core) = ((s.tile (coreSite o.core)).multiplyRest o).1 ∧
        ended t ((s.tile (coreSite o.core)).multiplyRest o).2) ∧
      (o.total ≤ s.input.item →
        let r := if op = 3 then (s.tile (coreSite o.core)).gmm o 1 else (s.tile (coreSite o.core)).multiply o 1
        exec .engineMemoryGranule s = .next ((s.setTile (coreSite o.core) r.1).setOp i r.2))) ∧
    (∀ op, o.kind = .acc op → (s.ops.take i).any (fun p => p.core == o.core && p.kind.isMxe) = false → o.st.cancelled = false →
      ∃ t, exec .engineOperationComplete s = .next t ∧
        t.tile (coreSite o.core) = ((s.tile (coreSite o.core)).accOp o op).1 ∧ ended t ((s.tile (coreSite o.core)).accOp o op).2) ∧
    (o.kind = .gath ∨ o.kind = .scat → o.done.length = o.total → o.mod.getLsbD 13 = false →
      ∃ t, exec .engineOperationComplete s = .next t ∧ ended t o ∧ t.mem = s.mem) ∧
    (o.kind = .smerge → o.get kOver = 1 ∨ o.st.cancelled = true →
      ∃ t, exec .engineOperationComplete s = .next t ∧ ended t o ∧ t.mem = s.mem) ∧
    (∀ op, o.kind = .coll op → o.pos = 1 →
      ∃ t, exec .engineOperationComplete s = .next t ∧ t.mem = s.mem ∧
        ∀ p, p ∈ s.ops → p.matches o = true → p.pos = 1 → ∀ q, q ∈ t.ops → q.is p.core p.ch p.id = false))

/-- R353, R355, R357, R363: BLOCK_FOLD moves a sweep that has started past its next block, or holds it at a walk's fault with
a report; ATTENTION_SWEEP_STOP ends it and fills g[D] with the result word; SHADOW_HANDLER_START starts the shadow handler
of its tile for a deferred walk, when none runs. NEXT of the result word stands at [47:24] by the model's reading (log 34).

R368–R371, R379, R380, R385, R386: GATHER_ELEMENT_ARRIVAL and SCATTER_ELEMENT_APPLY form an element from its index, or park it with
BADINDEX; a plain scatter element whose turn has come writes its table element. MERGE_NODE takes an SMERGE's next window: the
head with the lower number, or the merge of both; where the output has no room for the result, or the value types differ, the merge
ends RANGE. A member of a COLL.ar or COLL.bc reads its own contribution first, then computes its result, then writes it; one of a
COLL.sr takes a turn of the merge, and with input.flag what another module contributes arrives. The order of heads and bodies is the
model's reading (log 41), and so is what an element does at a poisoned index (log 51).

Concluded to complete, each by its own effect: BLOCK_FOLD, ATTENTION_SWEEP_STOP, SHADOW_HANDLER_START, GATHER_ELEMENT_ARRIVAL,
SCATTER_ELEMENT_APPLY, MERGE_NODE. -/
def Obligations.SweepGatherMergeEventsComplete : Prop :=
  (∀ (s : State) (i : Nat) (o : Op), s.input.index = i → s.ops[i]? = some o → s.opRuns o = true → s.tileTurn i o = true →
    o.kind = .atts ∨ o.kind = .kvnext → s.attBlocked i o = false → o.held = [] → o.total = 1 →
    (∀ p v fl psn home, s.sweepTurn o = .move p v fl psn home →
      exec .blockFold s =
        .next (v.setOp i { o with pos := p, flags := o.flags ||| fl, psn := o.psn || psn, shadowed := false, desc := home })) ∧
    (∀ t v, s.sweepTurn o = .hold t v →
      exec .blockFold s =
        .next ((v.engineFault { o with ch := 0, id := 0#32 } t 0#64).setOp i { o with held := [0], shadowed := false })) ∧
    (∀ reason next home finished v, s.sweepTurn o = .stop reason next home finished v → o.kind = .kvnext →
      exec .attentionSweepStop s =
        .next (State.fill { v with ops := v.ops.eraseIdx i } o.strand (if o.dest = 0#4 then .none else .g o.dest)
          (reason * 2 ^ 60 + o.flags % 64 * 2 ^ 54 + (if o.psn then 2 ^ 53 else 0) + next % 2 ^ 24 * 2 ^ 24 + home % 2 ^ 22))) ∧
    (∀ reason next home finished v, s.sweepTurn o = .stop reason next home finished v →
      ∃ t, exec .attentionSweepStop s = .next t ∧ t.ops = v.ops.eraseIdx i ∧
        (o.dest ≠ 0#4 → (t.strand o.strand).regs.fullG o.dest = true ∧
          (t.strand o.strand).regs.readG o.dest = BitVec.ofNat 64 (sweepWord reason o.flags o.psn next home))) ∧
    (∀ site w v, s.walkTile o = some site → s.sweepTurn o = .deferred w v → (v.tile site).shadow = none →
      ∃ t, exec .shadowHandlerStart s = .next t ∧ t.ops[i]? = (v.ops[i]?).map (fun _ => { o with shadowed := true }) ∧
        (t.tile site).shadow = some { coord := withPos o.coord o.pos, desc := BitVec.ofNat 512 (w.desc.getD 0), tenant := o.tenant
                                      part := o.part, core := o.core, walker := o.strand } ∧
        (let x := t.strand (strandOf (2 * site + 1) 8)
         x.st = .ready ∧ x.birth = .shadow ∧ x.launch = o.launch ∧ x.pc = kvshHpc (v.part o.part).kvsh ∧
         x.regs = shadowRegs (withPos o.coord o.pos) w.entryVa w.descVa (v.part o.part).kvsharg))) ∧
  (∀ (s : State) (i k : Nat) (o : Op), s.input.index = i → s.input.item = k → s.ops[i]? = some o → s.opRuns o = true → s.tileTurn i o = true →
    let e := o.elems
    let at_ := e.idxa + BitVec.ofNat 64 (k * e.iw)
    (∀ x psn v w, o.kind = .gath → s.canForm o k = true → s.fetchPiece o (tagElem k 0) at_ e.iw = .data x psn v →
      badIndex e x (o.tableAt x) = false → v.checkTable o (o.tableAt x) e.esize = .ok w →
      exec .gatherElementArrival s =
        .next (w.setOp i { o.advance k with data := (o.advance k).data.set (idxKey k) (x + if psn then 2 ^ 64 else 0) })) ∧
    (∀ x psn v, o.kind = .gath ∨ o.kind = .scat → s.canForm o k = true → s.fetchPiece o (tagElem k 0) at_ e.iw = .data x psn v →
      badIndex e x (o.tableAt x) = true → (v.tile (coreSite o.core)).faultq.length < 256 →
      ∃ t, exec (if o.kind = .gath then .gatherElementArrival else .scatterElementApply) s = .next t ∧
        (t.tile (coreSite o.core)).faultq = (v.tile (coreSite o.core)).faultq ++
          [{ cause := 1, ch := o.ch, scat := o.isScat, cc := coreIsCC o.core, id := o.id, elem := k, addr := BitVec.ofNat 64 x }]) ∧
    (∀ pa c v, o.kind = .scat → s.canForm o k = false → o.inFlight k = true → o.mayApply k = true →
      s.scatOrder i o (o.tableAt (o.index k) / 64) = true → o.scatOp = 0 →
      s.reach o .engineWrite (BitVec.ofNat 64 (o.tableAt (o.index k))) = .at pa c v → paIsSystem pa = false →
      o.data.getD (idxKey k) 0 < 2 ^ 64 → o.data.getD (srcKey k) 0 < 2 ^ 512 →
      exec .scatterElementApply s =
        .next (((v.engineTouch o pa c true).writePa pa e.esize (o.data.getD (srcKey k) 0)).setOp i
          { o.settle k with dcnt := o.dcnt + 1 })) ∧
    (s.input.level = 0 → o.kind = .smerge → s.smergeBlocked i o = false → o.held = [] → o.get kOver ≠ 1 →
      let goes := fun (t : State) => exec .mergeNode s = .next t
      (∀ u w, s.nextHead o leftSide = .ok (none, u) → u.nextHead o rightSide = .ok (none, w) → goes (w.setOp i (o.endMerge false))) ∧
      (∀ x u w, s.nextHead o leftSide = .ok (some x, u) → u.nextHead o rightSide = .ok (none, w) →
        ∀ g v, w.readSeg o (o.sideAddr leftSide) x = .ok (some g, v) → goes (v.emitSeg i o (o.consume leftSide g) g)) ∧
      (∀ y u w, s.nextHead o leftSide = .ok (none, u) → u.nextHead o rightSide = .ok (some y, w) →
        ∀ g v, w.readSeg o (o.sideAddr rightSide) y = .ok (some g, v) → goes (v.emitSeg i o (o.consume rightSide g) g)) ∧
      (∀ x y u w, s.nextHead o leftSide = .ok (some x, u) → u.nextHead o rightSide = .ok (some y, w) →
        (o.get kVt = 0 → x.vt ≠ y.vt → goes (w.setOp i (o.endMerge true))) ∧
        (o.get kVt ≠ 0 ∨ x.vt = y.vt →
          (∀ g v, x.win < y.win → w.readSeg o (o.sideAddr leftSide) x = .ok (some g, v) →
            goes (v.emitSeg i o (o.consume leftSide g) g)) ∧
          (∀ g v, y.win < x.win → w.readSeg o (o.sideAddr rightSide) y = .ok (some g, v) →
            goes (v.emitSeg i o (o.consume rightSide g) g)) ∧
          (∀ v, x.win < y.win → w.readSeg o (o.sideAddr leftSide) x = .ok (none, v) → goes (v.setOp i (o.endMerge true))) ∧
          (∀ g h v z, x.win = y.win → w.readSeg o (o.sideAddr leftSide) x = .ok (some g, v) →
            v.readSeg o (o.sideAddr rightSide) y = .ok (some h, z) →
            goes (z.emitSeg i o ((o.consume leftSide g).consume rightSide h) (mergeSegs o.thr g h)))))) ∧
    (∀ (v : State) (o' : Op) (g : Seg), 64 * o.cap < o.get kOut + g.size → v.emitSeg i o o' g = v.setOp i (o.endMerge true)) ∧
    (∀ op g, s.input.level = 0 → o.kind = .coll op → o.pos ≠ 1 → s.collGroupOf o = some g → g.collEnd.find? o.collNumber = none →
      g.quarantined = false → s.collDiffers o g = false →
      (s.input.flag = true → exec .mergeNode s = .next (s.partArrives i o g)) ∧
      (s.input.flag = false → op = 1 → exec .mergeNode s = .next (s.mergeTurn i o g)) ∧
      (s.input.flag = false → op ≠ 1 →
        (o.contributed = false → o.held = [] → exec .mergeNode s = .next (s.contribute i o)) ∧
        (o.contributed = true → o.computed = false → exec .mergeNode s = .next (s.computeColl i o g)) ∧
        (o.contributed = true → o.computed = true → exec .mergeNode s = .next (s.collGranule i k o)))))

/-! ## Launches and queues (07, 08, 09) -/

/-- R227, R228, R229: LAUNCH and LAUNCHI place the 128-byte record at g[A] at the end of their partition's direct queue and
answer 0, or −1 when it holds 64; LAUNCH.Q answers −2 for a selector that names no usable queue of the strand's own tenant, −1
for a full queue, and otherwise puts the record, sealed, in the queue's next slot and answers that slot's number.

Concluded to complete, each by its own effect: LAUNCH, LAUNCHI, LAUNCH_Q. -/
def Obligations.LaunchInstructionsComplete : Prop :=
  ∀ (s u v : State) (d : Reg) (a b : Src) (x : Nat), PlainStrand s → (s.g a).toNat % 128 = 0 → u = s.drainCore s.selfCore →
    u.readBack (s.g a) 8 16 = .data x v →
    let p := v.part v.selfPart
    let placed := fun (indirect : Bool) (l : Launch) =>
      (v.setPart v.selfPart { p with direct := p.direct ++
        [{ record := BitVec.ofNat 1024 x, indirect := indirect, addr := v.g a, wdtUs := l.wdtUs, queue := l.wdtQueue }] }).setG d 0#64
    (64 ≤ p.direct.length →
      exec (.launch d a) s = .next (v.setG d (BitVec.allOnes 64)) ∧ exec (.launchi d a) s = .next (v.setG d (BitVec.allOnes 64))) ∧
    (∀ l, p.direct.length < 64 → v.selfLaunch = some l →
      exec (.launch d a) s = .next (placed false l) ∧ exec (.launchi d a) s = .next (placed true l)) ∧
    (let sel := (v.g b).toNat
     let pn := bits sel 5 6
     let qn := bits sel 0 5
     let part := v.part pn
     let q := part.queues.getD qn {}
     let usable := sel < 2 ^ 11 ∧ part.live = true ∧ part.tenant = v.selfTenant ∧ q.st ≠ .off ∧ q.st ≠ .faulted ∧ q.st ≠ .frozen
     (¬usable → exec (.launchQ d a b) s = .next (v.setG d 0xFFFFFFFFFFFFFFFE#64)) ∧
     (usable → q.pend = 2 ^ q.log2n → exec (.launchQ d a b) s = .next (v.setG d (BitVec.allOnes 64))) ∧
     (∀ w1 w2 w3, usable → q.pend ≠ 2 ^ q.log2n →
       let k := q.head + q.pend
       let slot := q.base + BitVec.ofNat 64 (256 * (k % 2 ^ q.log2n))
       v.dispWrite part.tenant pn (slot + 64#64) 64 ((BitVec.ofNat 1024 x).toNat % 2 ^ 512) = .done w1 →
       w1.dispWrite part.tenant pn (slot + 128#64) 64 ((BitVec.ofNat 1024 x).toNat / 2 ^ 512 % 2 ^ 512) = .done w2 →
       w2.dispWrite part.tenant pn slot 64 (k % 65535 + 1) = .done w3 →
       ∃ t : State, exec (.launchQ d a b) s = .next (t.setG d (BitVec.ofNat 64 (k % 2 ^ 32))) ∧
         t = { w3 with parts := t.parts } ∧
         ((t.part pn).queues.getD qn {}).pend = ((w3.part pn).queues.getD qn {}).pend + 1))

/-- R189, R190, R191, R192, R195: the life of a host queue. SEAL_READ of a queue in SEALWAIT waits 256 ns after another
packet's seal, drops a NOOP, faults BADPACKET on a bad header, and takes a launch's record to DEPWAIT; DEPENDENCES_SATISFIED
makes it HEADREADY; 64 µs of mismatches fault it STALE. A good KICK raises PEND; a bad one only sets KERR; an overflowing one
faults the queue, all while its tenant's page answers (R459). QCTL resumes a faulted queue, disables any queue and clears KERR.

R149, R150, R151, R152, R154, R188, R193, R196: a launch's way. Selection consumes the queue's packet, takes the next
identifier of the record's channel and the queue's priority; binding fixes its cores and its groups, or rejects the record, whose own
fields are judged first by the model's reading (log 26); the
wake flood starts SPC strands on a core, at the entry, with g14 the stack window and every other register 0; completion ends it
and posts its identifier (R492: not past its deadline). LDONE rises over an identifier that is next, and stays while an older one is open.

Concluded to complete, each by its own effect: SEAL_READ, DEPENDENCES_SATISFIED, STALE_PACKET_TIMEOUT, KICK, QCTL_RESUME,
QCTL_DISABLE, QCTL_CLRK, DISPATCHER_SELECTION, LAUNCH_BINDING, WAKE_FLOOD, LAUNCH_COMPLETION. -/
def Obligations.QueuesAndDispatchComplete : Prop :=
  (∀ (s : State) (pn qn : Nat), s.input.part = pn → s.input.queue = qn →
    let part := s.part pn
    let q := part.queues.getD qn {}
    let set := fun (t : State) (x : Queue) => t.setQueue pn qn x
    let idles := fun (x : Queue) => { x with st := if 0 < x.pend then QueueSt.sealwait else .idle, firstRead := none, nextRead := 0 }
    (∀ h v, q.st = .sealwait → q.nextRead ≤ s.time →
      let slot := q.base + BitVec.ofNat 64 (256 * (q.head % 2 ^ q.log2n))
      s.dispRead part.tenant pn slot 64 = .data h v →
      (h % 2 ^ 16 ≠ q.head % 65535 + 1 →
        exec .sealRead s = .next (set v { q with firstRead := some (q.firstRead.getD v.time), nextRead := v.time + 256 })) ∧
      (h % 2 ^ 16 = q.head % 65535 + 1 →
        (headerBad h = true → exec .sealRead s = .next (v.faultQueue pn qn 2#4 0)) ∧
        (headerBad h = false → bits h 16 4 = 1 →
          exec .sealRead s = .next (set v (idles { q with head := q.head + 1, pend := q.pend - 1 }))) ∧
        (∀ x w, headerBad h = false → bits h 16 4 = 0 → v.readRecord part.tenant pn (slot + 64#64) = .data x w →
          exec .sealRead s =
            .next (set w { q with st := .depwait, record := BitVec.ofNat 1024 x, firstRead := none, nextRead := 0 })))) ∧
    (qn < 32 → q.st = .depwait → part.depsMet q.record = true →
      exec .dependencesSatisfied s = .next (set s { q with st := .headready })) ∧
    (∀ t, q.st = .sealwait → q.firstRead = some t → t + 64000 ≤ s.time →
      exec .stalePacketTimeout s = .next (s.faultQueue pn qn 1#4 0)) ∧
    (part.live = true → s.answers part.tenant = true → qn < 32 →
      let n := s.input.value.toNat
      let good := 0 < n ∧ n ≤ 2 ^ q.log2n ∧ n < 2 ^ 13 ∧ q.st ≠ .off
      (¬good → exec .kick s = .next (set s { q with kerr := true })) ∧
      (good → q.st ≠ .frozen → 2 ^ q.log2n < q.pend + n → exec .kick s = .next (s.faultQueue pn qn 3#4 0)) ∧
      (good → q.st ≠ .frozen → q.pend + n ≤ 2 ^ q.log2n →
        exec .kick s = .next (set s (if q.st = .idle then idles { q with pend := q.pend + n } else { q with pend := q.pend + n }))) ∧
      (s.input.value = 1#64 → q.st = .faulted →
        exec .qctlResume s = .next (set s { idles q with fcode := 0#4 })) ∧
      (s.input.value = 1#64 → q.st ≠ .faulted → exec .qctlResume s = .next (set s { q with kerr := true })) ∧
      (s.input.value = 2#64 →
        exec .qctlDisable s = .next (set s { q with st := .off, pend := 0, firstRead := none, nextRead := 0 })) ∧
      (s.input.value = 4#64 → exec .qctlClrk s = .next (set s { q with kerr := false })))) ∧
  (∀ (s : State) (n : Nat),
    (∀ p k prio, s.input.part = p → (s.part p).live = true → (s.part p).frozen = false → (s.part p).gang = .running →
      (s.part p).nextSelect ≤ s.time → choose (s.part p).lastSel (s.candidates p) = some (k, prio) → k < 32 →
      let q := (s.part p).queues.getD k {}
      ∃ t l, exec .dispatcherSelection s = .next t ∧ t.launches.find? s.nextLaunch = some l ∧ t.nextLaunch = s.nextLaunch + 1 ∧
        l.part = p ∧ l.tenant = (s.part p).tenant ∧ l.prio = q.qprio ∧ l.bound = false ∧
        l.ch = recDone l.record ∧ l.lid = (s.part p).lnext.getD l.ch 0#32 + 1#32 ∧
        (t.part p).queues.getD k {} = { q with st := .binding, head := q.head + 1, pend := q.pend - 1, binding := s.nextLaunch } ∧
        (t.part p).nextSelect = s.time + 4 ∧ (t.part p).lnext.getD l.ch 0#32 = l.lid) ∧
    (∀ l, s.input.launch = n → s.launch? n = some l → l.bound = false → s.mayBind l = true →
      (∀ x v, s.judge l = .plan x v → v.lostMember l x = false → v.spanReady l x = true → v.bindsFirst l = true → v.fits l x = true →
        ∃ t, exec .launchBinding s = .next t ∧
          t.launch? n = some { l with
            bound := true, cids := x.cids, coreSet := x.coreSet, remote := x.remote
            groups := x.groups.map fun g => g.planted (v.ownModule l.part) x.cids
            toWake := x.coreSet.foldl (fun t i => setInsert i t) [], since := some v.time, usedNs := 0 }) ∧
      (∀ t, s.judge l = .bad t → s.stsWaits l = none →
        exec .launchBinding s = .next (s.reject n l t) ∧ (s.reject n l t).launch? n = none) ∧
      (recordBad l = true → s.judge l = .bad { cause := 0x01#6 })) ∧
    (∀ l core cid, s.input.launch = n → s.input.item = cid → s.launch? n = some l →
      s.physCore? (l.cids.getD cid 0) = some core → cid ∈ l.toWake → l.spanUnbound = [] → l.saved = false →
      s.partRuns l.part = true → s.deadSite (coreSite core) = false → recSpc l.record ≤ (s.dormantSlots core).length →
      ∃ t, exec .wakeFlood s = .next t ∧ t.launch? n = some { l with toWake := setRemove cid l.toWake } ∧
        ∀ i slot, ((s.dormantSlots core).take (recSpc l.record))[i]? = some slot →
          let x := t.strand (strandOf core slot)
          x.st = .ready ∧ x.pc = recEntry l.record ∧ x.launch = n ∧ x.index = BitVec.ofNat 3 i ∧ x.birth = .launch ∧
          x.carveSize = recSpill l.record ∧ x.regs.pw = 1#8 ∧ x.regs.fmt = 0#14 ∧ x.regs.stat = 0#6 ∧
          (∀ r, x.regs.readG r = if r = 14#4 then 0x01FE000000000000#64 else 0#64) ∧
          (∀ r, x.regs.readV r = 0#512 ∧ x.regs.fullV r = true ∧ x.regs.fullG r = true)) ∧
    (∀ l, s.input.launch = n → s.launch? n = some l → l.bound = true → l.saved = false → s.partRuns l.part = true →
      l.expired s.time = false → s.launchLives n l = false → l.spanLeft = [] → s.stsWaits l = none → l.origin = none → l.spanSeq = none →
      ∃ t, exec .launchCompletion s = .next t ∧ t.launch? n = none ∧ t.part l.part = (s.part l.part).postDone l.ch l.lid) ∧
    (∀ (p : Partition) (ch : Nat) (i : BitVec 32),
      (i = p.ldone.getD ch 0#32 + 1#32 → p.early.contains (ch * 2 ^ 32 + (i + 1#32).toNat) = false →
        (p.postDone ch i).ldone.getD ch 0#32 = i) ∧
      (i ≠ p.ldone.getD ch 0#32 + 1#32 → p.early.contains (ch * 2 ^ 32 + (p.ldone.getD ch 0#32 + 1#32).toNat) = false →
        (p.postDone ch i).ldone.getD ch 0#32 = p.ldone.getD ch 0#32)))

/-! ## The atelier's instructions, the armature and gangs (17, 18, 08) -/

/-- R39, R83, R405: in user mode every atelier instruction traps PRIV and has no effect.

R404, R407, R408, R415: RESUME sets a parked strand going at its own pair, at the one after it or where it is told, with
a register replaced if asked; KILL frees a parked strand's slot; both answer why they cannot. RFT clears INTRAP and goes on at
ATEPC or at the pair after it, and is ILLEGAL outside a trap. (That an operand which
RESUME does not use is ignored is the model's reading: log 46.)

Concluded to complete, each by its own effect: RESUME, KILL, RFT. -/
def Obligations.AtelierStrandsComplete : Prop :=
  (∀ (s : State) (d c : Reg) (a b : Src) (m : BitVec 32), s.inAtelier = false →
    ∀ i, i ∈ [Instr.resume d a b c m, .kill d a m, .mbxrd d a m, .mbxack d a m, .mapset d a b, .routesetSite d a b, .routesetPort d a b,
        .partctlCreate d a b c m, .partctlResize d a b c m, .partctlDestroy d a b c m, .partctlFloor d a b c m,
        .partctlQcreate d a b c m, .partctlQdelete d a b c m, .partctlSetreg d a b c m, .partctlFreeze d a b c m,
        .partctlRelease d a b c m, .partctlReset d a b c m, .partctlSavearea d a b c m, .toksetCap d a b m, .toksetClear d a b m,
        .rft m] →
      exec i s = .next (s.takeTrap s.cur.slotA { cause := 0x02#6, addr := 0#64, info := 0#64 })) ∧
  (∀ (s : State) (d c : Reg) (a b : Src) (m : BitVec 32), s.inAtelier = true →
    let u := s.drainCore s.selfCore
    let w := (u.g a).toNat
    (∀ n, u.resolveTarget w = .error n → exec (.resume d a b c m) s = .next (u.setG d (BitVec.ofNat 64 n))) ∧
    (∀ k, u.resolveTarget w = .ok (.strand k) → (u.strand k).inHandler = false →
      (badOption m (u.g b) true = true → exec (.resume d a b c m) s = .next (u.setG d 4#64)) ∧
      (badOption m (u.g b) true = false →
        ∃ x : Strand, exec (.resume d a b c m) s = .next ((u.setStrand k x).setG d 0#64) ∧ x.st = .ready ∧
          x.pc = (if m.getLsbD 1 then u.g b else if m.getLsbD 0 then (u.strand k).pc + 8#64 else (u.strand k).pc) ∧
          ∀ r, x.regs.readG r =
            if m.getLsbD 2 = true ∧ r = m.extractLsb' 4 4 ∧ r ≠ 0#4 then u.gr c else (u.strand k).regs.readG r)) ∧
    (∀ n, s.resolveTarget (s.g a).toNat = .error n → exec (.kill d a m) s = .next (s.setG d (BitVec.ofNat 64 n))) ∧
    (∀ k, s.resolveTarget (s.g a).toNat = .ok (.strand k) →
      ∃ t, exec (.kill d a m) s = .next (State.setG t d 0#64) ∧ (t.strand k).st = .dormant ∧ ∀ x, x ∈ t.accesses → x.strand ≠ k) ∧
    (∀ zone v, s.selfZone = zone → s.badTgt zone v = true → s.resolveTarget v = .error 1) ∧
    ((s.core s.selfCore).intrap = true →
      exec (.rft m) s = .next ((s.setCore s.selfCore { s.core s.selfCore with intrap := false }).setPc
        ((s.core s.selfCore).atepc + if m.getLsbD 0 then 8#64 else 0#64))) ∧
    ((s.core s.selfCore).intrap = false → exec (.rft m) s = .next (s.takeTrap s.cur.slotA { cause := 0x01#6, addr := 0#64, info := 0#64 })))

/-- R415: on an atelier core RFT with INTRAP = 1 clears it and goes on at ATEPC, or with NEXT at ATEPC + 8, and with INTRAP = 0
is ILLEGAL.

Concluded to complete, each by its own effect: RFT. -/
def Obligations.RftReturns : Prop :=
  ∀ (s : State) (m : BitVec 32),
    let c := s.core s.selfCore
    let back := fun (pc : Word) => (s.setCore s.selfCore { c with intrap := false }).setPc pc
    let illegal := s.takeTrap s.cur.slotA { cause := 0x01#6, addr := 0#64, info := 0#64 }
    s.inAtelier = true →
      (c.intrap = true → m.getLsbD 0 = false → exec (.rft m) s = .next (back c.atepc)) ∧
      (c.intrap = true → m.getLsbD 0 = true → exec (.rft m) s = .next (back (c.atepc + 8#64))) ∧
      (c.intrap = false → exec (.rft m) s = .next illegal)

/-- R392, R409, R410, R411, R412, R414: MBXRD stores the oldest unread record at g[A], marks it read and answers its handle, and
without one waits or answers −1; MBXACK frees a read record; MAPSET gives a row its new word; ROUTESET refuses a bad word,
quarantines a site and configures a port; TOKSET sets a zone's cap, or the THROTTLE bits that the next cycle clears. (TOKSET's answers
beyond its table, and the form of ROUTESET by g[A][31], are the model's readings: logs 29 and 69.)

Concluded to complete, each by its own effect: MBXRD, MBXACK, MAPSET, ROUTESET_SITE, ROUTESET_PORT, TOKSET_CAP, TOKSET_CLEAR. -/
def Obligations.AtelierRecordsRoutesComplete : Prop :=
  ∀ (s : State) (d : Reg) (a b : Src) (m : BitVec 32), s.inAtelier = true →
    let core := s.selfCore
    let u := s.drainCore core
    let box := u.ownMailbox core
    ((s.g a).toNat % 64 = 0 → box.find? (fun r => !r.read) = none →
      exec (.mbxrd d a m) s = .next (if m.getLsbD 0 then u.hold .record else u.setG d (BitVec.allOnes 64))) ∧
    (∀ r v, (s.g a).toNat % 64 = 0 → box.find? (fun r => !r.read) = some r →
      u.storeWords (u.g a) r.body.toNat 8 0 u = .ok v →
      exec (.mbxrd d a m) s =
        .next ((v.setMailbox core ((v.ownMailbox core).map fun q =>
          if 8 * q.slot + q.index = 8 * r.slot + r.index then { q with read := true } else q)).setG d
            (BitVec.ofNat 64 (8 * r.slot + r.index)))) ∧
    ((s.ownMailbox core).find? (fun r => r.read && BitVec.ofNat 64 r.handle == s.g a) = none →
      exec (.mbxack d a m) s = .next (s.setG d 1#64)) ∧
    (∀ r, (s.ownMailbox core).find? (fun r => r.read && BitVec.ofNat 64 r.handle == s.g a) = some r →
      (m.getLsbD 0 = true → (s.ring (forwardRing m r.body)).full = true → exec (.mbxack d a m) s = .next (s.setG d 2#64)) ∧
      (m.getLsbD 0 = false → s.reports = [] →
        exec (.mbxack d a m) s =
          .next ((s.setMailbox core ((s.ownMailbox core).filter fun q => q.handle != r.handle)).setG d 0#64))) ∧
    (∀ gr, s.before.grant = some gr →
      let row := (s.g a).toNat
      (s.badMap s.selfZone (s.g a) (s.g b) = true → exec (.mapset d a b) s = .next (s.setG d 1#64)) ∧
      (s.badMap s.selfZone (s.g a) (s.g b) = false → s.mapBusy s.selfZone row (s.g b) = true →
        exec (.mapset d a b) s = .next (s.setG d 2#64)) ∧
      (s.badMap s.selfZone (s.g a) (s.g b) = false → s.mapBusy s.selfZone row (s.g b) = false →
        exec (.mapset d a b) s = .next ((s.useGrant.settlePages.mapRow s.selfZone row (s.g b)).setG d 0#64))) ∧
    (let v := (s.g b).toNat
     let row := bits (s.g a).toNat 12 4
     let col := bits (s.g a).toNat 8 4
     let good := s.g a &&& 0xFF00#64 = s.g a ∧ row < 12 ∧ col < 12 ∧ (v = 0 ∨ v = 3)
     let site := siteOf s.selfZone row col
     (¬good → exec (.routesetSite d a b) s = .next (s.setG d 1#64)) ∧
     (good → v = 3 → exec (.routesetSite d a b) s = .next ((s.quarantine site 0).setG d 0#64)) ∧
     (good → v = 0 → exec (.routesetSite d a b) s = .next (s.setG d (if s.deadSite site then 1#64 else 0#64)))) ∧
    (let w := (s.g a).toNat
     let v := (s.g b).toNat
     let good := w % 128 < 96 ∧ w = 2 ^ 31 + w % 128 ∧ 1 ≤ v % 64 ∧ (v < 64 ∨ 256 ≤ v ∧ v < 320)
     (¬good → exec (.routesetPort d a b) s = .next (s.setG d 1#64)) ∧
     (good → exec (.routesetPort d a b) s =
       .next ((s.setPort (w % 128) ((s.port (w % 128)).configure (v % 64) (decide (256 ≤ v)))).setG d 0#64))) ∧
    (let z := (s.g a).toNat
     (z < 64 → m.extractLsb' 0 2 = 0#2 → (s.g b).toNat < 2 ^ 20 →
       exec (.toksetCap d a b m) s = .next ((s.setZone z { s.zone z with cap := (s.g b).toNat }).setG d 0#64)) ∧
     (z < 64 → (s.g b).toNat < 32 →
       exec (.toksetClear d a b m) s =
         .next ((s.setZone z { s.zone z with clear := (s.zone z).clear ||| (s.g b).extractLsb' 0 5 }).setG d 0#64)) ∧
     (64 ≤ z → exec (.toksetCap d a b m) s = .next (s.setG d 1#64) ∧ exec (.toksetClear d a b m) s = .next (s.setG d 1#64)))

/-- R185, R186, R187, R192, R268, R304, R413, R422, R428, R429, R430: PARTCTL's requests, once their answer has come. Each that its
checks let through answers 0, and one that they do not changes nothing and answers why; the frame of a queue descriptor that is read is
zeroed if it was marked (R465). (The floor at CREATE, the answers of QCREATE and SAVEAREA in use, of a partition number in use, of an
empty zone mask and of a descriptor that cannot be read, and those beyond the table, are the model's readings: logs 29, 84 and 123.)

Concluded to complete, each by its own effect: PARTCTL_CREATE, PARTCTL_RESIZE, PARTCTL_DESTROY, PARTCTL_FLOOR, PARTCTL_QCREATE,
PARTCTL_QDELETE, PARTCTL_SETREG, PARTCTL_FREEZE, PARTCTL_RELEASE, PARTCTL_RESET, PARTCTL_SAVEAREA. -/
def Obligations.PartitionControlComplete : Prop :=
  ∀ (s : State) (d c : Reg) (a b : Src) (m : BitVec 32) (gr : Grant), s.inAtelier = true → s.before.grant = some gr →
    let u := s.useGrant
    let p := (s.g a).toNat
    let x := (s.g b).toNat
    let q := u.part p
    let answers := fun (i : Instr) (t : State) (n : Word) => exec i s = .next (t.setG d n)
    let exists_ := p < 64 ∧ q.live = true
    (let n := presentIn u (s.g b)
     let free := p < 64 ∧ (s.gr c).toNat < 64 ∧ q.live = false ∧ u.zonesFree (s.g b) none = true
     (¬free ∨ m.toNat % 256 ≠ 0 → answers (.partctlCreate d a b c m) u 1#64) ∧
     (free → m.toNat % 256 = 0 → u.floorOk p n n = false → answers (.partctlCreate d a b c m) u 3#64) ∧
     (free → m.toNat % 256 = 0 → u.floorOk p n n = true →
       ∃ t, answers (.partctlCreate d a b c m) t 0#64 ∧
         t.part p = { tenant := (s.gr c).toNat, zones := s.g b, live := true, floor := n, frozen := u.frozen (s.gr c).toNat })) ∧
    (exists_ → u.zonesFree (s.g b) (some p) = true → u.partBound p = false →
      u.floorOk p (presentIn u (s.g b)) (max q.floor (presentIn u (s.g b))) = true →
      ∃ t, answers (.partctlResize d a b c m) t 0#64 ∧
        t.part p = { q with zones := s.g b, floor := max q.floor (presentIn u (s.g b)) }) ∧
    (exists_ → u.zonesFree (s.g b) (some p) = false → answers (.partctlResize d a b c m) u 1#64) ∧
    (exists_ → u.zonesFree (s.g b) (some p) = true → u.partBound p = true → answers (.partctlResize d a b c m) u 2#64) ∧
    (exists_ → u.zonesFree (s.g b) (some p) = true → u.partBound p = false →
      u.floorOk p (presentIn u (s.g b)) (max q.floor (presentIn u (s.g b))) = false → answers (.partctlResize d a b c m) u 3#64) ∧
    (exists_ → u.partBound p = true → answers (.partctlDestroy d a b c m) u 2#64) ∧
    (exists_ → u.partBound p = false → ∃ t, answers (.partctlDestroy d a b c m) t 0#64 ∧ t.part p = {}) ∧
    (exists_ → u.floorOk p (presentIn u q.zones) x = true →
      answers (.partctlFloor d a b c m) (u.setPart p { q with floor := x }) 0#64) ∧
    (exists_ → u.floorOk p (presentIn u q.zones) x = false → answers (.partctlFloor d a b c m) u 3#64) ∧
    (¬exists_ → ∀ i, i ∈ [Instr.partctlResize d a b c m, .partctlDestroy d a b c m, .partctlFloor d a b c m,
        .partctlSavearea d a b c m, .partctlReset d a b c m] → answers i u 1#64) ∧
    (let pn := p / 32
     let qn := p % 32
     let w := (u.touch x).touch (x + 63)
     let named := p < 2 ^ 11 ∧ (s.gr c).toNat < 64 ∧ (u.part pn).live = true
     let creates := answers (.partctlQcreate d a b c m)
     (¬named ∨ u.readDescriptor (s.g b) = none → creates u 1#64) ∧
     (∀ y, named → u.readDescriptor (s.g b) = some y →
       (badQueueDescriptor y pn = true → creates w 1#64) ∧
       (badQueueDescriptor y pn = false →
         (((u.part pn).queues.getD qn {}).st ≠ .off → creates w 2#64) ∧
         (((u.part pn).queues.getD qn {}).st = .off → (u.part pn).tenant ≠ (s.gr c).toNat → creates w 4#64) ∧
         (((u.part pn).queues.getD qn {}).st = .off → (u.part pn).tenant = (s.gr c).toNat → (u.part pn).frozen = false →
           creates (w.setQueue pn qn
             { st := .idle, base := BitVec.ofNat 64 (bits y 0 64), log2n := bits y 80 4, wdtUs := bits y 104 24
               qprio := BitVec.ofNat 3 (bits y 96 3) }) 0#64))) ∧
     (p < 2 ^ 11 → (u.part pn).live = true →
       answers (.partctlQdelete d a b c m)
         (u.setQueue pn qn { (u.part pn).queues.getD qn {} with st := .off, pend := 0, firstRead := none, nextRead := 0 }) 0#64) ∧
     (2 ^ 11 ≤ p ∨ (u.part pn).live = false → answers (.partctlQdelete d a b c m) u 1#64)) ∧
    (let n := p / 32
     let r := p % 32
     let k := u.part n
     let sets := answers (.partctlSetreg d a b c m)
     let bad := fun (r : Nat) =>
       r = 0 ∧ (x / 2 ^ 52 ≠ 0 ∨ x % 2 ^ 12 ≠ 0) ∨ r = 1 ∧ x % 2 ^ 4 ≠ 0 ∨ r = 2 ∧ (x / 2 ^ 57 ≠ 0 ∨ x / 2 % 2 ^ 14 ≠ 0) ∨
         r = 3 ∧ (x / 2 ^ 57 ≠ 0 ∨ x % 2 ^ 12 ≠ 0) ∨ r = 4 ∧ (x / 2 ^ 32 ≠ 0 ∨ x % 2 ^ 12 ≠ 0) ∨
         r = 5 ∧ (x / 2 ^ 57 ≠ 0 ∨ x / 2 % 4 ≠ 0) ∨ 6 < r
     (2 ^ 11 ≤ p ∨ bad r ∨ 2 ≤ r ∧ k.live = false → sets u 1#64) ∧
     (p < 2 ^ 11 → ¬bad r →
       (r = 0 → sets (u.setModule { u.module with pgroot := s.g b }) 0#64) ∧
       (r = 1 → sets (u.setTenant n { u.tenant n with ptroot := s.g b }) 0#64) ∧
       (k.live = true →
         (r = 2 → sets (u.setPart n { k with kvroot := s.g b }) 0#64) ∧
         (r = 3 → sets (u.setPart n { k with ovbase := s.g b }) 0#64) ∧
         (r = 4 → sets (u.setPart n { k with ovstr := s.g b }) 0#64) ∧
         (r = 5 → u.pinned (s.g b &&& ~~~7#64) = false → sets u 3#64) ∧
         (r = 5 → u.pinned (s.g b &&& ~~~7#64) = true → sets (u.setPart n { k with kvsh := s.g b }) 0#64) ∧
         (r = 6 → sets (u.setPart n { k with kvsharg := s.g b }) 0#64)))) ∧
    (p < 64 → answers (.partctlFreeze d a b c m) (u.freezeTenant p) 0#64 ∧ answers (.partctlRelease d a b c m) (u.releaseTenant p) 0#64) ∧
    (64 ≤ p → answers (.partctlFreeze d a b c m) u 1#64 ∧ answers (.partctlRelease d a b c m) u 1#64) ∧
    (exists_ → q.gang = .draining → answers (.partctlReset d a b c m) (u.drainReset p) 0#64) ∧
    (exists_ → q.gang ≠ .draining → q.resetDue = false → answers (.partctlReset d a b c m) u 0#64) ∧
    (exists_ → (x % 4096 ≠ 0 ∨ 2 ^ 52 ≤ x ∨ paIsHbm x = false ∨
        0 < (s.gr c).toNat ∧ paIsHbm (x + (s.gr c).toNat - 1) = false) → answers (.partctlSavearea d a b c m) u 1#64) ∧
    (exists_ → x % 4096 = 0 → x < 2 ^ 52 → paIsHbm x = true → ((s.gr c).toNat = 0 ∨ paIsHbm (x + (s.gr c).toNat - 1) = true) →
      (q.saved.isSome = true ∨ q.gang ≠ .running → answers (.partctlSavearea d a b c m) u 2#64) ∧
      (q.saved = none → q.gang = .running →
        ∃ t, answers (.partctlSavearea d a b c m) t 0#64 ∧ t.part p = { q with saveBase := x, saveSize := (s.gr c).toNat, gen := 0#32 } ∧
          t.readPa x 64 = 0))

/-- R429, R430: a freeze gathers every queue and partition of the tenant in FROZEN, and a release gives each queue back the state
that it held; neither touches another tenant's partitions, and a release undoes a freeze. -/
def Obligations.FreezeAndReleaseAgree : Prop :=
  ∀ (s : State) (n p : Nat), (s.tenant n).frozen = false → (s.part p).live = true → (s.part p).frozen = false →
    (∀ k, ((s.part p).queues.getD k {}).st ≠ .frozen) →
    let t := s.freezeTenant n
    let u := t.releaseTenant n
    (t.tenant n).frozen = true ∧ (u.tenant n).frozen = false ∧
    ((s.part p).tenant = n → (t.part p).frozen = true ∧ (u.part p).frozen = false ∧
      ∀ k q, (s.part p).queues.find? k = some q →
        (q.st ≠ .off → ((t.part p).queues.getD k {}).st = .frozen) ∧ ((u.part p).queues.getD k {}).st = q.st) ∧
    ((s.part p).tenant ≠ n → t.part p = s.part p ∧ u.part p = s.part p) ∧ t.mem = s.mem ∧ t.strands = s.strands

/-- R201, R204, R205, R208, R210, R214: the armature's cycle. At its start the zones' sensors are read and the pool of the PCAP
is divided; 6 µs later raised allocations take effect and notices go out; 8 µs after the start lowered ones do, and the next
cycle begins 10 µs after this one. A loan ends with its term.

R417–R420, R424–R428, R448, R492: the phases of a gang switch, each when its condition holds, and a
launch past its deadline, whose queue faults and whose partition drains; a drain leaves no strand, operation, message in flight or launch
of the partition; the leader's stamp arms a member of a span that may be stopped (R448). (How that stamp is carried, the armature's caps and a THERM cap's end, what a save's write-backs count as, and
what a save area and a restore need are the model's readings: logs 117, 30, 80, 31, 76 and 92.)

Concluded to complete, each by its own effect: ARMATURE_CYCLE, TOKH_RAISE, TOKH_LOWER, LOAN_TERM_END, GANG_SWITCH_ARM,
GANG_SWITCH_STOP, SAVE_START, SAVE_COMPLETE, RESTORE_START, RESTORE_COMPLETE, DRAIN_RESET_COMPLETE, WATCHDOG_EXPIRY. -/
def Obligations.ArmatureAndGangEventsComplete : Prop :=
  (∀ s : State,
    let start := 10000 * s.module.cycle
    (s.module.ready = true → s.module.armPhase = 0 → start ≤ s.time →
      ∃ t, exec .armatureCycle s = .next t ∧ t.module.armPhase = 1 ∧ t.module.cycle = s.module.cycle ∧ t.module.divPcap = s.module.pcap ∧
        t.time = s.time ∧ t.strands = s.strands ∧ t.mem = s.mem) ∧
    (s.module.armPhase = 1 → start + 6000 ≤ s.time →
      ∃ t, exec .tokhRaise s = .next t ∧ t.module.armPhase = 2 ∧
        ∀ site x, s.tiles.find? site = some x → t.tile site = { x with account := x.account.arrive (s.hosts site) }) ∧
    (s.module.armPhase = 2 → start + 8000 ≤ s.time →
      ∃ t, exec .tokhLower s = .next t ∧ t.module.armPhase = 0 ∧ t.module.cycle = s.module.cycle + 1 ∧
        ∀ site x, s.tiles.find? site = some x → x.account.st = .notice →
          (t.tile site).account =
            { x.account with
              tokh := max (x.account.tokh - x.account.lowering) (if s.hosts site then 1 else 0), lowering := 0, st := x.account.prior }) ∧
    (∀ site, s.input.site = site →
      let x := (s.tile site).account
      (∀ l, x.loans = [l] → x.st = .lent → l.recalled = false → 10000 * (l.termCycle + 1) ≤ s.time →
        ∃ t, exec .loanTermEnd s = .next t ∧ (t.tile site).account = { x with st := .held, loans := [] } ∧
          ∀ k, k ≠ site → t.tile k = s.tile k) ∧
      ((∃ l, l ∈ x.loans ∧ l.recalled = false ∧ 10000 * (l.termCycle + 1) ≤ s.time) →
        ∃ t, exec .loanTermEnd s = .next t ∧ (t.tile site).account.tokh = x.tokh ∧
          ∀ l, l ∈ (t.tile site).account.loans ↔ l ∈ x.loans ∧ (l.recalled = true ∨ s.time < 10000 * (l.termCycle + 1)))) ∧
    (∀ (x : Account) (hosts : Bool),
      let alloc := if hosts then max 1 x.next else x.next
      (x.tokh ≤ alloc → (x.arrive hosts).tokh = alloc) ∧
      (alloc < x.tokh → (x.arrive hosts).tokh = x.tokh ∧ (x.arrive hosts).st = .notice ∧ (x.arrive hosts).lowering = x.tokh - alloc))) ∧
  (∀ (s : State) (p : Nat), s.input.part = p → (s.part p).live = true → (s.part p).frozen = false →
    let q := s.part p
    (∀ l, s.input.flag = false → q.gang = .running → s.preemptible p = true → s.spanBound p = false →
      s.launch? s.input.launch = some l → l.part = p → l.bound = false → s.lacksSlots l = true →
      (∀ e, e ∈ s.boundIn p → e.2.prio.toNat < l.prio.toNat) →
      exec .gangSwitchArm s = .next (s.setPart p { q with gang := .armed, stamp := s.time + 4000, requester := s.input.launch })) ∧
    (s.input.flag = true → s.otherMembers p ≠ [] → s.ownModule p ≠ 0 → s.tagLog.find? (s.controlTag p) = none →
      s.logFull (s.spanNo p) s.input.module = false →
      let u := { s with tagLog := s.tagLog.set (s.controlTag p) 0 }
      let stops := q.gang = .running ∧ (s.boundIn p = [] ∨ s.preemptible p = true)
      (stops → exec .gangSwitchArm s = .next ((u.setPart p
        { q with gang := .armed, stamp := (s.input.off + s.input.value.toInt).toNat, requester := 0 }).answerControl p)) ∧
      (¬stops → exec .gangSwitchArm s = .next (u.answerControl p))) ∧
    (q.gang = .armed → q.stamp ≤ s.time → s.boundIn p = [] →
      exec .gangSwitchStop s = .next (s.setPart p { q with gang := .running, pcapSwitch := false })) ∧
    (q.gang = .armed → q.stamp ≤ s.time → s.boundIn p ≠ [] →
      ∃ t, exec .gangSwitchStop s = .next t ∧ (t.part p).gang = .stopping) ∧
    (q.gang = .stopping → (∀ a, a ∈ s.accesses → s.inPart p (strandCore a.strand) = false) →
      (∀ e, e ∈ s.tiles.entries → q.hasZone (siteZone e.1) = true → e.2.shadow = none) →
      (∀ o, o ∈ s.ops → o.part = p → s.midStep o = false) →
      exec .saveStart s = .next ((s.setPart p { q with gang := .saving }).writePa q.saveBase 1 1)) ∧
    (q.gang = .saving → q.resetDue = false →
      ∃ t, exec .saveComplete s = .next t ∧ (t.part p).gang = .saved ∧ (t.part p).gen = q.gen + 1#32 ∧
        (∃ blocks, (t.part p).saved = some { s.image p with blocks := blocks }) ∧ (∀ k, s.inPart p (strandCore k) = true → (t.strand k).st = .dormant) ∧
        (∀ o, o ∈ t.ops → s.inPart p o.core = false)) ∧
    (∀ v, q.saved = some v → q.gang = .saved → v.selected = true → s.setFree v = true → s.waitsAbove p v.sprio = false →
      (s.restorable p v = .ok →
        ∃ t : State, exec .restoreStart s = .next t ∧ t.parts = (s.setPart p { q with gang := .restoring }).parts ∧
          t.mem = (s.writePa q.saveBase 1 3).mem ∧ t.strands = s.strands ∧ ∀ n l, t.launch? n = some l → l.part = p → l.since = none) ∧
      (s.restorable p v = .bad → ∃ t : State, exec .restoreStart s = .next t ∧ (t.part p).gang = .draining)) ∧
    (∀ v, q.saved = some v → q.gang = .restoring →
      ∃ t, exec .restoreComplete s = .next t ∧ (t.part p).gang = .running ∧ (t.part p).saved = none) ∧
    (q.gang = .draining →
      ∃ t, exec .drainResetComplete s = .next t ∧ (t.part p).gang = .running ∧
        (∀ k, s.inPart p (strandCore k) = true → (t.strand k).st = .dormant) ∧ (∀ o, o ∈ t.ops → s.inPart p o.core = false) ∧
        (∀ m, m ∈ t.messages → s.inPart p m.srcCore = false ∧ (m.module = none → s.inPart p m.target = false)) ∧
        (∀ n l, t.launch? n = some l → l.part = p → l.spanLeft ≠ [] ∨ (n = q.spared ∧ l.bound = false))) ∧
    (∀ n l, s.input.launch = n → s.launch? n = some l → l.part = p → l.bound = true → l.saved = false → l.since.isSome = true →
      q.gang = .running → l.origin = none → l.wdtUs * 1000 ≤ l.used (s.time / 1000 * 1000) →
      (q.queues.getD l.wdtQueue {}).st ≠ .off →
      let u := (s.faultQueue p l.wdtQueue 4#4 0x30).startDrain p 4#4
      exec .watchdogExpiry s = .next (u.setPart p { u.part p with spared := 0 })))

/-- R205, R206: no division of the armature gives more than there is: the children of a node, whose floors fit into what is
available, get no more than that in all, each at least its floor and at most the larger of its demand and its floor. -/
def Obligations.DivisionFitsThePool : Prop :=
  ∀ (avail : Nat) (cs : List (Nat × Nat)), natSum (cs.map (·.1)) ≤ avail →
    natSum (divide avail cs) ≤ avail ∧ (divide avail cs).length = cs.length ∧
    ∀ (i fl dm : Nat), cs[i]? = some (fl, dm) → ∃ g, (divide avail cs)[i]? = some g ∧ fl ≤ g ∧ g ≤ max dm fl

/-! ## Errors and wear (19, 21, 27) -/

/-- R434, R435: a core that beats is heard in the present period; a core silent for three whole periods is dead, with one KIND 5
record to its zone's primary; a standby takes over from a primary that is silent or has stopped, under its own records first;
and a zone that has lost both atelier cores leaves service, its partition draining, at once or after a save that has begun (R421). (How a
heartbeat is counted, where the old primary's records go, and when the zone leaves are the model's readings: logs 53, 54 and 55.)

R398, R431, R432, R433, R436, R487: an error in a tile's state quarantines the site, or ends the pinned code whose registers
it met, but a tile whose SRAM has failed raises no record of its own; a corrected read counts and changes nothing else; an uncorrectable one poisons its granule; the sweep of a bank with
eight such granules makes the tile's SRAM failed; a mesh link is retired at the sixteenth failure in a row; and a store of 0
clears a counter. (Which errors of pinned code go to the standby, what one of the carry store does, what the operands name and
how a bank lies are the model's: logs 56, 57 and 58.)

R465, R466, R467, R468: the first touch of a marked frame zeroes it and clears its poison and its mark; the scrubber's first
pass does so frame by frame, and its reads leave every value; a sensor's first sample is its low point, and a swing of 40 degrees
and back is one cycle; a record write stores the counts in a new record, once the stored one has been read. (The operands are
the model's: log 58.)

Concluded to complete, each by its own effect: HEARTBEAT, CORE_DEAD, ATELIER_TAKEOVER, ZONE_OUT_OF_SERVICE, TILE_STATE_ERROR,
SRAM_PATROL_READ, SRAM_BANK_SWEEP, MESH_FLIT_RETRY, ERROR_COUNTER_CLEAR, FIRST_TOUCH_ZEROING, SCRUB_ZEROING_PASS,
SCRUB_READ_PASS, WEAR_SENSOR_SAMPLE, WEAR_RECORD_WRITE. -/
def Obligations.ErrorAndWearEventsComplete : Prop :=
  (∀ s : State,
    let i := s.input
    let z := s.zone i.zone
    (s.sendsBeat i.core = true →
      exec .heartbeat s = .next (s.setCore i.core { s.core i.core with lastBeat := s.time / 50000 + 1 })) ∧
    (s.module.ateliersStarted = true → i.core < 18432 → s.deadSite (i.core / 2) = false → (s.core i.core).dead = false →
      max (s.core i.core).lastBeat s.module.beatFrom + 3 ≤ s.time / 50000 → (s.zone (coreZone i.core)).outOfService = false →
      exec .coreDead s = .next ((s.setCore i.core { s.core i.core with dead := true }).siteReport i.core 0)) ∧
    (s.time / 50000 < max (s.core i.core).lastBeat s.module.beatFrom + 3 → exec .coreDead s = .next s) ∧
    (i.zone < 64 → s.module.ateliersStarted = true → z.hasStandby = true → (s.core (z.standbyCore i.zone)).stopped = false →
      (s.silentCore (z.primaryCore i.zone) = true ∨ ∃ r, r ∈ z.mbxStandby ∧ r.slot = 290) →
      ∃ t : State, exec .atelierTakeover s = .next t ∧ (t.core (z.primaryCore i.zone)).stopped = true ∧
        (t.zone i.zone).primary = 1 - z.primary ∧ (t.zone i.zone).hasStandby = false ∧ (t.zone i.zone).mbxStandby = [] ∧
        z.mbxStandby <+: (t.zone i.zone).mbx) ∧
    (i.zone < 64 → s.module.ateliersStarted = true → z.outOfService = false → s.lostAtelier (z.primaryCore i.zone) = true →
      (z.hasStandby = true → s.lostAtelier (z.standbyCore i.zone) = true) →
      ∃ t : State, exec .zoneOutOfService s = .next t ∧ (t.zone i.zone).outOfService = true ∧
        ∀ p, s.zonePart i.zone = some p →
          let q := s.part p
          let saves := q.gang = .saving ∨ q.gang = .stopping
          (¬saves → (t.part p).gang = .draining) ∧ (saves → (t.part p).resetDue = true ∧ (t.part p).gang = q.gang))) ∧
  (∀ s : State,
    let i := s.input
    let z := s.zone i.zone
    (i.site < 9216 → i.flag = false → i.level ≠ 1 → s.silent i.site = false →
      exec .tileStateError s = .next (s.quarantine i.site 0x0B)) ∧
    (i.flag = false → i.level ≠ 1 → s.silent i.site = true → exec .tileStateError s = .next s) ∧
    (i.flag = true → i.level ≠ 1 → s.silent (strandSite i.strand) = false → ∀ run, (s.strand i.strand).handler = some run → (s.strand i.strand).inHandler = true →
      (s.strand i.strand).inShadow = false → (s.strand i.strand).st ≠ .dormant →
      ∃ t : State, exec .tileStateError s = .next t ∧ (t.strand i.strand).st = .parked ∧ (t.strand i.strand).tcause = 0x238#10) ∧
    (let counted := s.setZone (siteZone i.site)
       (let y := s.zone (siteZone i.site)
        if i.item < 4 ∨ i.item = 5 then { y with sramce := satInc y.sramce } else { y with parrf := satInc y.parrf })
     let core := 2 * i.site + i.level % 2
     let l1 := 4 * i.site + i.level % 4
     let onlyDirty := (s.l2.find? i.off).any fun x => x.dirtier.isSome && !x.atHome && x.sharers == [l1]
     i.site < 9216 → i.found = .correctable →
      (i.item ≠ 4 → i.item ≠ 6 → exec .sramPatrolRead s = .next counted) ∧
      (i.item = 6 → exec .sramPatrolRead s =
        .next (counted.setCore core { s.core core with plb := (s.core core).plb.eraseIdx i.off })) ∧
      (i.item = 4 → exec .sramPatrolRead s = .next (if onlyDirty then counted else counted.giveUp i.off l1))) ∧
    (i.site < 9216 → i.found = .uncorrectable → i.item = 0 → i.off < 49152 → 64 * i.off < s.userScratch i.site → s.accesses = [] →
      (∀ z x, x ∈ (s.zone z).tasks → x.irrevocable = true) →
      ∃ t : State, exec .sramPatrolRead s = .next t ∧ t.poisoned (sramPa i.site (64 * i.off)) = true ∧
        t.zones = s.zones ∧ t.mem = s.mem) ∧
    (let bank := fun (g : Nat) => g < 49152 ∧ 64 * g / 196608 = i.item
     let known := (s.tile i.site).sramBad.filter fun g => 64 * g / 196608 = i.item
     i.site < 9216 → (s.tile i.site).sramFailed = false → known ≠ [] → s.accesses = [] →
      (∀ z x, x ∈ (s.zone z).tasks → x.irrevocable = true) →
      ∃ t : State, exec .sramBankSweep s = .next t ∧
        ((t.tile i.site).sramFailed = true ↔
          8 ≤ known.length + ((i.bad.filter fun g => bank g ∧ g ∉ known).dedup).length)) ∧
    (i.zone < 64 → i.item ∉ z.deadLinks →
      (i.flag = false →
        exec .meshFlitRetry s =
          .next (s.setZone i.zone { z with meshrt := satInc z.meshrt, linkFails := z.linkFails.erase i.item })) ∧
      (i.flag = true → z.linkFails.getD i.item 0 < 15 →
        exec .meshFlitRetry s =
          .next (s.setZone i.zone
            { z with meshrt := satInc z.meshrt, linkFails := z.linkFails.set i.item (z.linkFails.getD i.item 0 + 1) })) ∧
      (i.flag = true → z.linkFails.getD i.item 0 = 15 →
        exec .meshFlitRetry s =
          .next (s.setZone i.zone
            { z with
              meshrt := satInc z.meshrt, meshrl := satInc z.meshrl, linkFails := z.linkFails.erase i.item
              deadLinks := setInsert i.item z.deadLinks }))) ∧
    (i.zone < 64 → i.value = 0#64 → s.module.fwfail = false →
      (i.off = 0 → exec .errorCounterClear s = .next (s.setZone i.zone { z with sramce := 0#32 })) ∧
      (i.off = 8 → exec .errorCounterClear s = .next (s.setZone i.zone { z with parrf := 0#32 })) ∧
      (i.off = 16 → exec .errorCounterClear s = .next (s.setZone i.zone { z with meshrt := 0#32 })) ∧
      (i.off = 24 → exec .errorCounterClear s = .next (s.setZone i.zone { z with meshrl := 0#32 }))) ∧
    (i.zone < 64 → i.value ≠ 0#64 → exec .errorCounterClear s = .next s)) ∧
  (∀ s : State,
    let i := s.input
    let m := s.module
    let w := m.sensors.getD i.item {}
    let f := s.scrubNext i.stack
    (∃ t : State, exec .firstTouchZeroing s = .next t ∧ t.marked i.off = false ∧
      (s.marked i.off = true → ∀ a, a / 4096 = i.off → t.readPa a 1 = 0 ∧ t.poisoned a = false) ∧
      (s.marked i.off = false → t = s)) ∧
    (m.ready = true → i.stack < 40 → f < (i.stack + 1) * 2 ^ 24 →
      exec .scrubZeroingPass s =
        .next ((s.zeroFrame f).setModule { m with scrubNext := m.scrubNext.set i.stack (f + 1 - i.stack * 2 ^ 24) })) ∧
    (m.ready = true → i.stack < 40 → (i.stack + 1) * 2 ^ 24 ≤ f → 64 * i.off / Config.hbmStackBytes = i.stack → i.flag = false →
      (i.found ≠ .uncorrectable → exec .scrubReadPass s = .next s) ∧
      (i.found = .uncorrectable → s.marked (64 * i.off / 4096) = false →
        (s.cachedAt (64 * i.off) = none →
          let u := s.poisonAt (64 * i.off)
          exec .scrubReadPass s = .next (u.setModule { u.module with scrubErrors := u.module.scrubErrors + 1 })) ∧
        (∀ c, s.cachedAt (64 * i.off) = some c →
          ∃ t : State, exec .scrubReadPass s = .next t ∧ t.poison = s.poison ∧ t.mem = s.mem ∧
            t.module = { m with scrubErrors := m.scrubErrors + 1 }))) ∧
    (i.item < 104 →
      ∃ v : Sensor, exec .wearSensorSample s = .next (s.setModule { m with sensors := m.sensors.set i.item v }) ∧
        (w.x = none → v = { w with x := some i.temp }) ∧
        (∀ x, w.x = some x → w.high = false → x + 4000 ≤ i.temp → v = { c := satInc w.c, high := true, x := some i.temp }) ∧
        (∀ x, w.x = some x → w.high = false → i.temp < x + 4000 → v = { w with x := some (min x i.temp) }) ∧
        (∀ x, w.x = some x → w.high = true → i.temp ≤ x - 4000 → v = { w with high := false, x := some i.temp }) ∧
        (∀ x, w.x = some x → w.high = true → x - 4000 < i.temp → v = { w with x := some (max x i.temp) })) ∧
    (m.powered = false ∨ m.fwfail = true ∨ m.recordChecked = false → exec .wearRecordWrite s = .next s) ∧
    (m.powered = true → m.fwfail = false → m.recordChecked = true →
      ∃ r : FlashRecord, r.wear = ⟨m.sensors.entries.map fun e => (e.1, e.2.c)⟩ ∧
        exec .wearRecordWrite s =
          .next (s.setModule { m with recordWrites := m.recordWrites + 1, copies := (r :: m.copies).take 2 })))

/-! ## Start-up and the host's registers (12, 19, 21, 22) -/

/-- R463, R464, R468, R469: power-good starts wafer time at 0; an image is accepted or sets FWFAIL; the stored record decides what
trains in full and which sites are dead; stacks and ports come up, a full training writing a new record; the atelier cores start
once every stack that the record cleared is up; READY needs every stack and every maquette, and a committed image then raises
FWSVN. A PCIe port comes up from power-good on. (What start-up leaves to its operands, and what flash was shipped with, are the
model's: logs 11, 19 and 59.)

R464, R468, R471: a module reset leaves wafer time and memory and makes every register what reset makes it, with no launch,
partition or strand and every maquette row absent; a loss of power keeps FWSVN, the stored records and what flash and the host's
memory hold, and nothing else. (What a module reset keeps, and what a loss of power does, are the model's reading: log 60.)

Concluded to complete, each by its own effect: POWER_GOOD, FIRMWARE_VERIFICATION, STORED_RESULTS_CHECK, HBM_TRAINING_COMPLETE,
PORT_TRAINING_COMPLETE, ATELIER_CORES_START, MODULE_READY, MODULE_RESET, POWER_LOSS. -/
def Obligations.StartUpAndResetComplete : Prop :=
  (∀ s : State,
    let i := s.input
    let m := s.module
    (m.powered = false →
      exec .powerGood s = .next ({ s with time := 0, zeroed := [] }.setModule { m with powered := true, sensors := m.loadWear })) ∧
    (∀ f, m.copies.head? = some f → ∀ n c, n < 104 → f.wear.find? n = some c → (m.loadWear.getD n {}).c = c) ∧
    (m.powered = true → m.fwOk = false → m.fwfail = false →
      (s.offeredImage = none → exec .firmwareVerification s = .next (s.setModule { m with fwfail := true })) ∧
      (s.recoveryBytes = [] → s.offeredImage = i.image) ∧
      (∀ g, s.offeredImage = some g →
        let u := { m with imageHash := some g.hash }
        (g.hashOk = true ∧ g.rsaOk = true ∧ g.slhOk = true ∧ m.fwsvn.toNat ≤ g.svn.toNat →
          exec .firmwareVerification s =
            .next (s.setModule { u with fwOk := true, commitSvn := if g.commit then some g.svn else none })) ∧
        (¬(g.hashOk = true ∧ g.rsaOk = true ∧ g.slhOk = true ∧ m.fwsvn.toNat ≤ g.svn.toNat) →
          exec .firmwareVerification s = .next (s.setModule { u with fwfail := true })))) ∧
    (m.fwOk = true → m.recordChecked = false → ∀ f fs r, m.copies = f :: fs → i.record = some r →
      let selfTest := fun (t : Nat) => t < 9216 ∧ Config.selfTestDead (siteZone t) (siteRow t) (siteCol t) = true
      ∃ t : State, exec .storedResultsCheck s = .next t ∧ t.module.recordChecked = true ∧ t.module.bootSt = .training ∧
        (∀ k, k ∈ t.module.fullTrain ↔
          k < 40 ∧ (r.sigOk = false ∨ k ∈ r.badStacks ∨ f.training.find? k = none)) ∧
        (∀ k, k ∈ t.module.fullTrainPorts ↔
          k < 96 ∧ (r.sigOk = false ∨ k ∈ r.badPorts ∨ f.equalisation.find? k = none)) ∧
        (r.sigOk = true → r.defectsOk = true → ∀ k, k ∈ t.module.defects ↔ k ∈ m.defects ∨ k ∈ f.defects) ∧
        (r.sigOk = false ∨ r.defectsOk = false → ∀ k, k ∈ t.module.defects ↔ k ∈ m.defects ∨ selfTest k)) ∧
    (m.recordChecked = true → i.stack < 40 → i.stack ∉ m.stacksTrained →
      ∃ t : State, exec .hbmTrainingComplete s = .next t ∧ i.stack ∈ t.module.stacksTrained ∧
        i.stack ∉ t.module.fullTrain ∧
        t.module.recordWrites = m.recordWrites + (if i.stack ∈ m.fullTrain then 1 else 0) ∧
        (i.stack ∈ m.fullTrain → ∃ f : FlashRecord, t.module.copies.head? = some f ∧ f.training.find? i.stack = some i.value)) ∧
    (m.powered = true → i.port = 96 ∨ i.port = 97 →
      exec .portTrainingComplete s = .next (s.setModule { m with pcieUp := setInsert (i.port - 96) m.pcieUp })) ∧
    (m.recordChecked = true → i.port < 96 → (s.port i.port).trained = false → (i.port ∈ m.fullTrainPorts → m.ready = true) →
      s.outbox = [] →
      ∃ t : State, exec .portTrainingComplete s = .next t ∧
        t.port i.port = { s.port i.port with up := true, trained := true, lastArrival := s.time, lastSent := s.time, failedAt := none, settled := [] } ∧
        i.port ∉ t.module.fullTrainPorts) ∧
    (m.ready = false → i.port < 96 → i.port ∈ m.fullTrainPorts → exec .portTrainingComplete s = .next s) ∧
    (m.recordChecked = true → m.ateliersStarted = false → (∀ k, k < 40 → k ∈ m.fullTrain ∨ k ∈ m.stacksTrained) →
      s.l2.entries = [] → s.slotWrites = [] →
      ∃ t : State, exec .atelierCoresStart s = .next t ∧ t.module.ateliersStarted = true ∧ t.module.bootSt = .building ∧
        ∀ a, a < 128 → (t.strand (strandOf (18432 + a) 0)).st = .ready ∧
          (t.strand (strandOf (18432 + a) 0)).pc = Config.atelierEntry a &&& ~~~7#64) ∧
    (m.ateliersStarted = true → m.ready = false → (∀ k, k < 40 → k ∈ m.stacksTrained) →
      (∀ z, z < 64 → (s.zone z).outOfService = true ∨ ∀ r, r < 12 → r ∈ (s.zone z).mapped) →
      exec .moduleReady s =
        .next (s.setModule
          { m with
            ready := true, bootSt := .running, cycle := ceilDiv s.time 10000, armPhase := 0
            fwsvn := m.commitSvn.getD m.fwsvn, commitSvn := none })) ∧
    ((m.ateliersStarted = false ∨ (∃ k, k < 40 ∧ k ∉ m.stacksTrained)) → exec .moduleReady s = .next s)) ∧
  (∀ s : State,
    (∃ t : State, exec .moduleReset s = .next t ∧ t.time = s.time ∧ t.mem = s.mem ∧ t.strands = State.reset.strands ∧
      t.cores = State.reset.cores ∧ t.tiles = State.reset.tiles ∧ t.zones = State.reset.zones ∧ t.parts = State.reset.parts ∧
      t.tenants = State.reset.tenants ∧ t.launches = State.reset.launches ∧ t.module.ready = false ∧
      t.module.fwsvn = s.module.fwsvn) ∧
    (∃ t : State, exec .powerLoss s = .next t ∧ t.module.powered = false ∧ t.module.ready = false ∧
      t.module.fwsvn = s.module.fwsvn ∧ t.module.copies = (if s.input.flag then s.module.copies.take 1 else s.module.copies) ∧ t.strands = State.reset.strands ∧
      t.cores = State.reset.cores ∧ t.zones = State.reset.zones ∧ t.time = 0 ∧
      ∀ a, t.mem.read a =
        if paIsHost a = true ∨ (paIsSystem a = true ∧ 0x10000000 ≤ a % 2 ^ 48 ∧ a % 2 ^ 48 < 0x14000000) then s.mem.read a else 0#8))

/-- R212, R261, R462: PCAP is held between 9 and 20 kW; SHCTL's GO starts a shootdown, or sets ERR under one, CLRE clears ERR, and
a shootdown with no access in its way completes; HREQ puts a KIND 6 record in slot 289, or is lost with HRLOST set, which a
write clears. The page answers once a PCIe port is up (R463). (PCAP's reserved bits, what a shootdown waits for and the reports that
leave are the model's: logs 81, 61 and 52.)

R190, R313, R444, R458, R460: an event ring's TAIL moves on to at most HEAD, and a new base or size empties the ring; a span
register takes a word that keeps to its table while no launch is bound; QPRIO takes 0 to 7, and another value sets the queue's
error bit; the host's answer to a page request sets the accesses of its function that are held for it going, or refuses the page to
each: a strand traps at its pair, another agent's access meets its own refusal, once, at its next try; a
function enabled starts its counters at zero. (How far TAIL may lie behind, that a REGISTER_WRITE stands for both writes, and how a
refusal reaches an access that is tried again, are the model's: logs 102, 62 and 23.)

Concluded to complete, each by its own effect: PCAP_WRITE, SHOOTDOWN_GO, SHCTL_CLRE, SHOOTDOWN_COMPLETE, HREQ, HRLOST_CLEAR,
EVENT_RING_TAIL_WRITE, EVENT_RING_CONFIG_WRITE, SPAN_CONFIG_WRITE, REGISTER_WRITE, PRI_RESPONSE, VF_ENABLE. -/
def Obligations.HostEventsComplete : Prop :=
  (∀ s : State,
    let i := s.input
    let m := s.module
    let v := i.value
    let zone := v.toNat / 2 ^ 58
    (m.pcieUp = [] → ∀ e, e ∈ [Instr.pcapWrite, .shootdownGo, .shctlClre, .hreq, .hrlostClear] → exec e s = .next s) ∧
    (m.pcieUp ≠ [] →
    exec .pcapWrite s = .next (s.setModule { m with pcap := max 180000 (min 400000 (v.toNat % 2 ^ 19)) }) ∧
    (v.getLsbD 0 = true → v.getLsbD 2 = false → m.shBusy = true →
      exec .shootdownGo s = .next (s.setModule { m with shErr := true })) ∧
    (v.getLsbD 0 = true → v.getLsbD 2 = false → m.shBusy = false → m.shcnt ≠ 0 →
      exec .shootdownGo s = .next (s.setModule { m with shBusy := true, shPlb := v.getLsbD 1 })) ∧
    (v.getLsbD 0 = true → v.getLsbD 2 = false → m.shBusy = false → m.shcnt = 0 →
      ∃ t : State, exec .shootdownGo s = .next t ∧ t.module = { m with shBusy := false, shPlb := false }) ∧
    (v.getLsbD 2 = true → v.getLsbD 0 = false → exec .shctlClre s = .next (s.setModule { m with shErr := false }))) ∧
    (m.shBusy = true → s.accesses = [] → s.slotWrites = [] → s.heldIn (m.shva / 64) (m.shva / 64 + m.shcnt * 64) = none →
      ∃ t : State, exec .shootdownComplete s = .next t ∧ t.module = { m with shBusy := false, shPlb := false } ∧
        (∀ line, m.shva / 64 ≤ line → line < m.shva / 64 + m.shcnt * 64 → t.l2.find? line = none) ∧
        (m.shPlb = true → ∀ c, (t.core c).plb = [])) ∧
    (m.pcieUp ≠ [] → m.ateliersStarted = false ∨ freeIndex (s.zone zone).mbx 289 = none →
      exec .hreq s = .next (s.setModule { m with hrlost := true })) ∧
    (∀ k, m.pcieUp ≠ [] → m.ateliersStarted = true → freeIndex (s.zone zone).mbx 289 = some k → s.reports = [] →
      exec .hreq s =
        .next (s.setZone zone
          { s.zone zone with
            mbx := (s.zone zone).mbx ++
              [{ slot := 289, index := k
                 body := recordBody 6 0 0 false 0 0 0 0#64 0#64 0#64 (BitVec.ofNat 64 (v.toNat % 2 ^ 58)) }] })) ∧
    (m.pcieUp ≠ [] → v.getLsbD 4 = true → exec .hrlostClear s = .next (s.setModule { m with hrlost := false })) ∧
    (v.getLsbD 4 = false → exec .hrlostClear s = .next s)) ∧
  (∀ s : State,
    let i := s.input
    let r := s.ring i.fn
    let v := i.value
    let q := s.part i.part
    let low : BitVec 32 := v.extractLsb' 0 32
    let m := s.module
    (s.ringAnswers i.fn = true →
      ((r.head - low).toNat < 2 ^ 31 → exec .eventRingTailWrite s = .next (s.setRing i.fn { r with tail := low })) ∧
      (2 ^ 31 ≤ (r.head - low).toNat → ∃ t : State, exec .eventRingTailWrite s = .next t ∧ t.ring i.fn = r) ∧
      (i.off = 0 →
        exec .eventRingConfigWrite s = .next (s.setRing i.fn { r with tail := r.head, base := v &&& ~~~0xFFF#64 })) ∧
      (i.off = 8 →
        exec .eventRingConfigWrite s =
          .next (s.setRing i.fn { r with tail := r.head, en := v.getLsbD 4, log2n := v.toNat % 16 }))) ∧
    (s.ringAnswers i.fn = false → exec .eventRingTailWrite s = .next s ∧ exec .eventRingConfigWrite s = .next s) ∧
    (m.pcieUp ≠ [] → m.fwfail = false → q.live = true → s.partBound i.part = false →
      (i.off = 0 → spcfgOk v = true → exec .spanConfigWrite s = .next (s.setPart i.part { q with spcfg := v, nextSpan := 1, spanSettled := [] })) ∧
      (0x100 ≤ i.off → i.off < 0x300 → routeOk v = true →
        exec .spanConfigWrite s = .next (s.setPart i.part { q with routes := q.routes.set ((i.off - 0x100) / 8) v }))) ∧
    (s.partBound i.part = true → exec .spanConfigWrite s = .next s) ∧
    (m.pcieUp ≠ [] → i.flag = false → i.off = 0x28 → exec .registerWrite s = .next (s.setModule { m with portsel := v })) ∧
    (i.flag = true → i.off ≠ 8 → q.live = true → s.answers q.tenant = true → i.queue < 32 →
      let x := s.queue i.part i.queue
      (v.toNat < 8 → exec .registerWrite s = .next (s.setQueue i.part i.queue { x with qprio := v.extractLsb' 0 3 })) ∧
      (8 ≤ v.toNat → exec .registerWrite s = .next (s.setQueue i.part i.queue { x with kerr := true }))) ∧
    (∀ p, s.pri[i.index]? = some p → i.bad = [] → s.slotWrites = [] →
      let same := fun (r : PageRequest) => r.fn = p.fn ∧ r.page = p.page
      let code := if p.acc < 4 then p.acc else 0
      ∃ t : State, exec .priResponse s = .next t ∧
        (i.flag = false → p.fn * 2 ^ 40 + p.page ∉ t.hostAbsent ∧ (∀ r, r ∈ t.pri ↔ r ∈ s.pri ∧ ¬same r) ∧
          (∀ r, r ∈ t.hostRefused ↔ r ∈ s.hostRefused ∧ ¬same r) ∧
          (∀ k, p.asker = .strand k → (s.strand k).st = .waiting .pri → (t.strand k).st = .ready)) ∧
        (i.flag = true → (∀ r, r ∈ t.pri → r ∈ s.pri ∧ ¬same r) ∧
          ((∃ c ch id, p.asker = .op c ch id) ∨ p.asker = .dispatcher → p ∈ t.hostRefused) ∧
          (∀ k x, p.asker = .strand k → x = s.strand k → x.st = .waiting .pri → s.silentStrand k = false →
            coreIsAtelier (strandCore k) = false → x.inHandler = false → x.inShadow = false → x.task = none →
            (∀ y, y ∈ s.pri → same y → y = p) →
            (t.strand k).st = .parked ∧ (t.strand k).pc = x.pc ∧ (t.strand k).taddr = p.va ∧
            (t.strand k).tcause = BitVec.ofNat 10 ((if p.slotA then 256 else 0) + 9) ∧
            (t.strand k).tinfo = BitVec.ofNat 64 (4 * 2 ^ 56 + code * 2 ^ 48)))) ∧
    (∀ (b : Asker) (acc : Acc) (va : Word) (pa fn : Nat) (c : Option (Nat × Nat)), s.asksHost pa c = true →
      (pageRequest fn b acc va pa ∈ s.hostRefused → ∃ x, s.hostGate fn b acc va pa c = .refused x ∧ x.cause = 0x09#6 ∧ x.addr = va ∧
        pageRequest fn b acc va pa ∉ (s.faultMet x).hostRefused) ∧
      (pageRequest fn b acc va pa ∉ s.hostRefused → fn * 2 ^ 40 + pa / 4096 ∉ s.hostAbsent → s.hostGate fn b acc va pa c = .pass)) ∧
    (i.tenant < 64 →
      exec .vfEnable s =
        .next (s.setTenant i.tenant
          { s.tenant i.tenant with
            vfEnabled := true, l2fill := 0#64, l2wb := 0#64, l2xhit := 0#64, l2wbf := 0#64, dirovf := 0#64, amonear := 0#64
            amofar := 0#64 })))

/-! ## Spans, links and attestation (08, 20, 21) -/

/-- R446–R448, R456, R457: the control messages of a span take effect once and are answered, and one whose tag is in the log is only
answered again. A selected launch with members elsewhere receives its span number; a share that another module sends joins
the launches; a member's word that it has bound its share is noted; and a member's completion leaves the launch, its status kept
when it is not 0, or rejects the launch when it is 5; strands that had left for a member are counted off as they are gone or at home.
(The forms and the tags of these messages are the model's: logs 75 and 117.)

Concluded to complete, each by its own effect: SPAN_LAUNCH_SEQUENCE, SPAN_SHARE_COMPLETE. -/
def Obligations.SpanEventsComplete : Prop :=
  ∀ s : State,
    let i := s.input
    let fresh := fun (p : Nat) => s.tagLog.find? (s.controlTag p) = none ∧ s.logFull (s.spanNo p) i.module = false
    let noted := fun (p : Nat) => { s with tagLog := s.tagLog.set (s.controlTag p) 0 }
    (∀ l, i.mbox = 0 → s.launch? i.launch = some l → fresh l.part → l.bound = false → l.spanSeq = none → l.spanAsked = true →
      ∃ t : State, exec .spanLaunchSequence s = .next (t.answerControl l.part) ∧ t.tagLog = (noted l.part).tagLog ∧
        t.launches = s.launches.set i.launch
          { l with spanSeq := some i.value.toNat, spanLeft := s.otherMembers l.part, spanUnbound := s.otherMembers l.part }) ∧
    (i.mbox = 1 → (s.part i.part).live = true → i.module ∈ s.otherMembers i.part → fresh i.part →
      ∃ (t : State) (l : Launch), exec .spanLaunchSequence s = .next (t.answerControl i.part) ∧ t.tagLog = (noted i.part).tagLog ∧
        t.launches = s.launches.set s.nextLaunch l ∧
        t.nextLaunch = s.nextLaunch + 1 ∧ l.part = i.part ∧ l.tenant = (s.part i.part).tenant ∧ l.origin = some i.module ∧
        l.record = BitVec.ofNat 1024 (ofBytes i.data) ∧ l.bound = false ∧
        l.spanSeq = some (if s.ownModule i.part = 0 then (s.part i.part).nextSpan else i.value.toNat)) ∧
    (∀ l, i.mbox = 2 → i.flag = false → s.launch? i.launch = some l → fresh l.part → l.bound = false →
      ∃ x : Launch, exec .spanLaunchSequence s = .next (((noted l.part).setLaunch i.launch x).answerControl l.part) ∧
        x = { l with spanUnbound := setRemove i.module l.spanUnbound, spanCores := l.spanCores.set i.module i.item, remote := x.remote } ∧
        (recCset l.record = true → x.remote = l.remote)) ∧
    (∀ l, s.launch? i.launch = some l → fresh l.part → i.flag = false → i.off < 16 → i.off ≠ 5 → l.origin = none → i.module ∈ l.spanLeft →
      exec .spanShareComplete s =
        .next (((noted l.part).setLaunch i.launch
          { l with
            spanLeft := setRemove i.module l.spanLeft
            sts := if i.off = 0 then l.sts else BitVec.ofNat 4 i.off }).answerControl l.part)) ∧
    (∀ l, s.launch? i.launch = some l → fresh l.part → i.flag = false → i.off = 5 → l.bound = true → l.origin ≠ none →
      exec .spanShareComplete s =
        .next (((noted l.part).setLaunch i.launch { l with toWake := [], spanLeft := [], spanUnbound := [], sts := 5#4 }).answerControl
          l.part)) ∧
    (∀ l, s.launch? i.launch = some l → fresh l.part → i.flag = true → i.off < 16 →
      let k := l.abroad.getD i.module 0
      exec .spanShareComplete s =
        .next (((noted l.part).setLaunch i.launch
          { l with
            abroad := if k ≤ i.item then l.abroad.erase i.module else l.abroad.set i.module (k - i.item)
            sts := if i.off = 0 then l.sts else BitVec.ofNat 4 i.off }).answerControl l.part)) ∧
    (∀ l x, s.launch? i.launch = some l → s.tagLog.find? (s.controlTag l.part) = some x → i.mbox ≠ 1 →
      exec .spanLaunchSequence s = .next (s.answerControl l.part) ∧ exec .spanShareComplete s = .next (s.answerControl l.part)) ∧
    (∀ x, i.mbox = 1 → (s.part i.part).live = true → i.module ∈ s.otherMembers i.part → s.tagLog.find? (s.controlTag i.part) = some x →
      exec .spanLaunchSequence s = .next (s.answerControl i.part))

/-- R451, R452: a good flit with the expected SEQ is delivered once and counts the next SEQ up; a bad one is dropped and owes a
NAK; an acknowledgement frees the flits up to it; a NAK replays what is unacknowledged, in order; a port that is silent for 100 ns
sends an idle flit, but none while 1,024 are unacknowledged. (What a flit's arrival completes comes with its operands: log 63.)

R314, R451, R456: a request whose tag is in the log is not applied again: memory, the log and everything but the port and what leaves
stay as they are, and the logged answer goes to its source again, or, of a granule that goes on to a third module, there.

R316, R452, R455, R457: a link fails after sixteen failures in a row, or 2 µs without a flit; once another port of the route is up
what the failed one had in doubt meets its fate: a message that the other side had not delivered comes back LINK_LOST, one that it
had is delivered, and a part of an engine's operation that it had not ends the operation LINK_LOST; after a millisecond without that
the span breaks there, in-doubt messages come back LINK_LOST, the module reports, and a partition
that reaches neither side drains for LINK_LOST. (How in-doubt traffic is settled, and which partitions reach neither side, are the
model's: logs 64 and 95.)

R215, R216, R452, R453: a direction whose queue has been short for 20 µs starts to narrow, unless its port must not shed or it
has one lane; a queue that passes the threshold ends the shed or starts to widen; trained, the new width carries the traffic; a
lost lane leaves the direction as wide as its good lanes allow.

Concluded to complete, each by its own effect: FLIT_RECEIVE, NAK_REPLAY, IDLE_FLIT, LINK_FAILURE, LINK_RECONCILIATION,
SPAN_BREAK, LANE_SHED, LANE_WIDEN, LANE_TRAINING_COMPLETE, LANE_FAULT. -/
def Obligations.LinkEventsComplete : Prop :=
  (∀ s : State,
    let i := s.input
    let p := s.port i.port
    let now := s.time
    (∀ f, s.outbox = [] → i.flit = some f → p.up = true → i.flag = false → f.good = true → f.seq = p.expect →
      ∃ q : Port, exec .flitReceive s = .next (s.setPort i.port q) ∧ q.expect = p.expect + 1#12 ∧ q.nakOwed = false ∧ q.fails = 0 ∧
        q.delivered = (if f.cls = 6 then p.delivered else p.delivered ++ [f]) ∧ q.lastArrival = now ∧
        q.replayDue = (p.replayDue || f.nak) ∧
        (∀ x, x ∈ q.replay ↔ x ∈ p.replay ∧ 2048 ≤ (f.ack - x.seq).toNat)) ∧
    (∀ f, s.outbox = [] → i.flit = some f → p.up = true → f.good = false →
      exec .flitReceive s = .next (s.setPort i.port
        { p with lastArrival := now, nakOwed := true, fails := if p.nakOwed && f.seq != p.expect then p.fails else p.fails + 1 })) ∧
    (∀ f, s.outbox = [] → i.flit = some f → p.up = true → i.flag = false → f.good = true → f.seq ≠ p.expect →
      ∃ q : Port, exec .flitReceive s = .next (s.setPort i.port q) ∧ q.delivered = p.delivered ∧ q.expect = p.expect) ∧
    (p.up = true → p.replayDue = true →
      exec .nakReplay s =
        .next { s.setPort i.port { p with replayDue := false, lastSent := now } with
          outputs := s.outputs ++ p.replay.map fun f => Output.flit i.port f }) ∧
    (s.outbox = [] → p.up = true → p.lastSent + 100 ≤ now → p.replay.length < 1024 →
      ∃ f : LinkFlit, f.bytes.length = 256 ∧ f.good = true ∧ f.cls = 6 ∧ f.seq = p.seq ∧ f.ack = p.expect - 1#12 ∧ f.nak = p.nakOwed ∧
        f.len = 0 ∧
        exec .idleFlit s =
          .next { s.setPort i.port { p with seq := p.seq + 1#12, replay := p.replay ++ [f], lastSent := now } with
            outputs := s.outputs ++ [Output.flit i.port f] }) ∧
    (s.outbox = [] → 1024 ≤ p.replay.length → exec .idleFlit s = .next s)) ∧
  (∀ (s : State) (f : LinkFlit) (x : Nat),
    let i := s.input
    let u := s.setPort i.port ((s.port i.port).receive f s.time)
    s.outbox = [] → i.flit = some f → (s.port i.port).up = true → f.good = true → f.seq = (s.port i.port).expect → i.flag = true →
    f.cls = 0 ∨ f.cls = 1 ∧ 12 ≤ i.level → s.flitFor f i = true → s.logFull (s.spanNo i.part) i.owner = false →
    s.tagLog.find? (tagKey (s.spanNo i.part) i.owner (BitVec.ofNat 64 i.index)) = some x →
      exec .flitReceive s = .next (u.respond i) ∧
      (i.pushTo = none →
        u.respond i = u.transmit { part := i.part, module := i.owner, cls := 1, what := [i.index, x], toEngine := decide (12 ≤ i.level) }) ∧
      (∀ m, i.pushTo = some m → m ≠ s.ownModule i.part → x < 2 ^ 512 →
        u.respond i =
          u.transmit { part := i.part, module := m, cls := 1, what := [i.owner, i.index, i.dest.toNat, i.off, i.item, x], toEngine := true })) ∧
  (∀ s : State,
    let i := s.input
    let p := s.port i.port
    let last := BitVec.ofNat 12 i.off
    let sentMessage := fun (n : BitVec 12) (m : Message) =>
      ∃ x : Outgoing, p.sent = [(n, x)] ∧ x.part = i.part ∧ x.module = i.module ∧ x.op = none ∧ x.cls = 2 ∧ x.what.getD 2 0 = m.body ∧
        s.messages = [m] ∧ m.module = some i.module ∧ m.sts = 0#4 ∧ s.zonePart (coreZone m.srcCore) = some i.part
    let open_ := settledKey i.part i.module ∉ p.settled
    let sentPart := fun (n : BitVec 12) (j e : Nat) (o : Op) =>
      ∃ (x : Outgoing) (t : OpPart), p.sent = [(n, x)] ∧ x.part = i.part ∧ x.module = i.module ∧ x.op = some t ∧ t.elem = e ∧
        s.opIndex t.core t.ch t.id = some j ∧ s.ops[j]? = some o ∧ (o.asked.find? e).isSome = true ∧ o.kind ≠ .gath ∧ o.kind ≠ .scat
    (p.up = true → (16 ≤ p.fails ∨ p.lastArrival + 2000 ≤ s.time) →
      exec .linkFailure s = .next (s.setPort i.port { p with up := false, failedAt := some s.time, settled := [] })) ∧
    (p.fails < 16 → s.time < p.lastArrival + 2000 → exec .linkFailure s = .next s) ∧
    (∀ t0 k, p.failedAt = some t0 → open_ → s.routePort i.part i.module = some k →
      ∃ t : State, exec .linkReconciliation s = .next t ∧
        (p.sent = [] → t.messages = s.messages ∧ t.packets = s.packets ∧
          (p.up = false → t.port i.port = p.settle i.part (s.spanNo i.part) i.module)) ∧
        (∀ n m, sentMessage n m →
          (n ≠ last → (n - last).toNat < 2048 → t.messages = [m.back 4#4]) ∧ (n = last → t.messages = [m])) ∧
        ∀ n j e o, sentPart n j e o →
          (n ≠ last → (n - last).toNat < 2048 → t.ops = s.ops.set j (o.endLost (e / 128))) ∧ (n = last → t.ops = s.ops)) ∧
    (∀ t0, p.failedAt = some t0 → open_ → t0 + 1000000 ≤ s.time →
      ∃ t : State, exec .spanBreak s = .next t ∧
        (p.sent = [] → t.messages = s.messages ∧ t.port i.port = p.settle i.part (s.spanNo i.part) i.module ∧
          Output.report 5 (BitVec.ofNat 64 (i.part * 64 + i.module)) ∈ t.outputs) ∧
        (∀ n m, sentMessage n m → t.messages = [m.back 4#4]) ∧
        (∀ n j e o, sentPart n j e o → t.ops = s.ops.set j (o.endLost (e / 128))) ∧
        (p.sent = [] → i.flag = true → (s.part i.part).live = true → (s.part i.part).gang = .running →
          (t.part i.part).gang = .draining ∧ (t.part i.part).drainSts = 3#4)) ∧
    (∀ t0, p.failedAt = some t0 → s.time < t0 + 1000000 ∨ ¬open_ → exec .spanBreak s = .next s)) ∧
  (∀ s : State,
    let i := s.input
    let p := s.port i.port
    let l := p.dir i.flag
    let becomes := fun (e : Instr) (x : LinkDir) => exec e s = .next (s.setPort i.port (p.setDir i.flag x))
    i.port < 96 →
      (p.up = true → p.noshed = false → l.st = .steady → l.lanes ≠ .x1 → l.aboveAt ≤ i.off → i.off + 20000 ≤ s.time →
        becomes .laneShed { l with st := .narrowing }) ∧
      (p.noshed = true → ∃ t : State, exec .laneShed s = .next t ∧ t.port i.port = p) ∧
      (p.up = true → p.threshold < i.off →
        (l.st = .narrowing → becomes .laneWiden { l with aboveAt := s.time, st := .steady }) ∧
        (l.st = .steady → l.lanes ≠ widest l.goodLanes → becomes .laneWiden { l with aboveAt := s.time, st := .widening })) ∧
      (l.st = .narrowing → l.lanes = .x4 → becomes .laneTrainingComplete { l with st := .steady, lanes := .x2, aboveAt := s.time }) ∧
      (l.st = .narrowing → l.lanes = .x2 → becomes .laneTrainingComplete { l with st := .steady, lanes := .x1, aboveAt := s.time }) ∧
      (l.st = .widening → becomes .laneTrainingComplete { l with st := .steady, lanes := widest l.goodLanes }) ∧
      (l.lanes = .x4 → l.goodLanes = 4 → becomes .laneFault { l with goodLanes := 3, lanes := .x2 }))

/-- R470: once a PCIe port is up, each attestation request has one answer: an error until version, capabilities and algorithms are
agreed in that order, then what was asked for. (Codes, fields and the order of the first three requests are those of SPDM 1.3 as the
model presumes them: log 17. Digests, certificates, nonces and signatures are free values.)

Concluded to complete, each by its own effect: GET_VERSION, GET_CAPABILITIES, NEGOTIATE_ALGORITHMS, GET_DIGESTS,
GET_CERTIFICATE, CHALLENGE, GET_MEASUREMENTS. -/
def Obligations.AttestationComplete : Prop :=
  ∀ s : State,
    let m := s.module
    let i := s.input
    let told := fun (t : State) (n : Nat) (b : List Byte) => Host.Outcome.next (t.respondSpdm n b)
    let early := fun (e : Instr) (n : Nat) => exec e s = told s n (spdmMessage 0x7F 4 0 [])
    (m.pcieUp = [] → ∀ e, e ∈ [Instr.getVersion, .getCapabilities, .negotiateAlgorithms, .getDigests, .getCertificate, .challenge,
        .getMeasurements] → exec e s = .next s) ∧
    (m.pcieUp ≠ [] →
      exec .getVersion s =
        told (s.setModule { m with spdmVersion := true, spdmCaps := false, spdmAlgs := false }) 0
          (toBytes 8 (0x10 + 0x04 * 256 + 2 ^ 40 + 0x1300 * 2 ^ 48)) ∧
      (m.spdmVersion = false → early .getCapabilities 1) ∧
      (m.spdmVersion = true →
        exec .getCapabilities s = told (s.setModule { m with spdmCaps := true }) 1 (spdmMessage 0x61 0 0 spdmCapabilities)) ∧
      (m.spdmVersion = false ∨ m.spdmCaps = false → early .negotiateAlgorithms 2) ∧
      (m.spdmVersion = true → m.spdmCaps = true →
        exec .negotiateAlgorithms s =
          told (s.setModule { m with spdmAlgs := true }) 2 (spdmMessage 0x63 0 0 spdmAlgorithms)) ∧
      (m.spdmVersion = false ∨ m.spdmCaps = false ∨ m.spdmAlgs = false →
        early .getDigests 3 ∧ early .getCertificate 4 ∧ early .challenge 5 ∧ early .getMeasurements 6) ∧
      (m.spdmVersion = true → m.spdmCaps = true → m.spdmAlgs = true →
        exec .getDigests s =
          told s 3 (spdmMessage 0x01 3 3 (toBytes 48 (Config.certDigest 0).toNat ++ toBytes 48 (Config.certDigest 1).toNat)) ∧
        (i.item < 2 →
          let part := ((Config.certificate i.item).drop i.off).take i.value.toNat
          ∃ b : List Byte, exec .getCertificate s = told s 4 (spdmMessage 0x02 i.item 0 (b ++ part)) ∧ b.length = 4) ∧
        (i.item < 2 → i.index = 0 ∨ i.index = 1 ∨ i.index = 0xFF →
          ∃ b : List Byte, exec .challenge s = told { s with free := s.free + 1 } 5
            (spdmMessage 0x03 i.item 3 (toBytes 48 (Config.certDigest i.item).toNat ++ toBytes 32 (Config.nonce s.free).toNat ++
              (if i.index = 0 then [] else toBytes 48 (Config.measurementSummary i.index (m.blocks 0xFF)).toNat) ++ b)) ∧
            Config.signature 0 s.free <:+ b) ∧
        (1 ≤ i.item → i.item ≤ 5 →
          ∃ b : List Byte, exec .getMeasurements s = told { s with free := s.free + 1 } 6
            (spdmMessage 0x60 0 0 (m.measurementFields i.item ++ b)) ∧ (i.flag = true → Config.signature 0 s.free <:+ b))))

/-! ## Pairs and traps (02, 04, 17) -/

/-- R33, R36, R38, R74, R83: the examination of a pair. A privileged opcode in user mode is PRIV; a slot that does not decode is
ILLEGAL, the C slot before the A slot; two slots that name one destination conflict, whatever their guards; then an enabled slot's
empty T = 1 source traps, and that the C slot's comes first is the model's choice (log 104); then an empty T = 0 source or destination makes the strand wait; otherwise the
enabled slots issue. -/
def Obligations.PairsAreExaminedInOrder : Prop :=
  ∀ (atelier : Bool) (r : RegFile) (w0 w1 : BitVec 32),
    let opc := w0.extractLsb' 25 6
    let priv := atelier = false ∧ (opc = 0x34#6 ∨ opc = 0x3F#6)
    let onC := r.readP (w0.extractLsb' 22 3) ≠ w0.getLsbD 21
    let onA := w0.getLsbD 31 = true ∨ r.readP (w1.extractLsb' 22 3) ≠ w1.getLsbD 21
    let illegal := fun (slotA : Bool) => Examined.traps slotA { cause := 0x01#6, addr := 0#64, info := 0#64 }
    (priv → examine atelier r w0 w1 = .traps false { cause := 0x02#6, addr := 0#64, info := 0#64 }) ∧
    (∀ e, ¬priv → decodeC w0 w1 = .error e → examine atelier r w0 w1 = illegal false) ∧
    (∀ c e, ¬priv → decodeC w0 w1 = .ok c → decodeSlotA w0 w1 = .error e → examine atelier r w0 w1 = illegal true) ∧
    ∀ c a, ¬priv → decodeC w0 w1 = .ok c → decodeSlotA w0 w1 = .ok a →
      let both := ∃ x, x.real = true ∧ x ∈ (uses c).dsts ∧ x ∈ (uses a).dsts
      let marked := fun (u : Uses) => ∃ x, x ∈ u.srcs ∧ x.marked = true ∧ x.full r = false
      let empty := fun (u : Uses) => (∃ x, x ∈ u.srcs ∧ x.full r = false) ∨ ∃ x, x ∈ u.dsts ∧ x.full r = false
      (both → ∃ x, x.real = true ∧ x ∈ (uses c).dsts ∧ x ∈ (uses a).dsts ∧
        examine atelier r w0 w1 = .traps true { cause := 0x03#6, addr := 0#64, info := registerInfo x }) ∧
      (¬both → onC → marked (uses c) → ∃ x, x ∈ (uses c).srcs ∧ x.marked = true ∧ x.full r = false ∧
        examine atelier r w0 w1 = .traps false { cause := 0x04#6, addr := 0#64, info := registerInfo x.name }) ∧
      (¬both → ¬(onC ∧ marked (uses c)) → onA → marked (uses a) →
        ∃ x, x ∈ (uses a).srcs ∧ x.marked = true ∧ x.full r = false ∧
          examine atelier r w0 w1 = .traps true { cause := 0x04#6, addr := 0#64, info := registerInfo x.name }) ∧
      (¬both → ¬(onC ∧ marked (uses c)) → ¬(onA ∧ marked (uses a)) → (onC ∧ empty (uses c)) ∨ (onA ∧ empty (uses a)) →
        examine atelier r w0 w1 = .waits) ∧
      (¬both → ¬(onC ∧ empty (uses c)) → ¬(onA ∧ empty (uses a)) →
        ∃ x y, examine atelier r w0 w1 = .issues x y ∧ (onC → x = some c) ∧ (¬onC → x = none) ∧ (onA → y = some a) ∧
          (¬onA → y = none))

/-- R34, R35, R37: a pair whose slots are both disabled only moves its pc on. Both slots of a pair that issues read the registers
that the pair began with; a trap of the A slot undoes what the C slot wrote. Shown of MOVL in the C slot, with ADD and with
FMTSET's width check in the A slot. -/
def Obligations.PairsReadBeforeTheyWrite : Prop :=
  ∀ (s : State) (d e : Reg) (a b : Src) (short w : BitVec 12),
    let k := s.cur.strand
    let long := (s.g a <<< 44) + short.signExtend 64
    s.cur.stopped = false → s.cur.trapped = false → s.before = s.self → s.self.st ≠ .dormant →
      (∃ t : State, s.runPair none none = .next t ∧ t.strand k = { s.self with pc := s.self.pc + 8#64, grant := none } ∧
        (∀ j, j ≠ k → t.strand j = s.strand j) ∧ t = { s with strands := t.strands, cores := t.cores, cur := {} }) ∧
      (d ≠ 0#4 → e ≠ 0#4 → d ≠ e →
        ∃ t : State, s.runPair (some (.movl d a ⟨short, none⟩)) (some (.add e a b)) = .next t ∧
          (t.strand k).pc = s.self.pc + 8#64 ∧ t.mem = s.mem ∧
          ∀ i, (t.strand k).regs.readG i = if i = d then long else if i = e then s.g a + s.g b else s.self.regs.readG i) ∧
      (PlainStrand s → s.before.handler = none → 4 ≤ (s.g a + w.signExtend 64).toNat →
        ∃ t : State, s.runPair (some (.movl d a ⟨short, none⟩)) (some (.fmtset 3#4 a w)) = .next t ∧
          (t.strand k).st = .parked ∧ (t.strand k).regs = s.self.regs ∧ (t.strand k).pc = s.self.pc ∧
          (t.strand k).tcause = 0x101#10)

/-- R37, R48, R144, R393, R394, R396, R429: a trap of a user strand that is no handler and no task parks it as it stood before its
pair, with TCAUSE, TADDR and TINFO set, and sends one KIND 0 record to its core's slot of the zone's primary mailbox; a PROT freezes
the tenant, and nothing else changes.

R174, R182, R183, R398: a mailbox handler that traps is parked with TCAUSE.HND set, its messages at the head of its mailbox
again; one whose load meets a poisoned granule reports HW_UNCORRECTABLE and the granule's address; a speculative task that traps is
rolled back and reports nothing: it starts afresh, to run again when it is the oldest; a shadow handler's trap frees its slot and its
tile. (What a load's POISON reports, and that the task keeps its slot, are the model's readings: logs 56 and 32.)

R403: a trap of an atelier strand sets its trap registers, ATEPC and INTRAP and goes on at ATVEC; while INTRAP is 1 it stops
the core instead, and a KIND 5 record goes to slot 290 of the other atelier core's mailbox. -/
def Obligations.TrapsOfEveryKindOfStrand : Prop :=
  (∀ (s : State) (slotA : Bool) (x : TrapInfo),
    let k := s.cur.strand
    let zone := s.selfZone
    let slot := coreMbxSlot s.selfCore
    let b := s.before
    let tc := (if slotA then 256 else 0) + x.cause.toNat
    let t := s.takeTrap slotA x
    s.inAtelier = false → b.inShadow = false → b.inHandler = false → b.task = none → b.handler = none → x.fresh = none →
      t.strand k = { b with st := .parked, grant := none, tcause := BitVec.ofNat 10 tc, taddr := x.addr, tinfo := x.info } ∧
      (∀ j, j ≠ k → t.strand j = s.strand j) ∧ t.mem = s.mem ∧ t.cores = s.cores ∧ t.tiles = s.tiles ∧
      t.accesses = s.accesses ∧
      (x.cause ≠ 0x08#6 → t.tenants = s.tenants ∧ t.parts = s.parts ∧ t.launches = s.launches ∧ t.ops = s.ops) ∧
      (x.cause = 0x08#6 → (t.tenant (t.tenantOf k)).frozen = true) ∧
      ∀ n, s.reports = [] → freeIndex (s.zone zone).mbx slot = some n →
        (t.zone zone).mbx = (s.zone zone).mbx ++
          [{ slot := slot, index := n
             body := recordBody 0 (((t.launchOf k).map (·.part)).getD 0) (t.tenantOf k) (x.cause == 0x08#6) tc 0 (strandTarget k) b.pc
               x.addr x.info 0#64 }]) ∧
  (∀ (s : State) (slotA : Bool) (x : TrapInfo),
    let k := s.cur.strand
    let core := s.selfCore
    let b := s.before
    let t := s.takeTrap slotA x
    s.inAtelier = false →
      (∀ run m, b.inHandler = true → b.task = none → b.handler = some run → (s.core core).mboxes.find? run.mbox = some m →
        (t.strand k).st = .parked ∧ (t.strand k).regs = b.regs ∧ (t.strand k).pc = b.pc ∧
        (x.loadPoison = false → (t.strand k).tcause = BitVec.ofNat 10 (512 + (if slotA then 256 else 0) + x.cause.toNat) ∧
          (t.strand k).taddr = x.addr ∧ (t.strand k).tinfo = x.info) ∧
        (x.loadPoison = true → (t.strand k).tcause = BitVec.ofNat 10 (512 + (if slotA then 256 else 0) + 0x38) ∧
          (t.strand k).taddr = BitVec.ofNat 64 x.granule ∧ (t.strand k).tinfo = 0x0B#64) ∧
        (∃ y, (t.core core).mboxes.find? run.mbox = some y ∧ y.waiting = run.slots.zip run.msgs ++ m.waiting) ∧
        ∃ h, (t.strand k).handler = some h ∧ h.held = []) ∧
      (∀ o z, b.inShadow = false → b.task = some o → (s.zone s.selfZone).task? o = some z → z.irrevocable = false →
        z.st = .running k →
        t.strand k = taskStrand z (strandSlot k) ∧ t.reports = s.reports ∧
        (t.zone s.selfZone).mbx = (s.zone s.selfZone).mbx ∧
        (t.zone s.selfZone).task? o = some { z with buffer := [], reads := [], writes := [], retry := true }) ∧
      (b.inShadow = true → (t.strand k).st = .dormant ∧ (t.tile s.selfSite).shadow = none)) ∧
  (∀ (s : State) (slotA : Bool) (x : TrapInfo),
    let k := s.cur.strand
    let core := s.selfCore
    let c := s.core core
    let b := s.before
    let z := s.zone s.selfZone
    let t := s.takeTrap slotA x
    s.inAtelier = true → x.fresh = none → x.refusal = none →
      (c.intrap = false →
        t = State.setCur
          ((s.setStrand k
            { b with
              pc := c.atvec, grant := none, taddr := x.addr, tinfo := x.info
              tcause := BitVec.ofNat 10 ((if slotA then 256 else 0) + x.cause.toNat) }).setCore core
                { c with atepc := b.pc, intrap := true })
          { s.cur with stopped := true, trapped := true }) ∧
      (c.intrap = true → t.strand k = b ∧ t.core core = { c with stopped := true } ∧
        (∀ n, s.reports = [] → (core - 18432) % 2 = z.primary → z.hasStandby = true → freeIndex z.mbxStandby 290 = some n →
          ∃ r, (t.zone s.selfZone).mbxStandby = z.mbxStandby ++ [r] ∧ r.slot = 290 ∧ r.index = n) ∧
        (∀ n, s.reports = [] → (core - 18432) % 2 ≠ z.primary → freeIndex z.mbx 290 = some n →
          ∃ r, (t.zone s.selfZone).mbx = z.mbx ++ [r] ∧ r.slot = 290 ∧ r.index = n)))

/-! ## The machine as a whole (01, 02, 04, 19, 21) -/

/-- R47, R83, R84, R416, R462, R463, R471: what the spec gives for reset. Wafer time is 0, memory lists nothing, every maquette
row is absent, the module is not READY and BOOT is 0, PCAP stands at 400,000, no partition, tenant or launch exists, and no core
holds anything. (Registers that the spec gives no reset value, and where it leaves fused data free, are the model's choices: logs
10, 11, 18 and 19.) -/
def Obligations.ResetValues : Prop :=
  let s := State.reset
  s.time = 0 ∧ s.mem = [] ∧ s.poison = [] ∧ s.strands.entries = [] ∧ s.cores.entries = [] ∧ s.tiles.entries = [] ∧
  s.parts.entries = [] ∧ s.launches.entries = [] ∧ s.tenants.entries = [] ∧ s.module.ready = false ∧ s.module.fwfail = false ∧
  s.module.bootSt = .verifying ∧ s.module.pcap = 400000 ∧ s.module.shcnt = 0 ∧
  (∀ z r, z < 64 → r < 12 → s.mapWord z r = 0x007FF00000000000#64) ∧
  (∀ z r c, z < 64 → r < 12 → c < 11 → s.site? z r c = none) ∧
  (∀ z, z < 64 → (s.zone z).primary = 0 ∧ (s.zone z).mbx = [] ∧ (s.zone z).tasks = []) ∧
  (∀ k, (s.strand k).st = .dormant ∧ ∀ i, (s.strand k).regs.readG i = 0#64)

/-- Memory is canonical at reset, and nothing is half done. (What unwritten memory reads as is the model's choice: log 9.) -/
def Obligations.ResetIsSafe : Prop :=  Safe State.reset

/-- R33, R71, R97, R147: a turn of a core runs the pair of the strand that it picks. The eight bytes at its pc are examined; a pair
that traps or waits does so there; in one that issues, the pc moves past the pair, the C slot's meaning runs on that state, the A
slot's on what it leaves, and the pair ends. A trap of the A slot, judged on the state before the pair, undoes the C slot's
effect; but a C slot that waits for what may be its own fault keeps its place before it. (How a pair waits, and which trap goes first
then, are the model's readings: logs 4, 8 and 91.)

R13, R218, R492: an event's turn is its meaning with its operands, which do not outlive it; wafer time passes by its own turn
alone, up to the first sample at which a launch's deadline is past, whose expiry then comes before anything else;
and a machine whose agenda names no turn completes its oldest access first, if that may complete. (The agenda and the turn of time are
the model's own: logs 1 and 3.) -/
def Obligations.StepRunsPairsAndEvents : Prop :=
  (∀ (s v : State) (core k : Nat) (rest : List Turn) (w0 w1 : BitVec 32),
    let u := State.rouseCore { s with agenda := rest } core
    s.agenda = .issue core :: rest → u.pick core = some k → (u.begin k).fetchPair = .words w0 w1 v →
      (∀ slotA x, examine v.inAtelier v.before.regs w0 w1 = .traps slotA x → step s = .next (v.takeTrap slotA x).idle) ∧
      (examine v.inAtelier v.before.regs w0 w1 = .waits → step s = .next (v.hold .register).idle) ∧
      (∀ c a, examine v.inAtelier v.before.regs w0 w1 = .issues c a → step s = v.runPair c a) ∧
      ∀ c a, examine v.inAtelier v.before.regs w0 w1 = .issues (some c) (some a) →
        let s0 := v.startPair.doom (some a)
        decodeC w0 w1 = .ok c ∧ decodeSlotA w0 w1 = .ok a ∧
        ((∀ b x y, c ≠ .routesetSite b x y) → s0.routesetForm c = c) ∧
        (∀ t1 : State, exec (s0.routesetForm c) s0 = .next t1 →
          (s0.overtakes t1 = true → step s = .next (s0.hold .accesses).idle) ∧
          (s0.overtakes t1 = false →
          (t1.cur.trapped = true → step s = .next (t1.endPair (some c)).idle) ∧
          (t1.faultAwaited = true → step s = .next t1.idle) ∧
          (t1.cur.trapped = false → t1.faultAwaited = false → ∀ x : State, exec a s0.inSlotA = .next x →
            (x.cur.trapped = true → step s = .next (x.endPair (some c)).idle) ∧
            (x.cur.trapped = false → t1.cur.stopped = true → step s = .next t1.idle) ∧
            (x.cur.trapped = false → t1.cur.stopped = false → ∀ t2 : State, exec a t1.inSlotA = .next t2 →
              step s = .next (t2.endPair (some c)).idle))))) ∧
  (∀ (s t : State) (i : Instr) (x : Input) (n : Nat) (rest : List Turn),
    (s.agenda = .event i x :: rest → encode i = none → exec i { s with agenda := rest, input := x } = .next t →
      step s = .next { t with input := {}, cur := {} }) ∧
    (s.agenda = .advance n :: rest → s.expiries (s.time + n) = none →
      step s = .next { s with agenda := rest, time := s.time + n }) ∧
    (∀ t0 ls, s.agenda = .advance n :: rest → s.expiries (s.time + n) = some (t0, ls) →
      step s = .next { s with
        time := t0
        agenda := ls.map (fun l => .event .watchdogExpiry { launch := l }) ++ .advance (s.time + n - t0) :: rest }) ∧
    (s.agenda = [] → s.mayComplete 0 = true → exec .accessCompletion { s with input := { index := 0 } } = .next t →
      step s = .next { t with input := {}, cur := {} }))

/-- R71, R73, R75, R76, R78, R79, R82, R84: words that the spec's examples write out, one or more of each kind of body, decode to
the instructions that they stand for, and a guard to its predicate. -/
def Obligations.WordsDecode : Prop :=
  let g := fun (n : Nat) => (⟨BitVec.ofNat 4 n, false⟩ : Src)
  decodeC 0#32 0#32 = .ok .nopc ∧ decodeA 0#32 = .ok .nopa ∧
  decodeC 0x10085A03#32 0x20066FFF#32 = .ok (.ld 4#4 ⟨2#4, true⟩ 2#2 true ⟨3#9, none⟩) ∧
  decodeSlotA 0x10085A03#32 0x20066FFF#32 = .ok (.addi 3#4 (g 3) 0xFFF#12) ∧
  decodeC 0x8C0A0789#32 0x00123456#32 = .ok (.movl 5#4 (g 0) ⟨0x789#12, some 0x00123456#32⟩) ∧
  decodeSlotA 0x8C0A0789#32 0x00123456#32 = .ok .nopa ∧
  decodeC 0x027FFFFE#32 0x32027000#32 = .ok (.br ⟨0x1FFFFE#21, none⟩) ∧ guardOf 0x027FFFFE#32 = (1#3, true) ∧
  decodeA 0x32027000#32 = .ok (.cmpi 0#4 1#3 ⟨3#4, true⟩ 0#12) ∧
  decodeA 0x4608A400#32 = .ok (.fcvt 4#4 0#4 4#4 (g 5)) ∧ decodeC 0x16024002#32 0#32 = .ok (.ldv 1#4 (g 2) ⟨2#8, none⟩) ∧
  decodeC 0x1A084503#32 0#32 = .ok (.amoAdd 4#4 (g 2) (g 5) false 3#2) ∧ decodeC 0x1C000500#32 0#32 = .ok (.fence 2#3 2#2) ∧
  decodeC 0xC008A600#32 0x00070002#32 = .ok (.send 4#4 (g 5) (g 6) 0x00070002#32) ∧
  decodeC 0xA0086538#32 0x50#32 = .ok (.xfer 4#4 (g 3) (g 5) (g 7) 0x50#32) ∧
  decodeC 0x9E10A033#32 0x20#32 = .ok (.tszero 8#4 (g 5) (g 6) 0x20#32) ∧
  decodeC 0xAE100500#32 0x3C0#32 = .ok (.mma 8#4 (g 0) (g 5) 0x3C0#32) ∧ decodeC 0x380C8500#32 0#32 = .ok (.atts 6#4 (g 4) (g 5)) ∧
  decodeC 0xA408A638#32 2#32 = .ok (.gath 4#4 (g 5) (g 6) (g 7) 2#32) ∧
  decodeC 0xAC10A301#32 0x00200011#32 = .ok (.collSr 8#4 (g 5) (g 3) (g 0) 0x00200011#32) ∧
  decodeC 0x680C4304#32 0#32 = .ok (.mapset 6#4 (g 2) (g 3)) ∧ decodeC 0xE8062002#32 1#32 = .ok (.mbxrd 3#4 (g 1) 1#32) ∧
  (∀ w1, decodeC 0xFFFFFFFF#32 w1 = .ok (.diagnostic 0x1FFFFFF#25))

/-- R74–R84: what the encoder writes, the decoder reads back, whatever guard its slot carries and whatever stands in the pair's
other slot: no bit of an operand is dropped. (The two forms of ROUTESET share one encoding, which decodes as the site form; g[A][31]
selects between them at issue, R412.)

R74: every word of a slot that decodes stands for a well-formed instruction that has an encoding; every other word is refused
by the name of what is wrong with it. -/
def Obligations.EncodeAndDecodeAgree : Prop :=
  (∀ (i : Instr) (e : Encoded) (guard : BitVec 4) (w1 : BitVec 32),
    WellFormed i = true → encode i = some e → (guard = 0#4 ∨ ∀ b, i ≠ .diagnostic b) →
      let w := e.word ||| (guard.setWidth 32 <<< 21)
      let back := match i with
        | .routesetPort d a b => .routesetSite d a b
        | i => i
      (e.cslot = true → decodeC w (e.lit.getD w1) = .ok back) ∧ (e.cslot = false → decodeA w = .ok back) ∧
      ((∀ b, i ≠ .diagnostic b) → guardOf w = (guard.extractLsb' 1 3, guard.getLsbD 0))) ∧
  (∀ (w0 w1 : BitVec 32) (i : Instr), decodeC w0 w1 = .ok i ∨ decodeA w1 = .ok i →
    WellFormed i = true ∧ ∃ e, encode i = some e)

/-- Memory keeps its canonical form through every step: addresses rise, and no entry equals the byte that an unlisted address
reads as (log 9).

No pair is left half done, and no event's operands linger, after a step. -/
def Obligations.StepKeepsSafe : Prop :=
  (∀ s t : State, MemCanonical s → step s = .next t → MemCanonical t) ∧
  (∀ s t : State, Settled s → step s = .next t → Settled t)

/-- No instruction and no event ends a run: in every state each of them answers a next state, and so does every step. -/
def Obligations.NothingStopsTheMachine : Prop :=
  (∀ (i : Instr) (s : State), ∃ t, exec i s = .next t) ∧ ∀ s : State, ∃ t, step s = .next t
end

