-- ==== Sys2Proof/Laws/Map.lean ====
section
/-! SUPPORT. The laws of the containers: a read after a write, and the canonical form of memory, which every memory
operation keeps. -/

namespace Sys2Proof.Machine

/-! ## Maps -/

theorem entryGet_entrySet {α : Type} (k j : Nat) (x : α) (l : List (Nat × α)) :
    entryGet j (entrySet k x l) = if j = k then some x else entryGet j l := by
  induction l with
  | nil => simp [entrySet, entryGet]
  | cons e t ih =>
    obtain ⟨i, y⟩ := e
    simp only [entrySet]
    split
    · subst_vars
      simp only [entryGet]
      split <;> simp_all
    · split
      · simp [entryGet]
      · simp only [entryGet, ih]
        split
        · subst_vars
          rw [if_neg (fun h => ‹¬k = _› h.symm)]
        · rfl

/-- A read after a write, whether or not the list is sorted. -/
theorem FMap.getD_set {α : Type} (m : FMap α) (k j : Nat) (x d : α) :
    (m.set k x).getD j d = if j = k then x else m.getD j d := by
  simp only [FMap.getD, FMap.find?, FMap.set, entryGet_entrySet]
  split <;> rfl

theorem FMap.find?_set {α : Type} (m : FMap α) (k j : Nat) (x : α) :
    (m.set k x).find? j = if j = k then some x else m.find? j := entryGet_entrySet k j x m.entries

@[simp] theorem FMap.getD_set_self {α : Type} (m : FMap α) (k : Nat) (x d : α) : (m.set k x).getD k d = x := by
  simp [FMap.getD_set]
theorem FMap.getD_set_ne {α : Type} (m : FMap α) {k j : Nat} (x d : α) (h : j ≠ k) :
    (m.set k x).getD j d = m.getD j d := by simp [FMap.getD_set, h]

/-! ## Memory: reading back -/

theorem Memory.read_insert (m : Memory) (a b : Nat) (x : Byte) :
    (Memory.insert a x m).read b = if b = a then x else m.read b := by
  induction m with
  | nil => simp [Memory.insert, Memory.read]
  | cons e t ih =>
    obtain ⟨c, y⟩ := e
    simp only [Memory.insert]
    split
    · subst_vars
      simp only [Memory.read]
      split <;> simp_all
    · split
      · simp [Memory.read]
      · simp only [Memory.read, ih]
        split
        · subst_vars
          rw [if_neg (fun h => ‹¬a = _› h.symm)]
        · rfl

theorem Memory.read_filter_ne (m : Memory) (a b : Nat) :
    Memory.read (m.filter fun c => c.1 != a) b = if b = a then 0#8 else m.read b := by
  induction m with
  | nil => simp [Memory.read]
  | cons e t ih =>
    obtain ⟨c, y⟩ := e
    by_cases h : c = a
    · subst h
      simp only [List.filter, bne_self_eq_false, ih, Memory.read]
      split <;> rfl
    · have : (c != a) = true := by simpa using h
      simp only [List.filter, this, Memory.read, ih]
      split
      · subst_vars
        rw [if_neg h]
      · rfl

/-- A byte written reads back, and every other byte reads as before. -/
theorem Memory.read_write (m : Memory) (a b : Nat) (x : Byte) :
    (m.write a x).read b = if b = a then x else m.read b := by
  unfold Memory.write
  split
  · rw [Memory.read_filter_ne]; subst_vars; rfl
  · exact Memory.read_insert m a b x

theorem Memory.read_writeN_out (m : Memory) (a n x b : Nat) (h : b < a ∨ a + n ≤ b) :
    (m.writeN a n x).read b = m.read b := by
  induction n generalizing m a x with
  | zero => rfl
  | succ n ih =>
    rw [Memory.writeN, ih _ _ _ (by omega), Memory.read_write, if_neg (by omega)]

theorem Memory.read_writeBytes_out (m : Memory) (a : Nat) (l : List Byte) (b : Nat) (h : b < a ∨ a + l.length ≤ b) :
    (m.writeBytes a l).read b = m.read b := by
  induction l generalizing m a with
  | nil => rfl
  | cons x t ih =>
    simp only [List.length_cons] at h
    rw [Memory.writeBytes, ih _ _ (by omega), Memory.read_write, if_neg (by omega)]

theorem Memory.readN_lt (m : Memory) (a n : Nat) : m.readN a n < 256 ^ n := by
  induction n generalizing a with
  | zero => simp [Memory.readN]
  | succ n ih =>
    have h1 := ih (a + 1)
    have h2 := (m.read a).isLt
    rw [Memory.readN, Nat.pow_succ]
    omega

theorem Memory.readN_write_out (m : Memory) (a b n : Nat) (x : Byte) (h : a < b) :
    (m.write a x).readN b n = m.readN b n := by
  induction n generalizing b with
  | zero => rfl
  | succ n ih => rw [Memory.readN, Memory.readN, ih _ (by omega), Memory.read_write, if_neg (by omega)]

theorem Memory.readN_succ_writeN (m : Memory) (a n x : Nat) (y : Byte) :
    ((m.write a y).writeN (a + 1) n x).read a = y := by
  rw [Memory.read_writeN_out _ _ _ _ _ (by omega), Memory.read_write, if_pos rfl]

/-- What is written reads back, little-endian (R4). -/
theorem Memory.readN_writeN (m : Memory) (a n x : Nat) : (m.writeN a n x).readN a n = x % 256 ^ n := by
  induction n generalizing m a x with
  | zero => simp [Memory.readN, Nat.mod_one]
  | succ n ih =>
    rw [Memory.writeN, Memory.readN, Memory.readN_succ_writeN, ih, Nat.pow_succ, Nat.mul_comm (256 ^ n) 256, Nat.mod_mul]
    simp [BitVec.toNat_ofNat]

/-! ## Memory: the canonical form -/

theorem Memory.wf_cons (a : Nat) (x : Byte) (t : Memory) :
    Memory.wf ((a, x) :: t) = true ↔ x ≠ 0#8 ∧ (∀ c ∈ t, a < c.1) ∧ t.wf = true := by
  induction t generalizing a x with
  | nil => simp [Memory.wf]
  | cons e t ih =>
    obtain ⟨b, y⟩ := e
    rw [Memory.wf]
    simp only [Bool.and_eq_true, bne_iff_ne, ne_eq, decide_eq_true_eq, List.mem_cons, forall_eq_or_imp]
    constructor
    · rintro ⟨⟨hx, hab⟩, hw⟩
      have hb := (ih b y).mp hw
      exact ⟨hx, ⟨hab, fun c hc => Nat.lt_trans hab (hb.2.1 c hc)⟩, hw⟩
    · rintro ⟨hx, ⟨hab, _⟩, hw⟩
      exact ⟨⟨hx, hab⟩, hw⟩

theorem Memory.mem_insert {a : Nat} {x : Byte} {m : Memory} {c : Host.Cell} (h : c ∈ Memory.insert a x m) :
    c = (a, x) ∨ c ∈ m := by
  induction m with
  | nil => simpa [Memory.insert] using h
  | cons e t ih =>
    obtain ⟨b, y⟩ := e
    simp only [Memory.insert] at h
    split at h
    · rcases List.mem_cons.mp h with h | h
      · exact .inl h
      · exact .inr (List.mem_cons_of_mem _ h)
    · split at h
      · exact List.mem_cons.mp h
      · rcases List.mem_cons.mp h with h | h
        · exact .inr (h ▸ List.mem_cons_self)
        · exact (ih h).imp id (List.mem_cons_of_mem _)

theorem Memory.wf_insert (a : Nat) (x : Byte) (m : Memory) (hx : x ≠ 0#8) (h : m.wf = true) :
    (Memory.insert a x m).wf = true := by
  induction m with
  | nil => simpa [Memory.insert, Memory.wf] using hx
  | cons e t ih =>
    obtain ⟨b, y⟩ := e
    obtain ⟨hy, hlt, ht⟩ := (Memory.wf_cons b y t).mp h
    simp only [Memory.insert]
    split
    · subst_vars
      exact (Memory.wf_cons _ _ _).mpr ⟨hx, hlt, ht⟩
    · split
      · refine (Memory.wf_cons _ _ _).mpr ⟨hx, ?_, h⟩
        intro c hc
        rcases List.mem_cons.mp hc with rfl | hc
        · assumption
        · exact Nat.lt_trans ‹_› (hlt c hc)
      · refine (Memory.wf_cons _ _ _).mpr ⟨hy, ?_, ih ht⟩
        intro c hc
        rcases Memory.mem_insert hc with rfl | hc
        · simp only; omega
        · exact hlt c hc

theorem Memory.wf_filter (p : Host.Cell → Bool) (m : Memory) (h : m.wf = true) : Memory.wf (m.filter p) = true := by
  induction m with
  | nil => rfl
  | cons e t ih =>
    obtain ⟨b, y⟩ := e
    obtain ⟨hy, hlt, ht⟩ := (Memory.wf_cons b y t).mp h
    rw [List.filter]
    split
    · exact (Memory.wf_cons _ _ _).mpr ⟨hy, fun c hc => hlt c (List.mem_filter.mp hc).1, ih ht⟩
    · exact ih ht

theorem Memory.wf_write (m : Memory) (a : Nat) (x : Byte) (h : m.wf = true) : (m.write a x).wf = true := by
  unfold Memory.write
  split
  · exact Memory.wf_filter _ m h
  · exact Memory.wf_insert a x m ‹_› h

theorem Memory.wf_clear (m : Memory) (lo n : Nat) (h : m.wf = true) : (m.clear lo n).wf = true := Memory.wf_filter _ m h

theorem Memory.wf_writeN (m : Memory) (a n x : Nat) (h : m.wf = true) : (m.writeN a n x).wf = true := by
  induction n generalizing m a x with
  | zero => exact h
  | succ n ih => exact ih _ _ _ (Memory.wf_write m a _ h)

theorem Memory.wf_writeBytes (m : Memory) (a : Nat) (l : List Byte) (h : m.wf = true) : (m.writeBytes a l).wf = true := by
  induction l generalizing m a with
  | nil => exact h
  | cons x t ih => exact ih _ _ (Memory.wf_write m a x h)

/-! ## Sets -/

theorem mem_setInsert (k j : Nat) (s : NatSet) : j ∈ setInsert k s ↔ j = k ∨ j ∈ s := by
  induction s with
  | nil => simp [setInsert]
  | cons i t ih =>
    rw [setInsert]
    split
    · subst_vars; simp
    · split
      · simp
      · simp only [List.mem_cons, ih]
        exact or_left_comm

theorem mem_setRemove (k j : Nat) (s : NatSet) : j ∈ setRemove k s ↔ j ≠ k ∧ j ∈ s := by
  simp [setRemove, and_comm]

/-! ## Bytes of numbers -/

@[simp] theorem length_toBytes (n x : Nat) : (toBytes n x).length = n := by
  induction n generalizing x with
  | zero => rfl
  | succ n ih => simp [toBytes, ih]
theorem ofBytes_toBytes (n x : Nat) : ofBytes (toBytes n x) = x % 256 ^ n := by
  induction n generalizing x with
  | zero => simp [toBytes, ofBytes, Nat.mod_one]
  | succ n ih =>
    rw [toBytes, ofBytes, ih, BitVec.toNat_ofNat, Nat.pow_add_one' (m := 256), Nat.mod_mul]

end Sys2Proof.Machine
end

