-- ==== Sys2Proof/Laws/State.lean ====
section
/-! SUPPORT. What each record update of State changes: one lemma per field per update, and what the accessors read after
it. -/

namespace Sys2Proof.Machine

/-! ## Fields -/

@[simp] theorem State.setStrand_time (s : State) (k : Nat) (x : Strand) : (s.setStrand k x).time = s.time := rfl
@[simp] theorem State.setStrand_mem (s : State) (k : Nat) (x : Strand) : (s.setStrand k x).mem = s.mem := rfl
@[simp] theorem State.setStrand_poison (s : State) (k : Nat) (x : Strand) : (s.setStrand k x).poison = s.poison := rfl
@[simp] theorem State.setStrand_zeroed (s : State) (k : Nat) (x : Strand) : (s.setStrand k x).zeroed = s.zeroed := rfl
@[simp] theorem State.setStrand_cores (s : State) (k : Nat) (x : Strand) : (s.setStrand k x).cores = s.cores := rfl
@[simp] theorem State.setStrand_tiles (s : State) (k : Nat) (x : Strand) : (s.setStrand k x).tiles = s.tiles := rfl
@[simp] theorem State.setStrand_zones (s : State) (k : Nat) (x : Strand) : (s.setStrand k x).zones = s.zones := rfl
@[simp] theorem State.setStrand_parts (s : State) (k : Nat) (x : Strand) : (s.setStrand k x).parts = s.parts := rfl
@[simp] theorem State.setStrand_tenants (s : State) (k : Nat) (x : Strand) : (s.setStrand k x).tenants = s.tenants := rfl
@[simp] theorem State.setStrand_rings (s : State) (k : Nat) (x : Strand) : (s.setStrand k x).rings = s.rings := rfl
@[simp] theorem State.setStrand_ports (s : State) (k : Nat) (x : Strand) : (s.setStrand k x).ports = s.ports := rfl
@[simp] theorem State.setStrand_launches (s : State) (k : Nat) (x : Strand) : (s.setStrand k x).launches = s.launches := rfl
@[simp] theorem State.setStrand_nextLaunch (s : State) (k : Nat) (x : Strand) : (s.setStrand k x).nextLaunch = s.nextLaunch := rfl
@[simp] theorem State.setStrand_module (s : State) (k : Nat) (x : Strand) : (s.setStrand k x).module = s.module := rfl
@[simp] theorem State.setStrand_accesses (s : State) (k : Nat) (x : Strand) : (s.setStrand k x).accesses = s.accesses := rfl
@[simp] theorem State.setStrand_ops (s : State) (k : Nat) (x : Strand) : (s.setStrand k x).ops = s.ops := rfl
@[simp] theorem State.setStrand_messages (s : State) (k : Nat) (x : Strand) : (s.setStrand k x).messages = s.messages := rfl
@[simp] theorem State.setStrand_packets (s : State) (k : Nat) (x : Strand) : (s.setStrand k x).packets = s.packets := rfl
@[simp] theorem State.setStrand_signals (s : State) (k : Nat) (x : Strand) : (s.setStrand k x).signals = s.signals := rfl
@[simp] theorem State.setStrand_treeMsgs (s : State) (k : Nat) (x : Strand) : (s.setStrand k x).treeMsgs = s.treeMsgs := rfl
@[simp] theorem State.setStrand_reports (s : State) (k : Nat) (x : Strand) : (s.setStrand k x).reports = s.reports := rfl
@[simp] theorem State.setStrand_slotWrites (s : State) (k : Nat) (x : Strand) : (s.setStrand k x).slotWrites = s.slotWrites := rfl
@[simp] theorem State.setStrand_placed (s : State) (k : Nat) (x : Strand) : (s.setStrand k x).placed = s.placed := rfl
@[simp] theorem State.setStrand_l2 (s : State) (k : Nat) (x : Strand) : (s.setStrand k x).l2 = s.l2 := rfl
@[simp] theorem State.setStrand_pri (s : State) (k : Nat) (x : Strand) : (s.setStrand k x).pri = s.pri := rfl
@[simp] theorem State.setStrand_hostAbsent (s : State) (k : Nat) (x : Strand) : (s.setStrand k x).hostAbsent = s.hostAbsent := rfl
@[simp] theorem State.setStrand_hostRefused (s : State) (k : Nat) (x : Strand) : (s.setStrand k x).hostRefused = s.hostRefused := rfl
@[simp] theorem State.setStrand_outputs (s : State) (k : Nat) (x : Strand) : (s.setStrand k x).outputs = s.outputs := rfl
@[simp] theorem State.setStrand_outbox (s : State) (k : Nat) (x : Strand) : (s.setStrand k x).outbox = s.outbox := rfl
@[simp] theorem State.setStrand_nextOrder (s : State) (k : Nat) (x : Strand) : (s.setStrand k x).nextOrder = s.nextOrder := rfl
@[simp] theorem State.setStrand_tagLog (s : State) (k : Nat) (x : Strand) : (s.setStrand k x).tagLog = s.tagLog := rfl
@[simp] theorem State.setStrand_nextTag (s : State) (k : Nat) (x : Strand) : (s.setStrand k x).nextTag = s.nextTag := rfl
@[simp] theorem State.setStrand_free (s : State) (k : Nat) (x : Strand) : (s.setStrand k x).free = s.free := rfl
@[simp] theorem State.setStrand_cur (s : State) (k : Nat) (x : Strand) : (s.setStrand k x).cur = s.cur := rfl
@[simp] theorem State.setStrand_input (s : State) (k : Nat) (x : Strand) : (s.setStrand k x).input = s.input := rfl
@[simp] theorem State.setStrand_agenda (s : State) (k : Nat) (x : Strand) : (s.setStrand k x).agenda = s.agenda := rfl

@[simp] theorem State.setCore_time (s : State) (k : Nat) (x : Core) : (s.setCore k x).time = s.time := rfl
@[simp] theorem State.setCore_mem (s : State) (k : Nat) (x : Core) : (s.setCore k x).mem = s.mem := rfl
@[simp] theorem State.setCore_poison (s : State) (k : Nat) (x : Core) : (s.setCore k x).poison = s.poison := rfl
@[simp] theorem State.setCore_zeroed (s : State) (k : Nat) (x : Core) : (s.setCore k x).zeroed = s.zeroed := rfl
@[simp] theorem State.setCore_strands (s : State) (k : Nat) (x : Core) : (s.setCore k x).strands = s.strands := rfl
@[simp] theorem State.setCore_tiles (s : State) (k : Nat) (x : Core) : (s.setCore k x).tiles = s.tiles := rfl
@[simp] theorem State.setCore_zones (s : State) (k : Nat) (x : Core) : (s.setCore k x).zones = s.zones := rfl
@[simp] theorem State.setCore_parts (s : State) (k : Nat) (x : Core) : (s.setCore k x).parts = s.parts := rfl
@[simp] theorem State.setCore_tenants (s : State) (k : Nat) (x : Core) : (s.setCore k x).tenants = s.tenants := rfl
@[simp] theorem State.setCore_rings (s : State) (k : Nat) (x : Core) : (s.setCore k x).rings = s.rings := rfl
@[simp] theorem State.setCore_ports (s : State) (k : Nat) (x : Core) : (s.setCore k x).ports = s.ports := rfl
@[simp] theorem State.setCore_launches (s : State) (k : Nat) (x : Core) : (s.setCore k x).launches = s.launches := rfl
@[simp] theorem State.setCore_nextLaunch (s : State) (k : Nat) (x : Core) : (s.setCore k x).nextLaunch = s.nextLaunch := rfl
@[simp] theorem State.setCore_module (s : State) (k : Nat) (x : Core) : (s.setCore k x).module = s.module := rfl
@[simp] theorem State.setCore_accesses (s : State) (k : Nat) (x : Core) : (s.setCore k x).accesses = s.accesses := rfl
@[simp] theorem State.setCore_ops (s : State) (k : Nat) (x : Core) : (s.setCore k x).ops = s.ops := rfl
@[simp] theorem State.setCore_messages (s : State) (k : Nat) (x : Core) : (s.setCore k x).messages = s.messages := rfl
@[simp] theorem State.setCore_packets (s : State) (k : Nat) (x : Core) : (s.setCore k x).packets = s.packets := rfl
@[simp] theorem State.setCore_signals (s : State) (k : Nat) (x : Core) : (s.setCore k x).signals = s.signals := rfl
@[simp] theorem State.setCore_treeMsgs (s : State) (k : Nat) (x : Core) : (s.setCore k x).treeMsgs = s.treeMsgs := rfl
@[simp] theorem State.setCore_reports (s : State) (k : Nat) (x : Core) : (s.setCore k x).reports = s.reports := rfl
@[simp] theorem State.setCore_slotWrites (s : State) (k : Nat) (x : Core) : (s.setCore k x).slotWrites = s.slotWrites := rfl
@[simp] theorem State.setCore_placed (s : State) (k : Nat) (x : Core) : (s.setCore k x).placed = s.placed := rfl
@[simp] theorem State.setCore_l2 (s : State) (k : Nat) (x : Core) : (s.setCore k x).l2 = s.l2 := rfl
@[simp] theorem State.setCore_pri (s : State) (k : Nat) (x : Core) : (s.setCore k x).pri = s.pri := rfl
@[simp] theorem State.setCore_hostAbsent (s : State) (k : Nat) (x : Core) : (s.setCore k x).hostAbsent = s.hostAbsent := rfl
@[simp] theorem State.setCore_hostRefused (s : State) (k : Nat) (x : Core) : (s.setCore k x).hostRefused = s.hostRefused := rfl
@[simp] theorem State.setCore_outputs (s : State) (k : Nat) (x : Core) : (s.setCore k x).outputs = s.outputs := rfl
@[simp] theorem State.setCore_outbox (s : State) (k : Nat) (x : Core) : (s.setCore k x).outbox = s.outbox := rfl
@[simp] theorem State.setCore_nextOrder (s : State) (k : Nat) (x : Core) : (s.setCore k x).nextOrder = s.nextOrder := rfl
@[simp] theorem State.setCore_tagLog (s : State) (k : Nat) (x : Core) : (s.setCore k x).tagLog = s.tagLog := rfl
@[simp] theorem State.setCore_nextTag (s : State) (k : Nat) (x : Core) : (s.setCore k x).nextTag = s.nextTag := rfl
@[simp] theorem State.setCore_free (s : State) (k : Nat) (x : Core) : (s.setCore k x).free = s.free := rfl
@[simp] theorem State.setCore_cur (s : State) (k : Nat) (x : Core) : (s.setCore k x).cur = s.cur := rfl
@[simp] theorem State.setCore_input (s : State) (k : Nat) (x : Core) : (s.setCore k x).input = s.input := rfl
@[simp] theorem State.setCore_agenda (s : State) (k : Nat) (x : Core) : (s.setCore k x).agenda = s.agenda := rfl

@[simp] theorem State.setTile_time (s : State) (k : Nat) (x : Tile) : (s.setTile k x).time = s.time := rfl
@[simp] theorem State.setTile_mem (s : State) (k : Nat) (x : Tile) : (s.setTile k x).mem = s.mem := rfl
@[simp] theorem State.setTile_poison (s : State) (k : Nat) (x : Tile) : (s.setTile k x).poison = s.poison := rfl
@[simp] theorem State.setTile_zeroed (s : State) (k : Nat) (x : Tile) : (s.setTile k x).zeroed = s.zeroed := rfl
@[simp] theorem State.setTile_strands (s : State) (k : Nat) (x : Tile) : (s.setTile k x).strands = s.strands := rfl
@[simp] theorem State.setTile_cores (s : State) (k : Nat) (x : Tile) : (s.setTile k x).cores = s.cores := rfl
@[simp] theorem State.setTile_zones (s : State) (k : Nat) (x : Tile) : (s.setTile k x).zones = s.zones := rfl
@[simp] theorem State.setTile_parts (s : State) (k : Nat) (x : Tile) : (s.setTile k x).parts = s.parts := rfl
@[simp] theorem State.setTile_tenants (s : State) (k : Nat) (x : Tile) : (s.setTile k x).tenants = s.tenants := rfl
@[simp] theorem State.setTile_rings (s : State) (k : Nat) (x : Tile) : (s.setTile k x).rings = s.rings := rfl
@[simp] theorem State.setTile_ports (s : State) (k : Nat) (x : Tile) : (s.setTile k x).ports = s.ports := rfl
@[simp] theorem State.setTile_launches (s : State) (k : Nat) (x : Tile) : (s.setTile k x).launches = s.launches := rfl
@[simp] theorem State.setTile_nextLaunch (s : State) (k : Nat) (x : Tile) : (s.setTile k x).nextLaunch = s.nextLaunch := rfl
@[simp] theorem State.setTile_module (s : State) (k : Nat) (x : Tile) : (s.setTile k x).module = s.module := rfl
@[simp] theorem State.setTile_accesses (s : State) (k : Nat) (x : Tile) : (s.setTile k x).accesses = s.accesses := rfl
@[simp] theorem State.setTile_ops (s : State) (k : Nat) (x : Tile) : (s.setTile k x).ops = s.ops := rfl
@[simp] theorem State.setTile_messages (s : State) (k : Nat) (x : Tile) : (s.setTile k x).messages = s.messages := rfl
@[simp] theorem State.setTile_packets (s : State) (k : Nat) (x : Tile) : (s.setTile k x).packets = s.packets := rfl
@[simp] theorem State.setTile_signals (s : State) (k : Nat) (x : Tile) : (s.setTile k x).signals = s.signals := rfl
@[simp] theorem State.setTile_treeMsgs (s : State) (k : Nat) (x : Tile) : (s.setTile k x).treeMsgs = s.treeMsgs := rfl
@[simp] theorem State.setTile_reports (s : State) (k : Nat) (x : Tile) : (s.setTile k x).reports = s.reports := rfl
@[simp] theorem State.setTile_slotWrites (s : State) (k : Nat) (x : Tile) : (s.setTile k x).slotWrites = s.slotWrites := rfl
@[simp] theorem State.setTile_placed (s : State) (k : Nat) (x : Tile) : (s.setTile k x).placed = s.placed := rfl
@[simp] theorem State.setTile_l2 (s : State) (k : Nat) (x : Tile) : (s.setTile k x).l2 = s.l2 := rfl
@[simp] theorem State.setTile_pri (s : State) (k : Nat) (x : Tile) : (s.setTile k x).pri = s.pri := rfl
@[simp] theorem State.setTile_hostAbsent (s : State) (k : Nat) (x : Tile) : (s.setTile k x).hostAbsent = s.hostAbsent := rfl
@[simp] theorem State.setTile_hostRefused (s : State) (k : Nat) (x : Tile) : (s.setTile k x).hostRefused = s.hostRefused := rfl
@[simp] theorem State.setTile_outputs (s : State) (k : Nat) (x : Tile) : (s.setTile k x).outputs = s.outputs := rfl
@[simp] theorem State.setTile_outbox (s : State) (k : Nat) (x : Tile) : (s.setTile k x).outbox = s.outbox := rfl
@[simp] theorem State.setTile_nextOrder (s : State) (k : Nat) (x : Tile) : (s.setTile k x).nextOrder = s.nextOrder := rfl
@[simp] theorem State.setTile_tagLog (s : State) (k : Nat) (x : Tile) : (s.setTile k x).tagLog = s.tagLog := rfl
@[simp] theorem State.setTile_nextTag (s : State) (k : Nat) (x : Tile) : (s.setTile k x).nextTag = s.nextTag := rfl
@[simp] theorem State.setTile_free (s : State) (k : Nat) (x : Tile) : (s.setTile k x).free = s.free := rfl
@[simp] theorem State.setTile_cur (s : State) (k : Nat) (x : Tile) : (s.setTile k x).cur = s.cur := rfl
@[simp] theorem State.setTile_input (s : State) (k : Nat) (x : Tile) : (s.setTile k x).input = s.input := rfl
@[simp] theorem State.setTile_agenda (s : State) (k : Nat) (x : Tile) : (s.setTile k x).agenda = s.agenda := rfl

@[simp] theorem State.setZone_time (s : State) (k : Nat) (x : Zone) : (s.setZone k x).time = s.time := rfl
@[simp] theorem State.setZone_mem (s : State) (k : Nat) (x : Zone) : (s.setZone k x).mem = s.mem := rfl
@[simp] theorem State.setZone_poison (s : State) (k : Nat) (x : Zone) : (s.setZone k x).poison = s.poison := rfl
@[simp] theorem State.setZone_zeroed (s : State) (k : Nat) (x : Zone) : (s.setZone k x).zeroed = s.zeroed := rfl
@[simp] theorem State.setZone_strands (s : State) (k : Nat) (x : Zone) : (s.setZone k x).strands = s.strands := rfl
@[simp] theorem State.setZone_cores (s : State) (k : Nat) (x : Zone) : (s.setZone k x).cores = s.cores := rfl
@[simp] theorem State.setZone_tiles (s : State) (k : Nat) (x : Zone) : (s.setZone k x).tiles = s.tiles := rfl
@[simp] theorem State.setZone_parts (s : State) (k : Nat) (x : Zone) : (s.setZone k x).parts = s.parts := rfl
@[simp] theorem State.setZone_tenants (s : State) (k : Nat) (x : Zone) : (s.setZone k x).tenants = s.tenants := rfl
@[simp] theorem State.setZone_rings (s : State) (k : Nat) (x : Zone) : (s.setZone k x).rings = s.rings := rfl
@[simp] theorem State.setZone_ports (s : State) (k : Nat) (x : Zone) : (s.setZone k x).ports = s.ports := rfl
@[simp] theorem State.setZone_launches (s : State) (k : Nat) (x : Zone) : (s.setZone k x).launches = s.launches := rfl
@[simp] theorem State.setZone_nextLaunch (s : State) (k : Nat) (x : Zone) : (s.setZone k x).nextLaunch = s.nextLaunch := rfl
@[simp] theorem State.setZone_module (s : State) (k : Nat) (x : Zone) : (s.setZone k x).module = s.module := rfl
@[simp] theorem State.setZone_accesses (s : State) (k : Nat) (x : Zone) : (s.setZone k x).accesses = s.accesses := rfl
@[simp] theorem State.setZone_ops (s : State) (k : Nat) (x : Zone) : (s.setZone k x).ops = s.ops := rfl
@[simp] theorem State.setZone_messages (s : State) (k : Nat) (x : Zone) : (s.setZone k x).messages = s.messages := rfl
@[simp] theorem State.setZone_packets (s : State) (k : Nat) (x : Zone) : (s.setZone k x).packets = s.packets := rfl
@[simp] theorem State.setZone_signals (s : State) (k : Nat) (x : Zone) : (s.setZone k x).signals = s.signals := rfl
@[simp] theorem State.setZone_treeMsgs (s : State) (k : Nat) (x : Zone) : (s.setZone k x).treeMsgs = s.treeMsgs := rfl
@[simp] theorem State.setZone_reports (s : State) (k : Nat) (x : Zone) : (s.setZone k x).reports = s.reports := rfl
@[simp] theorem State.setZone_slotWrites (s : State) (k : Nat) (x : Zone) : (s.setZone k x).slotWrites = s.slotWrites := rfl
@[simp] theorem State.setZone_placed (s : State) (k : Nat) (x : Zone) : (s.setZone k x).placed = s.placed := rfl
@[simp] theorem State.setZone_l2 (s : State) (k : Nat) (x : Zone) : (s.setZone k x).l2 = s.l2 := rfl
@[simp] theorem State.setZone_pri (s : State) (k : Nat) (x : Zone) : (s.setZone k x).pri = s.pri := rfl
@[simp] theorem State.setZone_hostAbsent (s : State) (k : Nat) (x : Zone) : (s.setZone k x).hostAbsent = s.hostAbsent := rfl
@[simp] theorem State.setZone_hostRefused (s : State) (k : Nat) (x : Zone) : (s.setZone k x).hostRefused = s.hostRefused := rfl
@[simp] theorem State.setZone_outputs (s : State) (k : Nat) (x : Zone) : (s.setZone k x).outputs = s.outputs := rfl
@[simp] theorem State.setZone_outbox (s : State) (k : Nat) (x : Zone) : (s.setZone k x).outbox = s.outbox := rfl
@[simp] theorem State.setZone_nextOrder (s : State) (k : Nat) (x : Zone) : (s.setZone k x).nextOrder = s.nextOrder := rfl
@[simp] theorem State.setZone_tagLog (s : State) (k : Nat) (x : Zone) : (s.setZone k x).tagLog = s.tagLog := rfl
@[simp] theorem State.setZone_nextTag (s : State) (k : Nat) (x : Zone) : (s.setZone k x).nextTag = s.nextTag := rfl
@[simp] theorem State.setZone_free (s : State) (k : Nat) (x : Zone) : (s.setZone k x).free = s.free := rfl
@[simp] theorem State.setZone_cur (s : State) (k : Nat) (x : Zone) : (s.setZone k x).cur = s.cur := rfl
@[simp] theorem State.setZone_input (s : State) (k : Nat) (x : Zone) : (s.setZone k x).input = s.input := rfl
@[simp] theorem State.setZone_agenda (s : State) (k : Nat) (x : Zone) : (s.setZone k x).agenda = s.agenda := rfl

@[simp] theorem State.setPart_time (s : State) (k : Nat) (x : Partition) : (s.setPart k x).time = s.time := rfl
@[simp] theorem State.setPart_mem (s : State) (k : Nat) (x : Partition) : (s.setPart k x).mem = s.mem := rfl
@[simp] theorem State.setPart_poison (s : State) (k : Nat) (x : Partition) : (s.setPart k x).poison = s.poison := rfl
@[simp] theorem State.setPart_zeroed (s : State) (k : Nat) (x : Partition) : (s.setPart k x).zeroed = s.zeroed := rfl
@[simp] theorem State.setPart_strands (s : State) (k : Nat) (x : Partition) : (s.setPart k x).strands = s.strands := rfl
@[simp] theorem State.setPart_cores (s : State) (k : Nat) (x : Partition) : (s.setPart k x).cores = s.cores := rfl
@[simp] theorem State.setPart_tiles (s : State) (k : Nat) (x : Partition) : (s.setPart k x).tiles = s.tiles := rfl
@[simp] theorem State.setPart_zones (s : State) (k : Nat) (x : Partition) : (s.setPart k x).zones = s.zones := rfl
@[simp] theorem State.setPart_tenants (s : State) (k : Nat) (x : Partition) : (s.setPart k x).tenants = s.tenants := rfl
@[simp] theorem State.setPart_rings (s : State) (k : Nat) (x : Partition) : (s.setPart k x).rings = s.rings := rfl
@[simp] theorem State.setPart_ports (s : State) (k : Nat) (x : Partition) : (s.setPart k x).ports = s.ports := rfl
@[simp] theorem State.setPart_launches (s : State) (k : Nat) (x : Partition) : (s.setPart k x).launches = s.launches := rfl
@[simp] theorem State.setPart_nextLaunch (s : State) (k : Nat) (x : Partition) : (s.setPart k x).nextLaunch = s.nextLaunch := rfl
@[simp] theorem State.setPart_module (s : State) (k : Nat) (x : Partition) : (s.setPart k x).module = s.module := rfl
@[simp] theorem State.setPart_accesses (s : State) (k : Nat) (x : Partition) : (s.setPart k x).accesses = s.accesses := rfl
@[simp] theorem State.setPart_ops (s : State) (k : Nat) (x : Partition) : (s.setPart k x).ops = s.ops := rfl
@[simp] theorem State.setPart_messages (s : State) (k : Nat) (x : Partition) : (s.setPart k x).messages = s.messages := rfl
@[simp] theorem State.setPart_packets (s : State) (k : Nat) (x : Partition) : (s.setPart k x).packets = s.packets := rfl
@[simp] theorem State.setPart_signals (s : State) (k : Nat) (x : Partition) : (s.setPart k x).signals = s.signals := rfl
@[simp] theorem State.setPart_treeMsgs (s : State) (k : Nat) (x : Partition) : (s.setPart k x).treeMsgs = s.treeMsgs := rfl
@[simp] theorem State.setPart_reports (s : State) (k : Nat) (x : Partition) : (s.setPart k x).reports = s.reports := rfl
@[simp] theorem State.setPart_slotWrites (s : State) (k : Nat) (x : Partition) : (s.setPart k x).slotWrites = s.slotWrites := rfl
@[simp] theorem State.setPart_placed (s : State) (k : Nat) (x : Partition) : (s.setPart k x).placed = s.placed := rfl
@[simp] theorem State.setPart_l2 (s : State) (k : Nat) (x : Partition) : (s.setPart k x).l2 = s.l2 := rfl
@[simp] theorem State.setPart_pri (s : State) (k : Nat) (x : Partition) : (s.setPart k x).pri = s.pri := rfl
@[simp] theorem State.setPart_hostAbsent (s : State) (k : Nat) (x : Partition) : (s.setPart k x).hostAbsent = s.hostAbsent := rfl
@[simp] theorem State.setPart_hostRefused (s : State) (k : Nat) (x : Partition) : (s.setPart k x).hostRefused = s.hostRefused := rfl
@[simp] theorem State.setPart_outputs (s : State) (k : Nat) (x : Partition) : (s.setPart k x).outputs = s.outputs := rfl
@[simp] theorem State.setPart_outbox (s : State) (k : Nat) (x : Partition) : (s.setPart k x).outbox = s.outbox := rfl
@[simp] theorem State.setPart_nextOrder (s : State) (k : Nat) (x : Partition) : (s.setPart k x).nextOrder = s.nextOrder := rfl
@[simp] theorem State.setPart_tagLog (s : State) (k : Nat) (x : Partition) : (s.setPart k x).tagLog = s.tagLog := rfl
@[simp] theorem State.setPart_nextTag (s : State) (k : Nat) (x : Partition) : (s.setPart k x).nextTag = s.nextTag := rfl
@[simp] theorem State.setPart_free (s : State) (k : Nat) (x : Partition) : (s.setPart k x).free = s.free := rfl
@[simp] theorem State.setPart_cur (s : State) (k : Nat) (x : Partition) : (s.setPart k x).cur = s.cur := rfl
@[simp] theorem State.setPart_input (s : State) (k : Nat) (x : Partition) : (s.setPart k x).input = s.input := rfl
@[simp] theorem State.setPart_agenda (s : State) (k : Nat) (x : Partition) : (s.setPart k x).agenda = s.agenda := rfl

@[simp] theorem State.setTenant_time (s : State) (k : Nat) (x : Tenant) : (s.setTenant k x).time = s.time := rfl
@[simp] theorem State.setTenant_mem (s : State) (k : Nat) (x : Tenant) : (s.setTenant k x).mem = s.mem := rfl
@[simp] theorem State.setTenant_poison (s : State) (k : Nat) (x : Tenant) : (s.setTenant k x).poison = s.poison := rfl
@[simp] theorem State.setTenant_zeroed (s : State) (k : Nat) (x : Tenant) : (s.setTenant k x).zeroed = s.zeroed := rfl
@[simp] theorem State.setTenant_strands (s : State) (k : Nat) (x : Tenant) : (s.setTenant k x).strands = s.strands := rfl
@[simp] theorem State.setTenant_cores (s : State) (k : Nat) (x : Tenant) : (s.setTenant k x).cores = s.cores := rfl
@[simp] theorem State.setTenant_tiles (s : State) (k : Nat) (x : Tenant) : (s.setTenant k x).tiles = s.tiles := rfl
@[simp] theorem State.setTenant_zones (s : State) (k : Nat) (x : Tenant) : (s.setTenant k x).zones = s.zones := rfl
@[simp] theorem State.setTenant_parts (s : State) (k : Nat) (x : Tenant) : (s.setTenant k x).parts = s.parts := rfl
@[simp] theorem State.setTenant_rings (s : State) (k : Nat) (x : Tenant) : (s.setTenant k x).rings = s.rings := rfl
@[simp] theorem State.setTenant_ports (s : State) (k : Nat) (x : Tenant) : (s.setTenant k x).ports = s.ports := rfl
@[simp] theorem State.setTenant_launches (s : State) (k : Nat) (x : Tenant) : (s.setTenant k x).launches = s.launches := rfl
@[simp] theorem State.setTenant_nextLaunch (s : State) (k : Nat) (x : Tenant) : (s.setTenant k x).nextLaunch = s.nextLaunch := rfl
@[simp] theorem State.setTenant_module (s : State) (k : Nat) (x : Tenant) : (s.setTenant k x).module = s.module := rfl
@[simp] theorem State.setTenant_accesses (s : State) (k : Nat) (x : Tenant) : (s.setTenant k x).accesses = s.accesses := rfl
@[simp] theorem State.setTenant_ops (s : State) (k : Nat) (x : Tenant) : (s.setTenant k x).ops = s.ops := rfl
@[simp] theorem State.setTenant_messages (s : State) (k : Nat) (x : Tenant) : (s.setTenant k x).messages = s.messages := rfl
@[simp] theorem State.setTenant_packets (s : State) (k : Nat) (x : Tenant) : (s.setTenant k x).packets = s.packets := rfl
@[simp] theorem State.setTenant_signals (s : State) (k : Nat) (x : Tenant) : (s.setTenant k x).signals = s.signals := rfl
@[simp] theorem State.setTenant_treeMsgs (s : State) (k : Nat) (x : Tenant) : (s.setTenant k x).treeMsgs = s.treeMsgs := rfl
@[simp] theorem State.setTenant_reports (s : State) (k : Nat) (x : Tenant) : (s.setTenant k x).reports = s.reports := rfl
@[simp] theorem State.setTenant_slotWrites (s : State) (k : Nat) (x : Tenant) : (s.setTenant k x).slotWrites = s.slotWrites := rfl
@[simp] theorem State.setTenant_placed (s : State) (k : Nat) (x : Tenant) : (s.setTenant k x).placed = s.placed := rfl
@[simp] theorem State.setTenant_l2 (s : State) (k : Nat) (x : Tenant) : (s.setTenant k x).l2 = s.l2 := rfl
@[simp] theorem State.setTenant_pri (s : State) (k : Nat) (x : Tenant) : (s.setTenant k x).pri = s.pri := rfl
@[simp] theorem State.setTenant_hostAbsent (s : State) (k : Nat) (x : Tenant) : (s.setTenant k x).hostAbsent = s.hostAbsent := rfl
@[simp] theorem State.setTenant_hostRefused (s : State) (k : Nat) (x : Tenant) : (s.setTenant k x).hostRefused = s.hostRefused := rfl
@[simp] theorem State.setTenant_outputs (s : State) (k : Nat) (x : Tenant) : (s.setTenant k x).outputs = s.outputs := rfl
@[simp] theorem State.setTenant_outbox (s : State) (k : Nat) (x : Tenant) : (s.setTenant k x).outbox = s.outbox := rfl
@[simp] theorem State.setTenant_nextOrder (s : State) (k : Nat) (x : Tenant) : (s.setTenant k x).nextOrder = s.nextOrder := rfl
@[simp] theorem State.setTenant_tagLog (s : State) (k : Nat) (x : Tenant) : (s.setTenant k x).tagLog = s.tagLog := rfl
@[simp] theorem State.setTenant_nextTag (s : State) (k : Nat) (x : Tenant) : (s.setTenant k x).nextTag = s.nextTag := rfl
@[simp] theorem State.setTenant_free (s : State) (k : Nat) (x : Tenant) : (s.setTenant k x).free = s.free := rfl
@[simp] theorem State.setTenant_cur (s : State) (k : Nat) (x : Tenant) : (s.setTenant k x).cur = s.cur := rfl
@[simp] theorem State.setTenant_input (s : State) (k : Nat) (x : Tenant) : (s.setTenant k x).input = s.input := rfl
@[simp] theorem State.setTenant_agenda (s : State) (k : Nat) (x : Tenant) : (s.setTenant k x).agenda = s.agenda := rfl

@[simp] theorem State.setRing_time (s : State) (k : Nat) (x : EventRing) : (s.setRing k x).time = s.time := rfl
@[simp] theorem State.setRing_mem (s : State) (k : Nat) (x : EventRing) : (s.setRing k x).mem = s.mem := rfl
@[simp] theorem State.setRing_poison (s : State) (k : Nat) (x : EventRing) : (s.setRing k x).poison = s.poison := rfl
@[simp] theorem State.setRing_zeroed (s : State) (k : Nat) (x : EventRing) : (s.setRing k x).zeroed = s.zeroed := rfl
@[simp] theorem State.setRing_strands (s : State) (k : Nat) (x : EventRing) : (s.setRing k x).strands = s.strands := rfl
@[simp] theorem State.setRing_cores (s : State) (k : Nat) (x : EventRing) : (s.setRing k x).cores = s.cores := rfl
@[simp] theorem State.setRing_tiles (s : State) (k : Nat) (x : EventRing) : (s.setRing k x).tiles = s.tiles := rfl
@[simp] theorem State.setRing_zones (s : State) (k : Nat) (x : EventRing) : (s.setRing k x).zones = s.zones := rfl
@[simp] theorem State.setRing_parts (s : State) (k : Nat) (x : EventRing) : (s.setRing k x).parts = s.parts := rfl
@[simp] theorem State.setRing_tenants (s : State) (k : Nat) (x : EventRing) : (s.setRing k x).tenants = s.tenants := rfl
@[simp] theorem State.setRing_ports (s : State) (k : Nat) (x : EventRing) : (s.setRing k x).ports = s.ports := rfl
@[simp] theorem State.setRing_launches (s : State) (k : Nat) (x : EventRing) : (s.setRing k x).launches = s.launches := rfl
@[simp] theorem State.setRing_nextLaunch (s : State) (k : Nat) (x : EventRing) : (s.setRing k x).nextLaunch = s.nextLaunch := rfl
@[simp] theorem State.setRing_module (s : State) (k : Nat) (x : EventRing) : (s.setRing k x).module = s.module := rfl
@[simp] theorem State.setRing_accesses (s : State) (k : Nat) (x : EventRing) : (s.setRing k x).accesses = s.accesses := rfl
@[simp] theorem State.setRing_ops (s : State) (k : Nat) (x : EventRing) : (s.setRing k x).ops = s.ops := rfl
@[simp] theorem State.setRing_messages (s : State) (k : Nat) (x : EventRing) : (s.setRing k x).messages = s.messages := rfl
@[simp] theorem State.setRing_packets (s : State) (k : Nat) (x : EventRing) : (s.setRing k x).packets = s.packets := rfl
@[simp] theorem State.setRing_signals (s : State) (k : Nat) (x : EventRing) : (s.setRing k x).signals = s.signals := rfl
@[simp] theorem State.setRing_treeMsgs (s : State) (k : Nat) (x : EventRing) : (s.setRing k x).treeMsgs = s.treeMsgs := rfl
@[simp] theorem State.setRing_reports (s : State) (k : Nat) (x : EventRing) : (s.setRing k x).reports = s.reports := rfl
@[simp] theorem State.setRing_slotWrites (s : State) (k : Nat) (x : EventRing) : (s.setRing k x).slotWrites = s.slotWrites := rfl
@[simp] theorem State.setRing_placed (s : State) (k : Nat) (x : EventRing) : (s.setRing k x).placed = s.placed := rfl
@[simp] theorem State.setRing_l2 (s : State) (k : Nat) (x : EventRing) : (s.setRing k x).l2 = s.l2 := rfl
@[simp] theorem State.setRing_pri (s : State) (k : Nat) (x : EventRing) : (s.setRing k x).pri = s.pri := rfl
@[simp] theorem State.setRing_hostAbsent (s : State) (k : Nat) (x : EventRing) : (s.setRing k x).hostAbsent = s.hostAbsent := rfl
@[simp] theorem State.setRing_hostRefused (s : State) (k : Nat) (x : EventRing) : (s.setRing k x).hostRefused = s.hostRefused := rfl
@[simp] theorem State.setRing_outputs (s : State) (k : Nat) (x : EventRing) : (s.setRing k x).outputs = s.outputs := rfl
@[simp] theorem State.setRing_outbox (s : State) (k : Nat) (x : EventRing) : (s.setRing k x).outbox = s.outbox := rfl
@[simp] theorem State.setRing_nextOrder (s : State) (k : Nat) (x : EventRing) : (s.setRing k x).nextOrder = s.nextOrder := rfl
@[simp] theorem State.setRing_tagLog (s : State) (k : Nat) (x : EventRing) : (s.setRing k x).tagLog = s.tagLog := rfl
@[simp] theorem State.setRing_nextTag (s : State) (k : Nat) (x : EventRing) : (s.setRing k x).nextTag = s.nextTag := rfl
@[simp] theorem State.setRing_free (s : State) (k : Nat) (x : EventRing) : (s.setRing k x).free = s.free := rfl
@[simp] theorem State.setRing_cur (s : State) (k : Nat) (x : EventRing) : (s.setRing k x).cur = s.cur := rfl
@[simp] theorem State.setRing_input (s : State) (k : Nat) (x : EventRing) : (s.setRing k x).input = s.input := rfl
@[simp] theorem State.setRing_agenda (s : State) (k : Nat) (x : EventRing) : (s.setRing k x).agenda = s.agenda := rfl

@[simp] theorem State.setPort_time (s : State) (k : Nat) (x : Port) : (s.setPort k x).time = s.time := rfl
@[simp] theorem State.setPort_mem (s : State) (k : Nat) (x : Port) : (s.setPort k x).mem = s.mem := rfl
@[simp] theorem State.setPort_poison (s : State) (k : Nat) (x : Port) : (s.setPort k x).poison = s.poison := rfl
@[simp] theorem State.setPort_zeroed (s : State) (k : Nat) (x : Port) : (s.setPort k x).zeroed = s.zeroed := rfl
@[simp] theorem State.setPort_strands (s : State) (k : Nat) (x : Port) : (s.setPort k x).strands = s.strands := rfl
@[simp] theorem State.setPort_cores (s : State) (k : Nat) (x : Port) : (s.setPort k x).cores = s.cores := rfl
@[simp] theorem State.setPort_tiles (s : State) (k : Nat) (x : Port) : (s.setPort k x).tiles = s.tiles := rfl
@[simp] theorem State.setPort_zones (s : State) (k : Nat) (x : Port) : (s.setPort k x).zones = s.zones := rfl
@[simp] theorem State.setPort_parts (s : State) (k : Nat) (x : Port) : (s.setPort k x).parts = s.parts := rfl
@[simp] theorem State.setPort_tenants (s : State) (k : Nat) (x : Port) : (s.setPort k x).tenants = s.tenants := rfl
@[simp] theorem State.setPort_rings (s : State) (k : Nat) (x : Port) : (s.setPort k x).rings = s.rings := rfl
@[simp] theorem State.setPort_launches (s : State) (k : Nat) (x : Port) : (s.setPort k x).launches = s.launches := rfl
@[simp] theorem State.setPort_nextLaunch (s : State) (k : Nat) (x : Port) : (s.setPort k x).nextLaunch = s.nextLaunch := rfl
@[simp] theorem State.setPort_module (s : State) (k : Nat) (x : Port) : (s.setPort k x).module = s.module := rfl
@[simp] theorem State.setPort_accesses (s : State) (k : Nat) (x : Port) : (s.setPort k x).accesses = s.accesses := rfl
@[simp] theorem State.setPort_ops (s : State) (k : Nat) (x : Port) : (s.setPort k x).ops = s.ops := rfl
@[simp] theorem State.setPort_messages (s : State) (k : Nat) (x : Port) : (s.setPort k x).messages = s.messages := rfl
@[simp] theorem State.setPort_packets (s : State) (k : Nat) (x : Port) : (s.setPort k x).packets = s.packets := rfl
@[simp] theorem State.setPort_signals (s : State) (k : Nat) (x : Port) : (s.setPort k x).signals = s.signals := rfl
@[simp] theorem State.setPort_treeMsgs (s : State) (k : Nat) (x : Port) : (s.setPort k x).treeMsgs = s.treeMsgs := rfl
@[simp] theorem State.setPort_reports (s : State) (k : Nat) (x : Port) : (s.setPort k x).reports = s.reports := rfl
@[simp] theorem State.setPort_slotWrites (s : State) (k : Nat) (x : Port) : (s.setPort k x).slotWrites = s.slotWrites := rfl
@[simp] theorem State.setPort_placed (s : State) (k : Nat) (x : Port) : (s.setPort k x).placed = s.placed := rfl
@[simp] theorem State.setPort_l2 (s : State) (k : Nat) (x : Port) : (s.setPort k x).l2 = s.l2 := rfl
@[simp] theorem State.setPort_pri (s : State) (k : Nat) (x : Port) : (s.setPort k x).pri = s.pri := rfl
@[simp] theorem State.setPort_hostAbsent (s : State) (k : Nat) (x : Port) : (s.setPort k x).hostAbsent = s.hostAbsent := rfl
@[simp] theorem State.setPort_hostRefused (s : State) (k : Nat) (x : Port) : (s.setPort k x).hostRefused = s.hostRefused := rfl
@[simp] theorem State.setPort_outputs (s : State) (k : Nat) (x : Port) : (s.setPort k x).outputs = s.outputs := rfl
@[simp] theorem State.setPort_outbox (s : State) (k : Nat) (x : Port) : (s.setPort k x).outbox = s.outbox := rfl
@[simp] theorem State.setPort_nextOrder (s : State) (k : Nat) (x : Port) : (s.setPort k x).nextOrder = s.nextOrder := rfl
@[simp] theorem State.setPort_tagLog (s : State) (k : Nat) (x : Port) : (s.setPort k x).tagLog = s.tagLog := rfl
@[simp] theorem State.setPort_nextTag (s : State) (k : Nat) (x : Port) : (s.setPort k x).nextTag = s.nextTag := rfl
@[simp] theorem State.setPort_free (s : State) (k : Nat) (x : Port) : (s.setPort k x).free = s.free := rfl
@[simp] theorem State.setPort_cur (s : State) (k : Nat) (x : Port) : (s.setPort k x).cur = s.cur := rfl
@[simp] theorem State.setPort_input (s : State) (k : Nat) (x : Port) : (s.setPort k x).input = s.input := rfl
@[simp] theorem State.setPort_agenda (s : State) (k : Nat) (x : Port) : (s.setPort k x).agenda = s.agenda := rfl

@[simp] theorem State.setLaunch_time (s : State) (k : Nat) (x : Launch) : (s.setLaunch k x).time = s.time := rfl
@[simp] theorem State.setLaunch_mem (s : State) (k : Nat) (x : Launch) : (s.setLaunch k x).mem = s.mem := rfl
@[simp] theorem State.setLaunch_poison (s : State) (k : Nat) (x : Launch) : (s.setLaunch k x).poison = s.poison := rfl
@[simp] theorem State.setLaunch_zeroed (s : State) (k : Nat) (x : Launch) : (s.setLaunch k x).zeroed = s.zeroed := rfl
@[simp] theorem State.setLaunch_strands (s : State) (k : Nat) (x : Launch) : (s.setLaunch k x).strands = s.strands := rfl
@[simp] theorem State.setLaunch_cores (s : State) (k : Nat) (x : Launch) : (s.setLaunch k x).cores = s.cores := rfl
@[simp] theorem State.setLaunch_tiles (s : State) (k : Nat) (x : Launch) : (s.setLaunch k x).tiles = s.tiles := rfl
@[simp] theorem State.setLaunch_zones (s : State) (k : Nat) (x : Launch) : (s.setLaunch k x).zones = s.zones := rfl
@[simp] theorem State.setLaunch_parts (s : State) (k : Nat) (x : Launch) : (s.setLaunch k x).parts = s.parts := rfl
@[simp] theorem State.setLaunch_tenants (s : State) (k : Nat) (x : Launch) : (s.setLaunch k x).tenants = s.tenants := rfl
@[simp] theorem State.setLaunch_rings (s : State) (k : Nat) (x : Launch) : (s.setLaunch k x).rings = s.rings := rfl
@[simp] theorem State.setLaunch_ports (s : State) (k : Nat) (x : Launch) : (s.setLaunch k x).ports = s.ports := rfl
@[simp] theorem State.setLaunch_nextLaunch (s : State) (k : Nat) (x : Launch) : (s.setLaunch k x).nextLaunch = s.nextLaunch := rfl
@[simp] theorem State.setLaunch_module (s : State) (k : Nat) (x : Launch) : (s.setLaunch k x).module = s.module := rfl
@[simp] theorem State.setLaunch_accesses (s : State) (k : Nat) (x : Launch) : (s.setLaunch k x).accesses = s.accesses := rfl
@[simp] theorem State.setLaunch_ops (s : State) (k : Nat) (x : Launch) : (s.setLaunch k x).ops = s.ops := rfl
@[simp] theorem State.setLaunch_messages (s : State) (k : Nat) (x : Launch) : (s.setLaunch k x).messages = s.messages := rfl
@[simp] theorem State.setLaunch_packets (s : State) (k : Nat) (x : Launch) : (s.setLaunch k x).packets = s.packets := rfl
@[simp] theorem State.setLaunch_signals (s : State) (k : Nat) (x : Launch) : (s.setLaunch k x).signals = s.signals := rfl
@[simp] theorem State.setLaunch_treeMsgs (s : State) (k : Nat) (x : Launch) : (s.setLaunch k x).treeMsgs = s.treeMsgs := rfl
@[simp] theorem State.setLaunch_reports (s : State) (k : Nat) (x : Launch) : (s.setLaunch k x).reports = s.reports := rfl
@[simp] theorem State.setLaunch_slotWrites (s : State) (k : Nat) (x : Launch) : (s.setLaunch k x).slotWrites = s.slotWrites := rfl
@[simp] theorem State.setLaunch_placed (s : State) (k : Nat) (x : Launch) : (s.setLaunch k x).placed = s.placed := rfl
@[simp] theorem State.setLaunch_l2 (s : State) (k : Nat) (x : Launch) : (s.setLaunch k x).l2 = s.l2 := rfl
@[simp] theorem State.setLaunch_pri (s : State) (k : Nat) (x : Launch) : (s.setLaunch k x).pri = s.pri := rfl
@[simp] theorem State.setLaunch_hostAbsent (s : State) (k : Nat) (x : Launch) : (s.setLaunch k x).hostAbsent = s.hostAbsent := rfl
@[simp] theorem State.setLaunch_hostRefused (s : State) (k : Nat) (x : Launch) : (s.setLaunch k x).hostRefused = s.hostRefused := rfl
@[simp] theorem State.setLaunch_outputs (s : State) (k : Nat) (x : Launch) : (s.setLaunch k x).outputs = s.outputs := rfl
@[simp] theorem State.setLaunch_outbox (s : State) (k : Nat) (x : Launch) : (s.setLaunch k x).outbox = s.outbox := rfl
@[simp] theorem State.setLaunch_nextOrder (s : State) (k : Nat) (x : Launch) : (s.setLaunch k x).nextOrder = s.nextOrder := rfl
@[simp] theorem State.setLaunch_tagLog (s : State) (k : Nat) (x : Launch) : (s.setLaunch k x).tagLog = s.tagLog := rfl
@[simp] theorem State.setLaunch_nextTag (s : State) (k : Nat) (x : Launch) : (s.setLaunch k x).nextTag = s.nextTag := rfl
@[simp] theorem State.setLaunch_free (s : State) (k : Nat) (x : Launch) : (s.setLaunch k x).free = s.free := rfl
@[simp] theorem State.setLaunch_cur (s : State) (k : Nat) (x : Launch) : (s.setLaunch k x).cur = s.cur := rfl
@[simp] theorem State.setLaunch_input (s : State) (k : Nat) (x : Launch) : (s.setLaunch k x).input = s.input := rfl
@[simp] theorem State.setLaunch_agenda (s : State) (k : Nat) (x : Launch) : (s.setLaunch k x).agenda = s.agenda := rfl

@[simp] theorem State.setModule_time (s : State) (x : Module) : (s.setModule x).time = s.time := rfl
@[simp] theorem State.setModule_mem (s : State) (x : Module) : (s.setModule x).mem = s.mem := rfl
@[simp] theorem State.setModule_poison (s : State) (x : Module) : (s.setModule x).poison = s.poison := rfl
@[simp] theorem State.setModule_zeroed (s : State) (x : Module) : (s.setModule x).zeroed = s.zeroed := rfl
@[simp] theorem State.setModule_strands (s : State) (x : Module) : (s.setModule x).strands = s.strands := rfl
@[simp] theorem State.setModule_cores (s : State) (x : Module) : (s.setModule x).cores = s.cores := rfl
@[simp] theorem State.setModule_tiles (s : State) (x : Module) : (s.setModule x).tiles = s.tiles := rfl
@[simp] theorem State.setModule_zones (s : State) (x : Module) : (s.setModule x).zones = s.zones := rfl
@[simp] theorem State.setModule_parts (s : State) (x : Module) : (s.setModule x).parts = s.parts := rfl
@[simp] theorem State.setModule_tenants (s : State) (x : Module) : (s.setModule x).tenants = s.tenants := rfl
@[simp] theorem State.setModule_rings (s : State) (x : Module) : (s.setModule x).rings = s.rings := rfl
@[simp] theorem State.setModule_ports (s : State) (x : Module) : (s.setModule x).ports = s.ports := rfl
@[simp] theorem State.setModule_launches (s : State) (x : Module) : (s.setModule x).launches = s.launches := rfl
@[simp] theorem State.setModule_nextLaunch (s : State) (x : Module) : (s.setModule x).nextLaunch = s.nextLaunch := rfl
@[simp] theorem State.setModule_accesses (s : State) (x : Module) : (s.setModule x).accesses = s.accesses := rfl
@[simp] theorem State.setModule_ops (s : State) (x : Module) : (s.setModule x).ops = s.ops := rfl
@[simp] theorem State.setModule_messages (s : State) (x : Module) : (s.setModule x).messages = s.messages := rfl
@[simp] theorem State.setModule_packets (s : State) (x : Module) : (s.setModule x).packets = s.packets := rfl
@[simp] theorem State.setModule_signals (s : State) (x : Module) : (s.setModule x).signals = s.signals := rfl
@[simp] theorem State.setModule_treeMsgs (s : State) (x : Module) : (s.setModule x).treeMsgs = s.treeMsgs := rfl
@[simp] theorem State.setModule_reports (s : State) (x : Module) : (s.setModule x).reports = s.reports := rfl
@[simp] theorem State.setModule_slotWrites (s : State) (x : Module) : (s.setModule x).slotWrites = s.slotWrites := rfl
@[simp] theorem State.setModule_placed (s : State) (x : Module) : (s.setModule x).placed = s.placed := rfl
@[simp] theorem State.setModule_l2 (s : State) (x : Module) : (s.setModule x).l2 = s.l2 := rfl
@[simp] theorem State.setModule_pri (s : State) (x : Module) : (s.setModule x).pri = s.pri := rfl
@[simp] theorem State.setModule_hostAbsent (s : State) (x : Module) : (s.setModule x).hostAbsent = s.hostAbsent := rfl
@[simp] theorem State.setModule_hostRefused (s : State) (x : Module) : (s.setModule x).hostRefused = s.hostRefused := rfl
@[simp] theorem State.setModule_outputs (s : State) (x : Module) : (s.setModule x).outputs = s.outputs := rfl
@[simp] theorem State.setModule_outbox (s : State) (x : Module) : (s.setModule x).outbox = s.outbox := rfl
@[simp] theorem State.setModule_nextOrder (s : State) (x : Module) : (s.setModule x).nextOrder = s.nextOrder := rfl
@[simp] theorem State.setModule_tagLog (s : State) (x : Module) : (s.setModule x).tagLog = s.tagLog := rfl
@[simp] theorem State.setModule_nextTag (s : State) (x : Module) : (s.setModule x).nextTag = s.nextTag := rfl
@[simp] theorem State.setModule_free (s : State) (x : Module) : (s.setModule x).free = s.free := rfl
@[simp] theorem State.setModule_cur (s : State) (x : Module) : (s.setModule x).cur = s.cur := rfl
@[simp] theorem State.setModule_input (s : State) (x : Module) : (s.setModule x).input = s.input := rfl
@[simp] theorem State.setModule_agenda (s : State) (x : Module) : (s.setModule x).agenda = s.agenda := rfl

@[simp] theorem State.setCur_time (s : State) (x : Issue) : (s.setCur x).time = s.time := rfl
@[simp] theorem State.setCur_mem (s : State) (x : Issue) : (s.setCur x).mem = s.mem := rfl
@[simp] theorem State.setCur_poison (s : State) (x : Issue) : (s.setCur x).poison = s.poison := rfl
@[simp] theorem State.setCur_zeroed (s : State) (x : Issue) : (s.setCur x).zeroed = s.zeroed := rfl
@[simp] theorem State.setCur_strands (s : State) (x : Issue) : (s.setCur x).strands = s.strands := rfl
@[simp] theorem State.setCur_cores (s : State) (x : Issue) : (s.setCur x).cores = s.cores := rfl
@[simp] theorem State.setCur_tiles (s : State) (x : Issue) : (s.setCur x).tiles = s.tiles := rfl
@[simp] theorem State.setCur_zones (s : State) (x : Issue) : (s.setCur x).zones = s.zones := rfl
@[simp] theorem State.setCur_parts (s : State) (x : Issue) : (s.setCur x).parts = s.parts := rfl
@[simp] theorem State.setCur_tenants (s : State) (x : Issue) : (s.setCur x).tenants = s.tenants := rfl
@[simp] theorem State.setCur_rings (s : State) (x : Issue) : (s.setCur x).rings = s.rings := rfl
@[simp] theorem State.setCur_ports (s : State) (x : Issue) : (s.setCur x).ports = s.ports := rfl
@[simp] theorem State.setCur_launches (s : State) (x : Issue) : (s.setCur x).launches = s.launches := rfl
@[simp] theorem State.setCur_nextLaunch (s : State) (x : Issue) : (s.setCur x).nextLaunch = s.nextLaunch := rfl
@[simp] theorem State.setCur_module (s : State) (x : Issue) : (s.setCur x).module = s.module := rfl
@[simp] theorem State.setCur_accesses (s : State) (x : Issue) : (s.setCur x).accesses = s.accesses := rfl
@[simp] theorem State.setCur_ops (s : State) (x : Issue) : (s.setCur x).ops = s.ops := rfl
@[simp] theorem State.setCur_messages (s : State) (x : Issue) : (s.setCur x).messages = s.messages := rfl
@[simp] theorem State.setCur_packets (s : State) (x : Issue) : (s.setCur x).packets = s.packets := rfl
@[simp] theorem State.setCur_signals (s : State) (x : Issue) : (s.setCur x).signals = s.signals := rfl
@[simp] theorem State.setCur_treeMsgs (s : State) (x : Issue) : (s.setCur x).treeMsgs = s.treeMsgs := rfl
@[simp] theorem State.setCur_reports (s : State) (x : Issue) : (s.setCur x).reports = s.reports := rfl
@[simp] theorem State.setCur_slotWrites (s : State) (x : Issue) : (s.setCur x).slotWrites = s.slotWrites := rfl
@[simp] theorem State.setCur_placed (s : State) (x : Issue) : (s.setCur x).placed = s.placed := rfl
@[simp] theorem State.setCur_l2 (s : State) (x : Issue) : (s.setCur x).l2 = s.l2 := rfl
@[simp] theorem State.setCur_pri (s : State) (x : Issue) : (s.setCur x).pri = s.pri := rfl
@[simp] theorem State.setCur_hostAbsent (s : State) (x : Issue) : (s.setCur x).hostAbsent = s.hostAbsent := rfl
@[simp] theorem State.setCur_hostRefused (s : State) (x : Issue) : (s.setCur x).hostRefused = s.hostRefused := rfl
@[simp] theorem State.setCur_outputs (s : State) (x : Issue) : (s.setCur x).outputs = s.outputs := rfl
@[simp] theorem State.setCur_outbox (s : State) (x : Issue) : (s.setCur x).outbox = s.outbox := rfl
@[simp] theorem State.setCur_nextOrder (s : State) (x : Issue) : (s.setCur x).nextOrder = s.nextOrder := rfl
@[simp] theorem State.setCur_tagLog (s : State) (x : Issue) : (s.setCur x).tagLog = s.tagLog := rfl
@[simp] theorem State.setCur_nextTag (s : State) (x : Issue) : (s.setCur x).nextTag = s.nextTag := rfl
@[simp] theorem State.setCur_free (s : State) (x : Issue) : (s.setCur x).free = s.free := rfl
@[simp] theorem State.setCur_input (s : State) (x : Issue) : (s.setCur x).input = s.input := rfl
@[simp] theorem State.setCur_agenda (s : State) (x : Issue) : (s.setCur x).agenda = s.agenda := rfl

@[simp] theorem State.setSelf_time (s : State) (x : Strand) : (s.setSelf x).time = s.time := rfl
@[simp] theorem State.setSelf_mem (s : State) (x : Strand) : (s.setSelf x).mem = s.mem := rfl
@[simp] theorem State.setSelf_poison (s : State) (x : Strand) : (s.setSelf x).poison = s.poison := rfl
@[simp] theorem State.setSelf_zeroed (s : State) (x : Strand) : (s.setSelf x).zeroed = s.zeroed := rfl
@[simp] theorem State.setSelf_cores (s : State) (x : Strand) : (s.setSelf x).cores = s.cores := rfl
@[simp] theorem State.setSelf_tiles (s : State) (x : Strand) : (s.setSelf x).tiles = s.tiles := rfl
@[simp] theorem State.setSelf_zones (s : State) (x : Strand) : (s.setSelf x).zones = s.zones := rfl
@[simp] theorem State.setSelf_parts (s : State) (x : Strand) : (s.setSelf x).parts = s.parts := rfl
@[simp] theorem State.setSelf_tenants (s : State) (x : Strand) : (s.setSelf x).tenants = s.tenants := rfl
@[simp] theorem State.setSelf_rings (s : State) (x : Strand) : (s.setSelf x).rings = s.rings := rfl
@[simp] theorem State.setSelf_ports (s : State) (x : Strand) : (s.setSelf x).ports = s.ports := rfl
@[simp] theorem State.setSelf_launches (s : State) (x : Strand) : (s.setSelf x).launches = s.launches := rfl
@[simp] theorem State.setSelf_nextLaunch (s : State) (x : Strand) : (s.setSelf x).nextLaunch = s.nextLaunch := rfl
@[simp] theorem State.setSelf_module (s : State) (x : Strand) : (s.setSelf x).module = s.module := rfl
@[simp] theorem State.setSelf_accesses (s : State) (x : Strand) : (s.setSelf x).accesses = s.accesses := rfl
@[simp] theorem State.setSelf_ops (s : State) (x : Strand) : (s.setSelf x).ops = s.ops := rfl
@[simp] theorem State.setSelf_messages (s : State) (x : Strand) : (s.setSelf x).messages = s.messages := rfl
@[simp] theorem State.setSelf_packets (s : State) (x : Strand) : (s.setSelf x).packets = s.packets := rfl
@[simp] theorem State.setSelf_signals (s : State) (x : Strand) : (s.setSelf x).signals = s.signals := rfl
@[simp] theorem State.setSelf_treeMsgs (s : State) (x : Strand) : (s.setSelf x).treeMsgs = s.treeMsgs := rfl
@[simp] theorem State.setSelf_reports (s : State) (x : Strand) : (s.setSelf x).reports = s.reports := rfl
@[simp] theorem State.setSelf_slotWrites (s : State) (x : Strand) : (s.setSelf x).slotWrites = s.slotWrites := rfl
@[simp] theorem State.setSelf_placed (s : State) (x : Strand) : (s.setSelf x).placed = s.placed := rfl
@[simp] theorem State.setSelf_l2 (s : State) (x : Strand) : (s.setSelf x).l2 = s.l2 := rfl
@[simp] theorem State.setSelf_pri (s : State) (x : Strand) : (s.setSelf x).pri = s.pri := rfl
@[simp] theorem State.setSelf_hostAbsent (s : State) (x : Strand) : (s.setSelf x).hostAbsent = s.hostAbsent := rfl
@[simp] theorem State.setSelf_hostRefused (s : State) (x : Strand) : (s.setSelf x).hostRefused = s.hostRefused := rfl
@[simp] theorem State.setSelf_outputs (s : State) (x : Strand) : (s.setSelf x).outputs = s.outputs := rfl
@[simp] theorem State.setSelf_outbox (s : State) (x : Strand) : (s.setSelf x).outbox = s.outbox := rfl
@[simp] theorem State.setSelf_nextOrder (s : State) (x : Strand) : (s.setSelf x).nextOrder = s.nextOrder := rfl
@[simp] theorem State.setSelf_tagLog (s : State) (x : Strand) : (s.setSelf x).tagLog = s.tagLog := rfl
@[simp] theorem State.setSelf_nextTag (s : State) (x : Strand) : (s.setSelf x).nextTag = s.nextTag := rfl
@[simp] theorem State.setSelf_free (s : State) (x : Strand) : (s.setSelf x).free = s.free := rfl
@[simp] theorem State.setSelf_cur (s : State) (x : Strand) : (s.setSelf x).cur = s.cur := rfl
@[simp] theorem State.setSelf_input (s : State) (x : Strand) : (s.setSelf x).input = s.input := rfl
@[simp] theorem State.setSelf_agenda (s : State) (x : Strand) : (s.setSelf x).agenda = s.agenda := rfl

@[simp] theorem State.mapRegs_time (s : State) (f : RegFile → RegFile) : (s.mapRegs f).time = s.time := rfl
@[simp] theorem State.mapRegs_mem (s : State) (f : RegFile → RegFile) : (s.mapRegs f).mem = s.mem := rfl
@[simp] theorem State.mapRegs_poison (s : State) (f : RegFile → RegFile) : (s.mapRegs f).poison = s.poison := rfl
@[simp] theorem State.mapRegs_zeroed (s : State) (f : RegFile → RegFile) : (s.mapRegs f).zeroed = s.zeroed := rfl
@[simp] theorem State.mapRegs_cores (s : State) (f : RegFile → RegFile) : (s.mapRegs f).cores = s.cores := rfl
@[simp] theorem State.mapRegs_tiles (s : State) (f : RegFile → RegFile) : (s.mapRegs f).tiles = s.tiles := rfl
@[simp] theorem State.mapRegs_zones (s : State) (f : RegFile → RegFile) : (s.mapRegs f).zones = s.zones := rfl
@[simp] theorem State.mapRegs_parts (s : State) (f : RegFile → RegFile) : (s.mapRegs f).parts = s.parts := rfl
@[simp] theorem State.mapRegs_tenants (s : State) (f : RegFile → RegFile) : (s.mapRegs f).tenants = s.tenants := rfl
@[simp] theorem State.mapRegs_rings (s : State) (f : RegFile → RegFile) : (s.mapRegs f).rings = s.rings := rfl
@[simp] theorem State.mapRegs_ports (s : State) (f : RegFile → RegFile) : (s.mapRegs f).ports = s.ports := rfl
@[simp] theorem State.mapRegs_launches (s : State) (f : RegFile → RegFile) : (s.mapRegs f).launches = s.launches := rfl
@[simp] theorem State.mapRegs_nextLaunch (s : State) (f : RegFile → RegFile) : (s.mapRegs f).nextLaunch = s.nextLaunch := rfl
@[simp] theorem State.mapRegs_module (s : State) (f : RegFile → RegFile) : (s.mapRegs f).module = s.module := rfl
@[simp] theorem State.mapRegs_accesses (s : State) (f : RegFile → RegFile) : (s.mapRegs f).accesses = s.accesses := rfl
@[simp] theorem State.mapRegs_ops (s : State) (f : RegFile → RegFile) : (s.mapRegs f).ops = s.ops := rfl
@[simp] theorem State.mapRegs_messages (s : State) (f : RegFile → RegFile) : (s.mapRegs f).messages = s.messages := rfl
@[simp] theorem State.mapRegs_packets (s : State) (f : RegFile → RegFile) : (s.mapRegs f).packets = s.packets := rfl
@[simp] theorem State.mapRegs_signals (s : State) (f : RegFile → RegFile) : (s.mapRegs f).signals = s.signals := rfl
@[simp] theorem State.mapRegs_treeMsgs (s : State) (f : RegFile → RegFile) : (s.mapRegs f).treeMsgs = s.treeMsgs := rfl
@[simp] theorem State.mapRegs_reports (s : State) (f : RegFile → RegFile) : (s.mapRegs f).reports = s.reports := rfl
@[simp] theorem State.mapRegs_slotWrites (s : State) (f : RegFile → RegFile) : (s.mapRegs f).slotWrites = s.slotWrites := rfl
@[simp] theorem State.mapRegs_placed (s : State) (f : RegFile → RegFile) : (s.mapRegs f).placed = s.placed := rfl
@[simp] theorem State.mapRegs_l2 (s : State) (f : RegFile → RegFile) : (s.mapRegs f).l2 = s.l2 := rfl
@[simp] theorem State.mapRegs_pri (s : State) (f : RegFile → RegFile) : (s.mapRegs f).pri = s.pri := rfl
@[simp] theorem State.mapRegs_hostAbsent (s : State) (f : RegFile → RegFile) : (s.mapRegs f).hostAbsent = s.hostAbsent := rfl
@[simp] theorem State.mapRegs_hostRefused (s : State) (f : RegFile → RegFile) : (s.mapRegs f).hostRefused = s.hostRefused := rfl
@[simp] theorem State.mapRegs_outputs (s : State) (f : RegFile → RegFile) : (s.mapRegs f).outputs = s.outputs := rfl
@[simp] theorem State.mapRegs_outbox (s : State) (f : RegFile → RegFile) : (s.mapRegs f).outbox = s.outbox := rfl
@[simp] theorem State.mapRegs_nextOrder (s : State) (f : RegFile → RegFile) : (s.mapRegs f).nextOrder = s.nextOrder := rfl
@[simp] theorem State.mapRegs_tagLog (s : State) (f : RegFile → RegFile) : (s.mapRegs f).tagLog = s.tagLog := rfl
@[simp] theorem State.mapRegs_nextTag (s : State) (f : RegFile → RegFile) : (s.mapRegs f).nextTag = s.nextTag := rfl
@[simp] theorem State.mapRegs_free (s : State) (f : RegFile → RegFile) : (s.mapRegs f).free = s.free := rfl
@[simp] theorem State.mapRegs_cur (s : State) (f : RegFile → RegFile) : (s.mapRegs f).cur = s.cur := rfl
@[simp] theorem State.mapRegs_input (s : State) (f : RegFile → RegFile) : (s.mapRegs f).input = s.input := rfl
@[simp] theorem State.mapRegs_agenda (s : State) (f : RegFile → RegFile) : (s.mapRegs f).agenda = s.agenda := rfl

@[simp] theorem State.setG_time (s : State) (d : Reg) (x : Word) : (s.setG d x).time = s.time := rfl
@[simp] theorem State.setG_mem (s : State) (d : Reg) (x : Word) : (s.setG d x).mem = s.mem := rfl
@[simp] theorem State.setG_poison (s : State) (d : Reg) (x : Word) : (s.setG d x).poison = s.poison := rfl
@[simp] theorem State.setG_zeroed (s : State) (d : Reg) (x : Word) : (s.setG d x).zeroed = s.zeroed := rfl
@[simp] theorem State.setG_cores (s : State) (d : Reg) (x : Word) : (s.setG d x).cores = s.cores := rfl
@[simp] theorem State.setG_tiles (s : State) (d : Reg) (x : Word) : (s.setG d x).tiles = s.tiles := rfl
@[simp] theorem State.setG_zones (s : State) (d : Reg) (x : Word) : (s.setG d x).zones = s.zones := rfl
@[simp] theorem State.setG_parts (s : State) (d : Reg) (x : Word) : (s.setG d x).parts = s.parts := rfl
@[simp] theorem State.setG_tenants (s : State) (d : Reg) (x : Word) : (s.setG d x).tenants = s.tenants := rfl
@[simp] theorem State.setG_rings (s : State) (d : Reg) (x : Word) : (s.setG d x).rings = s.rings := rfl
@[simp] theorem State.setG_ports (s : State) (d : Reg) (x : Word) : (s.setG d x).ports = s.ports := rfl
@[simp] theorem State.setG_launches (s : State) (d : Reg) (x : Word) : (s.setG d x).launches = s.launches := rfl
@[simp] theorem State.setG_nextLaunch (s : State) (d : Reg) (x : Word) : (s.setG d x).nextLaunch = s.nextLaunch := rfl
@[simp] theorem State.setG_module (s : State) (d : Reg) (x : Word) : (s.setG d x).module = s.module := rfl
@[simp] theorem State.setG_accesses (s : State) (d : Reg) (x : Word) : (s.setG d x).accesses = s.accesses := rfl
@[simp] theorem State.setG_ops (s : State) (d : Reg) (x : Word) : (s.setG d x).ops = s.ops := rfl
@[simp] theorem State.setG_messages (s : State) (d : Reg) (x : Word) : (s.setG d x).messages = s.messages := rfl
@[simp] theorem State.setG_packets (s : State) (d : Reg) (x : Word) : (s.setG d x).packets = s.packets := rfl
@[simp] theorem State.setG_signals (s : State) (d : Reg) (x : Word) : (s.setG d x).signals = s.signals := rfl
@[simp] theorem State.setG_treeMsgs (s : State) (d : Reg) (x : Word) : (s.setG d x).treeMsgs = s.treeMsgs := rfl
@[simp] theorem State.setG_reports (s : State) (d : Reg) (x : Word) : (s.setG d x).reports = s.reports := rfl
@[simp] theorem State.setG_slotWrites (s : State) (d : Reg) (x : Word) : (s.setG d x).slotWrites = s.slotWrites := rfl
@[simp] theorem State.setG_placed (s : State) (d : Reg) (x : Word) : (s.setG d x).placed = s.placed := rfl
@[simp] theorem State.setG_l2 (s : State) (d : Reg) (x : Word) : (s.setG d x).l2 = s.l2 := rfl
@[simp] theorem State.setG_pri (s : State) (d : Reg) (x : Word) : (s.setG d x).pri = s.pri := rfl
@[simp] theorem State.setG_hostAbsent (s : State) (d : Reg) (x : Word) : (s.setG d x).hostAbsent = s.hostAbsent := rfl
@[simp] theorem State.setG_hostRefused (s : State) (d : Reg) (x : Word) : (s.setG d x).hostRefused = s.hostRefused := rfl
@[simp] theorem State.setG_outputs (s : State) (d : Reg) (x : Word) : (s.setG d x).outputs = s.outputs := rfl
@[simp] theorem State.setG_outbox (s : State) (d : Reg) (x : Word) : (s.setG d x).outbox = s.outbox := rfl
@[simp] theorem State.setG_nextOrder (s : State) (d : Reg) (x : Word) : (s.setG d x).nextOrder = s.nextOrder := rfl
@[simp] theorem State.setG_tagLog (s : State) (d : Reg) (x : Word) : (s.setG d x).tagLog = s.tagLog := rfl
@[simp] theorem State.setG_nextTag (s : State) (d : Reg) (x : Word) : (s.setG d x).nextTag = s.nextTag := rfl
@[simp] theorem State.setG_free (s : State) (d : Reg) (x : Word) : (s.setG d x).free = s.free := rfl
@[simp] theorem State.setG_cur (s : State) (d : Reg) (x : Word) : (s.setG d x).cur = s.cur := rfl
@[simp] theorem State.setG_input (s : State) (d : Reg) (x : Word) : (s.setG d x).input = s.input := rfl
@[simp] theorem State.setG_agenda (s : State) (d : Reg) (x : Word) : (s.setG d x).agenda = s.agenda := rfl

@[simp] theorem State.setV_time (s : State) (d : Reg) (x : VWord) : (s.setV d x).time = s.time := rfl
@[simp] theorem State.setV_mem (s : State) (d : Reg) (x : VWord) : (s.setV d x).mem = s.mem := rfl
@[simp] theorem State.setV_poison (s : State) (d : Reg) (x : VWord) : (s.setV d x).poison = s.poison := rfl
@[simp] theorem State.setV_zeroed (s : State) (d : Reg) (x : VWord) : (s.setV d x).zeroed = s.zeroed := rfl
@[simp] theorem State.setV_cores (s : State) (d : Reg) (x : VWord) : (s.setV d x).cores = s.cores := rfl
@[simp] theorem State.setV_tiles (s : State) (d : Reg) (x : VWord) : (s.setV d x).tiles = s.tiles := rfl
@[simp] theorem State.setV_zones (s : State) (d : Reg) (x : VWord) : (s.setV d x).zones = s.zones := rfl
@[simp] theorem State.setV_parts (s : State) (d : Reg) (x : VWord) : (s.setV d x).parts = s.parts := rfl
@[simp] theorem State.setV_tenants (s : State) (d : Reg) (x : VWord) : (s.setV d x).tenants = s.tenants := rfl
@[simp] theorem State.setV_rings (s : State) (d : Reg) (x : VWord) : (s.setV d x).rings = s.rings := rfl
@[simp] theorem State.setV_ports (s : State) (d : Reg) (x : VWord) : (s.setV d x).ports = s.ports := rfl
@[simp] theorem State.setV_launches (s : State) (d : Reg) (x : VWord) : (s.setV d x).launches = s.launches := rfl
@[simp] theorem State.setV_nextLaunch (s : State) (d : Reg) (x : VWord) : (s.setV d x).nextLaunch = s.nextLaunch := rfl
@[simp] theorem State.setV_module (s : State) (d : Reg) (x : VWord) : (s.setV d x).module = s.module := rfl
@[simp] theorem State.setV_accesses (s : State) (d : Reg) (x : VWord) : (s.setV d x).accesses = s.accesses := rfl
@[simp] theorem State.setV_ops (s : State) (d : Reg) (x : VWord) : (s.setV d x).ops = s.ops := rfl
@[simp] theorem State.setV_messages (s : State) (d : Reg) (x : VWord) : (s.setV d x).messages = s.messages := rfl
@[simp] theorem State.setV_packets (s : State) (d : Reg) (x : VWord) : (s.setV d x).packets = s.packets := rfl
@[simp] theorem State.setV_signals (s : State) (d : Reg) (x : VWord) : (s.setV d x).signals = s.signals := rfl
@[simp] theorem State.setV_treeMsgs (s : State) (d : Reg) (x : VWord) : (s.setV d x).treeMsgs = s.treeMsgs := rfl
@[simp] theorem State.setV_reports (s : State) (d : Reg) (x : VWord) : (s.setV d x).reports = s.reports := rfl
@[simp] theorem State.setV_slotWrites (s : State) (d : Reg) (x : VWord) : (s.setV d x).slotWrites = s.slotWrites := rfl
@[simp] theorem State.setV_placed (s : State) (d : Reg) (x : VWord) : (s.setV d x).placed = s.placed := rfl
@[simp] theorem State.setV_l2 (s : State) (d : Reg) (x : VWord) : (s.setV d x).l2 = s.l2 := rfl
@[simp] theorem State.setV_pri (s : State) (d : Reg) (x : VWord) : (s.setV d x).pri = s.pri := rfl
@[simp] theorem State.setV_hostAbsent (s : State) (d : Reg) (x : VWord) : (s.setV d x).hostAbsent = s.hostAbsent := rfl
@[simp] theorem State.setV_hostRefused (s : State) (d : Reg) (x : VWord) : (s.setV d x).hostRefused = s.hostRefused := rfl
@[simp] theorem State.setV_outputs (s : State) (d : Reg) (x : VWord) : (s.setV d x).outputs = s.outputs := rfl
@[simp] theorem State.setV_outbox (s : State) (d : Reg) (x : VWord) : (s.setV d x).outbox = s.outbox := rfl
@[simp] theorem State.setV_nextOrder (s : State) (d : Reg) (x : VWord) : (s.setV d x).nextOrder = s.nextOrder := rfl
@[simp] theorem State.setV_tagLog (s : State) (d : Reg) (x : VWord) : (s.setV d x).tagLog = s.tagLog := rfl
@[simp] theorem State.setV_nextTag (s : State) (d : Reg) (x : VWord) : (s.setV d x).nextTag = s.nextTag := rfl
@[simp] theorem State.setV_free (s : State) (d : Reg) (x : VWord) : (s.setV d x).free = s.free := rfl
@[simp] theorem State.setV_cur (s : State) (d : Reg) (x : VWord) : (s.setV d x).cur = s.cur := rfl
@[simp] theorem State.setV_input (s : State) (d : Reg) (x : VWord) : (s.setV d x).input = s.input := rfl
@[simp] theorem State.setV_agenda (s : State) (d : Reg) (x : VWord) : (s.setV d x).agenda = s.agenda := rfl

@[simp] theorem State.setP_time (s : State) (d : Pred) (b : Bool) : (s.setP d b).time = s.time := rfl
@[simp] theorem State.setP_mem (s : State) (d : Pred) (b : Bool) : (s.setP d b).mem = s.mem := rfl
@[simp] theorem State.setP_poison (s : State) (d : Pred) (b : Bool) : (s.setP d b).poison = s.poison := rfl
@[simp] theorem State.setP_zeroed (s : State) (d : Pred) (b : Bool) : (s.setP d b).zeroed = s.zeroed := rfl
@[simp] theorem State.setP_cores (s : State) (d : Pred) (b : Bool) : (s.setP d b).cores = s.cores := rfl
@[simp] theorem State.setP_tiles (s : State) (d : Pred) (b : Bool) : (s.setP d b).tiles = s.tiles := rfl
@[simp] theorem State.setP_zones (s : State) (d : Pred) (b : Bool) : (s.setP d b).zones = s.zones := rfl
@[simp] theorem State.setP_parts (s : State) (d : Pred) (b : Bool) : (s.setP d b).parts = s.parts := rfl
@[simp] theorem State.setP_tenants (s : State) (d : Pred) (b : Bool) : (s.setP d b).tenants = s.tenants := rfl
@[simp] theorem State.setP_rings (s : State) (d : Pred) (b : Bool) : (s.setP d b).rings = s.rings := rfl
@[simp] theorem State.setP_ports (s : State) (d : Pred) (b : Bool) : (s.setP d b).ports = s.ports := rfl
@[simp] theorem State.setP_launches (s : State) (d : Pred) (b : Bool) : (s.setP d b).launches = s.launches := rfl
@[simp] theorem State.setP_nextLaunch (s : State) (d : Pred) (b : Bool) : (s.setP d b).nextLaunch = s.nextLaunch := rfl
@[simp] theorem State.setP_module (s : State) (d : Pred) (b : Bool) : (s.setP d b).module = s.module := rfl
@[simp] theorem State.setP_accesses (s : State) (d : Pred) (b : Bool) : (s.setP d b).accesses = s.accesses := rfl
@[simp] theorem State.setP_ops (s : State) (d : Pred) (b : Bool) : (s.setP d b).ops = s.ops := rfl
@[simp] theorem State.setP_messages (s : State) (d : Pred) (b : Bool) : (s.setP d b).messages = s.messages := rfl
@[simp] theorem State.setP_packets (s : State) (d : Pred) (b : Bool) : (s.setP d b).packets = s.packets := rfl
@[simp] theorem State.setP_signals (s : State) (d : Pred) (b : Bool) : (s.setP d b).signals = s.signals := rfl
@[simp] theorem State.setP_treeMsgs (s : State) (d : Pred) (b : Bool) : (s.setP d b).treeMsgs = s.treeMsgs := rfl
@[simp] theorem State.setP_reports (s : State) (d : Pred) (b : Bool) : (s.setP d b).reports = s.reports := rfl
@[simp] theorem State.setP_slotWrites (s : State) (d : Pred) (b : Bool) : (s.setP d b).slotWrites = s.slotWrites := rfl
@[simp] theorem State.setP_placed (s : State) (d : Pred) (b : Bool) : (s.setP d b).placed = s.placed := rfl
@[simp] theorem State.setP_l2 (s : State) (d : Pred) (b : Bool) : (s.setP d b).l2 = s.l2 := rfl
@[simp] theorem State.setP_pri (s : State) (d : Pred) (b : Bool) : (s.setP d b).pri = s.pri := rfl
@[simp] theorem State.setP_hostAbsent (s : State) (d : Pred) (b : Bool) : (s.setP d b).hostAbsent = s.hostAbsent := rfl
@[simp] theorem State.setP_hostRefused (s : State) (d : Pred) (b : Bool) : (s.setP d b).hostRefused = s.hostRefused := rfl
@[simp] theorem State.setP_outputs (s : State) (d : Pred) (b : Bool) : (s.setP d b).outputs = s.outputs := rfl
@[simp] theorem State.setP_outbox (s : State) (d : Pred) (b : Bool) : (s.setP d b).outbox = s.outbox := rfl
@[simp] theorem State.setP_nextOrder (s : State) (d : Pred) (b : Bool) : (s.setP d b).nextOrder = s.nextOrder := rfl
@[simp] theorem State.setP_tagLog (s : State) (d : Pred) (b : Bool) : (s.setP d b).tagLog = s.tagLog := rfl
@[simp] theorem State.setP_nextTag (s : State) (d : Pred) (b : Bool) : (s.setP d b).nextTag = s.nextTag := rfl
@[simp] theorem State.setP_free (s : State) (d : Pred) (b : Bool) : (s.setP d b).free = s.free := rfl
@[simp] theorem State.setP_cur (s : State) (d : Pred) (b : Bool) : (s.setP d b).cur = s.cur := rfl
@[simp] theorem State.setP_input (s : State) (d : Pred) (b : Bool) : (s.setP d b).input = s.input := rfl
@[simp] theorem State.setP_agenda (s : State) (d : Pred) (b : Bool) : (s.setP d b).agenda = s.agenda := rfl

@[simp] theorem State.setPc_time (s : State) (x : Word) : (s.setPc x).time = s.time := rfl
@[simp] theorem State.setPc_mem (s : State) (x : Word) : (s.setPc x).mem = s.mem := rfl
@[simp] theorem State.setPc_poison (s : State) (x : Word) : (s.setPc x).poison = s.poison := rfl
@[simp] theorem State.setPc_zeroed (s : State) (x : Word) : (s.setPc x).zeroed = s.zeroed := rfl
@[simp] theorem State.setPc_cores (s : State) (x : Word) : (s.setPc x).cores = s.cores := rfl
@[simp] theorem State.setPc_tiles (s : State) (x : Word) : (s.setPc x).tiles = s.tiles := rfl
@[simp] theorem State.setPc_zones (s : State) (x : Word) : (s.setPc x).zones = s.zones := rfl
@[simp] theorem State.setPc_parts (s : State) (x : Word) : (s.setPc x).parts = s.parts := rfl
@[simp] theorem State.setPc_tenants (s : State) (x : Word) : (s.setPc x).tenants = s.tenants := rfl
@[simp] theorem State.setPc_rings (s : State) (x : Word) : (s.setPc x).rings = s.rings := rfl
@[simp] theorem State.setPc_ports (s : State) (x : Word) : (s.setPc x).ports = s.ports := rfl
@[simp] theorem State.setPc_launches (s : State) (x : Word) : (s.setPc x).launches = s.launches := rfl
@[simp] theorem State.setPc_nextLaunch (s : State) (x : Word) : (s.setPc x).nextLaunch = s.nextLaunch := rfl
@[simp] theorem State.setPc_module (s : State) (x : Word) : (s.setPc x).module = s.module := rfl
@[simp] theorem State.setPc_accesses (s : State) (x : Word) : (s.setPc x).accesses = s.accesses := rfl
@[simp] theorem State.setPc_ops (s : State) (x : Word) : (s.setPc x).ops = s.ops := rfl
@[simp] theorem State.setPc_messages (s : State) (x : Word) : (s.setPc x).messages = s.messages := rfl
@[simp] theorem State.setPc_packets (s : State) (x : Word) : (s.setPc x).packets = s.packets := rfl
@[simp] theorem State.setPc_signals (s : State) (x : Word) : (s.setPc x).signals = s.signals := rfl
@[simp] theorem State.setPc_treeMsgs (s : State) (x : Word) : (s.setPc x).treeMsgs = s.treeMsgs := rfl
@[simp] theorem State.setPc_reports (s : State) (x : Word) : (s.setPc x).reports = s.reports := rfl
@[simp] theorem State.setPc_slotWrites (s : State) (x : Word) : (s.setPc x).slotWrites = s.slotWrites := rfl
@[simp] theorem State.setPc_placed (s : State) (x : Word) : (s.setPc x).placed = s.placed := rfl
@[simp] theorem State.setPc_l2 (s : State) (x : Word) : (s.setPc x).l2 = s.l2 := rfl
@[simp] theorem State.setPc_pri (s : State) (x : Word) : (s.setPc x).pri = s.pri := rfl
@[simp] theorem State.setPc_hostAbsent (s : State) (x : Word) : (s.setPc x).hostAbsent = s.hostAbsent := rfl
@[simp] theorem State.setPc_hostRefused (s : State) (x : Word) : (s.setPc x).hostRefused = s.hostRefused := rfl
@[simp] theorem State.setPc_outputs (s : State) (x : Word) : (s.setPc x).outputs = s.outputs := rfl
@[simp] theorem State.setPc_outbox (s : State) (x : Word) : (s.setPc x).outbox = s.outbox := rfl
@[simp] theorem State.setPc_nextOrder (s : State) (x : Word) : (s.setPc x).nextOrder = s.nextOrder := rfl
@[simp] theorem State.setPc_tagLog (s : State) (x : Word) : (s.setPc x).tagLog = s.tagLog := rfl
@[simp] theorem State.setPc_nextTag (s : State) (x : Word) : (s.setPc x).nextTag = s.nextTag := rfl
@[simp] theorem State.setPc_free (s : State) (x : Word) : (s.setPc x).free = s.free := rfl
@[simp] theorem State.setPc_cur (s : State) (x : Word) : (s.setPc x).cur = s.cur := rfl
@[simp] theorem State.setPc_input (s : State) (x : Word) : (s.setPc x).input = s.input := rfl
@[simp] theorem State.setPc_agenda (s : State) (x : Word) : (s.setPc x).agenda = s.agenda := rfl

@[simp] theorem State.raise_time (s : State) (f : Flags) : (s.raise f).time = s.time := rfl
@[simp] theorem State.raise_mem (s : State) (f : Flags) : (s.raise f).mem = s.mem := rfl
@[simp] theorem State.raise_poison (s : State) (f : Flags) : (s.raise f).poison = s.poison := rfl
@[simp] theorem State.raise_zeroed (s : State) (f : Flags) : (s.raise f).zeroed = s.zeroed := rfl
@[simp] theorem State.raise_cores (s : State) (f : Flags) : (s.raise f).cores = s.cores := rfl
@[simp] theorem State.raise_tiles (s : State) (f : Flags) : (s.raise f).tiles = s.tiles := rfl
@[simp] theorem State.raise_zones (s : State) (f : Flags) : (s.raise f).zones = s.zones := rfl
@[simp] theorem State.raise_parts (s : State) (f : Flags) : (s.raise f).parts = s.parts := rfl
@[simp] theorem State.raise_tenants (s : State) (f : Flags) : (s.raise f).tenants = s.tenants := rfl
@[simp] theorem State.raise_rings (s : State) (f : Flags) : (s.raise f).rings = s.rings := rfl
@[simp] theorem State.raise_ports (s : State) (f : Flags) : (s.raise f).ports = s.ports := rfl
@[simp] theorem State.raise_launches (s : State) (f : Flags) : (s.raise f).launches = s.launches := rfl
@[simp] theorem State.raise_nextLaunch (s : State) (f : Flags) : (s.raise f).nextLaunch = s.nextLaunch := rfl
@[simp] theorem State.raise_module (s : State) (f : Flags) : (s.raise f).module = s.module := rfl
@[simp] theorem State.raise_accesses (s : State) (f : Flags) : (s.raise f).accesses = s.accesses := rfl
@[simp] theorem State.raise_ops (s : State) (f : Flags) : (s.raise f).ops = s.ops := rfl
@[simp] theorem State.raise_messages (s : State) (f : Flags) : (s.raise f).messages = s.messages := rfl
@[simp] theorem State.raise_packets (s : State) (f : Flags) : (s.raise f).packets = s.packets := rfl
@[simp] theorem State.raise_signals (s : State) (f : Flags) : (s.raise f).signals = s.signals := rfl
@[simp] theorem State.raise_treeMsgs (s : State) (f : Flags) : (s.raise f).treeMsgs = s.treeMsgs := rfl
@[simp] theorem State.raise_reports (s : State) (f : Flags) : (s.raise f).reports = s.reports := rfl
@[simp] theorem State.raise_slotWrites (s : State) (f : Flags) : (s.raise f).slotWrites = s.slotWrites := rfl
@[simp] theorem State.raise_placed (s : State) (f : Flags) : (s.raise f).placed = s.placed := rfl
@[simp] theorem State.raise_l2 (s : State) (f : Flags) : (s.raise f).l2 = s.l2 := rfl
@[simp] theorem State.raise_pri (s : State) (f : Flags) : (s.raise f).pri = s.pri := rfl
@[simp] theorem State.raise_hostAbsent (s : State) (f : Flags) : (s.raise f).hostAbsent = s.hostAbsent := rfl
@[simp] theorem State.raise_hostRefused (s : State) (f : Flags) : (s.raise f).hostRefused = s.hostRefused := rfl
@[simp] theorem State.raise_outputs (s : State) (f : Flags) : (s.raise f).outputs = s.outputs := rfl
@[simp] theorem State.raise_outbox (s : State) (f : Flags) : (s.raise f).outbox = s.outbox := rfl
@[simp] theorem State.raise_nextOrder (s : State) (f : Flags) : (s.raise f).nextOrder = s.nextOrder := rfl
@[simp] theorem State.raise_tagLog (s : State) (f : Flags) : (s.raise f).tagLog = s.tagLog := rfl
@[simp] theorem State.raise_nextTag (s : State) (f : Flags) : (s.raise f).nextTag = s.nextTag := rfl
@[simp] theorem State.raise_free (s : State) (f : Flags) : (s.raise f).free = s.free := rfl
@[simp] theorem State.raise_cur (s : State) (f : Flags) : (s.raise f).cur = s.cur := rfl
@[simp] theorem State.raise_input (s : State) (f : Flags) : (s.raise f).input = s.input := rfl
@[simp] theorem State.raise_agenda (s : State) (f : Flags) : (s.raise f).agenda = s.agenda := rfl

@[simp] theorem State.setFmt_time (s : State) (f : BitVec 14) : (s.setFmt f).time = s.time := rfl
@[simp] theorem State.setFmt_mem (s : State) (f : BitVec 14) : (s.setFmt f).mem = s.mem := rfl
@[simp] theorem State.setFmt_poison (s : State) (f : BitVec 14) : (s.setFmt f).poison = s.poison := rfl
@[simp] theorem State.setFmt_zeroed (s : State) (f : BitVec 14) : (s.setFmt f).zeroed = s.zeroed := rfl
@[simp] theorem State.setFmt_cores (s : State) (f : BitVec 14) : (s.setFmt f).cores = s.cores := rfl
@[simp] theorem State.setFmt_tiles (s : State) (f : BitVec 14) : (s.setFmt f).tiles = s.tiles := rfl
@[simp] theorem State.setFmt_zones (s : State) (f : BitVec 14) : (s.setFmt f).zones = s.zones := rfl
@[simp] theorem State.setFmt_parts (s : State) (f : BitVec 14) : (s.setFmt f).parts = s.parts := rfl
@[simp] theorem State.setFmt_tenants (s : State) (f : BitVec 14) : (s.setFmt f).tenants = s.tenants := rfl
@[simp] theorem State.setFmt_rings (s : State) (f : BitVec 14) : (s.setFmt f).rings = s.rings := rfl
@[simp] theorem State.setFmt_ports (s : State) (f : BitVec 14) : (s.setFmt f).ports = s.ports := rfl
@[simp] theorem State.setFmt_launches (s : State) (f : BitVec 14) : (s.setFmt f).launches = s.launches := rfl
@[simp] theorem State.setFmt_nextLaunch (s : State) (f : BitVec 14) : (s.setFmt f).nextLaunch = s.nextLaunch := rfl
@[simp] theorem State.setFmt_module (s : State) (f : BitVec 14) : (s.setFmt f).module = s.module := rfl
@[simp] theorem State.setFmt_accesses (s : State) (f : BitVec 14) : (s.setFmt f).accesses = s.accesses := rfl
@[simp] theorem State.setFmt_ops (s : State) (f : BitVec 14) : (s.setFmt f).ops = s.ops := rfl
@[simp] theorem State.setFmt_messages (s : State) (f : BitVec 14) : (s.setFmt f).messages = s.messages := rfl
@[simp] theorem State.setFmt_packets (s : State) (f : BitVec 14) : (s.setFmt f).packets = s.packets := rfl
@[simp] theorem State.setFmt_signals (s : State) (f : BitVec 14) : (s.setFmt f).signals = s.signals := rfl
@[simp] theorem State.setFmt_treeMsgs (s : State) (f : BitVec 14) : (s.setFmt f).treeMsgs = s.treeMsgs := rfl
@[simp] theorem State.setFmt_reports (s : State) (f : BitVec 14) : (s.setFmt f).reports = s.reports := rfl
@[simp] theorem State.setFmt_slotWrites (s : State) (f : BitVec 14) : (s.setFmt f).slotWrites = s.slotWrites := rfl
@[simp] theorem State.setFmt_placed (s : State) (f : BitVec 14) : (s.setFmt f).placed = s.placed := rfl
@[simp] theorem State.setFmt_l2 (s : State) (f : BitVec 14) : (s.setFmt f).l2 = s.l2 := rfl
@[simp] theorem State.setFmt_pri (s : State) (f : BitVec 14) : (s.setFmt f).pri = s.pri := rfl
@[simp] theorem State.setFmt_hostAbsent (s : State) (f : BitVec 14) : (s.setFmt f).hostAbsent = s.hostAbsent := rfl
@[simp] theorem State.setFmt_hostRefused (s : State) (f : BitVec 14) : (s.setFmt f).hostRefused = s.hostRefused := rfl
@[simp] theorem State.setFmt_outputs (s : State) (f : BitVec 14) : (s.setFmt f).outputs = s.outputs := rfl
@[simp] theorem State.setFmt_outbox (s : State) (f : BitVec 14) : (s.setFmt f).outbox = s.outbox := rfl
@[simp] theorem State.setFmt_nextOrder (s : State) (f : BitVec 14) : (s.setFmt f).nextOrder = s.nextOrder := rfl
@[simp] theorem State.setFmt_tagLog (s : State) (f : BitVec 14) : (s.setFmt f).tagLog = s.tagLog := rfl
@[simp] theorem State.setFmt_nextTag (s : State) (f : BitVec 14) : (s.setFmt f).nextTag = s.nextTag := rfl
@[simp] theorem State.setFmt_free (s : State) (f : BitVec 14) : (s.setFmt f).free = s.free := rfl
@[simp] theorem State.setFmt_cur (s : State) (f : BitVec 14) : (s.setFmt f).cur = s.cur := rfl
@[simp] theorem State.setFmt_input (s : State) (f : BitVec 14) : (s.setFmt f).input = s.input := rfl
@[simp] theorem State.setFmt_agenda (s : State) (f : BitVec 14) : (s.setFmt f).agenda = s.agenda := rfl

/-! ## Accessors -/

theorem State.strand_setStrand (s : State) (k j : Nat) (x : Strand) : (s.setStrand k x).strand j = if j = k then x else s.strand j :=
  FMap.getD_set s.strands k j x _
@[simp] theorem State.strand_setStrand_self (s : State) (k : Nat) (x : Strand) : (s.setStrand k x).strand k = x := by simp [State.strand_setStrand]
theorem State.strand_setStrand_ne (s : State) {k j : Nat} (x : Strand) (h : j ≠ k) : (s.setStrand k x).strand j = s.strand j := by
  simp [State.strand_setStrand, h]
theorem State.core_setCore (s : State) (k j : Nat) (x : Core) : (s.setCore k x).core j = if j = k then x else s.core j :=
  FMap.getD_set s.cores k j x _
@[simp] theorem State.core_setCore_self (s : State) (k : Nat) (x : Core) : (s.setCore k x).core k = x := by simp [State.core_setCore]
theorem State.core_setCore_ne (s : State) {k j : Nat} (x : Core) (h : j ≠ k) : (s.setCore k x).core j = s.core j := by
  simp [State.core_setCore, h]
theorem State.tile_setTile (s : State) (k j : Nat) (x : Tile) : (s.setTile k x).tile j = if j = k then x else s.tile j :=
  FMap.getD_set s.tiles k j x _
@[simp] theorem State.tile_setTile_self (s : State) (k : Nat) (x : Tile) : (s.setTile k x).tile k = x := by simp [State.tile_setTile]
theorem State.tile_setTile_ne (s : State) {k j : Nat} (x : Tile) (h : j ≠ k) : (s.setTile k x).tile j = s.tile j := by
  simp [State.tile_setTile, h]
theorem State.zone_setZone (s : State) (k j : Nat) (x : Zone) : (s.setZone k x).zone j = if j = k then x else s.zone j :=
  FMap.getD_set s.zones k j x _
@[simp] theorem State.zone_setZone_self (s : State) (k : Nat) (x : Zone) : (s.setZone k x).zone k = x := by simp [State.zone_setZone]
theorem State.zone_setZone_ne (s : State) {k j : Nat} (x : Zone) (h : j ≠ k) : (s.setZone k x).zone j = s.zone j := by
  simp [State.zone_setZone, h]
theorem State.part_setPart (s : State) (k j : Nat) (x : Partition) : (s.setPart k x).part j = if j = k then x else s.part j :=
  FMap.getD_set s.parts k j x _
@[simp] theorem State.part_setPart_self (s : State) (k : Nat) (x : Partition) : (s.setPart k x).part k = x := by simp [State.part_setPart]
theorem State.part_setPart_ne (s : State) {k j : Nat} (x : Partition) (h : j ≠ k) : (s.setPart k x).part j = s.part j := by
  simp [State.part_setPart, h]
theorem State.tenant_setTenant (s : State) (k j : Nat) (x : Tenant) : (s.setTenant k x).tenant j = if j = k then x else s.tenant j :=
  FMap.getD_set s.tenants k j x _
@[simp] theorem State.tenant_setTenant_self (s : State) (k : Nat) (x : Tenant) : (s.setTenant k x).tenant k = x := by simp [State.tenant_setTenant]
theorem State.tenant_setTenant_ne (s : State) {k j : Nat} (x : Tenant) (h : j ≠ k) : (s.setTenant k x).tenant j = s.tenant j := by
  simp [State.tenant_setTenant, h]
theorem State.ring_setRing (s : State) (k j : Nat) (x : EventRing) : (s.setRing k x).ring j = if j = k then x else s.ring j :=
  FMap.getD_set s.rings k j x _
@[simp] theorem State.ring_setRing_self (s : State) (k : Nat) (x : EventRing) : (s.setRing k x).ring k = x := by simp [State.ring_setRing]
theorem State.ring_setRing_ne (s : State) {k j : Nat} (x : EventRing) (h : j ≠ k) : (s.setRing k x).ring j = s.ring j := by
  simp [State.ring_setRing, h]
theorem State.port_setPort (s : State) (k j : Nat) (x : Port) : (s.setPort k x).port j = if j = k then x else s.port j :=
  FMap.getD_set s.ports k j x _
@[simp] theorem State.port_setPort_self (s : State) (k : Nat) (x : Port) : (s.setPort k x).port k = x := by simp [State.port_setPort]
theorem State.port_setPort_ne (s : State) {k j : Nat} (x : Port) (h : j ≠ k) : (s.setPort k x).port j = s.port j := by
  simp [State.port_setPort, h]

@[simp] theorem State.strand_setCore_other (s : State) (k : Nat) (x : Core) (j : Nat) : (s.setCore k x).strand j = s.strand j := rfl
@[simp] theorem State.strand_setTile_other (s : State) (k : Nat) (x : Tile) (j : Nat) : (s.setTile k x).strand j = s.strand j := rfl
@[simp] theorem State.strand_setZone_other (s : State) (k : Nat) (x : Zone) (j : Nat) : (s.setZone k x).strand j = s.strand j := rfl
@[simp] theorem State.strand_setPart_other (s : State) (k : Nat) (x : Partition) (j : Nat) : (s.setPart k x).strand j = s.strand j := rfl
@[simp] theorem State.strand_setTenant_other (s : State) (k : Nat) (x : Tenant) (j : Nat) : (s.setTenant k x).strand j = s.strand j := rfl
@[simp] theorem State.strand_setRing_other (s : State) (k : Nat) (x : EventRing) (j : Nat) : (s.setRing k x).strand j = s.strand j := rfl
@[simp] theorem State.strand_setPort_other (s : State) (k : Nat) (x : Port) (j : Nat) : (s.setPort k x).strand j = s.strand j := rfl
@[simp] theorem State.strand_setLaunch_other (s : State) (k : Nat) (x : Launch) (j : Nat) : (s.setLaunch k x).strand j = s.strand j := rfl
@[simp] theorem State.strand_setModule_other (s : State) (x : Module) (j : Nat) : (s.setModule x).strand j = s.strand j := rfl
@[simp] theorem State.strand_setCur_other (s : State) (x : Issue) (j : Nat) : (s.setCur x).strand j = s.strand j := rfl
@[simp] theorem State.core_setStrand_other (s : State) (k : Nat) (x : Strand) (j : Nat) : (s.setStrand k x).core j = s.core j := rfl
@[simp] theorem State.core_setTile_other (s : State) (k : Nat) (x : Tile) (j : Nat) : (s.setTile k x).core j = s.core j := rfl
@[simp] theorem State.core_setZone_other (s : State) (k : Nat) (x : Zone) (j : Nat) : (s.setZone k x).core j = s.core j := rfl
@[simp] theorem State.core_setPart_other (s : State) (k : Nat) (x : Partition) (j : Nat) : (s.setPart k x).core j = s.core j := rfl
@[simp] theorem State.core_setTenant_other (s : State) (k : Nat) (x : Tenant) (j : Nat) : (s.setTenant k x).core j = s.core j := rfl
@[simp] theorem State.core_setRing_other (s : State) (k : Nat) (x : EventRing) (j : Nat) : (s.setRing k x).core j = s.core j := rfl
@[simp] theorem State.core_setPort_other (s : State) (k : Nat) (x : Port) (j : Nat) : (s.setPort k x).core j = s.core j := rfl
@[simp] theorem State.core_setLaunch_other (s : State) (k : Nat) (x : Launch) (j : Nat) : (s.setLaunch k x).core j = s.core j := rfl
@[simp] theorem State.core_setModule_other (s : State) (x : Module) (j : Nat) : (s.setModule x).core j = s.core j := rfl
@[simp] theorem State.core_setCur_other (s : State) (x : Issue) (j : Nat) : (s.setCur x).core j = s.core j := rfl
@[simp] theorem State.core_setSelf_other (s : State) (x : Strand) (j : Nat) : (s.setSelf x).core j = s.core j := rfl
@[simp] theorem State.core_mapRegs_other (s : State) (f : RegFile → RegFile) (j : Nat) : (s.mapRegs f).core j = s.core j := rfl
@[simp] theorem State.core_setG_other (s : State) (d : Reg) (x : Word) (j : Nat) : (s.setG d x).core j = s.core j := rfl
@[simp] theorem State.core_setV_other (s : State) (d : Reg) (x : VWord) (j : Nat) : (s.setV d x).core j = s.core j := rfl
@[simp] theorem State.core_setP_other (s : State) (d : Pred) (b : Bool) (j : Nat) : (s.setP d b).core j = s.core j := rfl
@[simp] theorem State.core_setPc_other (s : State) (x : Word) (j : Nat) : (s.setPc x).core j = s.core j := rfl
@[simp] theorem State.core_raise_other (s : State) (f : Flags) (j : Nat) : (s.raise f).core j = s.core j := rfl
@[simp] theorem State.core_setFmt_other (s : State) (f : BitVec 14) (j : Nat) : (s.setFmt f).core j = s.core j := rfl
@[simp] theorem State.tile_setStrand_other (s : State) (k : Nat) (x : Strand) (j : Nat) : (s.setStrand k x).tile j = s.tile j := rfl
@[simp] theorem State.tile_setCore_other (s : State) (k : Nat) (x : Core) (j : Nat) : (s.setCore k x).tile j = s.tile j := rfl
@[simp] theorem State.tile_setZone_other (s : State) (k : Nat) (x : Zone) (j : Nat) : (s.setZone k x).tile j = s.tile j := rfl
@[simp] theorem State.tile_setPart_other (s : State) (k : Nat) (x : Partition) (j : Nat) : (s.setPart k x).tile j = s.tile j := rfl
@[simp] theorem State.tile_setTenant_other (s : State) (k : Nat) (x : Tenant) (j : Nat) : (s.setTenant k x).tile j = s.tile j := rfl
@[simp] theorem State.tile_setRing_other (s : State) (k : Nat) (x : EventRing) (j : Nat) : (s.setRing k x).tile j = s.tile j := rfl
@[simp] theorem State.tile_setPort_other (s : State) (k : Nat) (x : Port) (j : Nat) : (s.setPort k x).tile j = s.tile j := rfl
@[simp] theorem State.tile_setLaunch_other (s : State) (k : Nat) (x : Launch) (j : Nat) : (s.setLaunch k x).tile j = s.tile j := rfl
@[simp] theorem State.tile_setModule_other (s : State) (x : Module) (j : Nat) : (s.setModule x).tile j = s.tile j := rfl
@[simp] theorem State.tile_setCur_other (s : State) (x : Issue) (j : Nat) : (s.setCur x).tile j = s.tile j := rfl
@[simp] theorem State.tile_setSelf_other (s : State) (x : Strand) (j : Nat) : (s.setSelf x).tile j = s.tile j := rfl
@[simp] theorem State.tile_mapRegs_other (s : State) (f : RegFile → RegFile) (j : Nat) : (s.mapRegs f).tile j = s.tile j := rfl
@[simp] theorem State.tile_setG_other (s : State) (d : Reg) (x : Word) (j : Nat) : (s.setG d x).tile j = s.tile j := rfl
@[simp] theorem State.tile_setV_other (s : State) (d : Reg) (x : VWord) (j : Nat) : (s.setV d x).tile j = s.tile j := rfl
@[simp] theorem State.tile_setP_other (s : State) (d : Pred) (b : Bool) (j : Nat) : (s.setP d b).tile j = s.tile j := rfl
@[simp] theorem State.tile_setPc_other (s : State) (x : Word) (j : Nat) : (s.setPc x).tile j = s.tile j := rfl
@[simp] theorem State.tile_raise_other (s : State) (f : Flags) (j : Nat) : (s.raise f).tile j = s.tile j := rfl
@[simp] theorem State.tile_setFmt_other (s : State) (f : BitVec 14) (j : Nat) : (s.setFmt f).tile j = s.tile j := rfl
@[simp] theorem State.zone_setStrand_other (s : State) (k : Nat) (x : Strand) (j : Nat) : (s.setStrand k x).zone j = s.zone j := rfl
@[simp] theorem State.zone_setCore_other (s : State) (k : Nat) (x : Core) (j : Nat) : (s.setCore k x).zone j = s.zone j := rfl
@[simp] theorem State.zone_setTile_other (s : State) (k : Nat) (x : Tile) (j : Nat) : (s.setTile k x).zone j = s.zone j := rfl
@[simp] theorem State.zone_setPart_other (s : State) (k : Nat) (x : Partition) (j : Nat) : (s.setPart k x).zone j = s.zone j := rfl
@[simp] theorem State.zone_setTenant_other (s : State) (k : Nat) (x : Tenant) (j : Nat) : (s.setTenant k x).zone j = s.zone j := rfl
@[simp] theorem State.zone_setRing_other (s : State) (k : Nat) (x : EventRing) (j : Nat) : (s.setRing k x).zone j = s.zone j := rfl
@[simp] theorem State.zone_setPort_other (s : State) (k : Nat) (x : Port) (j : Nat) : (s.setPort k x).zone j = s.zone j := rfl
@[simp] theorem State.zone_setLaunch_other (s : State) (k : Nat) (x : Launch) (j : Nat) : (s.setLaunch k x).zone j = s.zone j := rfl
@[simp] theorem State.zone_setModule_other (s : State) (x : Module) (j : Nat) : (s.setModule x).zone j = s.zone j := rfl
@[simp] theorem State.zone_setCur_other (s : State) (x : Issue) (j : Nat) : (s.setCur x).zone j = s.zone j := rfl
@[simp] theorem State.zone_setSelf_other (s : State) (x : Strand) (j : Nat) : (s.setSelf x).zone j = s.zone j := rfl
@[simp] theorem State.zone_mapRegs_other (s : State) (f : RegFile → RegFile) (j : Nat) : (s.mapRegs f).zone j = s.zone j := rfl
@[simp] theorem State.zone_setG_other (s : State) (d : Reg) (x : Word) (j : Nat) : (s.setG d x).zone j = s.zone j := rfl
@[simp] theorem State.zone_setV_other (s : State) (d : Reg) (x : VWord) (j : Nat) : (s.setV d x).zone j = s.zone j := rfl
@[simp] theorem State.zone_setP_other (s : State) (d : Pred) (b : Bool) (j : Nat) : (s.setP d b).zone j = s.zone j := rfl
@[simp] theorem State.zone_setPc_other (s : State) (x : Word) (j : Nat) : (s.setPc x).zone j = s.zone j := rfl
@[simp] theorem State.zone_raise_other (s : State) (f : Flags) (j : Nat) : (s.raise f).zone j = s.zone j := rfl
@[simp] theorem State.zone_setFmt_other (s : State) (f : BitVec 14) (j : Nat) : (s.setFmt f).zone j = s.zone j := rfl
@[simp] theorem State.part_setStrand_other (s : State) (k : Nat) (x : Strand) (j : Nat) : (s.setStrand k x).part j = s.part j := rfl
@[simp] theorem State.part_setCore_other (s : State) (k : Nat) (x : Core) (j : Nat) : (s.setCore k x).part j = s.part j := rfl
@[simp] theorem State.part_setTile_other (s : State) (k : Nat) (x : Tile) (j : Nat) : (s.setTile k x).part j = s.part j := rfl
@[simp] theorem State.part_setZone_other (s : State) (k : Nat) (x : Zone) (j : Nat) : (s.setZone k x).part j = s.part j := rfl
@[simp] theorem State.part_setTenant_other (s : State) (k : Nat) (x : Tenant) (j : Nat) : (s.setTenant k x).part j = s.part j := rfl
@[simp] theorem State.part_setRing_other (s : State) (k : Nat) (x : EventRing) (j : Nat) : (s.setRing k x).part j = s.part j := rfl
@[simp] theorem State.part_setPort_other (s : State) (k : Nat) (x : Port) (j : Nat) : (s.setPort k x).part j = s.part j := rfl
@[simp] theorem State.part_setLaunch_other (s : State) (k : Nat) (x : Launch) (j : Nat) : (s.setLaunch k x).part j = s.part j := rfl
@[simp] theorem State.part_setModule_other (s : State) (x : Module) (j : Nat) : (s.setModule x).part j = s.part j := rfl
@[simp] theorem State.part_setCur_other (s : State) (x : Issue) (j : Nat) : (s.setCur x).part j = s.part j := rfl
@[simp] theorem State.part_setSelf_other (s : State) (x : Strand) (j : Nat) : (s.setSelf x).part j = s.part j := rfl
@[simp] theorem State.part_mapRegs_other (s : State) (f : RegFile → RegFile) (j : Nat) : (s.mapRegs f).part j = s.part j := rfl
@[simp] theorem State.part_setG_other (s : State) (d : Reg) (x : Word) (j : Nat) : (s.setG d x).part j = s.part j := rfl
@[simp] theorem State.part_setV_other (s : State) (d : Reg) (x : VWord) (j : Nat) : (s.setV d x).part j = s.part j := rfl
@[simp] theorem State.part_setP_other (s : State) (d : Pred) (b : Bool) (j : Nat) : (s.setP d b).part j = s.part j := rfl
@[simp] theorem State.part_setPc_other (s : State) (x : Word) (j : Nat) : (s.setPc x).part j = s.part j := rfl
@[simp] theorem State.part_raise_other (s : State) (f : Flags) (j : Nat) : (s.raise f).part j = s.part j := rfl
@[simp] theorem State.part_setFmt_other (s : State) (f : BitVec 14) (j : Nat) : (s.setFmt f).part j = s.part j := rfl
@[simp] theorem State.tenant_setStrand_other (s : State) (k : Nat) (x : Strand) (j : Nat) : (s.setStrand k x).tenant j = s.tenant j := rfl
@[simp] theorem State.tenant_setCore_other (s : State) (k : Nat) (x : Core) (j : Nat) : (s.setCore k x).tenant j = s.tenant j := rfl
@[simp] theorem State.tenant_setTile_other (s : State) (k : Nat) (x : Tile) (j : Nat) : (s.setTile k x).tenant j = s.tenant j := rfl
@[simp] theorem State.tenant_setZone_other (s : State) (k : Nat) (x : Zone) (j : Nat) : (s.setZone k x).tenant j = s.tenant j := rfl
@[simp] theorem State.tenant_setPart_other (s : State) (k : Nat) (x : Partition) (j : Nat) : (s.setPart k x).tenant j = s.tenant j := rfl
@[simp] theorem State.tenant_setRing_other (s : State) (k : Nat) (x : EventRing) (j : Nat) : (s.setRing k x).tenant j = s.tenant j := rfl
@[simp] theorem State.tenant_setPort_other (s : State) (k : Nat) (x : Port) (j : Nat) : (s.setPort k x).tenant j = s.tenant j := rfl
@[simp] theorem State.tenant_setLaunch_other (s : State) (k : Nat) (x : Launch) (j : Nat) : (s.setLaunch k x).tenant j = s.tenant j := rfl
@[simp] theorem State.tenant_setModule_other (s : State) (x : Module) (j : Nat) : (s.setModule x).tenant j = s.tenant j := rfl
@[simp] theorem State.tenant_setCur_other (s : State) (x : Issue) (j : Nat) : (s.setCur x).tenant j = s.tenant j := rfl
@[simp] theorem State.tenant_setSelf_other (s : State) (x : Strand) (j : Nat) : (s.setSelf x).tenant j = s.tenant j := rfl
@[simp] theorem State.tenant_mapRegs_other (s : State) (f : RegFile → RegFile) (j : Nat) : (s.mapRegs f).tenant j = s.tenant j := rfl
@[simp] theorem State.tenant_setG_other (s : State) (d : Reg) (x : Word) (j : Nat) : (s.setG d x).tenant j = s.tenant j := rfl
@[simp] theorem State.tenant_setV_other (s : State) (d : Reg) (x : VWord) (j : Nat) : (s.setV d x).tenant j = s.tenant j := rfl
@[simp] theorem State.tenant_setP_other (s : State) (d : Pred) (b : Bool) (j : Nat) : (s.setP d b).tenant j = s.tenant j := rfl
@[simp] theorem State.tenant_setPc_other (s : State) (x : Word) (j : Nat) : (s.setPc x).tenant j = s.tenant j := rfl
@[simp] theorem State.tenant_raise_other (s : State) (f : Flags) (j : Nat) : (s.raise f).tenant j = s.tenant j := rfl
@[simp] theorem State.tenant_setFmt_other (s : State) (f : BitVec 14) (j : Nat) : (s.setFmt f).tenant j = s.tenant j := rfl
@[simp] theorem State.ring_setStrand_other (s : State) (k : Nat) (x : Strand) (j : Nat) : (s.setStrand k x).ring j = s.ring j := rfl
@[simp] theorem State.ring_setCore_other (s : State) (k : Nat) (x : Core) (j : Nat) : (s.setCore k x).ring j = s.ring j := rfl
@[simp] theorem State.ring_setTile_other (s : State) (k : Nat) (x : Tile) (j : Nat) : (s.setTile k x).ring j = s.ring j := rfl
@[simp] theorem State.ring_setZone_other (s : State) (k : Nat) (x : Zone) (j : Nat) : (s.setZone k x).ring j = s.ring j := rfl
@[simp] theorem State.ring_setPart_other (s : State) (k : Nat) (x : Partition) (j : Nat) : (s.setPart k x).ring j = s.ring j := rfl
@[simp] theorem State.ring_setTenant_other (s : State) (k : Nat) (x : Tenant) (j : Nat) : (s.setTenant k x).ring j = s.ring j := rfl
@[simp] theorem State.ring_setPort_other (s : State) (k : Nat) (x : Port) (j : Nat) : (s.setPort k x).ring j = s.ring j := rfl
@[simp] theorem State.ring_setLaunch_other (s : State) (k : Nat) (x : Launch) (j : Nat) : (s.setLaunch k x).ring j = s.ring j := rfl
@[simp] theorem State.ring_setModule_other (s : State) (x : Module) (j : Nat) : (s.setModule x).ring j = s.ring j := rfl
@[simp] theorem State.ring_setCur_other (s : State) (x : Issue) (j : Nat) : (s.setCur x).ring j = s.ring j := rfl
@[simp] theorem State.ring_setSelf_other (s : State) (x : Strand) (j : Nat) : (s.setSelf x).ring j = s.ring j := rfl
@[simp] theorem State.ring_mapRegs_other (s : State) (f : RegFile → RegFile) (j : Nat) : (s.mapRegs f).ring j = s.ring j := rfl
@[simp] theorem State.ring_setG_other (s : State) (d : Reg) (x : Word) (j : Nat) : (s.setG d x).ring j = s.ring j := rfl
@[simp] theorem State.ring_setV_other (s : State) (d : Reg) (x : VWord) (j : Nat) : (s.setV d x).ring j = s.ring j := rfl
@[simp] theorem State.ring_setP_other (s : State) (d : Pred) (b : Bool) (j : Nat) : (s.setP d b).ring j = s.ring j := rfl
@[simp] theorem State.ring_setPc_other (s : State) (x : Word) (j : Nat) : (s.setPc x).ring j = s.ring j := rfl
@[simp] theorem State.ring_raise_other (s : State) (f : Flags) (j : Nat) : (s.raise f).ring j = s.ring j := rfl
@[simp] theorem State.ring_setFmt_other (s : State) (f : BitVec 14) (j : Nat) : (s.setFmt f).ring j = s.ring j := rfl
@[simp] theorem State.port_setStrand_other (s : State) (k : Nat) (x : Strand) (j : Nat) : (s.setStrand k x).port j = s.port j := rfl
@[simp] theorem State.port_setCore_other (s : State) (k : Nat) (x : Core) (j : Nat) : (s.setCore k x).port j = s.port j := rfl
@[simp] theorem State.port_setTile_other (s : State) (k : Nat) (x : Tile) (j : Nat) : (s.setTile k x).port j = s.port j := rfl
@[simp] theorem State.port_setZone_other (s : State) (k : Nat) (x : Zone) (j : Nat) : (s.setZone k x).port j = s.port j := rfl
@[simp] theorem State.port_setPart_other (s : State) (k : Nat) (x : Partition) (j : Nat) : (s.setPart k x).port j = s.port j := rfl
@[simp] theorem State.port_setTenant_other (s : State) (k : Nat) (x : Tenant) (j : Nat) : (s.setTenant k x).port j = s.port j := rfl
@[simp] theorem State.port_setRing_other (s : State) (k : Nat) (x : EventRing) (j : Nat) : (s.setRing k x).port j = s.port j := rfl
@[simp] theorem State.port_setLaunch_other (s : State) (k : Nat) (x : Launch) (j : Nat) : (s.setLaunch k x).port j = s.port j := rfl
@[simp] theorem State.port_setModule_other (s : State) (x : Module) (j : Nat) : (s.setModule x).port j = s.port j := rfl
@[simp] theorem State.port_setCur_other (s : State) (x : Issue) (j : Nat) : (s.setCur x).port j = s.port j := rfl
@[simp] theorem State.port_setSelf_other (s : State) (x : Strand) (j : Nat) : (s.setSelf x).port j = s.port j := rfl
@[simp] theorem State.port_mapRegs_other (s : State) (f : RegFile → RegFile) (j : Nat) : (s.mapRegs f).port j = s.port j := rfl
@[simp] theorem State.port_setG_other (s : State) (d : Reg) (x : Word) (j : Nat) : (s.setG d x).port j = s.port j := rfl
@[simp] theorem State.port_setV_other (s : State) (d : Reg) (x : VWord) (j : Nat) : (s.setV d x).port j = s.port j := rfl
@[simp] theorem State.port_setP_other (s : State) (d : Pred) (b : Bool) (j : Nat) : (s.setP d b).port j = s.port j := rfl
@[simp] theorem State.port_setPc_other (s : State) (x : Word) (j : Nat) : (s.setPc x).port j = s.port j := rfl
@[simp] theorem State.port_raise_other (s : State) (f : Flags) (j : Nat) : (s.raise f).port j = s.port j := rfl
@[simp] theorem State.port_setFmt_other (s : State) (f : BitVec 14) (j : Nat) : (s.setFmt f).port j = s.port j := rfl

@[simp] theorem State.self_setSelf (s : State) (x : Strand) : (s.setSelf x).self = x := by
  simp [State.setSelf, State.self]
theorem State.strand_setSelf_ne (s : State) (x : Strand) {k : Nat} (h : k ≠ s.cur.strand) : (s.setSelf x).strand k = s.strand k := by
  simp [State.setSelf, State.strand_setStrand, h]
@[simp] theorem State.self_mapRegs (s : State) (f : RegFile → RegFile) : (s.mapRegs f).self = { s.self with regs := f s.self.regs } := by
  simp [State.mapRegs]
theorem State.strand_mapRegs_ne (s : State) (f : RegFile → RegFile) {k : Nat} (h : k ≠ s.cur.strand) : (s.mapRegs f).strand k = s.strand k :=
  State.strand_setSelf_ne s _ h
@[simp] theorem State.self_setG (s : State) (d : Reg) (x : Word) : (s.setG d x).self = { s.self with regs := s.self.regs.writeG d x } :=
  State.self_mapRegs s _
@[simp] theorem State.self_setV (s : State) (d : Reg) (x : VWord) : (s.setV d x).self = { s.self with regs := s.self.regs.writeV d x } :=
  State.self_mapRegs s _
@[simp] theorem State.self_setP (s : State) (d : Pred) (b : Bool) : (s.setP d b).self = { s.self with regs := s.self.regs.writeP d b } :=
  State.self_mapRegs s _
@[simp] theorem State.self_setPc (s : State) (x : Word) : (s.setPc x).self = { s.self with pc := x } := State.self_setSelf s _
@[simp] theorem State.self_raise (s : State) (f : Flags) :
    (s.raise f).self = { s.self with regs := { s.self.regs with stat := s.self.regs.stat ||| f } } := State.self_mapRegs s _
@[simp] theorem State.self_setFmt (s : State) (f : BitVec 14) : (s.setFmt f).self = { s.self with regs := { s.self.regs with fmt := f } } :=
  State.self_mapRegs s _

/-! ## Registers -/

/-- A write to g0 is discarded; any other reads back (R27). -/
theorem RegFile.readG_writeG (r : RegFile) (d i : Reg) (x : Word) :
    (r.writeG d x).readG i = if d ≠ 0#4 ∧ i = d then x else r.readG i := by
  unfold RegFile.writeG RegFile.readG
  by_cases hd : d = 0#4
  · simp [hd]
  · simp only [hd, if_false, not_false_eq_true, true_and, ne_eq, FMap.getD_set, BitVec.toNat_inj]
    by_cases hi : i = 0#4
    · simp [hi, Ne.symm hd]
    · simp [hi]
theorem RegFile.readV_writeV (r : RegFile) (d i : Reg) (x : VWord) :
    (r.writeV d x).readV i = if i = d then x else r.readV i := by
  simp [RegFile.writeV, RegFile.readV, FMap.getD_set, BitVec.toNat_inj]
@[simp] theorem RegFile.readG_zero (r : RegFile) : r.readG 0#4 = 0#64 := rfl
@[simp] theorem RegFile.readP_zero (r : RegFile) : r.readP 0#3 = true := rfl
@[simp] theorem RegFile.writeG_zero (r : RegFile) (x : Word) : r.writeG 0#4 x = r := rfl
@[simp] theorem RegFile.writeP_zero (r : RegFile) (b : Bool) : r.writeP 0#3 b = r := rfl
@[simp] theorem RegFile.writeG_v (r : RegFile) (d : Reg) (x : Word) : (r.writeG d x).v = r.v := by unfold RegFile.writeG; split <;> rfl
@[simp] theorem RegFile.writeG_pw (r : RegFile) (d : Reg) (x : Word) : (r.writeG d x).pw = r.pw := by unfold RegFile.writeG; split <;> rfl
@[simp] theorem RegFile.writeG_fmt (r : RegFile) (d : Reg) (x : Word) : (r.writeG d x).fmt = r.fmt := by unfold RegFile.writeG; split <;> rfl
@[simp] theorem RegFile.writeG_stat (r : RegFile) (d : Reg) (x : Word) : (r.writeG d x).stat = r.stat := by unfold RegFile.writeG; split <;> rfl
@[simp] theorem RegFile.writeG_gf (r : RegFile) (d : Reg) (x : Word) : (r.writeG d x).gf = r.gf := by unfold RegFile.writeG; split <;> rfl
@[simp] theorem RegFile.writeG_vf (r : RegFile) (d : Reg) (x : Word) : (r.writeG d x).vf = r.vf := by unfold RegFile.writeG; split <;> rfl
@[simp] theorem RegFile.writeV_g (r : RegFile) (d : Reg) (x : VWord) : (r.writeV d x).g = r.g := rfl
@[simp] theorem RegFile.writeV_pw (r : RegFile) (d : Reg) (x : VWord) : (r.writeV d x).pw = r.pw := rfl
@[simp] theorem RegFile.writeV_fmt (r : RegFile) (d : Reg) (x : VWord) : (r.writeV d x).fmt = r.fmt := rfl
@[simp] theorem RegFile.writeV_stat (r : RegFile) (d : Reg) (x : VWord) : (r.writeV d x).stat = r.stat := rfl
@[simp] theorem RegFile.writeV_gf (r : RegFile) (d : Reg) (x : VWord) : (r.writeV d x).gf = r.gf := rfl
@[simp] theorem RegFile.writeV_vf (r : RegFile) (d : Reg) (x : VWord) : (r.writeV d x).vf = r.vf := rfl
@[simp] theorem RegFile.writeP_g (r : RegFile) (d : Pred) (b : Bool) : (r.writeP d b).g = r.g := by unfold RegFile.writeP; split <;> rfl
@[simp] theorem RegFile.writeP_v (r : RegFile) (d : Pred) (b : Bool) : (r.writeP d b).v = r.v := by unfold RegFile.writeP; split <;> rfl
@[simp] theorem RegFile.writeP_fmt (r : RegFile) (d : Pred) (b : Bool) : (r.writeP d b).fmt = r.fmt := by unfold RegFile.writeP; split <;> rfl
@[simp] theorem RegFile.writeP_stat (r : RegFile) (d : Pred) (b : Bool) : (r.writeP d b).stat = r.stat := by unfold RegFile.writeP; split <;> rfl
@[simp] theorem RegFile.writeP_gf (r : RegFile) (d : Pred) (b : Bool) : (r.writeP d b).gf = r.gf := by unfold RegFile.writeP; split <;> rfl
@[simp] theorem RegFile.writeP_vf (r : RegFile) (d : Pred) (b : Bool) : (r.writeP d b).vf = r.vf := by unfold RegFile.writeP; split <;> rfl

theorem setBit_getLsbD {n : Nat} (w : BitVec n) (i j : Nat) (b : Bool) (hi : i < n) :
    (setBit w i b).getLsbD j = if j = i then b else w.getLsbD j := by
  unfold setBit
  have h2 : (BitVec.ofNat n (2 ^ i)).getLsbD j = decide (j = i) := by
    rw [BitVec.getLsbD_ofNat, Nat.testBit_two_pow]
    by_cases h : j = i
    · subst h; simp [hi]
    · simp [h, Ne.symm h]
  revert h2
  generalize BitVec.ofNat n (2 ^ i) = m
  intro h2
  by_cases hj : j = i
  · subst hj
    cases b <;> simp [h2, hi]
  · cases b
    · by_cases hn : j < n
      · simp [BitVec.getLsbD_and, h2, hj, hn, -BitVec.getLsbD_eq_getElem]
      · simp [hj, BitVec.getLsbD_of_ge w j (by omega)]
    · simp [h2, hj]
/-- A write to p0 is discarded; any other reads back, and every other predicate stays (R29). -/
theorem RegFile.readP_writeP (r : RegFile) (d i : Pred) (b : Bool) :
    (r.writeP d b).readP i = if d ≠ 0#3 ∧ i = d then b else r.readP i := by
  unfold RegFile.writeP
  by_cases hd : d = 0#3
  · simp [hd]
  · have hlt : d.toNat < 8 := d.isLt
    simp only [hd, if_false, RegFile.readP, not_false_eq_true, true_and, ne_eq, setBit_getLsbD _ _ _ _ hlt, BitVec.toNat_inj]
    by_cases hi : i = d
    · subst hi; simp [hd]
    · simp [hi]

end Sys2Proof.Machine
end

