-- ==== Sys2Proof/Laws/Frame.lean ====
section
/-! SUPPORT. What the register writes of Ops.lean and Flags.lean are, in the words of Safety.lean. -/

namespace Sys2Proof.Machine

theorem onlySelf_setSelf (s : State) (x : Strand) : OnlySelf s (s.setSelf x) :=
  ⟨rfl, fun _ h => State.strand_setSelf_ne s x h⟩
theorem onlySelf_trans {s t u : State} (h : OnlySelf s t) (h' : OnlySelf t u) : OnlySelf s u := by
  have hc : t.cur = s.cur := by rw [h.1]
  refine ⟨by rw [h'.1, h.1], fun k hk => ?_⟩
  rw [h'.2 k (hc ▸ hk), h.2 k hk]
theorem onlyRegs_mapRegs (s : State) (f : RegFile → RegFile) : OnlyRegs s (s.mapRegs f) :=
  ⟨onlySelf_setSelf s _, by simp⟩

theorem State.mapRegs_mapRegs_self (s : State) (f h : RegFile → RegFile) :
    ((s.mapRegs f).mapRegs h).self = { s.self with regs := h (f s.self.regs) } := by simp
theorem onlyRegs_mapRegs_mapRegs (s : State) (f h : RegFile → RegFile) : OnlyRegs s ((s.mapRegs f).mapRegs h) :=
  ⟨onlySelf_trans (onlySelf_setSelf s _) (onlySelf_setSelf (s.mapRegs f) _), by simp⟩

theorem writesG_setG (d : Reg) (x : Word) (s : State) : WritesG d x s (s.setG d x) := by
  refine ⟨onlyRegs_mapRegs s _, fun i => ?_, ?_⟩
  · rw [State.self_setG]; exact RegFile.readG_writeG _ d i x
  · rw [State.self_setG]; unfold RegFile.writeG; split <;> rfl
theorem writesGF_setG_raise (d : Reg) (x : Word) (f : Flags) (s : State) : WritesGF d x f s ((s.setG d x).raise f) := by
  refine ⟨onlyRegs_mapRegs_mapRegs s _ _, fun i => ?_, ?_⟩
  · rw [State.self_raise, State.self_setG]; exact RegFile.readG_writeG _ d i x
  · rw [State.self_raise, State.self_setG]; simp only; unfold RegFile.writeG; split <;> rfl
theorem writesVF_setV (d : Reg) (x : VWord) (s : State) : WritesVF d x 0#6 s (s.setV d x) := by
  refine ⟨onlyRegs_mapRegs s _, fun i => ?_, ?_⟩
  · rw [State.self_setV]; exact RegFile.readV_writeV _ d i x
  · rw [State.self_setV]; simp [RegFile.writeV]
theorem writesVF_setV_raise (d : Reg) (x : VWord) (f : Flags) (s : State) : WritesVF d x f s ((s.setV d x).raise f) := by
  refine ⟨onlyRegs_mapRegs_mapRegs s _ _, fun i => ?_, ?_⟩
  · rw [State.self_raise, State.self_setV]; exact RegFile.readV_writeV _ d i x
  · rw [State.self_raise, State.self_setV]; rfl
theorem writesPF_setP (d : Pred) (b : Bool) (s : State) : WritesPF d b 0#6 s (s.setP d b) := by
  refine ⟨onlyRegs_mapRegs s _, fun i => ?_, ?_⟩
  · rw [State.self_setP]; exact RegFile.readP_writeP _ d i b
  · rw [State.self_setP]; unfold RegFile.writeP; split <;> simp
theorem writesPF_setP_raise (d : Pred) (b : Bool) (f : Flags) (s : State) : WritesPF d b f s ((s.setP d b).raise f) := by
  refine ⟨onlyRegs_mapRegs_mapRegs s _ _, fun i => ?_, ?_⟩
  · rw [State.self_raise, State.self_setP]; exact RegFile.readP_writeP _ d i b
  · rw [State.self_raise, State.self_setP]; simp only; unfold RegFile.writeP; split <;> rfl

end Sys2Proof.Machine
end

