-- ==== Sys2Proof/Laws/Engine.lean ====
section
/-! SUPPORT. What taking an identifier, forking an operation and completing one at once do, in the words of Safety.lean. -/

namespace Sys2Proof.Machine

theorem RegFile.writeG_only (r : RegFile) (d : Reg) (x : Word) : r.writeG d x = { r with g := (r.writeG d x).g } := by
  unfold RegFile.writeG; split <;> rfl

theorem State.takeId_eq (d : Reg) (o : Op) (u : State) :
    u.takeId d o = (u.setCore o.core ((u.core o.core).issue o)).setG d (o.id.setWidth 64) :=
  rfl
theorem State.core_takeId (d : Reg) (o : Op) (u : State) (c : Nat) :
    (u.takeId d o).core c =
      if c = o.core then (u.core o.core).issue o else u.core c :=
  FMap.getD_set _ _ _ _ _
theorem State.strand_takeId (d : Reg) (o : Op) (u : State) {k : Nat} (h : k ≠ u.cur.strand) :
    (u.takeId d o).strand k = u.strand k := by
  rw [takeId_eq]; exact State.strand_setSelf_ne _ _ h
theorem State.self_takeId (d : Reg) (o : Op) (u : State) :
    (u.takeId d o).self = { u.self with regs := u.self.regs.writeG d (o.id.setWidth 64) } := by
  rw [takeId_eq, State.self_setG]; rfl

/-- A fork does all of R291 and R317, and nothing else. -/
theorem State.forks_fork (d : Reg) (o : Op) (s : State) : ∃ t, s.fork d o = .next t ∧ Forks d o s t := by
  unfold State.fork Forks
  generalize s.drainCore s.selfCore = u
  refine ⟨_, rfl, rfl, ?_, ?_, ?_, ?_, ?_⟩
  · exact (core_takeId d o u o.core).trans (if_pos rfl)
  · exact fun c hc => (core_takeId d o u c).trans (if_neg hc)
  · exact fun k hk => strand_takeId d o u hk
  · show (u.takeId d o).self = { u.self with regs := { u.self.regs with g := (u.takeId d o).self.regs.g } }
    rw [self_takeId]; simp only; rw [← RegFile.writeG_only]
  · intro i
    show (u.takeId d o).self.regs.readG i = _
    rw [self_takeId]; exact RegFile.readG_writeG _ d i _

theorem State.core_complete (s : State) (core ch : Nat) (id : BitVec 32) (w : Word) (c : Nat) (h : c ≠ core) :
    (s.complete core ch id w).core c = s.core c :=
  (FMap.getD_set _ _ _ _ _).trans (if_neg h)
theorem State.next_complete (s : State) (core ch : Nat) (id : BitVec 32) (w : Word) :
    ((s.complete core ch id w).core core).cnext = (s.core core).cnext := by
  have h : (s.complete core ch id w).core core = _ := (FMap.getD_set _ _ _ _ _).trans (if_pos rfl)
  rw [h]; rfl
theorem State.records_complete (s : State) (core ch : Nat) (id : BitVec 32) (w : Word) :
    ((s.complete core ch id w).core core).records =
      (s.core core).records.set (32 * ch + id.toNat % 32) { id := id, word := w } := by
  have h : (s.complete core ch id w).core core = _ := (FMap.getD_set _ _ _ _ _).trans (if_pos rfl)
  rw [h]; rfl

/-- RANGE or OK at issue (R318, R321). -/
theorem State.endsAtOnce_atOnce (d : Reg) (o : Op) (sts : Nat) (s : State) :
    ∃ t, s.atOnce d o sts = .next t ∧ EndsAtOnce d o sts s t := by
  have hw : recordWord sts 0 0 = BitVec.ofNat 64 (sts * 2 ^ 61) := by simp [recordWord]
  refine ⟨_, rfl, rfl, ?_, ?_, ?_, ?_, rfl, ?_⟩
  · rw [Core.next, next_complete, core_takeId, if_pos rfl]; exact FMap.getD_set_self _ _ _ _
  · rw [records_complete, hw, core_takeId, if_pos rfl, FMap.find?_set, if_pos rfl]
  · exact fun c hc => (core_complete _ _ _ _ _ c hc).trans ((core_takeId d o s c).trans (if_neg hc))
  · exact fun k hk => strand_takeId d o s hk
  · intro i
    show (s.takeId d o).self.regs.readG i = _
    rw [self_takeId]; exact RegFile.readG_writeG _ d i _

end Sys2Proof.Machine
end

