-- ==== Sys2Proof/Laws/Plain.lean ====
section
/-! SUPPORT. What an ordinary strand of a launch is spared: the instructions that handlers, tasks, shadow handlers or atelier
strands may not run (R173, R183, R306, R391), and the waits of a speculative task (R181). -/

namespace Sys2Proof.Machine

theorem PlainStrand.not_barred {s : State} (h : PlainStrand s) (a b c d : Bool) : s.barred a b c d = false := by
  simp [State.barred, h.1, h.2.1, h.2.2.1, h.2.2.2.2]
theorem PlainStrand.unless {s : State} (h : PlainStrand s) (a b c d : Bool) (r : Res) : s.unless (s.barred a b c d) r = r := by
  simp [State.unless, h.not_barred]
theorem selfTask_none {s : State} (h : s.before.task = none) : s.selfTask = none := by
  have h' : s.cur.before.task = none := h
  simp [State.selfTask, h']
theorem gated_of_no_task {s : State} (h : s.before.task = none) (f : State → Res) : s.gated f = f s := by
  simp [State.gated, State.irrevocably, selfTask_none h]
theorem PlainStrand.gated {s : State} (h : PlainStrand s) (f : State → Res) : s.gated f = f s := gated_of_no_task h.2.2.2.1 f
theorem speculative_of_no_task {s : State} (h : s.before.task = none) : s.speculative = false := by
  simp [State.speculative, selfTask_none h]

end Sys2Proof.Machine
end

