-- ==== Sys2Proof/Tests/Slice0.lean ====
section
/-! SUPPORT. The model's own tests: words from the spec's encodings, ill-formed terms, single steps with results worked out by
hand from the spec, and for each statement's hypotheses a state that meets them. -/

namespace Sys2Proof.Tests

open Sys2Proof Sys2Proof.Machine

set_option Elab.async false

/-! ## Small states -/

def r (n : Nat) : Src := ⟨BitVec.ofNat 4 n, false⟩
/-- Registers, given by number, of the strand that issues. -/
def withG (s : State) (g : List (Nat × Word)) : State :=
  let x := { s.before with regs := { s.before.regs with g := ⟨g⟩ } }
  (s.setCur { s.cur with before := x }).setStrand s.cur.strand x
def withV (s : State) (v : List (Nat × VWord)) : State :=
  let x := { s.before with regs := { s.before.regs with v := ⟨v⟩ } }
  (s.setCur { s.cur with before := x }).setStrand s.cur.strand x
/-- What the issuing strand was granted. -/
def granted (s : State) (x : BitVec 512) : State :=
  let y := { s.before with grant := some { value := x } }
  (s.setCur { s.cur with before := y }).setStrand s.cur.strand y
/-- The strand that a launch leaves on a lone tile, about to issue. -/
def user (g : List (Nat × Word) := []) : State := withG (State.reset.lone.begin 16) g
/-- The same on another core of zone 0. -/
def userOn (core : Nat) (g : List (Nat × Word)) : State :=
  let s := State.reset.lone
  let z := s.zone 0
  let s := s.setZone 0 { z with rows := ⟨(List.range 12).map fun q => (q, plainRow)⟩ }
  let s := { s with strands := ⟨[(strandOf core 0, s.strand 16)]⟩ }
  withG (s.begin (strandOf core 0)) g
/-- An atelier core's strand, about to issue. -/
def chief (g : List (Nat × Word) := []) : State :=
  let s := State.reset.lone
  let s := s.setModule { s.module with ateliersStarted := true }
  withG ((s.setStrand (strandOf 18432 0) { st := .ready, birth := .atelier }).begin (strandOf 18432 0)) g
def after (r : Res) : State :=
  match r with
  | .next t => t
  | _ => State.reset
/-- What a meaning leaves in a register of the strand that issued. -/
def gAfter (r : Res) (i : Nat) : Word := (after r).self.regs.readG (BitVec.ofNat 4 i)
def vAfter (r : Res) (i : Nat) : VWord := (after r).self.regs.readV (BitVec.ofNat 4 i)
def passes (r : Checked) : Bool :=
  match r with
  | .ok .. => true
  | _ => false

/-! ## Words written out from the tables R71–R82: every constructor's decoding -/

/-- A C-slot word: OPC at bit 25 and the fields of its body, each a value and its lowest bit (R71, R75). -/
def cw (opc : Nat) (f : List (Nat × Nat)) : BitVec 32 := BitVec.ofNat 32 (f.foldl (fun n x => n + x.1 * 2 ^ x.2) (opc * 2 ^ 25))
/-- The same with X = 1. -/
def cx (opc : Nat) (f : List (Nat × Nat)) : BitVec 32 := cw opc ((1, 31) :: f)
/-- An A-slot word: OPA at bit 25. -/
def aw (opa : Nat) (f : List (Nat × Nat)) : BitVec 32 := cw opa f
/-- REG bodies: D, A, B and FN. -/
def reg (opa fn d a b : Nat) : BitVec 32 := aw opa [(d, 17), (a, 13), (b, 8), (fn, 0)]
/-- REGV bodies. -/
def regv (opa fn et d a b : Nat) : BitVec 32 := aw opa [(d, 17), (a, 13), (b, 8), (et, 4), (fn, 0)]
/-- ENG bodies, with a modifier word when it is not 0. -/
def eng (opc sub d a b c : Nat) : BitVec 32 := cw opc [(d, 17), (a, 13), (b, 8), (c, 3), (sub, 0)]
def engx (opc sub d a b c : Nat) : BitVec 32 := cx opc [(d, 17), (a, 13), (b, 8), (c, 3), (sub, 0)]
/-- Does the C slot decode to `i`, with word 1 as given? -/
def isC (w w1 : BitVec 32) (i : Instr) : Bool :=
  match decodeC w w1 with
  | .ok j => j == i
  | .error _ => false
def isA (w : BitVec 32) (i : Instr) : Bool :=
  match decodeA w with
  | .ok j => j == i
  | .error _ => false

theorem test_decode_control :
    (isC (cw 0x00 []) 0 .nopc && isC (cw 0x01 [(0x1FFFFE, 0)]) 0 (.br ⟨0x1FFFFE#21, none⟩)
      && isC (cx 0x02 [(5, 0)]) 7 (.brl ⟨5#21, some 7#32⟩) && isC (eng 0x03 0 0 2 0 0) 0 (.jmp (r 2))
      && isC (cw 0x03 [(2, 13), (1, 12), (1, 0)]) 0 (.jmpl ⟨2#4, true⟩) && isC (eng 0x03 2 0 0 0 0) 0 .ret
      && isC (cw 0x04 [(1, 17), (0x1FFFF, 0)]) 0 (.dbnz 1#4 ⟨0x1FFFF#17, none⟩) && isC (eng 0x05 0 0 0 0 0) 0 .endStrand
      && isC (eng 0x05 1 0 0 0 0) 0 .yieldTurn && isC (eng 0x05 2 0 2 0 0) 0 (.pause (r 2)) && isC (eng 0x05 3 0 0 0 0) 0 .hend
      && isC (cx 0x06 [(1, 17), (2, 13), (0x800, 0)]) 9 (.movl 1#4 (r 2) ⟨0x800#12, some 9#32⟩)) = true := by decide +kernel
theorem test_decode_memory :
    (isC (cw 0x08 [(1, 17), (2, 13), (2, 10), (1, 9), (3, 0)]) 0 (.ld 1#4 (r 2) 2#2 true ⟨3#9, none⟩)
      && isC (cx 0x09 [(1, 17), (2, 13), (1, 12), (3, 10), (3, 0)]) 8 (.st 1#4 ⟨2#4, true⟩ 3#2 ⟨3#9, some 8#32⟩)
      && isC (cw 0x0A [(1, 17), (2, 13), (3, 8), (1, 7), (1, 5), (1, 4), (1, 3)]) 0 (.ldx 1#4 (r 2) ⟨3#4, true⟩ 1#2 true true)
      && isC (cw 0x0A [(1, 17), (2, 13), (3, 8), (2, 5), (1, 0)]) 0 (.stx 1#4 (r 2) (r 3) 2#2 false)
      && isC (cw 0x0B [(1, 17), (2, 13), (4, 0)]) 0 (.ldv 1#4 (r 2) ⟨4#8, none⟩)
      && isC (cw 0x0B [(1, 17), (2, 13), (1, 10), (4, 0)]) 0 (.stv 1#4 (r 2) ⟨4#8, none⟩)
      && isC (cw 0x0B [(1, 17), (2, 13), (2, 10), (2, 8), (4, 0)]) 0 (.ldvb 1#4 (r 2) 2#2 ⟨4#8, none⟩)
      && isC (cw 0x0C [(1, 17), (2, 13), (3, 10), (4, 6), (5, 0)]) 0 (.lda 1#4 (r 2) 3#2 4#3 ⟨5#6, none⟩)
      && isC (cw 0x0C [(1, 17), (2, 13), (1, 9), (1, 6), (5, 0)]) 0 (.stl 1#4 (r 2) 0#2 1#3 ⟨5#6, none⟩)
      && isC (cw 0x0E [(2, 9), (3, 7)]) 0 (.fence 2#3 3#2) && isC (cw 0x0E [(2, 13), (3, 9), (1, 7), (1, 0)]) 0 (.pref (r 2) 3#3 1#2)
      && isC (cw 0x0E [(2, 13), (4, 9), (2, 0)]) 0 (.flush (r 2) 4#3) && isC (cw 0x0E [(2, 13), (3, 0)]) 0 (.inv (r 2) 0#3)
      && isC (cw 0x30 [(1, 17), (0x14B, 3)]) 0 (.mfs 1#4 0x14B#10) && isC (cw 0x31 [(1, 17), (2, 3)]) 0 (.mts 1#4 2#10)
      && isC (cw 0x32 [(0xA5, 0)]) 0 (.trap 0xA5#8)) = true := by decide +kernel
theorem test_decode_atomics :
    (([.amoAdd, .amoAnd, .amoOr, .amoXor, .amoMin, .amoMax, .amoMinu, .amoMaxu, .amoSwap, .amoCas] :
        List (Reg → Src → Src → Bool → BitVec 2 → Instr)).zipIdx.all fun x =>
      isC (cw 0x0D [(1, 17), (2, 13), (3, 8), (x.2, 3), (1, 2), (2, 0)]) 0 (x.1 1#4 (r 2) (r 3) true 2#2)) = true := by decide +kernel
theorem test_decode_integer :
    ((([.add, .sub, .and, .or, .xor, .andn, .shl, .shr, .sar, .rot, .min, .max, .minu, .maxu] : List (Reg → Src → Src → Instr)).zipIdx.all
        fun x => isA (reg 0x01 x.2 1 2 3) (x.1 1#4 (r 2) (r 3)))
      && (([.mul, .mulh, .mulhu, .div, .divu, .rem, .remu] : List (Reg → Src → Src → Instr)).zipIdx.all
        fun x => isA (reg 0x02 x.2 1 2 3) (x.1 1#4 (r 2) (r 3)))
      && (([.clz, .ctz, .popc, .brev] : List (Reg → Src → Instr)).zipIdx.all fun x => isA (reg 0x03 x.2 1 2 0) (x.1 1#4 (r 2)))
      && isA (reg 0x03 4 1 2 3) (.bext 1#4 (r 2) (r 3)) && isA (reg 0x03 5 1 2 3) (.bdep 1#4 (r 2) (r 3))
      && (([.addi, .andi, .ori, .xori] : List (Reg → Src → BitVec 12 → Instr)).zipIdx.all
        fun x => isA (aw (0x10 + x.2) [(1, 17), (2, 13), (0xFFF, 0)]) (x.1 1#4 (r 2) 0xFFF#12))
      && (([.shli, .shri, .sari] : List (Reg → Src → BitVec 6 → Instr)).zipIdx.all
        fun x => isA (aw (0x14 + x.2) [(1, 17), (2, 13), (63, 0)]) (x.1 1#4 (r 2) 63#6))
      && isA (aw 0x17 [(1, 17), (0x7FF, 0)]) (.movi 1#4 0x7FF#12) && isA (reg 0x18 3 1 2 3) (.lea 1#4 (r 2) (r 3) 3#2)
      && isA (reg 0x05 9 7 2 3) (.cmp 9#4 7#3 (r 2) (r 3)) && isA (aw 0x1D [(1, 20), (7, 17), (2, 13), (1, 0)]) (.cmpi 9#4 7#3 (r 2) 1#12)
      && isA (reg 0x04 (8 + 5) 1 2 3) (.sel 1#4 5#3 true (r 2) (r 3)) && isA (aw 0x00 []) .nopa) = true := by decide +kernel
theorem test_decode_floating :
    ((([.fadd, .fsub, .fmul, .ffma, .fdiv, .fmin, .fmax] : List (BitVec 2 → Reg → Src → Src → Instr)).zipIdx.all
        fun x => isA (regv 0x20 x.2 3 1 2 3) (x.1 3#2 1#4 (r 2) (r 3)))
      && (([.fsqrt, .fabs, .fneg, .ex2, .lg2, .rcp, .rsq] : List (BitVec 2 → Reg → Src → Instr)).zipIdx.all
        fun x => isA (regv 0x21 x.2 1 1 2 0) (x.1 1#2 1#4 (r 2)))
      && isA (regv 0x22 7 2 7 2 3) (.fcmp 7#3 2#2 7#3 (r 2) (r 3)) && isA (reg 0x23 13 1 2 9) (.fcvt 9#4 13#4 1#4 (r 2))
      && (([.pand, .por, .pxor] : List (Pred → Pred → Pred → Instr)).zipIdx.all fun x => isA (reg 0x60 x.2 1 2 3) (x.1 1#3 2#3 3#3))
      && isA (reg 0x60 3 1 2 0) (.pnot 1#3 2#3) && isA (reg 0x60 4 1 2 0) (.pmov 1#3 2#3)
      && isA (aw 0x61 [(15, 17), (2, 13), (4, 0)]) (.fmtset 15#4 (r 2) 4#12) && isA (reg 0x62 0 1 0 0) (.fmtget 1#4)) = true := by
  decide +kernel
theorem test_decode_vector :
    ((([.vadd, .vsub, .vmul, .vfma, .vmin, .vmax] : List (BitVec 3 → Reg → Src → Src → Bool → Bool → Instr)).zipIdx.all
        fun x => isA (regv (0x30 + x.2) 2 5 1 2 3) (x.1 5#3 1#4 (r 2) (r 3) false true)
          && isA (regv (0x30 + x.2) 1 0 1 2 3) (x.1 0#3 1#4 (r 2) (r 3) true false))
      && (([.vabs, .vneg, .vex2, .vlg2, .vrcp, .vrsq] : List (BitVec 3 → Reg → Src → Instr)).zipIdx.all
        fun x => isA (regv 0x36 x.2 2 1 2 0) (x.1 2#3 1#4 (r 2)))
      && (([.vand, .vor, .vxor, .vshl, .vshr] : List (BitVec 3 → Reg → Src → Src → Instr)).zipIdx.all
        fun x => isA (regv 0x37 x.2 7 1 2 3) (x.1 7#3 1#4 (r 2) (r 3)))
      && isA (regv 0x38 7 0 1 2 3) (.vcmp 7#3 0#3 1#4 (r 2) (r 3)) && isA (regv 0x39 0 6 1 2 3) (.vsel 6#3 1#4 (r 2) (r 3))
      && isA (regv 0x3A 0 6 1 2 3) (.vshuf 6#3 1#4 (r 2) (r 3)) && isA (regv 0x3B 0 6 1 2 0) (.vbcast 6#3 1#4 (r 2))
      && isA (regv 0x3C 0 6 1 2 3) (.vins 6#3 1#4 (r 2) (r 3)) && isA (regv 0x3D 0 6 1 2 3) (.vext 6#3 1#4 (r 2) (r 3))
      && isA (regv 0x3E 0 6 1 0 0) (.viota 6#3 1#4)
      && (([.vredAdd, .vredMin, .vredMax, .vredAnd, .vredOr, .vredXor] : List (BitVec 3 → Reg → Src → Instr)).zipIdx.all
        fun x => isA (regv 0x3F x.2 4 1 2 0) (x.1 4#3 1#4 (r 2)))
      && (([.vscanAdd, .vscanMin, .vscanMax] : List (BitVec 3 → Reg → Src → Instr)).zipIdx.all
        fun x => isA (regv 0x40 x.2 4 1 2 0) (x.1 4#3 1#4 (r 2)))
      && isA (regv 0x41 3 6 1 2 0) (.vcvt 6#3 3#3 1#4 (r 2)) && isA (regv 0x42 1 0 1 2 3) (.vqnt 0#3 true 1#4 (r 2) (r 3))
      && isA (regv 0x43 1 0 1 2 3) (.vdqnt 0#3 true 1#4 (r 2) 3#4) && isA (regv 0x44 0 7 1 2 3) (.vdot 7#3 1#4 (r 2) (r 3))) = true := by
  decide +kernel
theorem test_decode_engines :
    ((([.tsld, .tsst, .tscpy] : List (Reg → Src → Src → Src → BitVec 32 → Instr)).zipIdx.all
        fun x => isC (engx 0x0F x.2 1 2 3 4) 16 (x.1 1#4 (r 2) (r 3) (r 4) 16#32))
      && isC (engx 0x0F 3 1 2 0 4) 16 (.tszero 1#4 (r 2) (r 4) 16#32)
      && isC (cx 0x10 [(1, 17), (2, 13), (1, 12), (3, 8), (1, 7), (4, 3), (1, 2)]) 5 (.xfer 1#4 ⟨2#4, true⟩ ⟨3#4, true⟩ ⟨4#4, true⟩ 5#32)
      && isC (eng 0x10 1 1 2 3 4) 5 (.xfer2d 1#4 (r 2) (r 3) (r 4) 0#32)
      && isC (eng 0x11 0 1 2 3 0) 0 (.xwait 1#4 (r 2) (r 3)) && isC (eng 0x11 1 1 2 3 0) 0 (.xpoll 1#4 (r 2) (r 3))
      && isC (engx 0x12 0 1 2 3 4) 2 (.gath 1#4 (r 2) (r 3) (r 4) 2#32) && isC (engx 0x13 0 1 2 3 4) 2 (.scat 1#4 (r 2) (r 3) (r 4) 2#32)
      && isC (eng 0x14 0 1 2 3 0) 0 (.greplay 1#4 (r 2) (r 3)) && isC (engx 0x14 1 1 2 3 0) 1 (.gcancel 1#4 (r 2) (r 3) 1#32)
      && isC (engx 0x14 2 1 2 3 0) 3 (.fqpeek 1#4 (r 2) (r 3) 3#32) && isC (engx 0x15 0 1 2 3 4) 65 (.smerge 1#4 (r 2) (r 3) (r 4) 65#32)
      && (([.collAr, .collSr, .collBc] : List (Reg → Src → Src → Src → BitVec 32 → Instr)).zipIdx.all
        fun x => isC (engx 0x16 x.2 1 2 3 4) 256 (x.1 1#4 (r 2) (r 3) (r 4) 256#32))
      && isC (engx 0x17 0 1 2 3 0) 64 (.mma 1#4 (r 2) (r 3) 64#32) && isC (engx 0x18 0 1 2 3 4) 64 (.mmal 1#4 (r 2) (r 3) (r 4) 64#32)
      && isC (engx 0x19 0 1 2 0 0) 1 (.gmm 1#4 (r 2) 1#32) && isC (engx 0x19 1 1 2 3 0) 64 (.bsmma 1#4 (r 2) (r 3) 64#32)
      && isC (engx 0x1A 0 1 0 0 0) 1 (.aczero 1#4 1#32) && isC (engx 0x1A 1 1 2 0 0) 1 (.acld 1#4 (r 2) 1#32)
      && isC (engx 0x1A 2 1 2 0 0) 1 (.acst 1#4 (r 2) 1#32) && isC (engx 0x1B 0 0 2 0 0) 7 (.semv (r 2) 7#32)
      && isC (engx 0x1B 1 1 2 0 0) 7 (.semp 1#4 (r 2) 7#32) && isC (eng 0x1B 2 1 2 0 0) 0 (.semq 1#4 (r 2))
      && isC (eng 0x1C 0 1 2 3 0) 0 (.atts 1#4 (r 2) (r 3)) && isC (engx 0x1D 0 1 2 0 0) 1 (.attm 1#4 (r 2) 1#32)
      && isC (engx 0x1D 1 1 2 3 0) 17 (.attn 1#4 (r 2) (r 3) 17#32) && isC (eng 0x1E 0 1 2 3 0) 0 (.kvnext 1#4 (r 2) (r 3))
      && isC (eng 0x1E 1 1 2 3 0) 0 (.kvfill 1#4 (r 2) (r 3)) && isC (eng 0x1E 2 1 2 3 0) 0 (.kvinv 1#4 (r 2) (r 3))
      && isC (engx 0x1E 3 1 2 0 0) 1 (.kvprobe 1#4 (r 2) 1#32) && isC (engx 0x1F 0 1 2 0 0) 1 (.cbinit 1#4 (r 2) 1#32)
      && isC (engx 0x1F 1 1 2 0 0) 1 (.cbld 1#4 (r 2) 1#32) && isC (engx 0x1F 2 1 2 0 0) 1 (.cbst 1#4 (r 2) 1#32)
      && isC (engx 0x35 0 0 2 0 0) 1 (.plbinv (r 2) 1#32) && isC (eng 0x36 0 1 2 3 0) 0 (.pgmig 1#4 (r 2) (r 3))
      && isC (eng 0x36 1 1 2 0 0) 0 (.pgownGive 1#4 (r 2) 0#32) && isC (engx 0x36 1 1 2 0 0) 1 (.pgownTake 1#4 (r 2) 1#32)) = true := by
  decide +kernel
theorem test_decode_parallel :
    (isC (engx 0x20 0 1 2 3 0) 0x70002 (.send 1#4 (r 2) (r 3) 0x70002#32) && isC (engx 0x20 0 1 2 0 0) 8 (.sendReturned 1#4 (r 2) 8#32)
      && isC (engx 0x21 0 0 2 0 0) 0xFF (.hop (r 2) 0xFF#32) && isC (eng 0x22 0 1 2 3 4) 0 (.spawn 1#4 (r 2) (r 3) (r 4))
      && isC (eng 0x23 0 1 2 0 0) 0 (.launch 1#4 (r 2)) && isC (eng 0x23 1 1 2 0 0) 0 (.launchi 1#4 (r 2))
      && isC (eng 0x23 2 1 2 3 0) 0 (.launchQ 1#4 (r 2) (r 3)) && isC (engx 0x24 0 1 2 3 0) 7 (.mbcfg 1#4 (r 2) (r 3) 7#32)
      && isC (eng 0x25 0 0 2 3 0) 0 (.evcfg (r 2) (r 3)) && isC (eng 0x25 1 1 2 0 0) 0 (.evwait 1#4 (r 2))
      && isC (engx 0x25 2 0 2 3 0) 1 (.evsig (r 2) (r 3) 1#32) && isC (eng 0x25 3 1 2 0 0) 0 (.evpoll 1#4 (r 2))
      && isC (eng 0x26 0 1 2 0 0) 0 (.grank 1#4 (r 2)) && isC (eng 0x26 1 1 2 0 0) 0 (.gsize 1#4 (r 2))
      && isC (eng 0x26 2 1 2 3 0) 0 (.gmap 1#4 (r 2) (r 3)) && isC (eng 0x26 3 1 2 0 0) 0 (.bar 1#4 (r 2))
      && isC (eng 0x27 0 0 2 3 4) 0 (.tenq (r 2) (r 3) (r 4)) && isC (engx 0x28 0 0 0 0 0) 1 (.tend 1#32)
      && isC (engx 0x28 1 1 0 0 0) 1 (.tself 1#4 1#32) && isC (eng 0x29 0 1 2 0 0) 0 (.tkreq 1#4 (r 2))
      && isC (eng 0x29 1 1 2 0 0) 0 (.tklend 1#4 (r 2)) && isC (eng 0x29 2 1 0 0 0) 0 (.tkqry 1#4)) = true := by decide +kernel
theorem test_decode_atelier :
    (isC (engx 0x34 0 1 2 3 4) 0x54 (.resume 1#4 (r 2) (r 3) 4#4 0x54#32) && isC (engx 0x34 1 1 2 0 0) 1 (.kill 1#4 (r 2) 1#32)
      && isC (engx 0x34 2 1 2 0 0) 1 (.mbxrd 1#4 (r 2) 1#32) && isC (engx 0x34 3 1 2 0 0) 3 (.mbxack 1#4 (r 2) 3#32)
      && isC (eng 0x34 4 1 2 3 0) 0 (.mapset 1#4 (r 2) (r 3)) && isC (eng 0x34 5 1 2 3 0) 0 (.routesetSite 1#4 (r 2) (r 3))
      && (([.partctlCreate, .partctlResize, .partctlDestroy, .partctlFloor, .partctlQcreate, .partctlQdelete, .partctlSetreg,
            .partctlFreeze, .partctlRelease, .partctlReset, .partctlSavearea] : List (Reg → Src → Src → Reg → BitVec 32 → Instr)).zipIdx.all
        fun x => isC (engx 0x34 6 1 2 3 4) (BitVec.ofNat 32 x.2) (x.1 1#4 (r 2) (r 3) 4#4 (BitVec.ofNat 32 x.2)))
      && isC (eng 0x34 7 1 2 3 0) 0 (.toksetCap 1#4 (r 2) (r 3) 0#32) && isC (engx 0x34 7 1 2 3 0) 1 (.toksetClear 1#4 (r 2) (r 3) 1#32)
      && isC (engx 0x33 0 0 0 0 0) 1 (.rft 1#32) && isC (cw 0x3F [(0x1FFFFF, 0)]) 0 (.diagnostic 0x1FFFFF#25)) = true := by decide +kernel
/-- ROUTESET's second row is the same word; g[A][31] makes it the port form at issue (R412). -/
theorem test_routeset_port : (chief [(2, 0x80000000#64)]).routesetForm (.routesetSite 1#4 (r 2) (r 3)) = .routesetPort 1#4 (r 2) (r 3) := by
  decide +kernel
/-- Words that the spec's examples write out beside their assembly. -/
theorem test_spec_words :
    (isA 0x4008A610#32 (.fadd 1#2 4#4 (r 5) (r 6)) && isC 0x16064A02#32 0 (.ldvb 3#4 (r 2) 2#2 ⟨2#8, none⟩)
      && isC 0x0A000003#32 0 .hend && isC 0x1C000980#32 0 (.fence 4#3 3#2) && isC 0xA00C6838#32 0x50 (.xfer 6#4 (r 3) (r 8) (r 7) 0x50#32)
      && isC 0x9E100430#32 0x10 (.tsld 8#4 (r 0) (r 4) (r 6) 0x10#32) && isC 0xBE104000#32 1 (.cbinit 8#4 (r 2) 1#32)
      && isC 0xBA126701#32 0x11 (.attn 9#4 (r 3) (r 7) 0x11#32) && isC 0xAA112A58#32 0x00200041 (.smerge 8#4 (r 9) (r 10) (r 11) 0x00200041#32)
      && isC 0x4AC00D00#32 0 (.evcfg (r 0) (r 13)) && guardOf 0x4AC00D00#32 == (3#3, false)
      && isC 0x140F8449#32 0 (.stx 7#4 (r 12) (r 4) 2#2 true) && isC 0xAC12C401#32 0x4012 (.collSr 9#4 (r 6) (r 4) (r 0) 0x4012#32)
      && isC 0xC01BC000#32 8 (.sendReturned 13#4 (r 14) 8#32) && isC 0x08040000#32 0 (.dbnz 2#4 ⟨0#17, none⟩)
      && isA 0x20088003#32 (.addi 4#4 (r 4) 3#12) && isC 0xE8706003#32 1 (.mbxack 8#4 (r 3) 1#32)
      && guardOf 0xE8706003#32 == (1#3, true)) = true := by decide +kernel

/-! ## Ill-formed terms, one for each check, and the words that the decoder refuses for them -/

theorem test_ill_formed_terms :
    ([ .ld 1#4 (r 2) 3#2 true ⟨0#9, none⟩, .ldx 1#4 (r 2) (r 3) 3#2 true false, .dbnz 0#4 ⟨0#17, none⟩, .cmp 10#4 1#3 (r 2) (r 3),
       .cmpi 15#4 1#3 (r 2) 0#12, .fcvt 14#4 0#4 1#4 (r 2), .fcvt 0#4 15#4 1#4 (r 2), .fmtset 6#4 (r 2) 0#12,
       .vadd 0#3 1#4 (r 2) (r 3) false true, .vsub 3#3 1#4 (r 2) (r 3) false true, .vmul 1#3 1#4 (r 2) (r 3) false true,
       .vfma 2#3 1#4 (r 2) (r 3) false true, .vmin 0#3 1#4 (r 2) (r 3) false true, .vmax 0#3 1#4 (r 2) (r 3) false true,
       .vex2 4#3 1#4 (r 2), .vlg2 7#3 1#4 (r 2), .vrcp 5#3 1#4 (r 2), .vrsq 6#3 1#4 (r 2), .vand 3#3 1#4 (r 2) (r 3),
       .vor 0#3 1#4 (r 2) (r 3), .vxor 1#3 1#4 (r 2) (r 3), .vshl 2#3 1#4 (r 2) (r 3), .vshr 3#3 1#4 (r 2) (r 3),
       .vcmp 6#3 4#3 1#4 (r 2) (r 3), .viota 3#3 1#4, .vredAnd 0#3 1#4 (r 2), .vredOr 1#3 1#4 (r 2), .vredXor 2#3 1#4 (r 2),
       .vqnt 3#3 false 1#4 (r 2) (r 3), .vqnt 1#3 false 1#4 (r 2) (r 3), .vdqnt 3#3 false 1#4 (r 2) 0#4, .vdqnt 0#3 false 1#4 (r 2) 1#4,
       .vdqnt 1#3 false 1#4 (r 2) 3#4, .vdot 4#3 1#4 (r 2) (r 3), .lda 1#4 (r 2) 0#2 5#3 ⟨0#6, none⟩, .stl 1#4 (r 2) 0#2 7#3 ⟨0#6, none⟩,
       .fence 6#3 0#2, .pref (r 2) 1#3 0#2, .pref (r 2) 0#3 2#2, .flush (r 2) 5#3, .inv (r 2) 5#3, .pgownGive 1#4 (r 2) 1#32,
       .pgownTake 1#4 (r 2) 0#32, .plbinv (r 2) 2#32, .send 1#4 (r 2) (r 3) 8#32, .sendReturned 1#4 (r 2) 0#32, .evsig (r 2) (r 3) 0#32,
       .partctlCreate 1#4 (r 2) (r 3) 4#4 1#32, .partctlResize 1#4 (r 2) (r 3) 4#4 0#32, .partctlDestroy 1#4 (r 2) (r 3) 4#4 1#32,
       .partctlFloor 1#4 (r 2) (r 3) 4#4 2#32, .partctlQcreate 1#4 (r 2) (r 3) 4#4 3#32, .partctlQdelete 1#4 (r 2) (r 3) 4#4 4#32,
       .partctlSetreg 1#4 (r 2) (r 3) 4#4 5#32, .partctlFreeze 1#4 (r 2) (r 3) 4#4 6#32, .partctlRelease 1#4 (r 2) (r 3) 4#4 7#32,
       .partctlReset 1#4 (r 2) (r 3) 4#4 8#32, .partctlSavearea 1#4 (r 2) (r 3) 4#4 9#32, .toksetCap 1#4 (r 2) (r 3) 1#32,
       .toksetClear 1#4 (r 2) (r 3) 0#32 ] : List Instr).all (fun i => !WellFormed i) = true := by decide +kernel
/-- Reserved opcodes, selectors, fields and codes, each refused by its own name (R74). -/
theorem test_refused_words :
    (match decodeC (cw 0x07 []) 0, decodeC (eng 0x03 3 0 0 0 0) 0, decodeC (cw 0x00 [(1, 0)]) 0, decodeC (cw 0x0C [(5, 6)]) 0,
        decodeA (aw 0x1E []), decodeA (reg 0x01 14 0 0 0), decodeA (reg 0x05 10 0 0 0), decodeA (regv 0x36 2 4 0 0 0) with
     | .error .opcode, .error .selector, .error .reserved, .error .code, .error .opcode, .error .selector, .error .code, .error .code => true
     | _, _, _, _, _, _, _, _ => false) = true := by decide +kernel

/-! ## Single steps; the results are those of the spec's examples, or worked out by hand from its rules -/

/-- Wraps modulo 2^64 (R110). -/
theorem test_add_wraps : gAfter (exec (.add 3#4 (r 1) (r 2)) (user [(1, 0xFFFFFFFFFFFFFFFF#64), (2, 2#64)])) 3 = 1#64 := by decide +kernel
/-- g0 takes no write (R27). -/
theorem test_g0_reads_zero : gAfter (exec (.addi 0#4 (r 1) 5#12) (user [(1, 7#64)])) 0 = 0#64 := by decide +kernel
/-- The shift count is b[5:0] (R110). -/
theorem test_sar_count : gAfter (exec (.sar 3#4 (r 1) (r 2)) (user [(1, 0x8000000000000000#64), (2, 127#64)])) 3 = 0xFFFFFFFFFFFFFFFF#64 := by
  decide +kernel
/-- The division corners (R111). -/
theorem test_div_corners :
    gAfter (exec (.div 3#4 (r 1) (r 0)) (user [(1, 7#64)])) 3 = 0xFFFFFFFFFFFFFFFF#64 ∧
    gAfter (exec (.rem 3#4 (r 1) (r 2)) (user [(1, 0x8000000000000000#64), (2, 0xFFFFFFFFFFFFFFFF#64)])) 3 = 0#64 ∧
    gAfter (exec (.rem 3#4 (r 1) (r 2)) (user [(1, 0xFFFFFFFFFFFFFFF9#64), (2, 2#64)])) 3 = 0xFFFFFFFFFFFFFFFF#64 := by decide +kernel
/-- The example of R112. -/
theorem test_bext_bdep :
    gAfter (exec (.bext 3#4 (r 1) (r 2)) (user [(1, 0xF0F0#64), (2, 0xFF00#64)])) 3 = 0xF0#64 ∧
    gAfter (exec (.bdep 3#4 (r 1) (r 2)) (user [(1, 0x0F#64), (2, 0xF0F0#64)])) 3 = 0xF0#64 := by decide +kernel
/-- The example of 04: MOVL with a literal. -/
theorem test_movl_literal :
    gAfter (exec (.movl 5#4 (r 0) ⟨0x789#12, some 0x00123456#32⟩) user) 5 = 0x123456789#64 := by decide +kernel
/-- CMPI.ltu with −1 is true of every other number (R115). -/
theorem test_cmpi_unsigned : (after (exec (.cmpi 6#4 1#3 (r 1) 0xFFF#12) (user [(1, 5#64)]))).self.regs.readP 1#3 = true := by decide +kernel
/-- The FCVT example of 05. -/
theorem test_fcvt_example :
    gAfter (exec (.fcvt 4#4 0#4 4#4 (r 5)) (user [(5, 0xC06CCCCD#64)])) 4 = 0xFFFFFFFFFFFFFFFC#64 ∧
    (after (exec (.fcvt 4#4 0#4 4#4 (r 5)) (user [(5, 0xC06CCCCD#64)]))).self.regs.stat = 0x10#6 := by decide +kernel
/-- The first line of the FADD example of 05: a tie to even, inexact. -/
theorem test_fadd_bf16_tie :
    gAfter (exec (.fadd 1#2 4#4 (r 5) (r 6)) (user [(5, 0xFFFF3F80#64), (6, 0x3B80#64)])) 4 = 0x3F80#64 ∧
    (after (exec (.fadd 1#2 4#4 (r 5) (r 6)) (user [(5, 0xFFFF3F80#64), (6, 0x3B80#64)]))).self.regs.stat = 0x10#6 := by decide +kernel
/-- EX2 of 3, −1 and −149 (03): exact, no flag. -/
theorem test_ex2_exact :
    gAfter (exec (.ex2 0#2 4#4 (r 5)) (user [(5, 0x40400000#64)])) 4 = 0x41000000#64 ∧
    gAfter (exec (.ex2 0#2 4#4 (r 5)) (user [(5, 0xBF800000#64)])) 4 = 0x3F000000#64 ∧
    gAfter (exec (.ex2 0#2 4#4 (r 5)) (user [(5, 0xC3150000#64)])) 4 = 0x00000001#64 := by decide +kernel
/-- A value wider than its field traps ILLEGAL and FMT stays (R122). -/
theorem test_fmtset_wide :
    (after (exec (.fmtset 3#4 (r 0) 4#12) user)).self.st = .parked ∧ (after (exec (.fmtset 3#4 (r 0) 4#12) user)).self.regs.fmt = 0#14 := by
  decide +kernel
/-- The VSUB and VMUL example of 06, in lane 0. -/
theorem test_vector_saturation :
    (vAfter (exec (.vsub 7#3 3#4 (r 1) (r 2) false false) (withV user [(1, 3#512), (2, 5#512)])) 3).setWidth 8 = 0xFE#8 ∧
    (vAfter (exec (.vsub 7#3 3#4 (r 1) (r 2) false true) (withV user [(1, 3#512), (2, 5#512)])) 3).setWidth 8 = 0x00#8 ∧
    (vAfter (exec (.vmul 6#3 3#4 (r 1) (r 2) false true) (withV user [(1, 100#512), (2, 2#512)])) 3).setWidth 8 = 0x7F#8 := by
  decide +kernel
/-- The VDOT example of 06, in lane 0, without and with FMT.SAT. -/
theorem test_vdot_example :
    (vAfter (exec (.vdot 6#3 3#4 (r 1) (r 2)) (withV user [(1, 0x00016464#512), (2, 0x05016464#512), (3, 0x7FFFFF00#512)])) 3).setWidth 32
      = 0x80004D21#32 := by decide +kernel
/-- The VQNT example of 06. -/
theorem test_vqnt_example :
    let one := (List.range 16).foldl (fun n i => n + 0x3F800000 * 2 ^ (32 * i)) 0
    let x := one - 0x3F800000 * (1 + 2 ^ 32 + 2 ^ 64) + 0x40A00000 + 0xBF333333 * 2 ^ 32 + 0x40200000 * 2 ^ 64
    let t := exec (.vqnt 0#3 true 5#4 (r 3) (r 4)) (withV user [(3, BitVec.ofNat 512 x), (4, BitVec.ofNat 512 one)])
    (vAfter t 5).setWidth 144 = 0x7F22222222222222222222222222222496#144 ∧ (after t).self.regs.stat = 0x18#6 := by decide +kernel
/-- Back by two pairs on (R77, R96). -/
theorem test_branch_back :
    (after (exec (.br ⟨0x1FFFFE#21, none⟩) user)).self.pc = 0x1FFFF0#64 := by decide +kernel
/-- JMPL reads g15 before it writes it (R96). -/
theorem test_jmpl_reads_old_link :
    (after (exec (.jmpl (r 15)) (user [(15, 0x400000#64)]))).self.pc = 0x400000#64 ∧
    gAfter (exec (.jmpl (r 15)) (user [(15, 0x400000#64)])) 15 = 0x200008#64 := by decide +kernel
/-- DBNZ falls through at 0 (R98). -/
theorem test_dbnz_ends : (after (exec (.dbnz 1#4 ⟨0x1FFFF#17, none⟩) (user [(1, 1#64)]))).self.pc = 0x200000#64 := by decide +kernel
/-- TRAP takes BREAK with its code in TINFO, and a KIND 0 record goes to the CC's mailbox slot, 1 (R109, R392, R393). -/
theorem test_trap_parks :
    (after (exec (.trap 0x5A#8) user)).self.st = .parked ∧ (after (exec (.trap 0x5A#8) user)).self.tcause = 0x3F#10 ∧
    (after (exec (.trap 0x5A#8) user)).self.tinfo = 0x5A#64 ∧ ((after (exec (.trap 0x5A#8) user)).zone 0).mbx.map (·.slot) = [1] := by
  decide +kernel
/-- A load empties its register and joins the accesses (R30, R103). -/
theorem test_load_issues :
    let t := after (exec (.ld 4#4 (r 2) 3#2 false ⟨1#9, none⟩) (user [(2, 0x200000#64)]))
    t.self.regs.fullG 4#4 = false ∧ t.accesses.map (fun a => (a.pa, a.n)) = [(0x200008, 8)] := by decide +kernel
/-- A signed half word that completes (R103). -/
theorem test_load_extends_sign :
    let s := { State.reset.lone with
      mem := [(0x300000, 0xFE#8), (0x300001, 0xFF#8)], zeroed := [0x300],
      accesses := [{ strand := 16, kind := .load true, dest := .g 4#4, pa := 0x300000, n := 2, data := 0 }] }
    ((after (exec .accessCompletion s)).strand 16).regs.readG 4#4 = 0xFFFFFFFFFFFFFFFE#64 := by decide +kernel
/-- A misaligned access traps with its address (R105). -/
theorem test_misaligned_store :
    let t := after (exec (.st 1#4 (r 2) 2#2 ⟨0#9, none⟩) (user [(2, 0x200002#64)]))
    t.self.tcause = 0x05#10 ∧ t.self.taddr = 0x200002#64 := by decide +kernel
/-- What the atomic operations write (R295): a wrapping sum, a signed and an unsigned minimum, a CAS that fails. -/
theorem test_amo_results :
    amoResult 0 32 0xFFFFFFFF 2 0 = some 1 ∧ amoResult 4 32 0xFFFFFFFF 1 0 = some 0xFFFFFFFF ∧ amoResult 6 32 0xFFFFFFFF 1 0 = some 1 ∧
    amoResult 9 64 5 7 6 = none ∧ amoResult 9 64 5 7 5 = some 7 := by decide +kernel
/-- SPAWN into the lowest free slot, with g14 = SWIN (R226). -/
theorem test_spawn :
    let t := after (exec (.spawn 4#4 (r 2) (r 3) (r 0)) (user [(2, 0x200040#64), (3, 9#64)]))
    gAfter (.next t) 4 = 1#64 ∧ (t.strand 17).pc = 0x200040#64 ∧ (t.strand 17).regs.readG 14#4 = 0x01FE000000000000#64 := by decide +kernel
/-- An event wait on a line that EVCFG has not configured answers 2 with p7 = 0 (R232). -/
theorem test_evwait_unconfigured :
    gAfter (exec (.evwait 4#4 (r 0)) user) 4 = 2#64 ∧ (after (exec (.evwait 4#4 (r 0)) user)).self.regs.readP 7#3 = false := by decide +kernel
/-- SEMP takes what the semaphore holds (R337). -/
theorem test_semp :
    let s := user []
    let t := exec (.semp 4#4 (r 2) 2#32) (s.setTile 0 { s.tile 0 with sems := (s.tile 0).sems.set 0 5 })
    gAfter t 4 = 2#64 ∧ ((after t).tile 0).sems.getD 0 0 = 2 := by decide +kernel
/-- TKREQ asks for 1,023 tokens at most (R238). -/
theorem test_tkreq_clamps : gAfter (exec (.tkreq 4#4 (r 2)) (user [(2, 5000#64)])) 4 = 1023#64 := by decide +kernel
/-- XFER of no bytes is complete at once under the channel's first identifier, 0 (R317, R321). -/
theorem test_xfer_empty :
    let t := exec (.xfer 4#4 (r 2) (r 3) (r 0) 0#32) (user [(2, 0x200000#64), (3, 0x200040#64)])
    gAfter t 4 = 0#64 ∧ (after t).ops = [] ∧ ((after t).core 1).cdone.getD 0 0#32 = 1#32 := by decide +kernel
/-- An identifier never issued: STS 7 and p7 = 0 (13). -/
theorem test_xpoll_never :
    gAfter (exec (.xpoll 9#4 (r 0) (r 6)) (user [(6, 5#64)])) 9 = 0xE000000000000000#64 ∧
    (after (exec (.xpoll 9#4 (r 0) (r 6)) (user [(6, 5#64)]))).self.regs.readP 7#3 = false := by decide +kernel
/-- MAPSET in the example of 19, in a zone with no dead site: logical column 5 moves to physical column 11. -/
theorem test_mapset_example :
    let s := granted (chief [(2, 0#64), (3, 0x00000A9876B43210#64)]) 0#512
    let z := s.zone 0
    let s := s.setZone 0 { z with zdef := ⟨(List.range 12).map fun q => (q, 0#12)⟩ }
    let t := exec (.mapset 6#4 (r 2) (r 3)) { s with launches := ⟨[]⟩ }
    gAfter t 6 = 0#64 ∧ (after t).site? 0 0 5 = some 11 := by decide +kernel
/-- RFT goes on after the pair that trapped (R415). -/
theorem test_rft_next :
    let s := chief []
    ((after (exec (.rft 1#32) (s.setCore 18432 { s.core 18432 with intrap := true, atepc := 0x100#64 }))).self.pc,
      ((after (exec (.rft 1#32) (s.setCore 18432 { s.core 18432 with intrap := true, atepc := 0x100#64 }))).core 18432).intrap)
      = (0x108#64, false) := by decide +kernel
/-- An atelier instruction in user mode (R83). -/
theorem test_kill_is_privileged : (after (exec (.kill 1#4 (r 2) 0#32) user)).self.tcause = 0x02#10 := by decide +kernel
/-- PCAP is held at 9.0 kW from below (R212, R462). -/
theorem test_pcap_clamps :
    (after (exec .pcapWrite
      { State.reset.setModule { State.reset.module with pcieUp := [0] } with input := { value := 1000#64 } })).module.pcap = 180000 := by decide +kernel
/-- The check value of CRC-64/XZ (R451). -/
theorem test_crc : crc64 [0x31#8, 0x32#8, 0x33#8, 0x34#8, 0x35#8, 0x36#8, 0x37#8, 0x38#8, 0x39#8] = 0x995DC9BBDF1939FA#64 := by decide +kernel
/-- Both slots name g3 (R36): PAIR_CONFLICT, whatever the guards. -/
theorem test_pair_conflict :
    examine false {} 0x10065A03#32 0x20E66FFF#32 = .traps true { cause := 0x03#6, info := 3#64 } := by decide +kernel
/-- The padding pair of all one bits is PRIV in user mode (R84). -/
theorem test_erased_memory : examine false {} 0xFFFFFFFF#32 0xFFFFFFFF#32 = .traps false { cause := 0x02#6 } := by decide +kernel
/-- A step fetches and runs the pair placed at the pc: NOPC || ADDI g3, g0, −1. -/
theorem test_step_runs_the_pair :
    let t := after (step (State.reset.withFetchWord 64 0x20060FFF00000000))
    (t.strand 16).regs.readG 3#4 = 0xFFFFFFFFFFFFFFFF#64 ∧ (t.strand 16).pc = 0x200008#64 := by decide +kernel
/-- An empty source with T = 1 (R33). -/
theorem test_empty_operand :
    examine false { gf := 0xFFFD#16 } 0#32 (aw 0x10 [(3, 17), (1, 13), (1, 12)]) = .traps true { cause := 0x04#6, info := 1#64 } := by
  decide +kernel

/-! ## For each statement, states and operands that meet its hypotheses -/

/-- What `check` lets through. -/
def through (c : Checked) : Option (Nat × Option (Nat × Nat)) :=
  match c with
  | .ok pa cached _ => some (pa, cached)
  | _ => none
def corner : State := user [(1, 0x8000000000000000#64), (2, 0xFFFFFFFFFFFFFFFF#64)]

theorem witness_MultiplyDivide :
    corner.g (r 0) = 0#64 ∧ (corner.g (r 1) = 0x8000000000000000#64 ∧ corner.g (r 2) = BitVec.allOnes 64) ∧
    (corner.g (r 1) ≠ 0#64 ∧ ¬(corner.g (r 2) = 0x8000000000000000#64 ∧ corner.g (r 1) = BitVec.allOnes 64)) := by decide +kernel
/-- CLZ and CTZ of zero and of −2^63, set and clear bits of a mask at both ends, and the last condition code. -/
theorem witness_BitCompareSelect :
    corner.g (r 0) = 0#64 ∧ corner.g (r 1) ≠ 0#64 ∧ (corner.g (r 1)).getLsbD 63 = true ∧
    ((List.range 64).filter fun j => (corner.g (r 1)).getLsbD j).length ≤ 1 ∧
    ((List.range 64).filter fun j => (corner.g (r 0)).getLsbD j).length ≤ 0 ∧ (9#4 : BitVec 4).toNat ≤ 9 := by decide +kernel
/-- The fields of FMT, each with the greatest value that fits and the least that does not. -/
def fmtFields : List (BitVec 4 × Nat × Nat) :=
  [(0#4, 0, 4), (1#4, 4, 4), (2#4, 8, 2), (3#4, 10, 2), (4#4, 12, 1), (5#4, 13, 1), (15#4, 0, 14)]
theorem witness_FormatInstructions :
    fmtFields.all (fun x =>
      decide (((user [(1, BitVec.ofNat 64 (2 ^ x.2.2))]).g (r 1) + (0xFFF#12 : BitVec 12).signExtend 64).toNat < 2 ^ x.2.2)) = true := by
  decide +kernel
theorem witness_OperandsThatTrap_values :
    fmtFields.all (fun x => decide (2 ^ x.2.2 ≤ ((user [(1, BitVec.ofNat 64 (2 ^ x.2.2))]).g (r 1) + (0#12 : BitVec 12).signExtend 64).toNat))
      = true := by decide +kernel
/-- Targets beyond the address space, misaligned ones, and 2^57 itself. -/
theorem witness_OperandsThatTrap_targets :
    let s := user [(1, 0x0200000000000000#64), (2, 4#64), (15, 0x0200000000000000#64)]
    let q := user [(15, 1#64)]
    2 ^ 57 ≤ (branchTarget s.before.pc (⟨0x100000#21, none⟩ : Ext 21)).toNat ∧
    2 ^ 57 ≤ (branchTarget s.before.pc (⟨0#17, some 0x80000000#32⟩ : Ext 17)).toNat ∧ s.gr 3#4 ≠ 1#64 ∧
    (s.g (r 2)).toNat % 8 ≠ 0 ∧ ((s.g (r 1)).toNat % 8 = 0 ∧ 2 ^ 57 ≤ (s.g (r 1)).toNat) ∧
    (q.gr 15#4).toNat % 8 ≠ 0 ∧ ((s.gr 15#4).toNat % 8 = 0 ∧ 2 ^ 57 ≤ (s.gr 15#4).toNat) := by decide +kernel
theorem witness_OperandsThatTrap_registers :
    let s := user [(1, 0x4000#64), (2, 0x40#64), (3, 1#64)]
    s.inAtelier = false ∧ chief.inAtelier = true ∧ 0x100 ≤ (0x100#10 : BitVec 10).toNat ∧ 2 ^ 14 ≤ (s.gr 1#4).toNat ∧
    2 ^ 6 ≤ (s.gr 2#4).toNat ∧ (s.gr 3#4).toNat % 64 ≠ 0 := by decide +kernel
theorem witness_NopsDoNothing :
    (0x81000000#32 : BitVec 32).extractLsb' 25 6 = 0#6 ∧ (0x01E00000#32 : BitVec 32).extractLsb' 25 7 = 0#7 := by decide +kernel
theorem witness_FloatingPointComplete :
    (3#2, fp64) ∈ [(0#2, fp32), (1#2, bf16), (2#2, fp16), (3#2, fp64)] ∧ (13#4 : BitVec 4).toNat ≤ 13 := by decide +kernel
/-- Largest and least finite numbers, at the widest and the narrowest format. -/
theorem witness_FloatingPointLaws :
    (Fp.ofBits fp64 1).isNaN = false ∧ fp4e2m1 ∈ [fp64, fp32, fp16, bf16, fp8e4m3, fp8e5m2, fp4e2m1] ∧ 0xF < 2 ^ fp4e2m1.width ∧
    Fp.ofBits fp4e2m1 0xF = .fin true 3 1 ∧ Fp.ofBits fp64 1 = .fin false 1 (-1074) := by decide +kernel
theorem witness_VectorArithmeticMovement :
    etInt 0#3 = false ∧ etInt 7#3 = true ∧ (5#3 : BitVec 3).toNat ≤ 5 ∧
    (List.replicate 8 (2 ^ 64 - 1)).length = 512 / 64 ∧ (∀ x ∈ List.replicate 8 (2 ^ 64 - 1), x < 2 ^ 64) := by decide +kernel
theorem witness_VectorReductionsConversions :
    etInt 5#3 = true ∧ (2#3, fp16) ∈ [(0#3, fp32), (1#3, bf16), (2#3, fp16)] ∧ (2#3 : BitVec 3) ≠ 0#3 ∧ (0#4 : Reg) ≠ 15#4 ∧
    5 ≤ (5#3 : BitVec 3).toNat := by decide +kernel
/-- Targets just inside the address space, and a count that ends. -/
theorem witness_Branches :
    let s := user [(1, 0x01FFFFFFFFFFFFF8#64), (15, 0#64), (2, 1#64)]
    (branchTarget s.before.pc (⟨0x1C0000#21, none⟩ : Ext 21)).toNat = 0 ∧
    ((s.g (r 1)).toNat < 2 ^ 57 ∧ (s.g (r 1)).toNat % 8 = 0) ∧ ((s.gr 15#4).toNat < 2 ^ 57 ∧ (s.gr 15#4).toNat % 8 = 0) ∧
    s.gr 2#4 = 1#64 ∧ s.gr 3#4 ≠ 1#64 ∧ (branchTarget s.before.pc (⟨0x1FFFF#17, none⟩ : Ext 17)).toNat < 2 ^ 57 := by decide +kernel
theorem witness_EndYieldPause :
    let s := user [(1, 1#64)]
    let t := (s.setStrand 17 { s.strand 17 with st := .waiting (.pause 0) })
    let u := { t with input := { strand := 17 } }
    PlainStrand s ∧ s.drained s.cur.strand = true ∧ s.g (r 0) = 0#64 ∧ s.g (r 1) ≠ 0#64 ∧
    (u.strand u.input.strand).st = .waiting (.pause 0) ∧ 0 ≤ u.time := by
  unfold PlainStrand; decide +kernel
/-- A strand of a launch, and one in atelier mode. -/
theorem witness_MfsReadsSpecialRegistersEach :
    (user.selfLaunch).isSome = true ∧ chief.inAtelier = true ∧ (15#4 : Reg) ≠ 0#4 ∧
    (0x071#10, user.before.msgid.setWidth 64) ∈ [(0x0FF#10, (0#64 : Word)), (0x071#10, user.before.msgid.setWidth 64)] := by decide +kernel
theorem witness_MtsWritesSpecialRegisters :
    let s := chief [(1, 0x3FFF#64), (2, 0x3F#64), (3, 0xFFFFFFFFFFFFFFC0#64), (4, 0x000FFFFFFFFFFFF8#64)]
    (s.gr 1#4).toNat < 2 ^ 14 ∧ (s.gr 2#4).toNat < 2 ^ 6 ∧ (s.gr 3#4).toNat % 64 = 0 ∧ s.inAtelier = true ∧
    (s.gr 4#4).toNat < 2 ^ 52 ∧ (s.gr 4#4).toNat % 8 = 0 := by decide +kernel
/-- The last eight bytes of a frame, a byte before and a byte after them, and one granule. -/
theorem witness_PhysicalWritesReadBack :
    (0 < 8 ∧ 0x200FF8 / 4096 = (0x200FF8 + 8 - 1) / 4096) ∧ (0x200FF7 < 0x200FF8) ∧ 0x200FF8 + 8 ≤ 0x201000 ∧
    (0x200FC0 % 64 = 0 ∧ 0x200FC0 / 4096 = (0x200FC0 + 64 - 1) / 4096) ∧ (user.setPoison 0x200000).poisoned 0x20003F = true := by
  decide +kernel
/-- The checks of every shape of load and store pass, in the last bytes of the mapped GiB. -/
theorem witness_LoadsAndStores :
    let s := user [(1, 0x3FFFFFC0#64), (2, 0x38#64), (3, 7#64)]
    s.before.task = none ∧
    passes (s.check .load (s.g (r 1) + offsetOf (⟨7#9, none⟩ : Ext 9) 8) 8) = true ∧
    passes (s.check .load (s.g (r 1) + s.g (r 2)) 8) = true ∧ passes (s.check .load (s.g (r 1) + s.g (r 3) <<< 3) 8) = true ∧
    passes (s.check .load (s.g (r 1) + offsetOf (⟨0#8, none⟩ : Ext 8) 64) 64) = true ∧
    passes (s.check .load (s.g (r 1) + offsetOf (⟨63#8, none⟩ : Ext 8) 1) 1) = true ∧
    passes (s.check .store (s.g (r 1) + offsetOf (⟨7#9, none⟩ : Ext 9) 8) 8) = true ∧
    passes (s.check .store (s.g (r 1) + s.g (r 3) <<< 3) 8) = true ∧
    passes (s.check .store (s.g (r 1) + offsetOf (⟨0#8, none⟩ : Ext 8) 64) 64) = true := by decide +kernel

def withAccess (s : State) (a : Access) : State := { s with accesses := [a] }
def acc1 (kind : AccessKind) (dest : Dest) (n : Nat) : Access := { strand := 16, kind := kind, dest := dest, pa := 0x200000, n := n, data := 5 }
def completes (s : State) (a : Access) : Bool :=
  s.accesses[s.input.index]? == some a && !(s.accesses.take s.input.index).any (fun b => b.orders a) && !paIsSystem a.pa
/-- An access of each kind that can complete. -/
theorem witness_AccessCompletion :
    completes (withAccess user (acc1 (.load true) (.g 15#4) 1)) (acc1 (.load true) (.g 15#4) 1) = true ∧
    completes (withAccess user (acc1 (.load false) (.v 0#4) 64)) (acc1 (.load false) (.v 0#4) 64) = true ∧
    completes (withAccess user (acc1 .bcast (.v 0#4) 8)) (acc1 .bcast (.v 0#4) 8) = true ∧
    completes (withAccess user (acc1 .value (.g 1#4) 0)) (acc1 .value (.g 1#4) 0) = true ∧
    completes (withAccess user (acc1 .store .none 64)) (acc1 .store .none 64) = true ∧
    user.poisonedIn 0x200000 64 = false ∧ 0x200000 / 4096 = (0x200000 + 64 - 1) / 4096 := by decide +kernel
/-- A strand that waits. -/
def waits (w : Wait) (x : Input) : State :=
  let s := user
  { s.setStrand 17 { s.strand 16 with st := .waiting w } with input := { x with strand := 17 } }
theorem witness_Answers :
    ((waits .answer {}).strand 17).st = .waiting .answer ∧ ((waits (.remote 0 64#64) {}).strand 17).st = .waiting (.remote 0 64#64) ∧
    (waits (.remote 0 64#64) { flag := true }).input.flag = true ∧ coreIsAtelier (strandCore 17) = false ∧
    ((waits (.remote 0 64#64) {}).strand 17).inHandler = false ∧ ((waits (.remote 0 64#64) {}).strand 17).inTask = false ∧
    ((waits (.remote 0 64#64) {}).strand 17).inShadow = false ∧ ((waits (.remote 0 64#64) {}).strand 17).task = none := by decide +kernel

def resolves (s : State) (w : Who) (acc : Acc) (va : Word) : Option Nat :=
  match s.resolve w acc va with
  | .ok (.phys pa _, _) => some pa
  | _ => none
def resolveFails (s : State) (w : Who) (acc : Acc) (va : Word) : Option (BitVec 6) :=
  match s.resolve w acc va with
  | .error t => some t.cause
  | _ => none
def poisonFound (s : State) (w : Who) (acc : Acc) (va : Word) (n : Nat) : Bool :=
  match s.resolve w acc va with
  | .ok (.phys pa _, t) => !paIsSystem pa && !paIsHost pa && t.poisonedIn pa n
  | _ => false
/-- The lone strand's GiB mapped to system space, and to nothing. -/
def toSystem : State := user.writePa 0x103000 8 (2 ^ 63 + 0x80 + 1 + 2 ^ 50)
def unmapped : State := user.writePa 0x103000 8 0
theorem witness_AccessChecks :
    (0x200001#64 : Word).toNat % 2 ≠ 0 ∧ resolveFails user user.who .store 0x40000000#64 = some 0x08#6 ∧
    resolveFails unmapped unmapped.who .load 0#64 = some 0x09#6 ∧
    (resolves toSystem toSystem.who .load 0x13FFFFF8#64 = some 0x0004000013FFFFF8 ∧ paIsSystem 0x0004000013FFFFF8 = true ∧
      coreIsAtelier toSystem.who.core = false ∧ 0x0004000013FFFFF8 % 2 ^ 48 < 0x14000000) ∧
    (resolves chief chief.who .store 0x0004000000000040#64 = some 0x0004000000000040 ∧ coreIsAtelier chief.who.core = true ∧ 8 < 64) ∧
    poisonFound (user.setPoison 0x200000) user.who .load 0x20003F#64 1 = true ∧
    ((waits (.translation false { cause := 0x09#6 }) {}).strand 17).st = .waiting (.translation false { cause := 0x09#6 }) := by
  decide +kernel

/-- Word and doubleword atomics pass their checks; the signed order is that of the operation's width. -/
theorem witness_Atomics :
    let s := user [(1, 0x3FFFFFF8#64), (2, 0xFFFFFFFF#64)]
    s.before.task = none ∧ passes ((s.drainCore s.selfCore).check .amo (s.g (r 1)) 8) = true ∧
    passes ((s.drainCore s.selfCore).check .amo (s.g (r 1)) 4) = true ∧
    signed 64 0 ≤ signed 64 ((s.g (r 2)).toNat % 2 ^ 64) ∧ ¬(signed 32 0 ≤ signed 32 ((s.g (r 2)).toNat % 2 ^ 32)) ∧
    0 = (s.gr 3#4).toNat % 2 ^ 64 ∧ 0 ≠ (s.gr 2#4).toNat % 2 ^ 32 := by decide +kernel
def trapsOrDefers (c : Checked) : Bool :=
  match c with
  | .trap _ => true
  | .defer _ => true
  | _ => false
def mayDo (s : State) (acc : Acc) (va : Word) : Bool :=
  match s.protect s.who acc va with
  | .ok _ => true
  | _ => false
theorem witness_OrderedAccessesFencesCache :
    let s := user [(1, 0x3FFFFFF8#64), (2, 0x40000000#64), (3, 0x01FFFFFFFFFFFFFF#64)]
    let c := chief [(1, 0x000FFFFFFFFFFFFF#64)]
    s.before.task = none ∧
    passes ((s.drainCore s.selfCore).check .load (s.g (r 1) + offsetOf (⟨0#6, none⟩ : Ext 6) 8) 8) = true ∧
    passes ((s.drainCore s.selfCore).check .store (s.g (r 1) + offsetOf (⟨0x3F#6, none⟩ : Ext 6) 4) 4) = true ∧
    paIsSystem 0x3FFFFFF8 = false ∧ outsideCaches (s.g (r 1)) = false ∧
    ((through (s.check .load (s.g (r 1)) 1)).bind (·.2)).isSome = true ∧ trapsOrDefers (s.check .load (s.g (r 2)) 1) = true ∧
    (s.inAtelier = false ∧ (s.g (r 1)).toNat < 2 ^ 57 ∧ mayDo s .load (s.g (r 1)) = true) ∧ (4#3 : BitVec 3) ≠ 0#3 ∧
    (c.inAtelier = true ∧ (c.g (r 1)).toNat < 2 ^ 52) ∧ ((s.g (r 3)).toNat < 2 ^ 57 ∧ outsideCaches (s.g (r 3)) = true) := by
  decide +kernel

/-- The lone partition with a KV space. -/
def withKv (s : State) : State := { s with parts := s.parts.set 0 { s.part 0 with kvroot := 1#64 } }
/-- The strand that issues runs a shadow handler. -/
def inShadow (s : State) : State :=
  let x := { s.before with birth := .shadow, grant := some { value := 0#512 } }
  let s := (s.setCur { s.cur with before := x }).setStrand s.cur.strand x
  s.setTile 0 { s.tile 0 with shadow := some { coord := 0#64, desc := 0#512, tenant := 0, part := 0, core := 1, walker := 0 } }
def readsBack (b : ReadBack) : Option (Option Grant) :=
  match b with
  | .data _ s => some s.before.grant
  | _ => none
theorem witness_KvInstructions :
    let s := granted (user [(1, 0#64)]) 0#512
    let k := withKv s
    let h := withKv (inShadow (user [(2, 0x200010#64)]))
    s.before.grant = some { value := 0#512 } ∧ PlainStrand s ∧ PlainStrand k ∧
    (s.useGrant.kvWalk s.useGrant.who (s.g (r 1)) fun _ => false).1.wait = false ∧
    bitAt (((s.drainCore s.selfCore).useGrant).part 0).kvroot.toNat 0 = false ∧
    bitAt (((k.drainCore k.selfCore).useGrant).part (((k.drainCore k.selfCore).useGrant).selfPart)).kvroot.toNat 0 = true ∧
    (((k.drainCore k.selfCore).useGrant).attentionTiles 0).any (fun t => (((k.drainCore k.selfCore).useGrant).tile t).shadow.isSome) = false ∧
    k.g (r 0) = 0#64 ∧ h.before.inShadow = true ∧ (h.g (r 2)).toNat % 16 = 0 ∧ (h.tile h.selfSite).shadow.isSome = true ∧
    bitAt (h.part 0).kvroot.toNat 0 = true ∧
    readsBack ((h.drainCore h.selfCore).readBack (h.g (r 2)) 8 2) = some (some { value := 0#512 }) := by
  unfold PlainStrand; decide +kernel

/-- Bad, placed and foreign targets; busy pages; leaves with OWN and PIN set and clear. -/
def leafBits (s : State) (va : Word) : Option (Bool × Bool) :=
  match s.walk va with
  | .leaf l => some (l.own, l.pin)
  | _ => none
def leafEntry (n : Nat) : State := granted (user.writePa 0x103000 8 (n + 0x80 + 1)) 0#512
theorem witness_Pages :
    let s := granted (user [(1, 0x3FFFF000#64)]) 0#512
    let u := s.useGrant
    let busy := (s.setModule { s.module with shBusy := true, shva := 0x3FFFF000, shcnt := 1 }).useGrant
    PlainStrand s ∧ (s.g (r 1)).toNat < 2 ^ 57 ∧ ¬(0x1FE ≤ windowOf (s.g (r 1)) ∨ (0x100 ≤ windowOf (s.g (r 1)) ∧ windowOf (s.g (r 1)) < 0x180)) ∧
    mayDo s .store (s.g (r 1)) = true ∧ u.badTarget u.selfTenant 0 = true ∧ u.badTarget u.selfTenant (2 ^ 61) = false ∧
    u.badTarget u.selfTenant (2 ^ 63) = false ∧ bitAt (2 ^ 61) 63 = false ∧ bitAt (2 ^ 63) 63 = true ∧
    u.pageBusy (s.g (r 1)) = false ∧ busy.pageBusy (s.g (r 1)) = true ∧
    leafBits (leafEntry (2 ^ 63)).useGrant 0#64 = some (true, false) ∧ leafBits (leafEntry (2 ^ 63 + 2 ^ 62)).useGrant 0#64 = some (true, true) ∧
    leafBits (leafEntry 0).useGrant 0#64 = some (false, false) := by
  unfold PlainStrand; decide +kernel
def movable (s : State) (f : Nat) (va : Word) : Bool :=
  match s.walk va with
  | .leaf l => (f * 4096) % l.size == 0 && l.size % 4096 == 0 && 0 < l.size && !badFrame (f * 4096)
      && !badFrame (f * 4096 + l.size - 1) && !paIsSystem (f * 4096) && f * 4096 != l.pa
  | _ => false
theorem witness_Migration :
    let s := user
    PlainStrand s ∧ s.input.frame = none ∧ s.input.wide = BitVec.ofNat 512 0 ∧ movable s 0x40000 0#64 = true ∧
    s.selfCore ∈ s.tenantCores s.selfTenant := by
  unfold PlainStrand; decide +kernel

/-- The lone strand's tile with line 0 as given. -/
def lined (l : Line) (g : List (Nat × Word) := []) : State := (user g).setLine 0 0 l
/-- The lone launch with more of it. -/
def relaunched (f : Launch → Launch) (s : State) : State := s.mapLaunch 1 f
def group0 : Group := { index := 5, members := [0#22], tree := [{ tile := 0, cores := 1 }] }
def grouped (g : List (Nat × Word) := []) : State := relaunched (fun l => { l with groups := [group0] }) (user g)
/-- Configuration words that R160 takes and refuses, with and without a group. -/
theorem witness_EventsConfigure :
    let s := user [(1, 31#64), (2, 0x4000000000000010#64), (3, 0x4000000000000000#64), (4, 0x6000000000000010#64)]
    PlainStrand s ∧ lineOk (s.g (r 3)).toNat = false ∧ (lineOk (s.g (r 2)).toNat = true ∧ (lineOf (s.g (r 2)).toNat).gv = false) ∧
    (lineOk (s.g (r 4)).toNat = true ∧ (lineOf (s.g (r 4)).toNat).gv = true) ∧
    ((relaunched (fun l => { l with groups := [group0] }) s).selfGslot 0).map (·.index) = some 5 ∧
    s.groupLineElsewhere 0 31 5 s.before.launch = false := by
  unfold PlainStrand; decide +kernel
/-- The line that EVWAIT finds once the earlier accesses are done. -/
def waited (l : Line) : Line := ((lined l).drainCore (lined l).selfCore).line 0 0
theorem witness_EventsWait :
    (PlainStrand (lined {}) ∧ (lined {}).before.grant = none) ∧ (waited {}).mode = .off ∧
    ((waited { mode := .mutex }).mode = .mutex ∧ (waited { mode := .mutex }).set = false) ∧
    (waited { mode := .mutex, set := true }).set = true ∧
    ((waited { mode := .flag, set := true }).mode = .flag ∧ (waited { mode := .flag, set := true }).set = true) ∧
    (waited { mode := .flag }).set = false ∧
    ((waited { mode := .barrier, count := 16, arr := 14 }).mode = .barrier ∧ (waited { mode := .barrier, count := 16, arr := 14 }).gv = false ∧
      (waited { mode := .barrier, count := 16, arr := 14 }).arr + 1 < 16) ∧
    (16 ≤ (waited { mode := .barrier, count := 16, arr := 15 }).arr + 1 ∧ 16 ∉ (waited { mode := .barrier, count := 16, arr := 15 }).waiters) := by
  unfold PlainStrand; decide +kernel
def sent (s : State) (g : Signal) : State := { s with signals := [g] }
def aims (s : State) (w : Nat) : Option Nat :=
  match s.selfLaunch with
  | none => none
  | some l =>
    match s.target l w with
    | .here c => some c
    | _ => none
theorem witness_EventSignals :
    let s := sent user { src := 0, site := 0, line := 0 }
    let l1 := (lined { mode := .mutex, set := true }).line 0 0
    let l2 := (lined { mode := .mutex, set := true, waiters := [17] }).line 0 0
    let l3 := (lined { mode := .flag, waiters := [17, 18] }).line 0 0
    let l4 := (lined { mode := .flag, ac := true, waiters := [17] }).line 0 0
    let l5 := (lined { mode := .flag, ac := true }).line 0 0
    let l6 := (lined { mode := .barrier, count := 2 }).line 0 0
    let l7 := (lined { mode := .barrier, count := 2, arr := 1, waiters := [17] }).line 0 0
    (PlainStrand user ∧ (0#32 : BitVec 32).getLsbD 0 = false ∧ (1#32 : BitVec 32).getLsbD 0 = true ∧ aims user 0 = some 1) ∧
    (s.signals[s.input.index]?.isSome = true ∧ s.silent 0 = false ∧ s.deadSite 0 = false) ∧
    (l1.mode = .mutex ∧ l1.waiters = []) ∧ (l2.mode = .mutex ∧ l2.waiters = [17]) ∧ (l3.mode = .flag ∧ l3.ac = false) ∧
    (l4.mode = .flag ∧ l4.ac = true ∧ l4.waiters = [17]) ∧ (l5.ac = true ∧ l5.waiters = []) ∧
    (l6.mode = .barrier ∧ l6.gv = false ∧ l6.arr + 1 < l6.count) ∧ (l7.mode = .barrier ∧ l7.gv = false ∧ l7.count ≤ l7.arr + 1) := by
  unfold PlainStrand; decide +kernel
theorem witness_Groups :
    let s := grouped [(1, 0#64), (2, 1#64)]
    let u := s.drainCore s.selfCore
    PlainStrand s ∧ ((s.selfGslot ((s.g (r 1)).toNat % 4)).bind fun g => s.selfLaunch.bind fun l => g.rank? (s.cidWord l s.selfCore)) = some 0 ∧
    group0.members[(s.g (r 0)).toNat]?.isSome = true ∧ group0.members.length ≤ (s.g (r 2)).toNat ∧ s.before.grant = none ∧
    (granted s 7#512).before.grant = some { value := 7#512 } ∧ u.selfLaunch = s.selfLaunch ∧ group0.node? (u.treeTileOf s.selfSite) = some 0 ∧
    (group0.tree.all fun x => !x.bar.contains 0) = true ∧ u.treeMsgs = [] := by
  unfold PlainStrand; decide +kernel
theorem witness_GroupTree :
    let g : Group := { group0 with tree := [{ tile := 0, cores := 1, bar := [0], line := [0] }], barWaiters := [16] }
    let s := relaunched (fun l => { l with groups := [g] }) user
    let m : TreeMsg := { launch := 1, group := 5, bar := false, node := 0, item := 0 }
    let a := { s with treeMsgs := [m] }
    let two : Group := { group0 with tree := [{ tile := 0, cores := 1 }, { tile := 1, cores := 1, bar := [1] }, { tile := 2, cores := 2, bar := [2] }] }
    let up : TreeMsg := { m with bar := true, node := 2, item := 3 }
    (a.input.flag = false ∧ a.treeMsgs[a.input.index]? = some m) ∧ ((s.launch? 1).bind fun l => l.group? 5) = some g ∧
    (g.tree.all fun n => decide (n.tile < 2 ^ 20)) = true ∧ g.full true 0 = true ∧ g.full false 0 = true ∧ group0.full true 0 = false ∧
    two.full true 2 = false ∧ (two.count up).full true 2 = true ∧ two.full true 1 = true := by decide +kernel

/-- Two cores in the launch: CID 0 is core 1, CID 1 core 0. -/
def paired (g : List (Nat × Word) := []) : State := relaunched (fun l => { l with cids := [1, 0], coreSet := [0, 1] }) (user g)
theorem witness_Send :
    let s := user [(1, 0#64), (2, 0x200040#64)]
    let u := s.drainCore s.selfCore
    PlainStrand s ∧ s.self.handler = none ∧ s.before.handler = none ∧ aims s ((s.g (r 1)).toNat % 2 ^ 22) = some 1 ∧ u.self.handler = none ∧
    (s.g (r 0) = 0#64 ∧ u.g (r 0) = 0#64) ∧ (s.g (r 2) ≠ 0#64 ∧ (s.g (r 2)).toNat % 8 = 0 ∧ u.g (r 2) ≠ 0#64 ∧
      (readsBack (u.readBack (u.g (r 2)) 8 6)).isSome = true) := by
  unfold PlainStrand; decide +kernel
def packet (target : Nat) : Packet :=
  { strand := 17, target := target, cid := 1#22, pc := 0x200008#64, regs := {}, launch := 1, carry := none, before := { st := .ready } }
theorem witness_Hop :
    let s := paired [(1, 0#64), (2, 1#64)]
    let p := { s with packets := [packet 0] }
    let dead := { (s.setZone 0 { s.zone 0 with retired := [0] }) with packets := [packet 0] }
    PlainStrand s ∧ aims s ((s.g (r 1)).toNat % 2 ^ 22) = some s.selfCore ∧ aims s ((s.g (r 2)).toNat % 2 ^ 22) = some 0 ∧
    s.drained s.cur.strand = true ∧ hasCarry s.selfCore = false ∧
    (p.packets[p.input.index]? = some (packet 0) ∧ p.deadSite (coreSite 0) = false ∧ p.silent (coreSite 0) = false ∧ 0 ≤ p.time ∧
      p.freeSlot 0 = some 0 ∧ (packet 0).strand ≠ strandOf 0 0) ∧
    (dead.packets[dead.input.index]? = some (packet 0) ∧ dead.deadSite (coreSite 0) = true) := by
  unfold PlainStrand; decide +kernel
/-- A core with no free slot, and one whose slot 7 alone is free. -/
def crowded (n : Nat) (g : List (Nat × Word)) : State :=
  (List.range n).foldl (fun s i => if i = 0 then s else s.setStrand (strandOf 1 i) (s.strand 16)) (user g)
theorem witness_Spawn :
    let s := crowded 8 [(1, 0x01FFFFFFFFFFFFF8#64)]
    let u := crowded 7 [(1, 0x01FFFFFFFFFFFFF8#64)]
    PlainStrand s ∧ (s.g (r 1)).toNat < 2 ^ 57 ∧ (s.g (r 1)).toNat % 8 = 0 ∧ s.freeSlot s.selfCore = none ∧
    u.freeSlot u.selfCore = some 7 ∧ u.cur.strand ≠ strandOf u.selfCore 7 := by
  unfold PlainStrand; decide +kernel

def letter (target : Nat) (sts : BitVec 4) : Message :=
  { src := 0#22, msgid := 0#32, tag := 0#16, payload := 0#384, sts := sts, srcCore := 1, target := target, mbox := 7 }
def box (waiting : List (Nat × Message)) (given : List Nat) : Mailbox :=
  { launch := 1, hpc := 0x200000#64, thr := 1, ser := true, ring := 0x01FF000000000000#64, waiting := waiting, given := given }
def boxed (s : State) (b : Mailbox) : State := s.setCore 1 { s.core 1 with mboxes := ⟨[(7, b)]⟩ }
theorem witness_Messages :
    let s := user [(1, 0x200040#64)]
    let q := s.setCore 1 { s.core 1 with returned := [letter 1 1#4] }
    let m := { s with messages := [letter 1 1#4] }
    PlainStrand s ∧ (s.g (r 1)).toNat % 64 = 0 ∧ (s.core s.selfCore).returned = [] ∧ (q.core q.selfCore).returned = [letter 1 1#4] ∧
    passes (q.check .store (q.g (r 1)) 64) = true ∧ m.messages[m.input.index]? = some (letter 1 1#4) := by
  unfold PlainStrand; decide +kernel
/-- A message before a dead tile, a core with no mailbox, an occupied slot, and a free one; a mailbox ready to fire. -/
theorem witness_Mailboxes :
    let s := { user with messages := [letter 1 0#4], input := { core := 1, mbox := 7 } }
    let s := s.writePa 0x103000 8 (2 ^ 63 + 2 ^ 62 + 0x80 + 1)
    let b := box [(0, letter 1 0#4)] []
    (s.messages[s.input.index]? = some (letter 1 0#4) ∧ s.messageBlocked 0 (letter 1 0#4) = false ∧ s.silent 0 = false) ∧
    (s.setZone 0 { s.zone 0 with retired := [0] }).deadSite 0 = true ∧
    (s.deadSite 0 = false ∧ (s.core 1).mboxes.find? 7 = none) ∧ b.occupied = true ∧ (box [] []).occupied = false ∧
    ((boxed s b).core 1).mboxes.find? 7 = some b ∧ (s.launch? b.launch).isSome = true ∧ b.thr ≤ b.waiting.length ∧ b.handlers = [] ∧
    s.partRuns 0 = true ∧ s.pinned b.hpc = true ∧ s.freeSlot 1 = some 1 := by decide +kernel
/-- MBCFG's answers 3, 4, 1, 2 and 0, each met; a handler that ends. -/
def busyBox (s : State) : Bool := (((s.core s.selfCore).mboxes.find? 7).map fun x => x.busy s.before.launch).getD false
def descOf (b : ReadBack) : Option Nat :=
  match b with
  | .data x _ => some x
  | _ => none
def descState (pinned : Bool) (hi : Nat) : State :=
  let s := user [(1, 0x200040#64), (2, 0x01FF000000000000#64), (3, 0x01FF000000000040#64), (4, 0x0100000000001000#64)]
  let s := if pinned then s.writePa 0x103000 8 (2 ^ 63 + 2 ^ 62 + 0x80 + 1) else s
  ((s.touch 0x200040).writePa 0x200040 8 0x200000).writePa 0x200048 8 hi
def descAt (s : State) : Option Nat := descOf ((s.drainCore s.selfCore).readBack (s.g (r 1)) 8 2)
theorem witness_Mbcfg :
    let s := descState true 64
    let h := { s.before with handler := some { mbox := 7, slots := [0], msgs := [], held := [letter 1 0#4] } }
    let e := boxed (s.setCur { s.cur with before := h }) (box [] [0])
    PlainStrand s ∧ busyBox s = false ∧ busyBox (boxed s (box [] [0])) = true ∧ (s.g (r 1)).toNat % 16 = 0 ∧
    descAt s = some (64 * 2 ^ 64 + 0x200000) ∧ badDescriptor (64 * 2 ^ 64 + 0x200000) = false ∧ s.pinned 0x200000#64 = true ∧
    s.ringOk 1 7 (s.g (r 2)) = true ∧ s.ringOk 1 7 (s.g (r 3)) = false ∧
    inWindow (s.g (r 3)) = false ∧ inWindow (s.g (r 4)) = true ∧
    descAt (descState true 65) = some (65 * 2 ^ 64 + 0x200000) ∧ badDescriptor (65 * 2 ^ 64 + 0x200000) = true ∧
    (descState false 1).pinned 0x200000#64 = false ∧
    (e.before.inShadow = false ∧ e.before.handler.isSome = true ∧ e.drained e.cur.strand = true ∧
      ((e.core e.selfCore).mboxes.find? 7).isSome = true) := by
  unfold PlainStrand; decide +kernel

def task0 (st : TaskSt) : Sys2Proof.Machine.Task :=
  { order := 3, timestamp := 9#64, hpc := 0x200000#64, args := [1#64, 2#64, 3#64, 4#64], launch := 1, st := st }
/-- A task in the zone's unit; with `run`, the issuing strand runs it. -/
def tasked (t : Sys2Proof.Machine.Task) (run : Bool) : State :=
  let s := user [(1, 8#64), (2, 0x200000#64)]
  let s := s.setZone 0 { s.zone 0 with tasks := [t], lastCommit := 9#64 }
  if run then
    let x := { s.before with task := some 3, birth := .task }
    (s.setCur { s.cur with before := x }).setStrand 16 x
  else { s with input := { task := 3, core := 1 } }
theorem witness_TaskInstructions :
    let s := user [(1, 8#64), (2, 0x200000#64)]
    let u := s.setZone 0 { s.zone 0 with lastCommit := 9#64 }
    let t := tasked (task0 (.running 16)) true
    let i := tasked { task0 (.running 16) with irrevocable := true } true
    (PlainStrand s ∧ (s.g (r 2)).toNat < 2 ^ 57 ∧ (s.g (r 2)).toNat % 8 = 0 ∧ (s.zone s.selfZone).tasks.length < 4096) ∧
    ((u.g (r 1)).ult (u.zone u.selfZone).lastCommit = true ∧ (s.g (r 1)).ult (s.zone s.selfZone).lastCommit = false) ∧
    (t.selfTask = some (task0 (.running 16)) ∧ t.drained t.cur.strand = true) ∧ (i.selfTask.map (·.irrevocable)) = some true ∧
    s.selfTask = none := by
  unfold PlainStrand; decide +kernel
theorem witness_TaskEvents :
    let s := tasked (task0 .waiting) false
    let e := tasked (task0 .ended) false
    let o := tasked (task0 (.running 17)) false
    let o := o.setStrand 17 { o.strand 16 with st := .waiting .oldest }
    ((s.zone 0).task? s.input.task = some (task0 .waiting) ∧ (s.launch? 1).isSome = true ∧ s.freeSlot 1 = some 1 ∧ coreZone 1 = 0 ∧
      coreIsAtelier 1 = false ∧ ((s.launch? 1).map fun l => s.coreOf l 1) = some true ∧ s.partRuns 0 = true ∧ s.deadSite 0 = false) ∧
    ((e.zone 0).oldest = some (task0 .ended) ∧ ∀ x ∈ (e.zone 0).tasks, x.irrevocable = false) ∧
    ((o.zone 0).task? o.input.task = some (task0 (.running 17)) ∧ (o.strand 17).st = .waiting .oldest ∧ (o.zone 0).isOldest 3 = true) := by
  decide +kernel
theorem witness_Tokens : PlainStrand user ∧ (granted user 0#512).before.grant = some { value := 0#512 } := by
  unfold PlainStrand; decide +kernel

def allowed (r : Except TrapInfo State) : Option State :=
  match r with
  | .ok s => some s
  | .error _ => none
/-- The ranges pass their checks, and an identifier of channel 15 is free. -/
def ranged (s : State) (windows : Bool) (us : List RangeUse) : Bool :=
  match allowed (s.checkRanges s.who windows us) with
  | some v => (v.core v.selfCore).room 15
  | none => false
def desc2d (len rows : Nat) : State :=
  let s := user [(1, 0x200000#64), (2, 0x200400#64), (3, 0x201000#64)]
  (s.touch 0x201000).writePa 0x201000 8 (rows * 2 ^ 32 + len)
/-- Transfers of one byte, of none, of 2^32, with a reserved bit; in two dimensions, of two rows and of none. -/
theorem witness_TransferCommands :
    let s := user [(1, 0x200000#64), (2, 0x200400#64), (3, 1#64), (4, 0x100000000#64)]
    PlainStrand s ∧ ((0#32 : BitVec 32).extractLsb' 9 23 = 0#23 ∧ (0#32 : BitVec 32).extractLsb' 4 2 = 0#2) ∧
    (0x200#32 : BitVec 32).extractLsb' 9 23 ≠ 0#23 ∧
    ranged s true [⟨.engineRead, 0x200400, 1, false⟩, ⟨.engineWrite, 0x200000, 1, false⟩] = true ∧ ranged s true [⟨.engineRead, 0x200400, 0, false⟩] = true ∧
    (s.g (r 3)).toNat < 2 ^ 32 ∧ 0 < (s.g (r 3)).toNat ∧ (s.g (r 0)).toNat = 0 ∧ 2 ^ 32 ≤ (s.g (r 4)).toNat ∧ (s.core s.selfCore).room 15 = true := by
  unfold PlainStrand; decide +kernel
theorem witness_Transfer2d :
    let s := desc2d 64 2
    let z := desc2d 64 0
    let u := s.drainCore s.selfCore
    (s.g (r 3)).toNat % 8 = 0 ∧ descOf (u.readBack (s.g (r 3)) 8 4) = some (2 * 2 ^ 32 + 64) ∧ 2 * 64 < 2 ^ 32 ∧ bits (2 * 2 ^ 32 + 64) 192 64 = 0 ∧
    ranged u true [⟨.engineRead, 0x200400, 64, false⟩, ⟨.engineWrite, 0x200000, 64, false⟩, ⟨.engineRead, 0x200400, 64, false⟩,
      ⟨.engineWrite, 0x200000, 64, false⟩] = true ∧
    descOf ((z.drainCore z.selfCore).readBack (z.g (r 3)) 8 4) = some 64 := by decide +kernel
/-- Identifiers never issued, complete and outstanding. -/
theorem witness_TransferWaits :
    let s := user
    let t := s.setCore 1 { s.core 1 with cnext := ⟨[(0, 2#32)]⟩, cdone := ⟨[(0, 1#32)]⟩ }
    issuedId (s.core 1) 0 0#32 = false ∧ (issuedId (t.core 1) 0 0#32 = true ∧ completeId (t.core 1) 0 0#32 = true) ∧
    (issuedId (t.core 1) 0 1#32 = true ∧ completeId (t.core 1) 0 1#32 = false) := by decide +kernel

theorem witness_StoreCopies :
    let s := user [(1, 2046#64), (2, 0x200000#64), (3, 2#64), (4, 0#64)]
    PlainStrand s ∧ tileType s.selfSite ≠ .vector ∧ 0 < (s.g (r 3)).toNat ∧
    (s.g (r 1)).toNat + (s.g (r 3)).toNat ≤ Config.storeRows (tileType s.selfSite) ∧
    (s.g (r 4)).toNat + (s.g (r 3)).toNat ≤ Config.storeRows (tileType s.selfSite) ∧ (s.g (r 2)).toNat % 64 = 0 ∧
    ((0x5F#32 : BitVec 32).extractLsb' 4 3).toNat < 6 ∧ (0x5F#32 : BitVec 32).toNat < 2 ^ 7 ∧ (15#32 : BitVec 32).toNat < 16 ∧
    ranged s true [use .engineRead (s.g (r 2)) 512] = true ∧ ranged s true [use .engineWrite (s.g (r 2)) 512] = true ∧
    (s.core s.selfCore).room 15 = true := by
  unfold PlainStrand; decide +kernel
/-- The CC of an S tile. -/
def sparse (g : List (Nat × Word)) : State := userOn 121 g
theorem witness_Matrix :
    let s := sparse [(1, 960#64), (2, 768#64), (3, 0x0000010000000100#64), (4, 0x200000#64), (5, 0x204000#64), (6, 0#64)]
    let f := s.before.regs.fmt
    PlainStrand s ∧ s.mxeAllowed false = true ∧ tileType s.selfSite = .sparse ∧
    fmtOk (fmtA f) (fmtB f) (fmtAcc f) (tileType s.selfSite == .dense) = true ∧ fmtSparseOk (fmtA f) (fmtB f) (fmtAcc f) = true ∧
    (isMx (fmtA f) || isMx (fmtB f)) = false ∧
    ((s.g (r 1)).toNat + 64 * lineRows (fmtA f) 1 ≤ 1024 ∧ (s.g (r 2)).toNat + 64 * lineRows (fmtB f) 1 ≤ 1024) ∧
    (s.core s.selfCore).room 15 = true ∧ s.mxeRoom = true ∧ (s.g (r 1)).toNat + 64 ≤ 1024 ∧
    ((0x8F#32 : BitVec 32).extractLsb' 6 2).toNat ≠ 3 ∧ fmtAcc f = 0 := by
  unfold PlainStrand; decide +kernel
theorem witness_Mmal :
    let s := sparse [(3, 0x0000010000000100#64), (4, 0x200000#64), (5, 0x204000#64)]
    let x := mmalShape [s.g (r 4), s.g (r 5), s.g (r 3)] s.before.regs.fmt 1
    let us := (List.range 64).map (fun i => use .engineRead (x.a + BitVec.ofNat 64 (i * x.astr)) x.la) ++
      (List.range x.n).map fun i => use .engineRead (x.b + BitVec.ofNat 64 (i * x.bstr)) x.lb
    x.a.toNat % 64 = 0 ∧ x.b.toNat % 64 = 0 ∧ x.astr % 64 = 0 ∧ x.bstr % 64 = 0 ∧ (us.all fun q => !inScratch q.a) = true ∧
    ranged s false us = true ∧ ((allowed (s.checkRanges s.who false us)).map (·.mxeRoom)) = some true := by decide +kernel
def gmmState : State :=
  let s := sparse [(1, 0x200020#64)]
  (s.touch 0x200020).writePa 0x200020 8 0x200100
def gmmSizes (s : State) : Option (Nat × Nat × Nat) :=
  let u := s.drainCore s.selfCore
  match u.readBack (s.g (r 1)) 8 4 with
  | .stop _ => none
  | .data x v =>
    match v.readBack (BitVec.ofNat 64 (bits x 0 64)) 4 (bits x 64 8 + 1) with
    | .stop _ => none
    | .data sizes w => if (w.core w.selfCore).room 15 && w.mxeRoom then some (x, sizes, w.selfSite) else none
theorem witness_Gmm :
    (gmmState.g (r 1)).toNat % 32 = 0 ∧ gmmSizes gmmState = some (0x200100, 0, 60) ∧ gmmReserved 0x200100 = false ∧
    (gmmShape 0x200100).bad gmmState.before.regs.fmt 1024 = false := by decide +kernel
/-- A semaphore at its limit, above it, and with waiters. -/
theorem witness_Semaphores :
    let s := user
    let sem := fun (v : Nat) => s.setTile 0 { s.tile 0 with sems := ⟨[(0, v)]⟩ }
    let w := s.setTile 0 { s.tile 0 with sems := ⟨[(0, 1)]⟩, semWait := ⟨[(0, [(17, 2)])]⟩ }
    PlainStrand s ∧ ((sem 65534).tile 0).sems.getD 0 0 + 1 ≤ 65535 ∧ ((sem 65534).drainCore 1).selfSite = 0 ∧
    65535 < ((sem 65535).tile 0).sems.getD 0 0 + 1 ∧ (w.tile 0).sems.getD 0 0 < 2 ∧ 1 ≤ (w.tile 0).sems.getD 0 0 ∧
    (s.before.grant = none ∧ ((sem 1).tile 0).semWait.getD 0 [] = [] ∧ 1 ≤ ((sem 1).tile 0).sems.getD 0 0) ∧
    (w.tile 0).semWait.getD 0 [] ≠ [] ∧ (s.tile 0).sems.getD 0 0 < 1 ∧ (granted s 1#512).before.grant = some { value := 1#512 } := by
  unfold PlainStrand; decide +kernel

/-- The CC of an A tile, with a valid block in its carry slot. -/
def attending (g : List (Nat × Word)) : State :=
  let s := userOn 169 g
  s.setTile 84 { s.tile 84 with carryValid := [0] }
theorem witness_Attention :
    let s := attending [(1, 0x200000#64), (2, 0x400#64)]
    let u := s.drainCore s.selfCore
    let h := (s.tile s.selfSite).header s.cur.strand
    PlainStrand s ∧ s.attRoom = true ∧ hasCarry s.selfCore = true ∧ (s.g (r 1)).toNat % 64 = 0 ∧ (s.g (r 2)).toNat % 64 = 0 ∧
    ranged s false [use .engineRead (s.g (r 1)) 6272] = true ∧ ranged s false [use .engineWrite (s.g (r 1)) 6272] = true ∧
    descOf (u.readBack (s.g (r 1)) 8 8) = some 0 ∧ hdrReserved 0 = 0 ∧
    ranged u false [use .engineRead (s.g (r 1)) (64 + 2 * hdrD 0 * hdrRows 0)] = true ∧
    s.carryFilling s.cur.strand = false ∧ (s.tile s.selfSite).carryOk s.cur.strand = true ∧
    ranged s false ((List.range (hdrRows h)).map fun i => use .engineWrite (s.g (r 1) + BitVec.ofNat 64 i * s.g (r 2)) (hdrD h * 4)) = true := by
  unfold PlainStrand; decide +kernel

/-- A descriptor of one element of four bytes, its index at 0x20_2000. -/
def elemState : State :=
  let s := sparse [(1, 0x200000#64), (2, 0x200400#64), (3, 0x201000#64)]
  ((s.touch 0x201000).writePa 0x201000 8 0x202000).writePa 0x201008 8 (4 * 2 ^ 32 + 1)
def elemDesc : Nat := (4 * 2 ^ 32 + 1) * 2 ^ 64 + 0x202000
theorem witness_GatherScatter :
    let s := elemState
    let u := s.drainCore s.selfCore
    PlainStrand s ∧ tileType s.selfSite = .sparse ∧ (s.g (r 3)).toNat % 32 = 0 ∧ (s.g (r 1)).toNat % 4 = 0 ∧ (s.g (r 2)).toNat % 4 = 0 ∧
    descOf (u.readBack (s.g (r 3)) 8 4) = some elemDesc ∧ elemDesc < 2 ^ 193 ∧ (elemShape elemDesc).count = 1 ∧
    (elemShape elemDesc).esize = 4 ∧ (elemShape elemDesc).idxa.toNat % (elemShape elemDesc).iw = 0 ∧
    ranged u false [use .engineRead 0x202000#64 4, use .engineWrite (s.g (r 1)) 4] = true ∧
    ranged u false [use .engineRead 0x202000#64 4, use .engineRead (s.g (r 2)) 4] = true := by
  unfold PlainStrand; decide +kernel
def faulted (cc : Bool) : State :=
  let s := granted (sparse [(1, 2#64)]) 0#512
  let s := s.setTile 60 { s.tile 60 with faultq := [{ cause := 8, ch := 2, scat := true, cc := cc, id := 0#32, elem := 0, addr := 0#64 }] }
  { s with ops := [{ s.newOp 2 .scat 0#32 [] with desc := elemDesc, total := 1, held := [0] }] }
theorem witness_FaultQueue :
    let s := faulted true
    let es := (s.tile s.selfSite).faultq.filter fun e => e.ch == (s.g (r 1)).toNat % 16 && e.id == (s.g (r 0)).setWidth 32 && e.cc == coreIsCC s.selfCore
    let u := (s.drainCore s.selfCore).useGrant
    PlainStrand s ∧ es.length = 1 ∧ ((faulted false).tile 60).faultq.filter (fun e => e.cc == coreIsCC (faulted false).selfCore) = [] ∧
    (s.before.grant = some { value := 0#512 } ∧ (s.drainCore s.selfCore).before.grant = some { value := 0#512 }) ∧
    u.ops.findIdx? (fun o => o.is u.selfCore 2 0#32) = some 0 ∧ ((u.ops[0]?).map (·.isScat)) = some true ∧
    (s.tile s.selfSite).faultq[0]?.isSome = true ∧ (s.tile s.selfSite).faultq[2]? = none := by
  unfold PlainStrand; decide +kernel

/-- Rank 0 and rank 1 of a group of two, on the CC of an S tile. -/
def member (rank : Nat) : State :=
  let s := sparse [(1, 0x200000#64), (2, 0x200400#64), (3, 0x200800#64)]
  relaunched (fun l => { l with cids := [110, 111], coreSet := [0, 1]
                                groups := [{ index := 5, members := if rank = 0 then [1#22, 0#22] else [0#22, 1#22] }] }) s
def rankOf (s : State) : Option Nat := (s.selfGslot 0).bind fun g => s.selfLaunch.bind fun l => g.rank? (s.cidWord l s.selfCore)
theorem witness_MergeCollectives :
    let s := member 0
    PlainStrand s ∧ coreIsCC s.selfCore = true ∧ tileType s.selfSite = .sparse ∧
    ((s.g (r 1)).toNat % 64 = 0 ∧ (s.g (r 2)).toNat % 64 = 0 ∧ (s.g (r 3)).toNat % 64 = 0) ∧
    ranged s false [use .engineWrite (s.g (r 1)) (64 * 1)] = true ∧ ranged s false [use .engineWrite (s.g (r 1)) (3 * 4)] = true ∧
    ((s.selfGslot 0).map (·.quarantined)) = some false ∧ (rankOf (member 0), rankOf (member 1)) = (some 0, some 1) ∧
    ((member 1).core 121).room 15 = true := by
  unfold PlainStrand; decide +kernel

/-! ### Engine events -/

def running (s : State) (o : Op) : State := { s with ops := [o] }
def xfer0 (s : State) : Op := { s.newOp 0 (.xfer 0 0 false) 0#32 [0x200000#64, 0x200400#64, 1#64, 64#64, 0#64, 0#64] with total := 1 }
def landsAt (x : Reach) : Option Nat :=
  match x with
  | .at pa _ _ => some pa
  | _ => none
def allReach (s : State) (o : Op) : List (Reach × Nat × Nat) :=
  (s.reach o .engineRead 0x200400#64, 0, 64) :: s.reachAll o .engineWrite (destParts 0x200000 64)
def ready0 (s : State) (o : Op) : Bool :=
  s.ops[s.input.index]? == some o && s.opRuns o && s.tileTurn s.input.index o && !o.st.cancelled && !o.done.contains s.input.item
    && !o.held.contains s.input.item
theorem witness_XferGranule :
    let o := xfer0 user
    ready0 (running user o) o = true ∧ (running user o).inOrder o 0 = true ∧ (o.shape.granule o.shape.rows 0 0) = some (0x200400#64, 0x200000#64, 64) ∧
    ((reachFault (allReach unmapped o)).map (·.cause)) = some 0x09#6 ∧
    (reachFault (allReach toSystem o) = none ∧ reachGone (allReach toSystem o) = none ∧ reachesAway (allReach toSystem o) = false ∧
      reachSpace (allReach toSystem o) paIsSystem = true) ∧
    (landsAt (user.reach o .engineRead 0x200400#64) = some 0x200400 ∧ reachFault (allReach user o) = none ∧
      reachGone (allReach user o) = none ∧ reachesAway (allReach user o) = false ∧ reachSpace (allReach user o) paIsSystem = false ∧
      reachSpace (allReach user o) paIsHost = false) ∧
    (user.setPoison 0x200000).poisoned 0x200000 = true ∧ user.poisoned 0x200000 = false := by decide +kernel
def gotIt (g : Got) : Option Bool :=
  match g with
  | .data _ p _ => some p
  | _ => none
def gotFault (g : Got) : Bool :=
  match g with
  | .fault _ => true
  | _ => false
def putIt (p : Put) : Bool :=
  match p with
  | .done _ => true
  | _ => false
def tsOp (s : State) (op : Nat) (done : NatSet) : Op :=
  { s.newOp 0 (.ts op) 0#32 [0#64, 0x200000#64, 1#64] with total := if op ≤ 1 then 5 else 1, done := done, data := ⟨[(0, 7)]⟩ }
theorem witness_EngineGranule :
    let o := tsOp user 0 []
    let w := tsOp user 1 []
    let q := tsOp user 0 [0, 1, 2, 3]
    let z := tsOp user 3 []
    let m := { user.newOp 0 (.mma 2) 0#32 [0x200000#64, 0x204000#64, 0x0000010000000100#64] with total := 128 }
    let a := { user.newOp 0 (.att 0) 0#32 [0x200000#64] with total := 98 }
    let p := (mmalShape m.args m.fmt (modK m.mod)).piece 0
    (ready0 (running user o) o = true ∧ 0 < o.total ∧ 0 < 4 * (o.arg 2).toNat ∧ gotIt (user.fetchPiece o (tagElem 0 0) 0x200000#64 64) = some false) ∧
    gotFault (unmapped.fetchPiece o (tagElem 0 0) 0x200000#64 64) = true ∧
    (w.data.find? 0 = some 7 ∧ putIt (user.putPiece w (tagElem 0 0) 0x200000#64 64 7 false) = true) ∧
    (4 = tsBase 0 1 + 0 ∧ 4 < q.total ∧ (∀ j, j < 4 → q.done.contains (4 * 0 + j) = true)) ∧ (0 = tsBase 3 1 + 0 ∧ 0 < z.total) ∧
    gotIt (user.fetchPiece m (tagElem 0 0) p.1 p.2.1) = some false ∧ gotIt (user.fetchPiece a (tagElem 0 0) 0x200000#64 64) = some false ∧
    user.partRuns z.part = true := by decide +kernel
theorem witness_EngineComplete :
    let x := { xfer0 user with done := [0] }
    let t := tsOp user 3 [0]
    let c := { tsOp user 3 [] with st := { cancelled := true } }
    let m := user.newOp 0 (.mma 1) 0#32 [0#64, 64#64]
    let a := user.newOp 0 (.acc 2) 0#32 [0#64]
    let g := { user.newOp 0 .gath 0#32 [0x200000#64, 0x200400#64] with desc := elemDesc, total := 1, done := [0] }
    let whole := fun (o : Op) => (List.range o.total).all fun j => o.done.contains j
    (whole x = true ∧ x.st.cancelled = false) ∧ whole t = true ∧ c.st.cancelled = true ∧ (whole m = true ∧ m.st.cancelled = false) ∧
    a.st.cancelled = false ∧ (g.done.length = g.total ∧ g.mod.getLsbD 13 = false) ∧ user.opRuns x = true ∧
    ((running user m).ops.take 0).any (fun p => p.core == m.core && p.kind.isMxe) = false := by decide +kernel

/-- A KV space of one sequence, one layer, one head and one block; `e` is the block's entry. -/
def kvTree (e : Nat) (s : State) : State :=
  let s := { s with parts := s.parts.set 0 { s.part 0 with kvroot := 0x208001#64, kvsh := 0x200001#64 } }
  let put := fun (s : State) (a n x : Nat) => (s.touch a).writePa a n x
  let s := put (put (put s 0x208000 8 0x210001) 0x210000 8 0x201001) 0x201000 64 (0x202000 * 2 ^ 448 + 32 * 2 ^ 424)
  let s := put (put (put s 0x202000 8 0x203001) 0x203000 8 0x204001) 0x204000 8 0x206001
  put (s.writePa 0x103000 8 (2 ^ 63 + 2 ^ 62 + 0x80 + 1)) 0x206000 16 e
def kvGood : Nat := 1 + 16 * 2 ^ 40 + 7 * 2 ^ 52
def sweep (s : State) (kind : OpKind) (limit : Word) : Op :=
  { s.newOp 0 kind 0#32 [0#64, limit] with dest := 4#4, total := 1 }
/-- 0 moves, 1 holds, 2 stops, 3 is deferred. -/
def turn (s : State) (o : Op) : Nat :=
  match s.sweepTurn o with
  | .move .. => 0
  | .hold .. => 1
  | .stop .. => 2
  | .deferred .. => 3
  | .wait _ => 4
def deferredFree (s : State) (o : Op) (site : Nat) : Bool :=
  match s.sweepTurn o with
  | .deferred _ v => (v.tile site).shadow.isNone
  | _ => false
theorem witness_Sweeps :
    let s := kvTree kvGood (attending [])
    let n := sweep s .kvnext 16#64
    let t := sweep s .atts 0#64
    let h := kvTree (2 + 16 * 2 ^ 40) (attending [])
    ((running s n).ops[0]? = some n ∧ s.opRuns n = true ∧ s.attBlocked 0 n = false ∧ n.held = [] ∧ n.total = 1) ∧ turn s n = 0 ∧
    turn (attending []) n = 1 ∧ turn s (sweep s .kvnext 0#64) = 2 ∧ turn s t = 2 ∧ t.dest ≠ 0#4 ∧
    (h.walkTile n = some 84 ∧ deferredFree h n 84 = true) := by decide +kernel

/-- A GATH or SCAT of one element whose index is `x`. -/
def elemOp (kind : OpKind) (s : State) : Op :=
  { s.newOp 2 kind 0#32 [0x200400#64, 0x200000#64] with
    desc := (4 * 2 ^ 32 + 1) * 2 ^ 64 + 0x202000 + 100 * 2 ^ 128, total := 1 }
def indexed (x : Nat) : State :=
  let s := sparse []
  (s.touch 0x202000).writePa 0x202000 4 x
def formed (s : State) (o : Op) : Option (Bool × Bool × Bool) :=
  match s.fetchPiece o (tagElem 0 0) 0x202000#64 4 with
  | .data x _ v =>
    some (badIndex o.elems x (o.tableAt x), (allowed (v.checkTable o (o.tableAt x) 4)).isSome, (v.tile 60).faultq.length < 256)
  | _ => none
theorem witness_Elements :
    let s := indexed 99
    let o := elemOp .gath s
    let c := elemOp .scat s
    let f := { c with pos := 1, data := ⟨[(0, 5), (srcKey 0, 7)]⟩ }
    (ready0 (running s o) o = true ∧ s.canForm o 0 = true ∧ formed s o = some (false, true, true)) ∧
    ((formed (indexed 100) o).map (·.1) = some true ∧ (indexed 100).canForm c 0 = true) ∧
    (s.canForm f 0 = false ∧ f.inFlight 0 = true ∧ f.mayApply 0 = true ∧ (running s f).scatOrder 0 f (f.tableAt 5 / 64) = true ∧
      f.scatOp = 0 ∧ landsAt (s.reach f .engineWrite (BitVec.ofNat 64 (f.tableAt 5))) = some (f.tableAt 5) ∧
      paIsSystem (f.tableAt 5) = false ∧ f.data.getD 0 0 < 2 ^ 64 ∧ f.data.getD (srcKey 0) 0 < 2 ^ 512) := by decide +kernel
/-- Heads of windows 0 and 1, of 1 and 0, and of 0 and 0. -/
def mergeOp (s : State) : Op := s.newOp 0 .smerge 0x1010#32 [0x200000#64, 0x210000#64, 0x220000#64]
def heads (left right : Nat) : State :=
  let s := sparse []
  ((s.touch 0x210000).writePa 0x210004 4 left |>.touch 0x220000).writePa 0x220004 4 right
/-- The windows of both heads, and whether both bodies can be read. -/
def windows (s : State) : Option (Nat × Nat × Bool) :=
  let o := mergeOp s
  match s.nextHead o leftSide with
  | .ok (some x, u) =>
    (match u.nextHead o rightSide with
     | .ok (some y, w) =>
       (match w.readSeg o (o.sideAddr leftSide) x with
        | .ok (some _, v) =>
          (match v.readSeg o (o.sideAddr rightSide) y with
           | .ok (some _, _) => some (x.win, y.win, x.vt == y.vt)
           | _ => none)
        | _ => none)
     | _ => none)
  | _ => none
def endsOf (o : Op) (s : State) : Option (Bool × Bool) :=
  match s.nextHead o leftSide with
  | .ok (x, u) => (match u.nextHead o rightSide with
    | .ok (y, _) => some (x.isNone, y.isNone)
    | _ => none)
  | _ => none
theorem witness_MergeNode :
    let s := heads 0 0
    let o := mergeOp s
    let z := fun l r => endsOf { o with data := ⟨(if l then [(kEndL, 1)] else []) ++ if r then [(kEndR, 1)] else []⟩ } s
    ((running s o).ops[0]? = some o ∧ s.opRuns o = true ∧ (running s o).tileTurn 0 o = true ∧ (running s o).smergeBlocked 0 o = false ∧
      o.held = [] ∧ o.get kVt = 0 ∧ o.get kOver ≠ 1 ∧ 64 * o.cap < 64 + 64) ∧
    (z true true = some (true, true) ∧ z false true = some (false, true) ∧ z true false = some (true, false)) ∧
    windows (heads 0 1) = some (0, 1, true) ∧ windows (heads 1 0) = some (1, 0, true) ∧ windows (heads 0 0) = some (0, 0, true) := by
  decide +kernel
theorem witness_Collective :
    let s := member 0
    let o := s.newOp 0 (.coll 0) 0x300#32 [0x200000#64, 0x200400#64, 5#64, 0#64, 0#64]
    let c := { o with data := ⟨[(kMine, 0)]⟩ }
    let d := { c with data := ⟨[(kMine, 0), (kResult, 0)]⟩ }
    (o.pos ≠ 1 ∧ (s.collGroupOf o).map (fun g => ((g.collEnd.find? o.collNumber).isNone, g.quarantined, g.members.length)) = some (true, false, 2)) ∧
    (o.contributed = false ∧ o.held = []) ∧ (c.contributed = true ∧ c.computed = false) ∧ (d.contributed = true ∧ d.computed = true) ∧
    (∀ p ∈ (running s o).ops, p.matches o = true → p.collKey = o.collKey) ∧ s.input.flag = false ∧ s.opRuns o = true := by decide +kernel

/-! ### Launches and queues -/

def recordAt (full : Nat) : State :=
  let s := user [(1, 0x200080#64), (2, 3#64), (3, 0x800#64)]
  let q : Queue := { st := .idle, base := 0x202000#64, log2n := 4, pend := full }
  let s := s.setPart 0 { s.part 0 with queues := ⟨[(3, q)]⟩, direct := List.replicate full { record := 0#1024, indirect := false, addr := 0#64, wdtUs := 0, queue := 0 } }
  s.touch 0x200080
def recordRead (s : State) : Option (Nat × Nat) :=
  let u := s.drainCore s.selfCore
  match u.readBack (s.g (r 1)) 8 16 with
  | .data x v => some (x, (v.part v.selfPart).direct.length)
  | _ => none
/-- Slot 0's three writes. -/
def slotWrites (s : State) : Bool :=
  match s.dispWrite 0 0 0x202040#64 64 0 with
  | .done a =>
    (match a.dispWrite 0 0 0x202080#64 64 0 with
     | .done b =>
       (match b.dispWrite 0 0 0x202000#64 64 1 with
        | .done _ => true
        | _ => false)
     | _ => false)
  | _ => false
theorem witness_Launches :
    let s := recordAt 0
    let f := recordAt 64
    let h := recordAt 16
    let usable := fun (s : State) => let q := (s.part 0).queues.getD 3 {}
      (s.g (r 2)).toNat < 2 ^ 11 && (s.part 0).live && (s.part 0).tenant == s.selfTenant && q.st != .off && q.st != .faulted && q.st != .frozen
    PlainStrand s ∧ (s.g (r 1)).toNat % 128 = 0 ∧ recordRead s = some (0, 0) ∧ recordRead f = some (0, 64) ∧ s.selfLaunch.isSome = true ∧
    (s.g (r 3)).toNat = 2 ^ 11 ∧ usable s = true ∧ ((h.part 0).queues.getD 3 {}).pend = 2 ^ 4 ∧ usable h = true ∧
    ((s.part 0).queues.getD 3 {}).pend ≠ 2 ^ 4 ∧ slotWrites s = true := by
  unfold PlainStrand; decide +kernel

/-- Queue 3 of the lone partition, with a header in the slot at its head. -/
def queued (q : Queue) (h : Nat) (x : Input := {}) : State :=
  let s := user
  let s := s.setPart 0 { s.part 0 with queues := ⟨[(3, q)]⟩ }
  { ((s.touch 0x202000).writePa 0x202000 64 h) with input := { x with queue := 3 } }
def qOf (s : State) : Queue := (s.part 0).queues.getD 3 {}
def headerAt (s : State) : Option Nat :=
  match s.dispRead 0 0 0x202000#64 64 with
  | .data h _ => some h
  | _ => none
def recordIs (s : State) : Option Nat :=
  match s.dispRead 0 0 0x202000#64 64 with
  | .data _ v => (match v.readRecord 0 0 0x202040#64 with
    | .data x _ => some x
    | _ => none)
  | _ => none
def sealQ : Queue := { st := .sealwait, base := 0x202000#64, pend := 1 }
theorem witness_Seals :
    ((qOf (queued sealQ 0)).st = .sealwait ∧ (qOf (queued sealQ 0)).nextRead ≤ (queued sealQ 0).time) ∧
    (headerAt (queued sealQ 0) = some 0 ∧ 0 % 2 ^ 16 ≠ 0 % 65535 + 1) ∧
    (headerAt (queued sealQ 0x200001) = some 0x200001 ∧ headerBad 0x200001 = true) ∧
    (headerAt (queued sealQ 0x10001) = some 0x10001 ∧ headerBad 0x10001 = false ∧ bits 0x10001 16 4 = 1) ∧
    (headerAt (queued sealQ 1) = some 1 ∧ headerBad 1 = false ∧ bits 1 16 4 = 0 ∧ recordIs (queued sealQ 1) = some 0) := by decide +kernel
theorem witness_QueueLife :
    let d := queued { st := .depwait } 0
    let t := { queued { st := .sealwait, firstRead := some 0 } 0 with time := 64000 }
    let good := fun (s : State) => let n := s.input.value.toNat; 0 < n && n ≤ 2 ^ (qOf s).log2n && n < 2 ^ 13 && (qOf s).st != .off
    ((qOf d).st = .depwait ∧ (d.part 0).depsMet (qOf d).record = true) ∧ ((qOf t).firstRead = some 0 ∧ 0 + 64000 ≤ t.time) ∧
    (d.part 0).live = true ∧ good (queued { st := .idle } 0 { value := 17#64 }) = false ∧
    (good (queued { st := .depwait, pend := 1 } 0 { value := 16#64 }) = true ∧ 2 ^ 4 < 1 + 16) ∧
    good (queued { st := .idle } 0 { value := 16#64 }) = true ∧ (qOf (queued { st := .faulted } 0 { value := 1#64 })).st = .faulted ∧
    (qOf (queued { st := .idle } 0 { value := 1#64 })).st ≠ .faulted := by decide +kernel

/-- The module runs, zone 0 is built with one row of tiles, and launch 1 has been selected and not bound. -/
def selected (record : BitVec 1024) : State :=
  let s := user
  let s := s.setZone 0 { s.zone 0 with mapped := List.range 12 }
  let s := { s.setModule { s.module with ready := true } with strands := ⟨[]⟩, input := { launch := 1 } }
  relaunched (fun l => { l with bound := false, record := record, cids := [], coreSet := [] }) s
def planned (s : State) : Bool :=
  match s.launch? 1 with
  | none => false
  | some l =>
    match s.judge l with
    | .plan x v => v.spanReady l x && v.bindsFirst l && v.fits l x
    | _ => false
def rejected (s : State) : Bool :=
  match s.launch? 1 with
  | none => false
  | some l =>
    match s.judge l with
    | .bad _ => recordBad l && (s.stsWaits l).isNone
    | _ => false
theorem witness_Selection :
    let s := queued { st := .headready, pend := 1, record := loneRecord } 0
    (s.part 0).live = true ∧ (s.part 0).frozen = false ∧ (s.part 0).gang = .running ∧ (s.part 0).nextSelect ≤ s.time ∧
    choose (s.part 0).lastSel (s.candidates 0) = some (3, 0) := by decide +kernel
theorem witness_Binding :
    ((selected loneRecord).launch? 1).map (fun l => (l.bound, (selected loneRecord).mayBind l)) = some (false, true) ∧
    planned (selected loneRecord) = true ∧ rejected (selected 0#1024) = true := by decide +kernel
theorem witness_WakeAndCompletion :
    let s := relaunched (fun l => { l with toWake := [0] }) { user with strands := ⟨[]⟩ }
    let t := { user with strands := ⟨[]⟩ }
    (((s.launch? 1).bind fun l => s.physCore? (l.cids.getD 0 0)) = some 1) ∧
    (s.launch? 1).map (fun l => (l.toWake, l.spanUnbound, l.saved, s.partRuns l.part)) = some ([0], [], false, true) ∧
    s.deadSite (coreSite 1) = false ∧ recSpc loneRecord ≤ (s.dormantSlots 1).length ∧
    ((t.launch? 1).map fun l => (l.bound, t.launchLives 1 l, l.spanLeft, (t.stsWaits l).isNone, l.origin)) = some (true, false, [], true, none) ∧
    ((1#32 : BitVec 32) = ({} : Partition).ldone.getD 0 0#32 + 1#32 ∧ ({} : Partition).early.contains 2 = false) ∧
    ((2#32 : BitVec 32) ≠ ({} : Partition).ldone.getD 0 0#32 + 1#32 ∧ ({} : Partition).early.contains 1 = false) := by decide +kernel

/-! ### The atelier's instructions -/

/-- A parked strand on the CC of tile (0, 0) of the chief's zone; with `g`, the chief's registers. -/
def custody (g : List (Nat × Word)) : State :=
  let s := chief g
  s.setStrand 16 { s.strand 16 with st := .parked, launch := 1 }
def names (s : State) (w : Nat) : Option (Nat ⊕ Nat) :=
  match s.resolveTarget w with
  | .error n => some (.inl n)
  | .ok (.strand k) => some (.inr k)
  | _ => none
theorem witness_AtelierStrands :
    let s := custody [(1, 0x10#64), (2, 0x8#64), (3, 4#64), (4, 0x200000#64)]
    let c := s.setCore s.selfCore { s.core s.selfCore with intrap := true }
    user.inAtelier = false ∧ s.inAtelier = true ∧ names s (s.g (r 1)).toNat = some (.inr 16) ∧
    names (s.drainCore s.selfCore) (s.g (r 1)).toNat = some (.inr 16) ∧ names s (s.g (r 2)).toNat = some (.inl 1) ∧
    (s.strand 16).inHandler = false ∧ badOption 2#32 (s.g (r 3)) true = true ∧ badOption 2#32 (s.g (r 4)) true = false ∧
    s.badTgt s.selfZone 0x8 = true ∧ (c.core c.selfCore).intrap = true ∧ (s.core s.selfCore).intrap = false := by decide +kernel
theorem witness_RftReturns :
    let c := chief.setCore 18432 { chief.core 18432 with intrap := true }
    c.inAtelier = true ∧ (c.core c.selfCore).intrap = true ∧ (chief.core chief.selfCore).intrap = false ∧
    (1#32 : BitVec 32).getLsbD 0 = true ∧ (0xFFFFFFFF#32 : BitVec 32).extractLsb' 25 6 = 0x3F#6 := by decide +kernel
def boxOf (s : State) : List MbxRecord := s.ownMailbox s.selfCore
def holding (read : Bool) : State :=
  let s := chief [(1, 0x200040#64), (2, 0x58#64)]
  s.setZone 0 { s.zone 0 with mbx := [{ slot := 11, index := 0, body := 5#512, read := read }] }
def storesBack (s : State) : Bool :=
  let u := s.drainCore s.selfCore
  match u.storeWords (u.g (r 1)) 5 8 0 u with
  | .ok _ => true
  | _ => false
theorem witness_AtelierRecords :
    let s := holding false
    let t := holding true
    (s.g (r 1)).toNat % 64 = 0 ∧ (boxOf (chief.drainCore 18432)).find? (fun q => !q.read) = none ∧
    ((boxOf (s.drainCore 18432)).find? fun q => !q.read).map (·.slot) = some 11 ∧ storesBack s = true ∧
    (boxOf s).find? (fun q => q.read && BitVec.ofNat 64 q.handle == s.g (r 2)) = none ∧
    ((boxOf t).find? fun q => q.read && BitVec.ofNat 64 q.handle == t.g (r 2)).map (·.index) = some 0 ∧
    (t.ring (forwardRing 1#32 5#512)).full = true ∧ t.reports = [] := by decide +kernel
/-- MAPSET: a bad word, a live column moved while a launch is bound, and one that may go; ROUTESET's and TOKSET's operands. -/
def mapper (bound : Bool) (w : Word) : State :=
  let s := granted (chief [(1, 0#64), (2, w)]) 0#512
  let s := s.setZone 0 { s.zone 0 with zdef := ⟨(List.range 12).map fun q => (q, 0#12)⟩ }
  if bound then s else { s with launches := ⟨[]⟩ }
def mapOk (s : State) : Bool × Bool := (s.badMap s.selfZone (s.g (r 1)) (s.g (r 2)), s.mapBusy s.selfZone (s.g (r 1)).toNat (s.g (r 2)))
theorem witness_Mapset :
    (mapOk (mapper true 0xFFFFFFFFFFFFFFFF#64)).1 = true ∧ mapOk (mapper true 0x00000A9876B43210#64) = (false, true) ∧
    mapOk (mapper false 0x00000A9876B43210#64) = (false, false) ∧ (mapper false 0#64).before.grant = some { value := 0#512 } := by decide +kernel
theorem witness_RoutesTokens :
    let s := chief [(1, 0xBB00#64), (2, 3#64), (3, 0x8000005F#64), (4, 0x13F#64), (5, 63#64), (6, 0xFFFFF#64), (7, 31#64), (8, 64#64)]
    (s.g (r 1) &&& 0xFF00#64 = s.g (r 1) ∧ bits (s.g (r 1)).toNat 12 4 < 12 ∧ bits (s.g (r 1)).toNat 8 4 < 12 ∧ (s.g (r 2)).toNat = 3) ∧
    (s.g (r 0)).toNat = 0 ∧ ¬((s.g (r 8)).toNat = 0 ∨ (s.g (r 8)).toNat = 3) ∧
    ((s.g (r 3)).toNat = 2 ^ 31 + (s.g (r 3)).toNat % 128 ∧ (s.g (r 3)).toNat % 128 < 96 ∧ 1 ≤ (s.g (r 4)).toNat % 64 ∧
      256 ≤ (s.g (r 4)).toNat ∧ (s.g (r 4)).toNat < 320) ∧ ¬(1 ≤ (s.g (r 8)).toNat % 64) ∧
    ((s.g (r 5)).toNat < 64 ∧ (s.g (r 6)).toNat < 2 ^ 20 ∧ (s.g (r 7)).toNat < 32 ∧ 64 ≤ (s.g (r 8)).toNat) := by decide +kernel

/-! ### Partitions, the armature, gangs -/

/-- The chief of zone 1 asks, on a module with zones 0 to 2 of one row each; partition 0 holds zone 0. -/
def warden (g : List (Nat × Word)) : State :=
  let s := State.reset.lone
  let s := s.setModule { s.module with ateliersStarted := true }
  let s := s.setZone 1 { s.zone 1 with rows := (s.zone 1).rows.set 0 plainRow }
  granted (withG ((s.setStrand (strandOf 18434 0) { st := .ready, birth := .atelier }).begin (strandOf 18434 0)) g) 0#512
def idle0 (s : State) : State := { s with launches := ⟨[]⟩ }
def admits (s : State) (p : Nat) (mask : Word) : Bool × Bool :=
  ((s.part p).live == false && s.zonesFree mask none, s.floorOk p (presentIn s mask) (presentIn s mask))
theorem witness_PartitionCreate :
    let s := warden [(1, 63#64), (2, 2#64)]
    let f := (warden [(1, 63#64), (2, 2#64)]).setPart 0 { s.part 0 with floor := Config.minPool }
    s.inAtelier = true ∧ s.before.grant.isSome = true ∧ (s.g (r 1)).toNat = 63 ∧ (s.gr 3#4).toNat < 64 ∧
    admits s.useGrant 63 2#64 = (true, true) ∧ (admits f.useGrant 63 2#64).2 = false ∧ (admits s.useGrant 63 1#64).1 = false := by
  decide +kernel
theorem witness_PartitionChange :
    let s := idle0 (warden [(1, 0#64), (2, 3#64)])
    let u := s.useGrant
    let b := (warden []).useGrant
    ((u.part 0).live = true ∧ u.zonesFree 3#64 (some 0) = true ∧ u.partBound 0 = false ∧ u.floorOk 0 (presentIn u 3#64) (max 11 (presentIn u 3#64)) = true) ∧
    b.partBound 0 = true ∧ u.floorOk 0 (presentIn u (u.part 0).zones) 11 = true ∧ u.floorOk 0 (presentIn u (u.part 0).zones) 10 = false ∧
    (u.part 63).live = false := by decide +kernel
/-- A queue descriptor at 0x20_0000 for queue 1 of partition 0, and the other operands at their limits. -/
def descriptor : Nat := 10 * 2 ^ 104 + 12 * 2 ^ 80 + 0x300000
theorem witness_PartitionQueues :
    let s := warden [(1, 1#64), (2, 0x200000#64), (3, 0x000FFFFFFFFFF000#64), (4, 0x27FFFFFF000#64)]
    let s := (s.touch 0x200000).writePa 0x200000 64 descriptor
    let u := s.useGrant
    let d := u.setPart 0 { u.part 0 with gang := .draining }
    ((u.part 0).live = true ∧ (u.part 0).tenant = (s.gr 5#4).toNat ∧ u.readDescriptor 0x200000#64 = some descriptor ∧
      badQueueDescriptor descriptor 0 = false ∧ ((u.part 0).queues.getD 1 {}).st = .off ∧ (u.part 0).frozen = false) ∧
    (bits (s.g (r 3)).toNat 52 12 = 0 ∧ bits (s.g (r 3)).toNat 0 12 = 0 ∧ bits (s.g (r 3)).toNat 0 4 = 0) ∧ 2047 / 32 < 64 ∧
    (d.part 0).gang = .draining ∧
    ((s.g (r 4)).toNat % 4096 = 0 ∧ (s.g (r 4)).toNat < 2 ^ 52 ∧ paIsHbm (s.g (r 4)).toNat = true ∧ (u.part 0).saved = none ∧
      (u.part 0).gang = .running ∧ (d.part 0).gang ≠ .running) := by decide +kernel
theorem witness_FreezeAndRelease :
    let s := (queued { st := .idle } 0)
    (s.tenant 0).frozen = false ∧ (s.part 0).live = true ∧ (s.part 0).frozen = false ∧ (s.part 0).tenant = 0 ∧ (s.part 0).tenant ≠ 1 ∧
    ((s.part 0).queues.find? 3).map (·.st) = some .idle := by decide +kernel
/-- No queue is FROZEN when each that stands in the table is not. -/
theorem witness_NoFrozenQueue (k : Nat) : (((queued { st := .idle } 0).part 0).queues.getD k {}).st ≠ .frozen := by
  have h : (((queued { st := .idle } 0).part 0).queues) = ⟨[(3, { st := .idle })]⟩ := by decide +kernel
  rw [h]
  simp only [FMap.getD, FMap.find?, entryGet]
  split <;> decide

def phase (n time : Nat) : State :=
  { State.reset.setModule { State.reset.module with ready := true, armPhase := n } with time := time }
def noticed (a : Account) : State := (phase 2 8000).setTile 5 { account := a }
theorem witness_Armature :
    let n := noticed { st := .notice, prior := .lent, tokh := 9, lowering := 4 }
    let l := { noticed { st := .lent, loans := [{ n := 3, termCycle := 0 }] } with time := 10000, input := { site := 5 } }
    ((phase 0 0).module.ready = true ∧ (phase 0 0).module.armPhase = 0 ∧ 10000 * (phase 0 0).module.cycle ≤ (phase 0 0).time) ∧
    ((phase 1 6000).module.armPhase = 1 ∧ 10000 * (phase 1 6000).module.cycle + 6000 ≤ (phase 1 6000).time) ∧
    (n.module.armPhase = 2 ∧ 10000 * n.module.cycle + 8000 ≤ n.time ∧ (n.tiles.find? 5).map (·.account.st) = some .notice) ∧
    ((l.tile 5).account.st = .lent ∧ (l.tile 5).account.loans = [{ n := 3, termCycle := 0 }] ∧ 10000 * (0 + 1) ≤ l.time) := by
  decide +kernel

/-- The lone partition with its gang in a phase. -/
def ganged (g : GangSt) (f : Partition → Partition := id) : State :=
  let s := user
  s.setPart 0 (f { s.part 0 with gang := g, saveBase := 0x400000, saveSize := 2 ^ 32 })
def preRecord : BitVec 1024 := loneRecord + BitVec.ofNat 1024 (2 ^ 571)
def contended : State :=
  let s := ganged .running
  let s := relaunched (fun l => { l with record := preRecord }) s
  match s.launch? 1 with
  | none => s
  | some l =>
    { s.setLaunch 2 { l with bound := false, prio := 7#3, record := preRecord + BitVec.ofNat 1024 (7 * 2 ^ 561) } with input := { launch := 2 } }
theorem witness_GangArm :
    let s := contended
    s.input.flag = false ∧ (s.part 0).gang = .running ∧ s.preemptible 0 = true ∧ s.spanBound 0 = false ∧
    ((s.launch? 2).map fun l => (l.part, l.bound, s.lacksSlots l)) = some (0, false, true) ∧
    ∀ e ∈ s.boundIn 0, e.2.prio.toNat < 7 := by decide +kernel
theorem witness_GangStopAndSave :
    let a := ganged .armed
    let n := { a with launches := ⟨[]⟩ }
    let p := ganged .stopping
    (a.part 0).stamp ≤ a.time ∧ a.boundIn 0 ≠ [] ∧ n.boundIn 0 = [] ∧ (∀ x ∈ p.accesses, p.inPart 0 (strandCore x.strand) = false) ∧
    (∀ e ∈ p.tiles.entries, (p.part 0).hasZone (siteZone e.1) = true → e.2.shadow = none) ∧ ((ganged .saving).part 0).gang = .saving := by
  decide +kernel
/-- A zone that goes out of service: its partition drains at once, or after the save that has begun. -/
theorem witness_ZoneLost :
    (ganged .saving).zonePart 0 = some 0 ∧ ((ganged .stopping).part 0).frozen = false ∧ ((ganged .running).part 0).gang ≠ .saving := by
  decide +kernel
/-- A saved set of no launches whose header is good. -/
def savedSet (g : GangSt) : State :=
  let s := ganged g fun p => { p with saved := some { selected := true } }
  let s := { s with launches := ⟨[]⟩ }
  ((s.touch 0x400000).writePa 0x400000 64 2)
theorem witness_GangRestore :
    let s := savedSet .saved
    let r := savedSet .restoring
    (s.part 0).saved = some { selected := true } ∧ s.restorable 0 { selected := true } = .ok ∧ (∀ e ∈ s.boundIn 0, e.2.saved = true) ∧ (r.part 0).gang = .restoring ∧
    ((ganged .draining).part 0).gang = .draining ∧ (savedSet .saved |>.writePa 0x400000 64 0).restorable 0 { selected := true } = .bad := by
  decide +kernel
theorem witness_Watchdog :
    let s := { queued { st := .idle } 0 with time := 10000, input := { launch := 1 } }
    let s := relaunched (fun l => { l with wdtUs := 10, since := some 0, wdtQueue := 3 }) s
    (s.launch? 1).map (fun l => (l.bound, l.saved, l.since.isSome, decide (l.wdtUs * 1000 ≤ l.used (s.time / 1000 * 1000)), l.origin))
      = some (true, false, true, true, none) ∧ ((s.part 0).queues.getD 3 {}).st ≠ .off := by decide +kernel
theorem witness_Division : natSum ([(1, 5), (2, 0), (0, 9)].map (·.1)) ≤ 3 ∧ [(1, 5), (2, 0), (0, 9)][2]? = some (0, 9) := by decide +kernel

/-! ### Errors, start-up, the host, spans and links -/

def timed (t : Nat) (x : Input) : State :=
  { State.reset.setModule { State.reset.module with ateliersStarted := true, ready := true } with time := t, input := x }
theorem witness_Heartbeats :
    let s := timed 150000 { core := 7 }
    let e := timed 149999 { core := 7 }
    let o := s.setCore (s.zone 0 |>.standbyCore 0) { stopped := true }
    let t := (timed 0 {}).setZone 0 { s.zone 0 with mbxStandby := [{ slot := 290, index := 0, body := 0#512 }] }
    s.sendsBeat 7 = true ∧ (s.module.ateliersStarted = true ∧ 7 < 18432 ∧ s.deadSite (7 / 2) = false ∧ (s.core 7).dead = false ∧
      max (s.core 7).lastBeat s.module.beatFrom + 3 ≤ s.time / 50000 ∧ (s.zone (coreZone 7)).outOfService = false) ∧
    e.time / 50000 < max (e.core 7).lastBeat e.module.beatFrom + 3 ∧
    ((s.zone 0).hasStandby = true ∧ (s.core ((s.zone 0).standbyCore 0)).stopped = false ∧ s.silentCore ((s.zone 0).primaryCore 0) = true) ∧
    (∃ r ∈ (t.zone 0).mbxStandby, r.slot = 290) ∧
    ((o.zone 0).outOfService = false ∧ o.lostAtelier ((o.zone 0).primaryCore 0) = true ∧ o.lostAtelier ((o.zone 0).standbyCore 0) = true) := by
  decide +kernel
theorem witness_TileErrors :
    let h := { user.before with birth := .handler, handler := some { mbox := 7, slots := [0], msgs := [], held := [] } }
    let s := { user.setStrand 16 h with input := { strand := 16, flag := true } }
    let b := { user.setTile 9215 { user.tile 9215 with sramBad := [0, 7] } with input := { site := 9215, bad := [7, 2 ^ 28 - 1] } }
    (9215 < 9216 ∧ user.input.flag = false) ∧ (s.input.flag = true ∧ (s.strand 16).handler.isSome = true ∧ (s.strand 16).inHandler = true ∧
      (s.strand 16).inShadow = false ∧ (s.strand 16).st ≠ .dormant) ∧
    ((b.tile 9215).sramFailed = false ∧ 7 ∈ b.input.bad ∧ 7 < 2 ^ 28 ∧ 7 ∈ (b.tile 9215).sramBad) ∧
    (timed 0 { found := .correctable }).input.found = .correctable ∧ (timed 0 { found := .uncorrectable, off := 2 ^ 28 - 1 }).input.off < 2 ^ 28 := by
  decide +kernel
theorem witness_MeshLinks :
    let z := fun (n : Nat) => ((timed 0 { zone := 63, item := 4, flag := true }).setZone 63 { linkFails := ⟨[(4, n)]⟩ })
    ((z 14).input.zone < 64 ∧ 4 ∉ ((z 14).zone 63).deadLinks ∧ (z 14).input.flag = true ∧ ((z 14).zone 63).linkFails.getD 4 0 < 15) ∧
    ((z 15).zone 63).linkFails.getD 4 0 = 15 ∧ (timed 0 {}).input.flag = false ∧ (timed 0 { off := 24 }).input.value = 0#64 ∧
    (timed 0 { value := 1#64 }).input.value ≠ 0#64 := by decide +kernel
theorem witness_ScrubAndWear :
    let m := fun (x : Sensor) => (timed 0 {}).setModule { (timed 0 {}).module with sensors := ⟨[(103, x)]⟩ }
    let d := (timed 0 { stack := 39 }).setModule { (timed 0 {}).module with scrubNext := ⟨[(39, 2 ^ 24)]⟩ }
    let sensor := fun (s : State) => s.module.sensors.getD 103 {}
    let h := { timed 0 {} with zeroed := [5], l2 := ⟨[(9, { home := 0, frame := 320, filler := 0, dirtier := none })]⟩ }
    (h.marked (64 * 320 / 4096) = false ∧ h.cachedAt (64 * 320) = some (0, 9) ∧ h.cachedAt (64 * 321) = none ∧ h.module.powered = false) ∧
    (timed 0 { off := 5 }).marked 5 = true ∧ ({ (timed 0 {}) with zeroed := [5] }).marked 5 = false ∧
    ((timed 0 {}).scrubNext 0 < (0 + 1) * 2 ^ 24 ∧ (39 + 1) * 2 ^ 24 ≤ d.scrubNext 39 ∧ d.module.ready = true ∧
      64 * (39 * 2 ^ 30) / Config.hbmStackBytes = 39) ∧
    (sensor (m {})).x = none ∧ ((sensor (m { x := some 0 })).x = some 0 ∧ (sensor (m { x := some 0 })).high = false ∧ (0 : Int) + 4000 ≤ 4000 ∧
      (3999 : Int) < 0 + 4000) ∧
    ((sensor (m { x := some 4000, high := true })).high = true ∧ (0 : Int) ≤ 4000 - 4000 ∧ (4000 : Int) - 4000 < 1) := by decide +kernel
def booted (f : Module → Module) (x : Input := {}) : State := { State.reset.setModule (f State.reset.module) with input := x }
/-- A stored record whose defect list is good, and one that is damaged. -/
def stored (x : Option StoredResults) : State :=
  booted (fun m => { m with fwOk := true, defects := [300], copies := [{ defects := [9215] }] }) { record := x }
theorem witness_StoredRecord :
    let r : StoredResults := { sigOk := true, defectsOk := true, badStacks := [39], badPorts := [95], defects := [] }
    let s := stored (some r)
    s.module.fwOk = true ∧ s.module.recordChecked = false ∧ s.module.copies = { defects := [9215] } :: [] ∧ s.input.record = some r ∧
    (stored (some { r with sigOk := false })).input.record = some { r with sigOk := false } ∧
    siteZone 9215 = 63 ∧ (stored none).input.record = none := by decide +kernel
theorem witness_StartUp :
    let p := booted fun m => { m with powered := true }
    let k := booted fun m => { m with fwOk := true, copies := [{ wear := ⟨[(103, 7#32)]⟩ }] }
    let c := booted (fun m => { m with recordChecked := true, fullTrain := List.range 40, fullTrainPorts := [95] }) { stack := 39, port := 94 }
    let a := booted (fun m => { m with ateliersStarted := true, stacksTrained := List.range 40 })
    let a := { a with zones := ⟨(List.range 64).map fun z => (z, { mapped := List.range 12 })⟩ }
    State.reset.module.powered = false ∧ (p.module.powered = true ∧ p.module.fwOk = false ∧ p.module.fwfail = false ∧ p.offeredImage = none ∧ p.recoveryBytes = [] ∧ p.input.port ≠ 97) ∧
    (k.module.fwOk = true ∧ k.module.recordChecked = false ∧ k.module.copies = [{ wear := ⟨[(103, 7#32)]⟩ }]) ∧
    (c.l2.entries = [] ∧ c.slotWrites = [] ∧ c.outbox = []) ∧
    (c.module.recordChecked = true ∧ 39 ∉ c.module.stacksTrained ∧ (c.port 94).trained = false ∧ 94 ∉ c.module.fullTrainPorts ∧
      c.module.ready = false ∧ 95 ∈ c.module.fullTrainPorts ∧ c.module.ateliersStarted = false ∧ ((List.range 40).all fun k => c.module.fullTrain.contains k) = true) ∧
    (a.module.ateliersStarted = true ∧ a.module.ready = false ∧ ((List.range 40).all fun k => a.module.stacksTrained.contains k) = true ∧
      ((List.range 64).all fun z => (List.range 12).all fun q => (a.zone z).mapped.contains q) = true) := by decide +kernel
/-- An image that passes every check whatever the fused FWSVN is, and one that does not. -/
theorem witness_Firmware (s : State) : s.module.fwsvn.toNat ≤ (0xFFFF#16 : BitVec 16).toNat := by
  have := s.module.fwsvn.isLt
  simp; omega
theorem witness_HostRegisters :
    let s := booted (fun m => { m with shcnt := 1, pcieUp := [0] }) { value := 1#64 }
    let b := booted (fun m => { m with shBusy := true, shPlb := true }) { value := 4#64 }
    let f := (timed 0 {}).setZone 0 { mbx := (List.range 8).map fun i => { slot := 289, index := i, body := 0#512 } }
    (s.input.value.getLsbD 0 = true ∧ s.input.value.getLsbD 2 = false ∧ s.module.shBusy = false ∧ s.module.shcnt ≠ 0 ∧ s.module.pcieUp ≠ []) ∧ State.reset.module.pcieUp = [] ∧
    (b.module.shBusy = true ∧ b.input.value.getLsbD 2 = true ∧ b.input.value.getLsbD 0 = false ∧ b.accesses = []) ∧
    State.reset.module.shcnt = 0 ∧ State.reset.module.ateliersStarted = false ∧ freeIndex (f.zone 0).mbx 289 = none ∧
    (freeIndex ((timed 0 {}).zone 0).mbx 289 = some 0 ∧ (timed 0 {}).reports = []) ∧ (16#64 : Word).getLsbD 4 = true := by decide +kernel
/-- A strand, the dispatcher or an engine has asked for a host page, and the host answers. -/
def asked (b : Asker) (x : Input) : State :=
  { waits .pri x with pri := [{ fn := 63, page := 0x3000000000000, asker := b, va := 8#64, acc := 1 }] }
theorem witness_HostQueues :
    let t := { booted (fun m => { m with pcieUp := [0] }) { fn := 64, value := 3#64 } with rings := ⟨[(64, { head := 3#32, tail := 1#32 })]⟩ }
    let o := idle0 user
    let s := { o.setModule { o.module with pcieUp := [0] } with input := { off := 0x2F8, value := 0x7F#64 } }
    let p := asked (.strand 17) { flag := true }
    (t.ringAnswers 64 = true ∧ ((t.ring 64).head - (3#32 : BitVec 32)).toNat < 2 ^ 31 ∧ 2 ^ 31 ≤ ((t.ring 64).head - (4#32 : BitVec 32)).toNat ∧
      State.reset.ringAnswers 64 = false ∧ t.ringAnswers 63 = false) ∧
    (s.module.pcieUp ≠ [] ∧ s.module.fwfail = false ∧ (s.part 0).live = true ∧ s.partBound 0 = false ∧ spcfgOk 0#64 = true ∧
      0x100 ≤ s.input.off ∧ s.input.off < 0x300 ∧ routeOk 0#64 = true) ∧
    user.partBound 0 = true ∧ (s.answers (s.part 0).tenant = true ∧ (7#64 : Word).toNat < 8 ∧ 8 ≤ (8#64 : Word).toNat ∧ 31 < 32) ∧
    ((p.pri[p.input.index]?).map (·.asker) = some (.strand 17) ∧ p.input.bad = [] ∧ p.slotWrites = [] ∧ (p.strand 17).st = .waiting .pri ∧
      p.silentStrand 17 = false ∧ coreIsAtelier (strandCore 17) = false ∧ (p.strand 17).inHandler = false ∧
      (p.strand 17).inShadow = false ∧ (p.strand 17).task = none ∧ p.pri.length = 1) ∧
    ((asked .dispatcher { flag := true }).pri[0]?).map (·.asker) = some .dispatcher ∧
    ((asked (.op 16 0 0#32) { flag := true }).pri[0]?).map (·.asker) = some (.op 16 0 0#32) ∧ (asked (.strand 17) {}).input.flag = false := by
  decide +kernel
/-- An engine's access to a host page: refused, and not. -/
theorem witness_HostGate :
    let r := pageRequest 63 (.op 16 0 0#32) .load 8#64 0x0003000000000000
    let s := { user with hostRefused := [r] }
    s.asksHost 0x0003000000000000 none = true ∧ r ∈ s.hostRefused ∧ r ∉ user.hostRefused ∧
    63 * 2 ^ 40 + 0x0003000000000000 / 4096 ∉ user.hostAbsent := by decide +kernel
/-- A span of modules 0 to 2; `own` is this module. -/
def spanning (own : Nat) (x : Input) : State :=
  let s := { user with input := { x with launch := 1 } }
  let s := s.setPart 0 { s.part 0 with spcfg := BitVec.ofNat 64 (2 ^ 63 + 2 * 2 ^ 48 + own) }
  relaunched (fun l => { l with bound := false }) s
theorem witness_Spans :
    let s := spanning 0 {}
    let m := spanning 2 { mbox := 1, module := 1, off := 3 }
    let c := relaunched (fun l => { l with bound := true, spanLeft := [1], spanUnbound := [1] }) { m with input := { launch := 1, module := 1, off := 3 } }
    let dup := fun (s : State) => { s with tagLog := ⟨[(s.controlTag 0, 0)]⟩ }
    let fresh := fun (s : State) => s.tagLog.find? (s.controlTag 0) = none ∧ s.logFull (s.spanNo 0) s.input.module = false
    (((s.launch? 1).map fun l => (l.bound, l.spanSeq, l.origin)) = some (false, none, none) ∧ s.otherMembers 0 = [1, 2] ∧ s.ownModule 0 = 0 ∧ fresh s) ∧
    (m.ownModule 0 ≠ 0 ∧ m.otherMembers 0 = [0, 1] ∧ m.input.mbox = 1 ∧ (m.part 0).live = true ∧ 1 ∈ m.otherMembers 0 ∧ fresh m) ∧
    (((c.launch? 1).map fun l => (l.bound, l.spanLeft, l.origin, l.part)) = some (true, [1], none, 0) ∧ c.input.off < 16 ∧ c.input.off ≠ 5 ∧
      c.input.flag = false ∧ c.input.mbox ≠ 1 ∧ fresh c) ∧
    ((dup m).tagLog.find? ((dup m).controlTag 0) = some 0 ∧ (dup c).tagLog.find? ((dup c).controlTag 0) = some 0) := by
  unfold State.logFull; decide +kernel

/-- A flit with a header and a payload of zeros, its CRC good. -/
def flitOf (header : Nat) : LinkFlit :=
  let b := toBytes 248 header
  { bytes := b ++ toBytes 8 (crc64 b).toNat }
def linked (p : Port) (t : Nat) (x : Input) : State := { State.reset.setPort 0 p with time := t, input := x }
def upPort : Port := { up := true, trained := true, expect := 0#12 }
theorem flitOf_good (h : Nat) (hc : (flitOf h).cls ≠ 7) (hl : (flitOf h).len ≤ 240) : (flitOf h).good = true := by
  have t : (flitOf h).bytes.take 248 = toBytes 248 h := by simp [flitOf]
  have d : (flitOf h).bytes.drop 248 = toBytes 8 (crc64 (toBytes 248 h)).toNat := by simp [flitOf]
  have n : (flitOf h).bytes.length = 256 := by simp [flitOf]
  have k : (crc64 (toBytes 248 h)).toNat % 256 ^ 8 = (crc64 (toBytes 248 h)).toNat := Nat.mod_eq_of_lt (crc64 (toBytes 248 h)).isLt
  simp only [LinkFlit.good, t, d, n, ofBytes_toBytes, k, BitVec.ofNat_toNat, BitVec.setWidth_eq]
  simp [hc, hl]
theorem witness_Flits_good : (flitOf 0).good = true ∧ (flitOf (2 ^ 52)).good = true :=
  ⟨flitOf_good _ (by decide +kernel) (by decide +kernel), flitOf_good _ (by decide +kernel) (by decide +kernel)⟩
theorem witness_Flits :
    let f := flitOf 0
    let g := flitOf (2 ^ 52)
    let b : LinkFlit := { bytes := [] }
    let p := { upPort with replayDue := true }
    (f.seq = upPort.expect ∧ f.cls = 0) ∧ g.seq ≠ upPort.expect ∧ b.good = false ∧
    (((linked p 100 {}).port 0).replayDue = true ∧ ((linked p 100 {}).port 0).up = true) ∧
    (((linked upPort 100 {}).port 0).lastSent + 100 ≤ 100 ∧ ((linked upPort 100 {}).port 0).replay.length < 1024) := by decide +kernel
theorem witness_FullReplay (f : LinkFlit) : 1024 ≤ ((linked { upPort with replay := List.replicate 1024 f } 0 {}).port 0).replay.length := by
  have h : ∀ p, (linked p 0 {}).port 0 = p := fun _ => rfl
  rw [h]
  exact Nat.le_of_eq List.length_replicate.symm
theorem witness_TagLog :
    let s := { (spanning 0 { flag := true, module := 1, flit := some (flitOf (2 ^ 24)) }).setPort 0 upPort with tagLog := ⟨[(tagKey 0 1 0#64, 9)]⟩ }
    s.outbox = [] ∧ (s.port 0).up = true ∧ (flitOf (2 ^ 24)).seq = (s.port 0).expect ∧ (flitOf (2 ^ 24)).cls = 0 ∧
    s.flitFor (flitOf (2 ^ 24)) s.input = true ∧ s.input.pushTo = none ∧ s.logFull (s.spanNo s.input.part) s.input.owner = false ∧
    s.tagLog.find? (tagKey (s.spanNo s.input.part) s.input.owner (BitVec.ofNat 64 s.input.index)) = some 9 := by decide +kernel
/-- A granule that another module's transfer reads here goes on to module 2. -/
theorem witness_TagLog_push :
    let s := spanning 0 { flag := true, module := 1, level := 15, dest := BitVec.ofNat 64 ((0x100 + 2) * 2 ^ 48) }
    s.input.pushTo = some 2 ∧ 2 ≠ s.ownModule s.input.part ∧ 12 ≤ s.input.level := by decide +kernel
theorem witness_TagLog_good : (flitOf (2 ^ 24)).good = true := flitOf_good _ (by decide +kernel) (by decide +kernel)
def awayLetter : Message := { letter 1 0#4 with module := some 1 }
theorem witness_LinkFailures :
    let s := linked { upPort with fails := 16 } 0 {}
    let t := linked upPort 2000 {}
    let x : Outgoing := { part := 0, module := 1, cls := 2, what := [0, 0, awayLetter.body] }
    let d : Port := { failedAt := some 0, sent := [(5#12, x)] }
    let c := { (spanning 0 { module := 1, flag := true }).setPort 0 d with messages := [awayLetter] }
    let c := c.setPort 5 upPort
    let c := c.setPart 0 { c.part 0 with routes := ⟨[(1, BitVec.ofNat 64 (2 ^ 63 + 127 * 2 ^ 21 + 127 * 2 ^ 14 + 127 * 2 ^ 7 + 5))]⟩ }
    let o := { xfer0 user with asked := ⟨[(tagElem 0 0, 9)]⟩ }
    let y : Outgoing := { part := 0, module := 1, cls := 0, what := [], op := some { core := o.core, ch := o.ch, id := o.id, elem := tagElem 0 0 } }
    let e := { c.setPort 0 { d with sent := [(5#12, y)] } with ops := [o] }
    (16 ≤ (s.port 0).fails) ∧ (t.port 0).lastArrival + 2000 ≤ t.time ∧ ((linked upPort 1999 {}).port 0).fails < 16 ∧
    ((linked upPort 1999 {}).time < ((linked upPort 1999 {}).port 0).lastArrival + 2000) ∧
    ((c.port 0).failedAt = some 0 ∧ settledKey 0 1 ∉ (c.port 0).settled ∧ c.routePort 0 1 = some 5 ∧ c.messages = [awayLetter] ∧
      awayLetter.module = some c.input.module ∧ awayLetter.sts = 0#4 ∧ (c.port 0).up = false ∧ x.part = c.input.part ∧
      x.module = c.input.module ∧ x.op = none ∧ x.cls = 2 ∧ x.what.getD 2 0 = awayLetter.body ∧
      c.zonePart (coreZone awayLetter.srcCore) = some c.input.part) ∧
    ((5#12 : BitVec 12) ≠ 4#12 ∧ (5#12 - 4#12 : BitVec 12).toNat < 2048 ∧ (c.setPort 0 { d with sent := [] }).port 0 = { failedAt := some 0 }) ∧
    (y.part = e.input.part ∧ y.module = e.input.module ∧ e.opIndex o.core o.ch o.id = some 0 ∧ e.ops[0]? = some o ∧
      (o.asked.find? (tagElem 0 0)).isSome = true ∧ o.kind ≠ .gath ∧ o.kind ≠ .scat) ∧
    (0 + 1000000 ≤ ({ c with time := 1000000 } : State).time ∧ (c.part 0).live = true ∧ (c.part 0).gang = .running) ∧
    c.time < 0 + 1000000 ∧ settledKey 0 1 ∈ ({ d with settled := [settledKey 0 1] } : Port).settled := by
  decide +kernel
theorem witness_Lanes :
    let s := linked upPort 20000 { off := 9 }
    let d := (s.port 0).dir s.input.flag
    (0 < 96 ∧ (s.port 0).up = true ∧ (s.port 0).noshed = false ∧ d.st = .steady ∧ d.lanes ≠ .x1 ∧ d.aboveAt ≤ 0 ∧ 0 + 20000 ≤ s.time) ∧
    (s.port 0).threshold < s.input.off ∧ Lanes.x2 ≠ widest 4 ∧ (d.lanes = .x4 ∧ d.goodLanes = 4) ∧
    (linked { upPort with noshed := true } 0 {}).port 0 = { upPort with noshed := true } ∧
    (({ st := .narrowing } : LinkDir).st = .narrowing ∧ ({ st := .narrowing } : LinkDir).lanes = .x4) ∧
    ({ st := .narrowing, lanes := .x2 } : LinkDir).lanes = .x2 ∧ ({ st := .widening, lanes := .x1 } : LinkDir).st = .widening := by decide +kernel
theorem witness_Attestation :
    let s := booted (fun m => { m with pcieUp := [1], spdmVersion := true, spdmCaps := true, spdmAlgs := true }) { item := 1 }
    (s.module.pcieUp ≠ [] ∧ s.module.spdmVersion = true ∧ s.module.spdmCaps = true ∧ s.module.spdmAlgs = true) ∧
    State.reset.module.pcieUp = [] ∧ State.reset.module.spdmVersion = false ∧ 1 ≤ s.input.item ∧ s.input.item < 2 ∧ s.input.index = 0 ∧
    (({ s with input := { index := 0xFF } } : State).input.index = 0xFF) ∧ 5 ≤ 5 := by decide +kernel

/-! ### Pairs, traps and the machine as a whole -/

def examined (e : Examined) : Nat :=
  match e with
  | .traps slotA x => 16 * (if slotA then 1 else 0) + x.cause.toNat
  | .waits => 64
  | .issues .. => 128
def decodes (x : Except DecodeError Instr) : Bool :=
  match x with
  | .ok _ => true
  | .error _ => false
/-- Each outcome of R33–R38: PRIV, ILLEGAL in each slot, a conflict, an empty T = 1 source in each slot, a wait, and an issue. -/
theorem witness_PairsAreExamined :
    let c := 0x10085A03#32
    let a := 0x20066FFF#32
    let marked := aw 0x10 [(3, 17), (1, 13), (1, 12)]
    examined (examine false {} 0xFFFFFFFF#32 a) = 2 ∧ examined (examine false {} 1#32 a) = 1 ∧ examined (examine false {} c 1#32) = 17 ∧
    examined (examine false {} 0x10065A03#32 a) = 19 ∧ examined (examine false { gf := 0xFFFB#16 } c a) = 4 ∧
    examined (examine false { gf := 0xFFFD#16 } c marked) = 20 ∧ examined (examine false { gf := 0xFFF7#16 } c a) = 64 ∧
    examined (examine false {} c a) = 128 ∧ examined (examine false { gf := 0xFFFB#16 } (c ||| 0x00200000#32) a) = 128 ∧
    decodes (decodeC c a) = true ∧ decodes (decodeSlotA c a) = true ∧ decodes (decodeC 1#32 a) = false := by decide +kernel
theorem witness_PairsReadBeforeTheyWrite :
    let s := user [(1, 4#64)]
    PlainStrand s ∧ s.cur.stopped = false ∧ s.cur.trapped = false ∧ s.before = s.self ∧ s.self.st ≠ .dormant ∧ s.before.handler = none ∧
    4 ≤ (s.g (r 1) + (0#12 : BitVec 12).signExtend 64).toNat ∧ (1#4 : Reg) ≠ 2#4 := by
  unfold PlainStrand; decide +kernel
/-- A handler, a task and a shadow handler; an atelier strand, in a trap already or not. -/
theorem witness_Traps :
    let run : HandlerRun := { mbox := 7, slots := [0], msgs := [letter 1 0#4], held := [] }
    let x := { user.before with birth := .handler, handler := some run }
    let h := boxed ((user.setCur { user.cur with before := x }).setStrand 16 x) (box [] [0])
    let t := tasked (task0 (.running 16)) true
    let w := inShadow user
    let c := chief.setCore 18432 { chief.core 18432 with intrap := true }
    let p : TrapInfo := { cause := causePoison }
    let q := { c with cur := { c.cur with strand := strandOf 18433 0 } }
    (user.inAtelier = false ∧ user.before.inShadow = false ∧ user.before.inHandler = false ∧ user.before.task = none ∧
      user.before.handler = none ∧ user.reports = [] ∧ freeIndex (user.zone user.selfZone).mbx (coreMbxSlot user.selfCore) = some 0) ∧
    (h.before.inHandler = true ∧ h.before.task = none ∧ h.before.handler = some run ∧ ((h.core h.selfCore).mboxes.find? run.mbox).isSome = true) ∧
    (t.before.inShadow = false ∧ t.before.task = some 3 ∧ (t.zone t.selfZone).task? 3 = some (task0 (.running 16)) ∧ t.cur.strand = 16) ∧
    (p.loadPoison = true ∧ ({ cause := causeIllegal } : TrapInfo).loadPoison = false ∧ p.fresh = none ∧ p.refusal = none) ∧
    w.before.inShadow = true ∧ (chief.inAtelier = true ∧ (chief.core chief.selfCore).intrap = false) ∧
    ((c.core c.selfCore).intrap = true ∧ (c.selfCore - 18432) % 2 = (c.zone c.selfZone).primary ∧ (c.zone c.selfZone).hasStandby = true ∧
      freeIndex (c.zone c.selfZone).mbxStandby 290 = some 0) ∧
    (q.inAtelier = true ∧ (q.selfCore - 18432) % 2 ≠ (q.zone q.selfZone).primary ∧ freeIndex (q.zone q.selfZone).mbx 290 = some 0) := by
  decide +kernel
/-- The lone module with a pair at its strand's pc and one turn to issue; `gf` says which registers are full. -/
def poised (w : Nat) (gf : BitVec 16 := 0xFFFF#16) : State :=
  let s := State.reset.withFetchWord 64 w
  let x := s.strand 16
  { s.setStrand 16 { x with regs := { x.regs with gf := gf } } with agenda := [.issue 1] }
def fetches (s : State) : Option Nat :=
  let u := State.rouseCore { s with agenda := [] } 1
  match u.pick 1 with
  | none => none
  | some k =>
    match (u.begin k).fetchPair with
    | .words w0 w1 v => some (examined (examine v.inAtelier v.before.regs w0 w1))
    | .ended _ => none
theorem witness_Step :
    fetches (poised 0xFFFFFFFFFFFFFFFF) = some 2 ∧ fetches (poised 0x20066FFF00000000 0xFFF7#16) = some 64 ∧
    fetches (poised 0x20066FFF00000000) = some 128 ∧ encode Instr.pcapWrite = none ∧
    (withAccess State.reset (acc1 .store .none 8)).mayComplete 0 = true ∧ (withAccess State.reset (acc1 .store .none 8)).agenda = [] ∧
    passes ((user.begin 16).check .fetch 0x200000#64 8) = true := by decide +kernel
theorem witness_Encodings :
    WellFormed (.add 15#4 (r 15) ⟨15#4, true⟩) = true ∧ (encode (.add 15#4 (r 15) ⟨15#4, true⟩)).isSome = true ∧
    WellFormed (.routesetPort 15#4 (r 1) (r 2)) = true ∧ (encode (.routesetPort 15#4 (r 1) (r 2))).isSome = true ∧
    (encode (.diagnostic 0x1FFFFFF#25)).isSome = true ∧ decodes (decodeA 0#32) = true := by decide +kernel
theorem witness_Safe : MemCanonical State.reset ∧ Settled State.reset := by
  unfold MemCanonical Settled; decide +kernel
theorem witness_SafeStep : (match step State.reset with | .next _ => true | _ => false) = true := by decide +kernel
/-- One line that tenant 1 filled and dirtied, with four sharers, and one turn. -/
def sharedLine (t : Turn) : State :=
  { State.reset with l2 := ⟨[(5, { home := 0, frame := 5, filler := 1, dirtier := some 1, sharers := [2, 4, 6, 8] })]⟩, agenda := [t] }
theorem witness_Caches :
    (sharedLine (.evict 5)).agenda = [.evict 5] ∧ ((sharedLine (.evict 5)).l2.find? 5).map (·.dirtier) = some (some 1) ∧
    (sharedLine (.dropCopy 5 2)).agenda = [.dropCopy 5 2] ∧ (State.reset.l2.find? 5).isNone = true := by decide +kernel
theorem test_fifth_sharer :
    let t := (sharedLine (.advance 0)).charge 2 5 5 (some 10) .read
    ((t.tenant 2).dirovf, (t.tenant 2).l2xhit, (t.tenant 2).l2fill) = (1#64, 1#64, 0#64) := by decide +kernel

/-! ### More of the same: each clause of the statements on registers, ordered tasks, spans, gangs and errors -/

theorem witness_MfsNumbers :
    let remote := [0x070#10, 0x080#10, 0x081#10, 0x082#10, 0x084#10, 0x108#10]
    ((0x0FF#10 : BitVec 10) ∉ remote ∧ (0x0FF#10 : BitVec 10).toNat < 0x100) ∧ ((0x3FF#10 : BitVec 10) ∉ remote ∧ chief.inAtelier = true) ∧
    (0x05F#10 : BitVec 10).toNat = 0x50 + 15 ∧ (0x01C#10 : BitVec 10).toNat = 0x1C ∧ (0x060#10 : BitVec 10).toNat = 0x60 ∧
    (0x14C#10 : BitVec 10).toNat = 0x14C := by decide +kernel
theorem witness_Trap_completes :
    PlainStrand user ∧ chief.inAtelier = true ∧ (chief.core chief.selfCore).intrap = false := by
  unfold PlainStrand; decide +kernel
theorem witness_YieldAndPause :
    user.before.inShadow = false ∧ (inShadow user).before.inShadow = true ∧ (3 < 8 ∧ (user.strand (strandOf user.selfCore 0)).st = .ready) ∧
    (waits (.pause 0) {}).frozen ((waits (.pause 0) {}).tenantOf 17) = false := by decide +kernel
/-- No zone of the lone module holds a task. -/
theorem noTasks_getD (m : FMap Zone) (h : ∀ e ∈ m.entries, e.2.tasks = []) (z : Nat) : (m.getD z {}).tasks = [] := by
  obtain ⟨es⟩ := m
  induction es with
  | nil => rfl
  | cons e t ih =>
    obtain ⟨j, x⟩ := e
    simp only [FMap.getD, FMap.find?, entryGet]
    split
    · exact h (j, x) (List.mem_cons_self ..)
    · exact ih fun e he => h e (List.mem_cons_of_mem _ he)
theorem witness_NoTasks (z : Nat) : (user.zone z).tasks = [] :=
  noTasks_getD user.zones (by decide +kernel) z
theorem witness_SystemChecks :
    (resolves chief chief.who .amo 0x0004000000000040#64 = some 0x0004000000000040 ∧ (0x0004000000000040#64 : Word).toNat % 8 = 0 ∧
      resolveFails toSystem toSystem.who .amo 0x13FFFFF8#64 = some 0x08#6) ∧
    (resolves toSystem toSystem.who .load 0x13FFFFC0#64 = some 0x0004000013FFFFC0 ∧ 8 < 64 ∧ (0x13FFFFC0#64 : Word).toNat % 64 = 0) ∧
    (user.setPoison 0x200000).ownWhole user.who.strand 0x200000 = false ∧ (user.drainCore user.selfCore).cur.stopped = false := by
  decide +kernel
theorem witness_LocalTraffic :
    let g : Signal := { src := 0, site := 0, line := 0 }
    let s := sent user g
    let two : Group := { group0 with tree := [{ tile := 0, cores := 1 }, { tile := 1, cores := 1, bar := [1] }, { tile := 2, cores := 2, bar := [2] }] }
    (s.signals[0]? = some g ∧ s.input.level ≠ 1 ∧ g.module = none ∧
      (s.signals.take 0).any (fun q => q.src == g.src && q.site == g.site && q.module == g.module) = false) ∧
    ((letter 1 0#4).module = none ∧ (letter 1 1#4).origin = none ∧ (packet 0).module = none) ∧
    two.tree[(2 - 1) / 2]? = some { tile := 0, cores := 1 } ∧ 0 < 2 ^ 20 := by decide +kernel
theorem witness_TaskTurns :
    let o := tasked (task0 (.running 17)) false
    (task0 .waiting).retry = false ∧ (task0 .waiting).parent = none ∧ (o.zone 0).mayTurn 3 = true ∧
    ((user.drainCore user.selfCore).cur.stopped = false ∧ (r 0).r = 0#4) := by decide +kernel
/-- GREPLAY and GCANCEL with every element settled at once, with one that waits for the host, and with its operation gone. -/
def settles (s : State) : Option (Bool × Bool) :=
  let u := (s.drainCore s.selfCore).useGrant
  (u.ops.findIdx? fun o => o.is u.selfCore 2 0#32).map fun i =>
    (((u.dropEntries 2 0#32).reform i [0]).2, ((u.dropEntries 2 0#32).cancelElement i 0#32 0).2)
theorem witness_FaultQueue_settled :
    let s := faulted true
    let gone := { s with ops := [] }
    settles s = some (true, true) ∧ settles { (s.writePa 0x103000 8 (2 ^ 63 + 0x80 + 1 + 3 * 2 ^ 48)) with hostAbsent := [0x3000000202] } = some (false, true) ∧
    settles gone = none ∧ sortedElems (s.tile 60).faultq = [0] := by decide +kernel
theorem witness_CollectiveEnds :
    let s := member 0
    let o := { s.newOp 0 (.coll 0) 0x300#32 [0x200000#64, 0x200400#64, 5#64, 0#64, 0#64] with pos := 1 }
    (running s o).ops[0]? = some o ∧ s.opRuns o = true ∧ (running s o).tileTurn 0 o = true ∧ o.pos = 1 ∧ o.matches o = true := by decide +kernel
theorem witness_GangPhases :
    let s := savedSet .saved
    let q := ganged .saving
    (q.part 0).resetDue = false ∧ (ganged .stopping).ops = [] ∧ s.setFree { selected := true } = true ∧ s.waitsAbove 0 0#3 = false ∧
    (user.part 0).resetDue = false := by decide +kernel
theorem witness_Patrol :
    let b := { user.setTile 9215 { user.tile 9215 with sramBad := [0, 7] } with input := { site := 9215, bad := [8, 3072] } }
    (0 < 49152 ∧ 64 * 0 < user.userScratch 0 ∧ user.accesses = []) ∧
    ((b.tile 9215).sramFailed = false ∧ (b.tile 9215).sramBad.filter (fun g => 64 * g / 196608 = b.input.item) = [0, 7] ∧ b.accesses = []) ∧
    (64 * 3071 / 196608 = 0 ∧ 64 * 3072 / 196608 = 1) ∧ (user.slotWrites = [] ∧ user.outbox = []) := by decide +kernel
theorem witness_SpanForms :
    let s := relaunched (fun l => { l with spanAsked := true }) (spanning 0 {})
    let m := { s with input := { mbox := 2, launch := 1, module := 2, item := 4 } }
    let c := relaunched (fun l => { l with bound := true, origin := some 1 }) (spanning 2 { off := 5 })
    let a := relaunched (fun l => { l with abroad := ⟨[(1, 2)]⟩ }) (spanning 0 { module := 1, item := 1, flag := true, off := 15 })
    ((s.launch? 1).map fun l => (l.bound, l.spanSeq, l.spanAsked)) = some (false, none, true) ∧ s.input.mbox = 0 ∧
    (m.input.mbox = 2 ∧ m.input.flag = false ∧ m.tagLog.find? (m.controlTag 0) = none ∧ m.logFull (m.spanNo 0) 2 = false) ∧
    (((c.launch? 1).map fun l => (l.bound, l.origin)) = some (true, some 1) ∧ c.input.off = 5 ∧ c.tagLog.find? (c.controlTag 0) = none ∧
      c.logFull (c.spanNo 0) c.input.module = false) ∧
    ((a.launch? 1).map (·.abroad.getD 1 0) = some 2 ∧ a.input.flag = true ∧ a.input.off < 16) ∧
    ((linked upPort 0 {}).outbox = [] ∧ (linked upPort 0 {}).packets = [] ∧ ((linked upPort 0 {}).port 0).replay = []) := by decide +kernel
/-- A C slot that waits for a deferred fault. -/
theorem witness_FaultAwaited :
    let s := (user.hold (.translation false { cause := 0x09#6 }))
    s.faultAwaited = true ∧ user.faultAwaited = false := by decide +kernel

/-! ### The further clauses: KV, group lines, what holds an event, and what a pair overtakes -/

/-- A probe that walks, one without an A tile, and a walk that finds no descriptor. -/
def probed (s : State) : Bool × Bool × Bool :=
  let u := s.useGrant
  let w := u.kvWalk u.who (s.g (r 1)) fun _ => false
  (w.1.wait, w.1.desc.isSome, (w.2.probeTile w.2.selfCore).isSome)
theorem witness_KvProbe :
    let s := granted (kvTree kvGood (attending [])) 0#512
    let none_ := granted (withKv (user [])) 0#512
    PlainStrand s ∧ s.before.grant = some { value := 0#512 } ∧ probed s = (false, true, true) ∧ (probed none_).2.1 = false ∧
    (1#32 : BitVec 32).getLsbD 0 = true := by
  unfold PlainStrand; decide +kernel
/-- What KVINV finds: its A tiles' walks, whether it waits, whether it has a descriptor. -/
def invs (s : State) : Bool × Bool × Bool :=
  let v := (s.drainCore s.selfCore).useGrant
  let x := v.kvDesc v.who (v.g (r 1)) fun k _ s => (k, s)
  ((v.attentionTiles v.selfPart).any fun t => (v.tile t).shadow.isSome, x.1.wait, x.1.desc.isSome)
theorem witness_KvInv :
    let s := granted (kvTree kvGood (attending [(1, 0#64), (2, 1#64)])) 0#512
    let n := granted (withKv (attending [(1, 0#64), (2, 1#64)])) 0#512
    let v := (s.drainCore s.selfCore).useGrant
    invs s = (false, false, true) ∧ invs n = (false, false, false) ∧ bitAt (v.part v.selfPart).kvroot.toNat 0 = true ∧
    (v.g (r 2)).toNat ≠ 0 ∧ (v.g (r 0)).toNat = 0 ∧ v.attentionTiles 0 ≠ [] := by decide +kernel
/-- A shadow handler of the block of sequence 0, and its entry at 0x20_0010. -/
def filler (e : Nat) (c : Word) : State :=
  let s := inShadow (withG (kvTree kvGood (attending [])) [(1, c), (2, 0x200010#64)])
  let s := s.setTile s.selfSite { s.tile s.selfSite with
    shadow := some { coord := 0#64, desc := BitVec.ofNat 512 (0x202000 * 2 ^ 448 + 32 * 2 ^ 424), tenant := 0, part := 0, core := s.selfCore, walker := 0 } }
  (s.touch 0x200010).writePa 0x200010 16 e
def fills (s : State) : Option (Bool × Bool × Bool) :=
  match (s.drainCore s.selfCore).readBack (s.g (r 2)) 8 2 with
  | .stop _ => none
  | .data e v =>
    let u := v.useGrant
    (u.tile u.selfSite).shadow.map fun run =>
      (coordSeq (v.g (r 1)) == coordSeq run.coord && coordLayer (v.g (r 1)) == coordLayer run.coord && coordHead (v.g (r 1)) == coordHead run.coord,
        bits e 62 15 != 0 || bits e 3 37 != 0 || !bitAt e 0 || bitAt e 1 || decide (descB run.desc.toNat < bits e 40 8)
          || (u.kvHome? run.part (bits e 56 6) (bits e 52 4) (bits e 48 4)).isNone,
        v.before.grant.isSome)
theorem witness_KvFill :
    let s := filler kvGood 0#64
    s.before.inShadow = true ∧ (s.g (r 2)).toNat % 16 = 0 ∧ (s.g (r 3)).toNat % 16 = 0 ∧ (user [(3, 8#64)]).before.inShadow = false ∧
    ((filler 0 0#64).g (r 2) + 8#64).toNat % 16 ≠ 0 ∧ bitAt (s.part 0).kvroot.toNat 0 = true ∧
    bitAt ((inShadow user).part 0).kvroot.toNat 0 = false ∧ ((inShadow user).tile 0).shadow.isSome = true ∧
    fills s = some (true, false, true) ∧ fills (filler 0 0#64) = some (true, true, true) ∧
    fills (filler kvGood 0xFFFFFFFFFFFFFFFF#64) = some (false, false, true) := by decide +kernel

/-- A group line short of its last arrival, at it, and past it. -/
theorem witness_GroupLine :
    let g := group0
    let at_ := fun (n : Nat) => let s := (relaunched (fun l => { l with groups := [g] }) (lined { mode := .barrier, gv := true, count := 2, arr := n, group := some (5, 1) }))
      s.drainCore s.selfCore
    let l := fun n => (at_ n).line 0 0
    ((l 0).arr + 1 < (l 0).count ∧ (l 0).gv = true) ∧ ((l 1).arr < (l 1).count ∧ (l 1).count ≤ (l 1).arr + 1 ∧ (l 1).group = some (5, 1)) ∧
    (l 2).count ≤ (l 2).arr ∧ (((at_ 1).launch? 1).bind fun x => x.group? 5) = some g ∧ g.node? ((at_ 1).treeTileOf 0) = some 0 ∧
    (granted user 7#512).before.grant = some { value := 7#512 } ∧ user.selfGslot 3 = none := by decide +kernel

/-- Nothing holds these events back: no earlier transfer, no waiting home, no silent tile, no older task. -/
theorem witness_Unheld :
    let s := user
    let a := acc1 .store .none 8
    let t := tasked (task0 .waiting) false
    let o := xfer0 s
    (withAccess s a).accessWaits a = false ∧ ((running s o).ops.take 0).any (fun p => (running s o).transferHolds p o 0) = false ∧
    s.silentStrand 17 = false ∧ s.restoring (packet 0).target = false ∧ (t.zone 0).irrevocableAfter (task0 .waiting) = false ∧ (t.zone 0).mayTurn 3 = true ∧
    t.mayPublish (task0 .ended) = true ∧
    ({ s with messages := [letter 1 1#4] } : State).returnBlocked 0 (letter 1 1#4) = false ∧ (letter 1 0#4).held = none ∧
    ((s.l2.find? 0).bind fun x => s.homeHeld x.home) = none ∧ inWindow (s.g (r 3)) = false := by decide +kernel
/-- A tenant's pages answer once a PCIe port is up; a launch that has lost no member and is not past its deadline. -/
theorem witness_DispatchHolds :
    let s := user.setModule { user.module with pcieUp := [0] }
    s.answers 0 = true ∧ user.answers 0 = false ∧
    ((s.launch? 1).map fun l => (l.expired s.time, s.launchLives 1 { l with coreSet := [] })) = some (false, true) := by decide +kernel
/-- What another module contributes to a collective, and the merge of a COLL.sr. -/
theorem witness_CollectiveForms :
    let s := { member 0 with input := { flag := true } }
    let o := { s.newOp 0 (.coll 1) 0x300#32 [0x200000#64, 0x200400#64, 5#64, 0#64, 0#64] with data := ⟨[(kMine, 0)]⟩ }
    s.input.flag = true ∧ o.kind = .coll 1 ∧ o.pos ≠ 1 ∧
    (s.collGroupOf o).map (fun g => ((g.collEnd.find? o.collNumber).isNone, g.quarantined)) = some (true, false) := by decide +kernel
/-- A FENCE would let an access complete that waits for a MAPSET. -/
theorem witness_Overtakes :
    let s := withAccess user { acc1 .store .none 8 with pa := sramPa 3 0 }
    let q := s.setZone 0 { s.zone 0 with quarantined := [3] }
    q.overtakes { q with accesses := [] } = true ∧ q.overtakes q = false := by decide +kernel

/-! ### What each request of PARTCTL refuses, and further clauses of the engines', the gangs' and the errors' statements -/

/-- A chief that asks of partition 0, whose zone 0 it holds while zone 1 is free, with nothing bound. -/
def asking (g : List (Nat × Word)) : State := (idle0 (warden g)).useGrant
theorem witness_ResizeRefused :
    let s := asking [(1, 0#64)]
    let few := s.setPart 0 { s.part 0 with floor := Config.minPool }
    let other := s.setPart 1 { (s.part 1) with live := true, zones := 2#64, floor := Config.minPool }
    (other.zonesFree 3#64 (some 0) = false ∧ s.zonesFree 0#64 (some 0) = false) ∧
    ((warden []).useGrant.zonesFree 3#64 (some 0) = true ∧ (warden []).useGrant.partBound 0 = true) ∧
    (s.zonesFree 3#64 (some 0) = true ∧ s.partBound 0 = false ∧ few.partBound 0 = false) ∧
    (let t := s.setPart 1 { (s.part 1) with live := true, floor := Config.minPool }
     t.zonesFree 3#64 (some 0) = true ∧ t.partBound 0 = false ∧ t.floorOk 0 (presentIn t 3#64) (max (t.part 0).floor (presentIn t 3#64)) = false) ∧
    (256#32 : BitVec 32).toNat % 256 = 0 ∧ (255#32 : BitVec 32).toNat % 256 ≠ 0 := by decide +kernel
theorem witness_QueueRefused :
    let s := warden [(1, 1#64), (2, 0x200000#64)]
    let s := (s.touch 0x200000).writePa 0x200000 64 descriptor
    let u := s.useGrant
    let busy := u.setQueue 0 1 { st := .idle }
    let odd := (u.writePa 0x200000 64 (descriptor + 1))
    (¬(2 ^ 11 < 2 ^ 11) ∧ u.readDescriptor (BitVec.ofNat 64 (2 ^ 52)) = none) ∧
    (odd.readDescriptor 0x200000#64 = some (descriptor + 1) ∧ badQueueDescriptor (descriptor + 1) 0 = true) ∧
    ((busy.part 0).queues.getD 1 {}).st ≠ .off ∧ ((u.part 0).queues.getD 1 {}).st = .off ∧ (u.part 0).tenant ≠ 63 ∧ 63 < 64 ∧
    (u.part 63).live = false := by decide +kernel
/-- The register words of SETREG at the edges of their reserved bits, and a pinned and an unpinned handler address. -/
theorem witness_SetregRefused :
    let u := asking []
    let h := (u.touch 0x103000).writePa 0x103000 8 (2 ^ 63 + 2 ^ 62 + 0x80 + 1)
    ((2 ^ 52) / 2 ^ 52 ≠ 0 ∧ 2 ^ 11 % 2 ^ 12 ≠ 0 ∧ 8 % 2 ^ 4 ≠ 0) ∧ (2 / 2 % 2 ^ 14 ≠ 0 ∧ (1 + 2 ^ 15) / 2 % 2 ^ 14 = 0) ∧
    (2 ^ 32 / 2 ^ 32 ≠ 0 ∧ (2 ^ 32 - 2 ^ 12) / 2 ^ 32 = 0) ∧ (4 / 2 % 4 ≠ 0 ∧ 9 / 2 % 4 = 0) ∧ 2047 % 32 = 31 ∧ 6 < 31 ∧
    (u.part 0).live = true ∧ (u.part 63).live = false ∧ u.pinned (0x0100000000000000#64 &&& ~~~7#64) = false ∧
    h.pinned (0x200001#64 &&& ~~~7#64) = true := by decide +kernel
theorem witness_SaveAreaRefused :
    let u := asking []
    ((u.part 0).live = true ∧ (u.part 0).gang = .running) ∧ (0x800 % 4096 ≠ 0 ∧ ¬(2 ^ 52 - 4096 ≥ 2 ^ 52)) ∧
    paIsHbm (2 ^ 52 - 4096) = false ∧ (paIsHbm 0x27FFFFFF000 = true ∧ paIsHbm (0x27FFFFFF000 + 4096 - 1) = true ∧
      paIsHbm (0x27FFFFFF000 + 4097 - 1) = false) := by decide +kernel

/-- GATH and SCAT of no elements. -/
theorem witness_NoElements :
    let s := (elemState.writePa 0x201008 8 (4 * 2 ^ 32))
    let d := 4 * 2 ^ 32 * 2 ^ 64 + 0x202000
    let u := s.drainCore s.selfCore
    descOf (u.readBack (s.g (r 3)) 8 4) = some d ∧ (elemShape d).count = 0 ∧ (elemShape d).esize = 4 ∧
    ranged u false [use .engineRead 0x202000#64 0, use .engineWrite (s.g (r 1)) 0] = true ∧
    ranged u false [use .engineRead 0x202000#64 0, use .engineRead (s.g (r 2)) 0] = true ∧ (0x2000#32 : BitVec 32).getLsbD 13 = true := by
  decide +kernel

/-- A span member is told a stamp: one that may be stopped, and one whose save area is too small. -/
def toldToArm (f : Partition → Partition) : State :=
  let s := relaunched (fun l => { l with record := preRecord }) (ganged .running)
  let s := s.setPart 0 (f { s.part 0 with spcfg := BitVec.ofNat 64 (2 ^ 63 + 2 * 2 ^ 48 + 1) })
  { s with input := { flag := true, module := 0, off := 5000, value := 3#64 } }
theorem witness_GangTold :
    let s := toldToArm id
    let n := toldToArm fun p => { p with saveSize := 0 }
    (s.otherMembers 0 ≠ [] ∧ s.ownModule 0 ≠ 0 ∧ s.tagLog.find? (s.controlTag 0) = none ∧ s.logFull (s.spanNo 0) s.input.module = false) ∧
    ((s.part 0).live = true ∧ (s.part 0).frozen = false ∧ (s.part 0).gang = .running ∧ s.preemptible 0 = true) ∧
    (n.boundIn 0 ≠ [] ∧ n.preemptible 0 = false) := by decide +kernel
/-- An accumulator operation behind a multiply that has stopped is not in the middle of a step; alone it is. -/
theorem witness_MidStep :
    let s := user
    let m := s.newOp 0 (.mma 1) 0#32 [0#64, 64#64]
    let a := { s.newOp 0 (.acc 2) 0#32 [0#64] with id := 1#32 }
    ({ s with ops := [m, a] } : State).midStep a = false ∧ ({ s with ops := [a] } : State).midStep a = true ∧
    ({ s with messages := [letter 1 0#4] } : State).inPart 0 (letter 1 0#4).srcCore = true := by decide +kernel

/-- A transfer that adds from a host page into local memory, and one that adds into a host page. -/
theorem witness_HostCombination :
    let host := fun (a : Nat) => (user.writePa a 8 (2 ^ 63 + 2 ^ 62 + 0x80 + 1 + 3 * 2 ^ 48))
    let o := { user.newOp 0 (.xfer 1 0 false) 0#32 [0x200000#64, 0x200400#64] with total := 1 }
    let rd := fun (s : State) => s.reachAll o .engineWrite (destParts 0x200000 64)
    (reachSpace (rd (host 0x103000)) paIsHost = true ∧ reachFault (rd (host 0x103000)) = none) ∧ reachSpace (rd user) paIsHost = false := by
  decide +kernel

/-- A tile whose SRAM has failed, and a record written before and after the stored one is read. -/
theorem witness_SilentTile :
    let s := { user.setTile 0 { user.tile 0 with sramFailed := true } with input := { site := 0 } }
    let w := booted fun m => { m with powered := true, recordChecked := true }
    s.silent s.input.site = true ∧ s.input.flag = false ∧ s.input.level ≠ 1 ∧ user.silent 9215 = false ∧
    (w.module.powered = true ∧ w.module.fwfail = false ∧ w.module.recordChecked = true) ∧ State.reset.module.recordChecked = false := by decide +kernel
/-- What a shootdown waits for: nothing, and a copy whose home is quarantined. -/
theorem witness_ShootdownWaits :
    let s := booted fun m => { m with shBusy := true, shcnt := 1 }
    s.heldIn (s.module.shva / 64) (s.module.shva / 64 + s.module.shcnt * 64) = none ∧ s.slotWrites = [] ∧ s.accesses = [] := by decide +kernel
/-- Time passes up to a launch's deadline, and past no other. -/
theorem witness_TimePasses :
    let s := { user with agenda := [.advance 20000] }
    let l := relaunched (fun l => { l with wdtUs := 10, since := some 0 }) s
    s.expiries (s.time + 20000) = none ∧ l.expiries (l.time + 20000) = some (10000, [1]) ∧ l.expiries (l.time + 9999) = none := by decide +kernel

end Sys2Proof.Tests
end

section
/-! SUPPORT. Safe states: the state after reset, and a step that leaves a pair half done. -/

namespace Sys2Proof.Machine

/-- Settles O55: reset holds no memory, no pair and no operands. -/
theorem resetIsSafe : Obligations.ResetIsSafe := ⟨rfl, rfl, rfl⟩

/-- A speculative task that runs on strand 0 and has read line 0. Strand 0 is slot 0 of the SC at row 0, column 0 of zone 0, where
TASK_DISPATCH starts a task when a launch has that core and the slot is its lowest DORMANT one (R179). -/
def readerOnStrandZero : Task :=
  { order := 0, timestamp := 0#64, hpc := 0#64, args := [], launch := 1, st := .running 0, reads := [0] }
/-- The machine between two steps, that task running; the host is to store to the line that it has read. -/
def hostStoreHitsStrandZero : State :=
  { (State.reset.setZone 0 { State.reset.zone 0 with tasks := [readerOnStrandZero] }).setStrand 0 (taskStrand readerOnStrandZero 0) with
    agenda := [.hostWrite 0 1 0] }

theorem safe_hostStoreHitsStrandZero : Safe hostStoreHitsStrandZero := ⟨rfl, rfl, rfl⟩
theorem step_hostStoreHitsStrandZero :
    ∃ t, step hostStoreHitsStrandZero = .next t ∧ t.cur.stopped = true :=
  ⟨State.hostWrite { hostStoreHitsStrandZero with agenda := [] } 0 1 0, rfl, by decide +kernel⟩

/-- Refutes O59: its second half fails. Between two steps `cur` names strand 0, so that a rollback of the task which strand 0 runs, by
a store of the host to a line that the task has read (R182), takes strand 0 for the one that issues and leaves `cur.stopped` behind. -/
theorem not_stepKeepsSafe : ¬ Obligations.StepKeepsSafe := by
  intro ⟨_, hsettled⟩
  obtain ⟨t, ht, hstop⟩ := step_hostStoreHitsStrandZero
  have hcur : t.cur = {} := (hsettled _ t safe_hostStoreHitsStrandZero.2 ht).1
  rw [hcur] at hstop
  exact Bool.false_ne_true hstop

end Sys2Proof.Machine
end

section
/-! SUPPORT. A step, a pair's examination, and what a pair whose two slots issue comes to, case by case. -/

namespace Sys2Proof.Machine

/-! ## One step -/

theorem step_of_agenda {s : State} {t : Turn} {rest : List Turn} (h : s.agenda = t :: rest) :
    step s = State.runTurn { s with agenda := rest } t := by
  simp only [step, h]

theorem step_of_fetched {s v : State} {core k : Nat} {rest : List Turn} {w0 w1 : BitVec 32}
    (ha : s.agenda = .issue core :: rest)
    (hp : (State.rouseCore { s with agenda := rest } core).pick core = some k)
    (hf : ((State.rouseCore { s with agenda := rest } core).begin k).fetchPair = .words w0 w1 v) :
    step s = v.runWords w0 w1 := by
  rw [step_of_agenda ha]
  simp only [State.runTurn, State.issueTurn, hp, State.issue, hf]

theorem eventTurn_next {s t : State} {i : Instr} {x : Input} (hi : encode i = none)
    (h : exec i { s with input := x } = .next t) : s.eventTurn i x = .next { t with input := {}, cur := {} } := by
  simp only [State.eventTurn, isEvent, hi, Option.isNone_none, if_true, h]

/-- The oldest access is the first that the default turn looks at (log 1). -/
theorem defaultTurn_of_mayComplete_zero {s : State} (h : s.mayComplete 0 = true) :
    s.defaultTurn = .event .accessCompletion { index := 0 } := by
  cases hl : s.accesses with
  | nil => simp [State.mayComplete, hl] at h
  | cons a l => simp [State.defaultTurn, hl, List.range_succ_eq_map, h]

/-! ## What examination answers (R33) -/

/-- A slot of a pair that issues has decoded. -/
theorem slotDecode_ok {b slotA : Bool} {w0 w1 : BitVec 32} {i : Instr} (h : slotDecode b w0 w1 slotA = .ok i) :
    (if slotA then decodeSlotA w0 w1 else decodeC w0 w1) = .ok i := by
  cases slotA with
  | true =>
    simp only [slotDecode, if_true] at h ⊢
    cases hd : decodeSlotA w0 w1 <;> simp_all
  | false =>
    simp only [slotDecode, Bool.false_eq_true, if_false] at h ⊢
    split at h
    · cases h
    · split at h
      · cases h
      · cases hd : decodeC w0 w1 <;> simp_all

theorem guarded_eq_some {en : Bool} {i j : Instr} (h : guarded en i = some j) : i = j := by
  cases en <;> simp_all [guarded]

theorem decodes_of_examine_issues {b : Bool} {r : RegFile} {w0 w1 : BitVec 32} {c a : Instr}
    (h : examine b r w0 w1 = .issues (some c) (some a)) : decodeC w0 w1 = .ok c ∧ decodeSlotA w0 w1 = .ok a := by
  simp only [examine] at h
  split at h
  case h_1 => cases h
  case h_2 => cases h
  case h_3 ci ai hc ha =>
    split at h
    · cases h
    · split at h
      · cases h
      · cases h
      · obtain ⟨_, h⟩ | ⟨_, h⟩ := ite_eq_iff.mp h
        · cases h
        · injection h with h1 h2
          cases guarded_eq_some h1
          cases guarded_eq_some h2
          exact ⟨slotDecode_ok hc, slotDecode_ok ha⟩

theorem routesetForm_of_ne {s : State} {i : Instr} (h : ∀ b x y, i ≠ .routesetSite b x y) : s.routesetForm i = i := by
  unfold State.routesetForm
  split
  · exact absurd rfl (h _ _ _)
  · rfl

/-! ## A pair whose two slots issue (R35, R37, R38) -/

theorem endPair_of_stopped {s : State} (h : s.cur.stopped = true) (c : Option Instr) : s.endPair c = s := by
  simp [State.endPair, h]

theorem stopped_of_faultAwaited {s : State} (h : s.faultAwaited = true) : s.cur.stopped = true := by
  simp only [State.faultAwaited, Bool.and_eq_true] at h
  exact h.1

section
variable {v t1 : State} {c a : Instr}

theorem runPair_of_overtakes (hc : exec ((v.startPair.doom (some a)).routesetForm c) (v.startPair.doom (some a)) = .next t1)
    (ho : (v.startPair.doom (some a)).overtakes t1 = true) :
    v.runPair (some c) (some a) = .next ((v.startPair.doom (some a)).hold .accesses).idle := by
  simp only [State.runPair, State.runC, hc, ho, if_true]

/-- Past the C slot's meaning, the pair comes to what its A slot answers. -/
theorem runPair_of_not_overtakes (hc : exec ((v.startPair.doom (some a)).routesetForm c) (v.startPair.doom (some a)) = .next t1)
    (ho : (v.startPair.doom (some a)).overtakes t1 = false) {t2 : State}
    (ha : (v.startPair.doom (some a)).runA t1 (some a) = .next t2) :
    v.runPair (some c) (some a) = .next (t2.endPair (some c)).idle := by
  simp only [State.runPair, State.runC, hc, ho, Bool.false_eq_true, if_false, ha]
end

section
variable {s0 t1 x : State} {a : Instr}

theorem runA_of_trapped (h : t1.cur.trapped = true) : s0.runA t1 (some a) = .next t1 := by
  simp only [State.runA, h, Bool.true_or, if_true]

theorem runA_of_faultAwaited (h : t1.faultAwaited = true) : s0.runA t1 (some a) = .next t1 := by
  simp only [State.runA, h, Bool.or_true, if_true]

variable (ht : t1.cur.trapped = false) (hf : t1.faultAwaited = false) (hx : exec a s0.inSlotA = .next x)
include ht hf hx

/-- A trap of the A slot is judged on the state before the pair, and undoes the C slot's effect (R37). -/
theorem runA_of_slotA_traps (h : x.cur.trapped = true) : s0.runA t1 (some a) = .next x := by
  simp only [State.runA, ht, hf, State.slotATrap, hx, h, Bool.or_false, Bool.false_eq_true, if_false, if_true]

theorem runA_of_stopped (h : x.cur.trapped = false) (hs : t1.cur.stopped = true) : s0.runA t1 (some a) = .next t1 := by
  simp only [State.runA, ht, hf, State.slotATrap, hx, h, hs, Bool.or_false, Bool.false_eq_true, if_false, if_true]

theorem runA_of_not_stopped (h : x.cur.trapped = false) (hs : t1.cur.stopped = false) :
    s0.runA t1 (some a) = exec a t1.inSlotA := by
  simp only [State.runA, ht, hf, State.slotATrap, hx, h, hs, Bool.or_false, Bool.false_eq_true, if_false]
end

/-- Settles O56: a turn of the agenda is unfolded to the pair, the event or the time that it names. -/
theorem stepRunsPairsAndEvents : Obligations.StepRunsPairsAndEvents := by
  refine ⟨fun s v core k rest w0 w1 => ?_, fun s t i x n rest => ⟨?_, ?_, ?_, ?_⟩⟩
  · intro u hagenda hpick hfetch
    have hstep : step s = v.runWords w0 w1 := step_of_fetched hagenda hpick hfetch
    refine ⟨fun slotA y he => ?_, fun he => ?_, fun c a he => ?_, fun c a he => ?_⟩
    · simp only [hstep, State.runWords, he]
    · simp only [hstep, State.runWords, he]
    · simp only [hstep, State.runWords, he]
    · have hpair : step s = v.runPair (some c) (some a) := by simp only [hstep, State.runWords, he]
      obtain ⟨hdc, hda⟩ := decodes_of_examine_issues he
      refine ⟨hdc, hda, routesetForm_of_ne, fun t1 hc => ⟨fun ho => ?_, fun ho => ?_⟩⟩
      · rw [hpair, runPair_of_overtakes hc ho]
      · refine ⟨fun ht => ?_, fun hf => ?_, fun ht hf y hy => ⟨fun hyt => ?_, fun hyt hs => ?_, fun hyt hs t2 h2 => ?_⟩⟩
        · rw [hpair, runPair_of_not_overtakes hc ho (runA_of_trapped ht)]
        · rw [hpair, runPair_of_not_overtakes hc ho (runA_of_faultAwaited hf), endPair_of_stopped (stopped_of_faultAwaited hf)]
        · rw [hpair, runPair_of_not_overtakes hc ho (runA_of_slotA_traps ht hf hy hyt)]
        · rw [hpair, runPair_of_not_overtakes hc ho (runA_of_stopped ht hf hy hyt hs), endPair_of_stopped hs]
        · rw [hpair, runPair_of_not_overtakes hc ho ((runA_of_not_stopped ht hf hy hyt hs).trans h2)]
  · intro hagenda hi hexec
    rw [step_of_agenda hagenda]
    exact eventTurn_next hi hexec
  · intro hagenda hexp
    have hexp' : State.expiries { s with agenda := rest } (s.time + n) = none := hexp
    simp only [step_of_agenda hagenda, State.runTurn, State.pass, hexp']
  · intro t0 ls hagenda hexp
    have hexp' : State.expiries { s with agenda := rest } (s.time + n) = some (t0, ls) := hexp
    simp only [step_of_agenda hagenda, State.runTurn, State.pass, hexp']
  · intro hagenda hmay hexec
    rw [step, hagenda]
    simp only [defaultTurn_of_mayComplete_zero hmay]
    exact eventTurn_next rfl hexec

end Sys2Proof.Machine
end

section
/-! SUPPORT. Masks of special registers, targets of branches, and the traps that operands alone decide. -/

namespace Sys2Proof.Machine

/-! ## Masks of a word -/

theorem toNat_lowMask {w : Nat} (hw : w ≤ 64) : (BitVec.ofNat 64 (2 ^ w - 1)).toNat = 2 ^ w - 1 := by
  have hpow : 2 ^ w ≤ 2 ^ 64 := Nat.pow_le_pow_right (by decide) hw
  rw [BitVec.toNat_ofNat, Nat.mod_eq_of_lt (by omega)]

theorem toNat_and_lowMask (v : Word) {w : Nat} (hw : w ≤ 64) : (v &&& BitVec.ofNat 64 (2 ^ w - 1)).toNat = v.toNat % 2 ^ w := by
  rw [BitVec.toNat_and, toNat_lowMask hw, Nat.and_two_pow_sub_one_eq_mod]

theorem and_lowMask_eq_zero (v : Word) {w : Nat} (hw : w ≤ 64) :
    v &&& BitVec.ofNat 64 (2 ^ w - 1) = 0#64 ↔ v.toNat % 2 ^ w = 0 := by
  rw [← BitVec.toNat_inj, toNat_and_lowMask v hw]
  rfl

theorem and_highMask_eq_zero (v : Word) {w : Nat} (hw : w ≤ 64) :
    v &&& ~~~(BitVec.ofNat 64 (2 ^ w - 1)) = 0#64 ↔ v.toNat < 2 ^ w := by
  have hsplit : v &&& ~~~(BitVec.ofNat 64 (2 ^ w - 1)) = 0#64 ↔ v &&& BitVec.ofNat 64 (2 ^ w - 1) = v := by
    simp only [BitVec.eq_of_getLsbD_eq_iff, BitVec.getLsbD_and, BitVec.getLsbD_not, BitVec.getLsbD_zero]
    refine forall₂_congr fun i hi => ?_
    cases v.getLsbD i <;> simp [hi]
  rw [hsplit, ← BitVec.toNat_inj, toNat_and_lowMask v hw]
  exact Nat.mod_eq_iff_lt (Nat.two_pow_pos w).ne'

theorem extractLsb'_low_ne_zero (t : Word) : (t.extractLsb' 0 3 != 0#3) = decide (t.toNat % 8 ≠ 0) := by
  rw [bne, Bool.eq_iff_iff]
  simp [← BitVec.toNat_inj, BitVec.extractLsb'_toNat]
theorem extractLsb'_high_ne_zero (t : Word) : (t.extractLsb' 57 7 != 0#7) = decide (2 ^ 57 ≤ t.toNat) := by
  have ht := t.isLt
  rw [bne, Bool.eq_iff_iff]
  simp only [Bool.not_eq_true', beq_eq_false_iff_ne, ne_eq, ← BitVec.toNat_inj, BitVec.extractLsb'_toNat, Nat.shiftRight_eq_div_pow,
    BitVec.toNat_ofNat, decide_eq_true_eq]
  omega

/-! ## Branch targets (R96, R98) -/

theorem checkTarget_misaligned {s : State} {t : Word} (h : t.toNat % 8 ≠ 0) (r : Res) :
    s.checkTarget t true r = .next (s.takeTrap s.cur.slotA { cause := 0x05#6, addr := t }) := by
  simp only [State.checkTarget, extractLsb'_low_ne_zero, h, not_false_eq_true, decide_true, Bool.and_self, if_true, ne_eq]
  rfl
/-- PROT of a target that no address has; an aligned one, where the form asks for alignment. -/
theorem checkTarget_prot {s : State} {t : Word} {aligned : Bool} (ha : aligned = true → t.toNat % 8 = 0) (h : 2 ^ 57 ≤ t.toNat)
    (r : Res) :
    s.checkTarget t aligned r =
      .next (s.takeTrap s.cur.slotA { cause := 0x08#6, addr := t, info := BitVec.ofNat 64 (2 * 2 ^ 48) }) := by
  have haligned : (aligned && decide (t.toNat % 8 ≠ 0)) = false := by
    cases aligned with
    | false => rfl
    | true => simp [ha rfl]
  simp only [State.checkTarget, extractLsb'_low_ne_zero, extractLsb'_high_ne_zero, haligned, h, decide_true, if_true,
    Bool.false_eq_true, if_false]
  rfl

/-! ## Special registers and FMT -/

theorem execFmtset_too_wide {s : State} {field : BitVec 4} {a : Src} {imm : BitVec 12} {lo n : Nat} (hf : fmtField field = (lo, n))
    (hv : 2 ^ n ≤ (s.g a + imm.signExtend 64).toNat) :
    execFmtset field a imm s = .next (s.takeTrap s.cur.slotA { cause := 0x01#6 }) := by
  simp only [execFmtset, hf]
  exact if_pos hv

theorem execMts_privileged {s : State} (d : Reg) {num : BitVec 10} (h : 0x100 ≤ num.toNat) (hu : s.inAtelier = false) :
    execMts d num s = s.trap { cause := causePriv } := by
  simp [execMts, h, hu]
theorem execMfs_privileged {s : State} (d : Reg) {num : BitVec 10} (h : 0x100 ≤ num.toNat) (hu : s.inAtelier = false) :
    execMfs d num s = s.trap { cause := causePriv } := by
  simp [execMfs, h, hu]
/-- A number that no table lists (R40). -/
theorem execMts_unlisted {s : State} (d : Reg) {num : BitVec 10} (h : num.toNat < 0x100)
    (hn : specialReserved num.toNat = none) : execMts d num s = s.illegal := by
  simp [execMts, Nat.not_le.mpr h, hn]
/-- A nonzero value to a reserved field (R9). -/
theorem execMts_reserved {s : State} {d : Reg} {num : BitVec 10} {m : Word} (h : num.toNat < 0x100)
    (hm : specialReserved num.toNat = some m) (hv : s.gr d &&& m ≠ 0#64) : execMts d num s = s.illegal := by
  simp [execMts, Nat.not_le.mpr h, hm, hv]
/-- A value that fits its register is written (R108). -/
theorem execMts_fits {s : State} {d : Reg} {num : BitVec 10} {m : Word} (h : num.toNat < 0x100 ∨ s.inAtelier = true)
    (hm : specialReserved num.toNat = some m) (hv : s.gr d &&& m = 0#64) :
    execMts d num s = .next (s.writeSpecial num.toNat (s.gr d)) := by
  have hpriv : (decide (0x100 ≤ num.toNat) && !s.inAtelier) = false := by
    rcases h with h | h
    · simp [Nat.not_le.mpr h]
    · simp [h]
  simp [execMts, hpriv, hm, hv]

/-- Settles O5: each clause by the lemma on the check that its operand fails. -/
theorem operandsThatTrap : Obligations.OperandsThatTrap := by
  refine ⟨fun s off off17 d a => ⟨?_, ?_, ?_, ?_, ?_, ?_⟩, fun s field a imm lo n hf hv => ?_, fun s d num body => ?_⟩
  · exact fun h => ⟨checkTarget_prot (s := s) (aligned := false) nofun h _, checkTarget_prot (s := s) (aligned := false) nofun h _⟩
  · exact fun h => ⟨checkTarget_misaligned h _, checkTarget_misaligned h _⟩
  · exact fun h8 h => ⟨checkTarget_prot (fun _ => h8) h _, checkTarget_prot (fun _ => h8) h _⟩
  · exact fun h => checkTarget_misaligned h _
  · exact fun h8 h => checkTarget_prot (fun _ => h8) h _
  · intro hd h
    have hn : s.gr d - 1#64 ≠ 0#64 := fun he => hd (by simpa using eq_of_sub_eq_zero he)
    exact (if_neg hn).trans (checkTarget_prot (s := s) (aligned := false) nofun h _)
  · have hfield : fmtField field = (lo, n) := by fin_cases hf <;> rfl
    exact execFmtset_too_wide hfield hv
  · refine ⟨fun hu h => ⟨execMfs_privileged d h hu, execMts_privileged d h hu⟩, fun h => ?_, fun h => ?_, fun h => ?_, fun h => ?_,
      fun hu => ?_, fun ha => if_pos ha, fun ha w0 w1 hw => ⟨.diagnostic (w0.extractLsb' 0 25), ?_, if_pos ha⟩⟩
    · have hnum : num.toNat < 0x100 ∧ specialReserved num.toNat = none := by fin_cases h <;> exact ⟨by decide, rfl⟩
      exact execMts_unlisted d hnum.1 hnum.2
    · exact execMts_reserved (num := 0x001#10) (by decide) rfl fun he => Nat.not_lt.mpr h ((and_highMask_eq_zero _ (by decide)).mp he)
    · exact execMts_reserved (num := 0x002#10) (by decide) rfl fun he => Nat.not_lt.mpr h ((and_highMask_eq_zero _ (by decide)).mp he)
    · exact execMts_reserved (num := 0x030#10) (by decide) rfl fun he => h ((and_lowMask_eq_zero (w := 6) _ (by decide)).mp he)
    · exact if_neg (by simp [hu])
    · simp only [decodeC, hw, beq_self_eq_true, if_true]

end Sys2Proof.Machine
end

section
/-! SUPPORT. The bytes of memory and their poison: what the first touch of a frame and a write leave, and what they depend on. -/

namespace Sys2Proof.Machine

/-! ## Memory cleared -/

theorem Memory.read_clear (m : Memory) (lo n b : Nat) :
    (m.clear lo n).read b = if lo ≤ b ∧ b < lo + n then 0#8 else m.read b := by
  induction m with
  | nil => simp [Memory.clear, Memory.read]
  | cons e t ih =>
    obtain ⟨c, y⟩ := e
    simp only [Memory.clear] at ih ⊢
    by_cases hc : lo ≤ c ∧ c < lo + n
    · simp only [List.filter, hc, decide_true, Bool.and_self, Bool.not_true, ih, Memory.read]
      split
      · rfl
      · rw [if_neg (by rintro rfl; contradiction)]
    · have hkeep : (!(decide (lo ≤ c) && decide (c < lo + n))) = true := by simpa [imp_iff_not_or] using hc
      simp only [List.filter, hkeep, Memory.read, ih]
      split
      · subst_vars; rw [if_neg hc]
      · rfl

theorem Memory.readN_one (m : Memory) (a : Nat) : m.readN a 1 = (m.read a).toNat := by simp [Memory.readN]

/-! ## Marked frames (R465) -/

theorem marked_zeroFrame (s : State) (f g : Nat) : (s.zeroFrame f).marked g = (s.marked g && g != f) := by
  unfold State.zeroFrame
  split
  case isTrue h =>
    simp only [State.marked, Bool.and_eq_true] at h ⊢
    by_cases hg : g = f
    · simp [hg, mem_setInsert]
    · simp [hg, mem_setInsert]
  case isFalse h =>
    by_cases hg : g = f
    · simpa [hg] using h
    · simp [hg]

/-- A touched frame holds its bytes in memory. -/
theorem marked_touch_self (s : State) (pa : Nat) : (s.touch pa).marked (pa / 4096) = false := by
  simp [State.touch, marked_zeroFrame]

theorem read_zeroFrame (s : State) (f q : Nat) :
    (s.zeroFrame f).mem.read q = if s.marked f = true ∧ q / 4096 = f then 0#8 else s.mem.read q := by
  unfold State.zeroFrame
  split
  case isTrue h =>
    have hframe : (f * 4096 ≤ q ∧ q < f * 4096 + 4096) ↔ q / 4096 = f := by omega
    simp only [Memory.read_clear, hframe, h, true_and]
  case isFalse h => simp [h]

/-- One byte, as a marked frame reads it. -/
theorem readPa_one (s : State) (q : Nat) : s.readPa q 1 = if s.marked (q / 4096) then 0 else (s.mem.read q).toNat := by
  simp only [State.readPa, Memory.readN_one]

theorem readPa_touch (s : State) (pa q : Nat) : (s.touch pa).readPa q 1 = s.readPa q 1 := by
  rw [readPa_one, readPa_one, State.touch, marked_zeroFrame, read_zeroFrame]
  by_cases hq : q / 4096 = pa / 4096
  · by_cases hm : s.marked (pa / 4096) = true <;> simp [hq, hm]
  · simp [hq]

theorem poisoned_touch (s : State) (pa q : Nat) : (s.touch pa).poisoned q = s.poisoned q := by
  have hdiv : granuleOf q / 64 = q / 4096 := by rw [Nat.div_div_eq_div_mul]
  unfold State.poisoned
  rw [State.touch, marked_zeroFrame]
  unfold State.zeroFrame
  by_cases hq : q / 4096 = pa / 4096
  · split <;> simp_all
  · have hne : (q / 4096 != pa / 4096) = true := by simpa using hq
    split <;> simp [hne, hdiv]

/-! ## Writes (R4, R433) -/

/-- The bytes of a state: what they read as depends on memory and on the marks alone. -/
def SameBytes (s t : State) : Prop := t.mem = s.mem ∧ t.zeroed = s.zeroed

theorem SameBytes.trans {s t u : State} (h : SameBytes s t) (h' : SameBytes t u) : SameBytes s u :=
  ⟨h'.1.trans h.1, h'.2.trans h.2⟩
theorem SameBytes.marked {s t : State} (h : SameBytes s t) (f : Nat) : t.marked f = s.marked f := by
  simp only [State.marked, h.2]
theorem SameBytes.readPa {s t : State} (h : SameBytes s t) (pa n : Nat) : t.readPa pa n = s.readPa pa n := by
  simp only [State.readPa, h.marked, h.1]
theorem SameBytes.touch {s t : State} (h : SameBytes s t) (pa : Nat) : SameBytes (s.touch pa) (t.touch pa) := by
  simp only [State.touch, State.zeroFrame, h.marked]
  split
  · exact ⟨by simp only [h.1], by simp only [h.2]⟩
  · exact h

/-- A write is its frame's first touch, then the bytes; poison apart. -/
theorem sameBytes_writePa (s : State) (pa n x : Nat) :
    SameBytes { s.touch pa with mem := (s.touch pa).mem.writeN pa n x } (s.writePa pa n x) := by
  unfold State.writePa
  simp only
  split <;> exact ⟨rfl, rfl⟩

theorem SameBytes.writePa {s t : State} (h : SameBytes s t) (pa n x : Nat) : SameBytes (s.writePa pa n x) (t.writePa pa n x) := by
  obtain ⟨hm, hz⟩ := h.touch pa
  obtain ⟨hms, hzs⟩ := sameBytes_writePa s pa n x
  obtain ⟨hmt, hzt⟩ := sameBytes_writePa t pa n x
  exact ⟨by rw [hmt, hms, hm], by rw [hzt, hzs]; exact hz⟩

theorem readPa_writePa_self (s : State) (pa n x : Nat) : (s.writePa pa n x).readPa pa n = x % 256 ^ n := by
  rw [(sameBytes_writePa s pa n x).readPa]
  have hmarked : State.marked { s.touch pa with mem := (s.touch pa).mem.writeN pa n x } (pa / 4096) = false := marked_touch_self s pa
  simp only [State.readPa, hmarked, Memory.readN_writeN, Bool.false_eq_true, if_false]

theorem readPa_writePa_out (s : State) {pa n q : Nat} (x : Nat) (h : q < pa ∨ pa + n ≤ q) :
    (s.writePa pa n x).readPa q 1 = s.readPa q 1 := by
  rw [(sameBytes_writePa s pa n x).readPa, ← readPa_touch s pa q, readPa_one, readPa_one, Memory.read_writeN_out _ _ _ _ _ h]
  rfl

/-- Of the poison, a write of one whole granule clears its own (R433). -/
theorem poisoned_writePa (s : State) (pa n x q : Nat) :
    (s.writePa pa n x).poisoned q = (s.poisoned q && !((n == 64 && pa % 64 == 0) && q / 64 == pa / 64)) := by
  rw [← poisoned_touch s pa q]
  unfold State.writePa
  simp only
  split
  case isTrue h =>
    by_cases hq : q / 64 = pa / 64
    · simp [State.poisoned, State.clearPoison, mem_setRemove, granuleOf, h, hq]
    · simp [State.poisoned, State.clearPoison, State.marked, mem_setRemove, granuleOf, h, hq]
  case isFalse h =>
    have hfalse : (n == 64 && pa % 64 == 0) = false := by simpa using h
    simp [hfalse, State.poisoned, State.marked]

/-- Settles O15: what a touch and a write do to one byte and one granule. -/
theorem physicalWritesReadBack : Obligations.PhysicalWritesReadBack := by
  intro s pa n x q _ _
  refine ⟨readPa_writePa_self s pa n x, readPa_writePa_out s x, readPa_touch s pa q, fun h => ?_, fun hpa hn => ?_, fun _ hn => ?_⟩
  · rw [poisoned_writePa] at h
    exact (Bool.and_eq_true_iff.mp h).1
  · simp [poisoned_writePa, hpa, hn]
  · have hne : (n == 64) = false := by simpa using Nat.ne_of_lt hn
    simp [poisoned_writePa, hne]

end Sys2Proof.Machine
end

section
/-! SUPPORT. A trap that parks its strand or enters the atelier's handler, and MTS's writes. -/

namespace Sys2Proof.Machine

/-! ## What reports, aborts and freezes leave as it is -/

/-- Strands, bytes and the pair that issues stand as they did. -/
def KeepsStrands (s t : State) : Prop := t.strands = s.strands ∧ t.mem = s.mem ∧ t.cur = s.cur

theorem KeepsStrands.refl (s : State) : KeepsStrands s s := ⟨rfl, rfl, rfl⟩
theorem KeepsStrands.trans {s t u : State} (h : KeepsStrands s t) (h' : KeepsStrands t u) : KeepsStrands s u :=
  ⟨h'.1.trans h.1, h'.2.1.trans h.2.1, h'.2.2.trans h.2.2⟩

theorem KeepsStrands.ite {s t u : State} {c : Prop} [Decidable c] (h : KeepsStrands s t) (h' : KeepsStrands s u) :
    KeepsStrands s (if c then t else u) := by split <;> assumption
theorem KeepsStrands.setStrand {s t : State} (h : KeepsStrands s t) (k : Nat) (x : Strand) :
    KeepsStrands (s.setStrand k x) (t.setStrand k x) := ⟨by simp only [State.setStrand, h.1], h.2⟩

theorem keepsStrands_report (s : State) (r : Report) : KeepsStrands s (s.report r) := by
  simp only [State.report]
  split
  · split <;> exact ⟨rfl, rfl, rfl⟩
  · exact ⟨rfl, rfl, rfl⟩
theorem keepsStrands_abortHandler (s : State) (core : Nat) (h : HandlerRun) : KeepsStrands s (s.abortHandler core h) := by
  simp only [State.abortHandler]
  split <;> exact ⟨rfl, rfl, rfl⟩
theorem keepsStrands_freezeTenant (s : State) (t : Nat) : KeepsStrands s (s.freezeTenant t) := by
  unfold State.freezeTenant
  split <;> exact ⟨rfl, rfl, rfl⟩

/-! ## Parking (R37, R48, R393) -/

/-- A strand that no handler runs on, parked by a trap: its registers and pc are the pair's. -/
def Strand.parkedBy (b : Strand) (slotA : Bool) (t : TrapInfo) : Strand :=
  { b with
    st := .parked, grant := none, tcause := BitVec.ofNat 10 ((if slotA then 256 else 0) + t.cause.toNat), taddr := t.addr, tinfo := t.info
    handler := b.handler.map fun run => { run with slots := [], held := [] } }

theorem keepsStrands_park (s : State) (k core zone : Nat) {b : Strand} (hb : b.inHandler = false) (slotA : Bool) (t : TrapInfo) :
    KeepsStrands (s.setStrand k (b.parkedBy slotA t)) (State.takeTrap.park s k core zone b slotA t) := by
  simp only [State.takeTrap.park, hb, Bool.false_and, Bool.false_eq_true, if_false, Nat.zero_add, Strand.parkedBy]
  refine KeepsStrands.trans ?_ (keepsStrands_report _ _)
  cases b.handler with
  | none => exact KeepsStrands.ite (keepsStrands_freezeTenant _ _) (KeepsStrands.refl _)
  | some run =>
    have habort := fun x => (keepsStrands_abortHandler s core run).setStrand k x
    exact KeepsStrands.ite ((habort _).trans (keepsStrands_freezeTenant _ _)) (habort _)

section
variable {s : State} {t : TrapInfo} (ha : s.inAtelier = false) (hh : s.before.inHandler = false) (hs : s.before.inShadow = false)
  (ht : s.before.task = none) (hf : t.fresh = none) (hr : t.refusal = none)
include ha hs ht hf hr

/-- The trap of a strand that is neither an atelier's nor a shadow handler nor a task, and that no frame or request follows. -/
theorem takeTrap_eq_park (slotA : Bool) :
    s.takeTrap slotA t =
      let u := State.takeTrap.park s s.cur.strand s.selfCore s.selfZone s.before slotA t
      u.setCur { u.cur with stopped := true, trapped := true } := by
  have ha' : coreIsAtelier (strandCore s.cur.strand) = false := ha
  have hs' : s.cur.before.inShadow = false := hs
  have ht' : s.cur.before.task = none := ht
  simp only [State.takeTrap, State.faultMet, hf, hr, ha', hs', ht', Option.bind_none, Bool.false_eq_true, if_false]
  rfl

include hh

/-- It is parked with the registers and the pc of its pair, and every other strand stays (R37). -/
theorem strand_takeTrap (slotA : Bool) (k : Nat) :
    (s.takeTrap slotA t).strand k = if k = s.cur.strand then s.before.parkedBy slotA t else s.strand k := by
  obtain ⟨hstrands, -, -⟩ := keepsStrands_park s s.cur.strand s.selfCore s.selfZone hh slotA t
  rw [takeTrap_eq_park ha hs ht hf hr, ← State.strand_setStrand]
  simp only [State.strand, State.setCur_strands, hstrands]
theorem mem_takeTrap (slotA : Bool) : (s.takeTrap slotA t).mem = s.mem := by
  obtain ⟨-, hmem, -⟩ := keepsStrands_park s s.cur.strand s.selfCore s.selfZone hh slotA t
  rw [takeTrap_eq_park ha hs ht hf hr]
  exact hmem
theorem self_takeTrap (slotA : Bool) : (s.takeTrap slotA t).self = s.before.parkedBy slotA t := by
  obtain ⟨-, -, hcur⟩ := keepsStrands_park s s.cur.strand s.selfCore s.selfZone hh slotA t
  have hk : (s.takeTrap slotA t).cur.strand = s.cur.strand := by
    rw [takeTrap_eq_park ha hs ht hf hr]
    have hpark := congrArg Issue.strand hcur
    exact hpark
  rw [State.self, hk, strand_takeTrap ha hh hs ht hf hr, if_pos rfl]
end

/-! ## The atelier's trap (R403) -/

/-- With INTRAP 0 the strand goes on at ATVEC. -/
def Strand.entersAtelierTrap (b : Strand) (atvec : Word) (slotA : Bool) (t : TrapInfo) : Strand :=
  { b with
    pc := atvec, grant := none, taddr := t.addr, tinfo := t.info
    tcause := BitVec.ofNat 10 ((if slotA then 256 else 0) + t.cause.toNat) }

theorem takeTrap_of_atelier {s : State} {t : TrapInfo} (ha : s.inAtelier = true) (hi : (s.core s.selfCore).intrap = false)
    (hf : t.fresh = none) (hr : t.refusal = none) (slotA : Bool) :
    s.takeTrap slotA t =
      ((s.setSelf (s.before.entersAtelierTrap (s.core s.selfCore).atvec slotA t)).setCore s.selfCore
        { s.core s.selfCore with atepc := s.before.pc, intrap := true }).setCur { s.cur with stopped := true, trapped := true } := by
  have ha' : coreIsAtelier (strandCore s.cur.strand) = true := ha
  have hi' : (s.core (strandCore s.cur.strand)).intrap = false := hi
  simp only [State.takeTrap, State.faultMet, hf, hr, ha', State.atelierTrap, hi', Bool.false_eq_true, if_false, if_true]
  rfl

theorem self_takeTrap_of_atelier {s : State} {t : TrapInfo} (ha : s.inAtelier = true) (hi : (s.core s.selfCore).intrap = false)
    (hf : t.fresh = none) (hr : t.refusal = none) (slotA : Bool) :
    (s.takeTrap slotA t).self = s.before.entersAtelierTrap (s.core s.selfCore).atvec slotA t := by
  rw [takeTrap_of_atelier ha hi hf hr]
  exact State.strand_setStrand_self s s.cur.strand _

/-! ## MTS and TRAP -/

theorem exec_trap (code : BitVec 8) (s : State) :
    exec (.trap code) s = .next (s.takeTrap s.cur.slotA { cause := 0x3F#6, addr := 0#64, info := code.setWidth 64 }) := rfl

/-- ATVEC holds an aligned physical address (R402). -/
theorem and_atvecMask_eq_zero {v : Word} (hlt : v.toNat < 2 ^ 52) (h8 : v.toNat % 8 = 0) :
    v &&& (~~~(BitVec.ofNat 64 (2 ^ 52 - 1)) ||| 0x7#64) = 0#64 := by
  have hhigh := (and_highMask_eq_zero v (w := 52) (by decide)).mpr hlt
  have hlow : v &&& 0x7#64 = 0#64 := (and_lowMask_eq_zero v (w := 3) (by decide)).mpr h8
  rw [BitVec.and_or_distrib_left, hhigh, hlow, BitVec.or_zero]

theorem writeSpecial_fmt (s : State) (v : Word) : s.writeSpecial 0x001 v = s.mapRegs fun r => { r with fmt := v.setWidth 14 } := by
  rw [BitVec.setWidth_eq_extractLsb' (by decide)]; rfl
theorem writeSpecial_stat (s : State) (v : Word) : s.writeSpecial 0x002 v = s.mapRegs fun r => { r with stat := v.setWidth 6 } := by
  rw [BitVec.setWidth_eq_extractLsb' (by decide)]; rfl

/-- Settles O14: MTS by what each register lets through, TRAP by the two entries of a trap. -/
theorem mtsAndTrapComplete : Obligations.MtsAndTrapComplete := by
  refine ⟨fun s d => ⟨fun h => ?_, fun h => ?_, fun h => ?_, fun ha hlt h8 => ?_, fun n hn => ?_⟩,
    fun s code => ⟨fun hp => ?_, fun ha hi => ?_⟩⟩
  · have hwrite := execMts_fits (num := 0x001#10) (.inl (by decide)) rfl ((and_highMask_eq_zero (s.gr d) (by decide)).mpr h)
    exact ⟨_, hwrite.trans (congrArg _ (writeSpecial_fmt s _)), onlyRegs_mapRegs s _, by rw [State.self_mapRegs]⟩
  · have hwrite := execMts_fits (num := 0x002#10) (.inl (by decide)) rfl ((and_highMask_eq_zero (s.gr d) (by decide)).mpr h)
    exact ⟨_, hwrite.trans (congrArg _ (writeSpecial_stat s _)), onlyRegs_mapRegs s _, by rw [State.self_mapRegs]⟩
  · exact ⟨_, execMts_fits (num := 0x030#10) (.inl (by decide)) rfl ((and_lowMask_eq_zero (w := 6) _ (by decide)).mpr h),
      onlySelf_setSelf s _, State.self_setSelf s _⟩
  · exact ⟨_, execMts_fits (num := 0x102#10) (.inr ha) rfl (and_atvecMask_eq_zero hlt h8), rfl,
      State.core_setCore_self s _ _, fun c hc => State.core_setCore_ne s _ hc⟩
  · have hro : n.toNat < 0x100 ∧ specialReserved n.toNat = some 0#64 ∧ s.writeSpecial n.toNat (s.gr d) = s := by
      fin_cases hn <;> exact ⟨by decide, rfl, rfl⟩
    obtain ⟨hlt, hmask, hkeep⟩ := hro
    exact (execMts_fits (.inl hlt) hmask BitVec.and_zero).trans (congrArg _ hkeep)
  · obtain ⟨hh, hta, hs, ht, ha⟩ := hp
    have hself := self_takeTrap ha hh hs ht (t := { cause := 0x3F#6, addr := 0#64, info := code.setWidth 64 }) rfl rfl s.cur.slotA
    exact ⟨_, ⟨exec_trap code s, congrArg (·.regs) hself, congrArg (·.taddr) hself, congrArg (·.tinfo) hself, congrArg (·.tcause) hself,
      mem_takeTrap ha hh hs ht rfl rfl _, fun k hk => (strand_takeTrap ha hh hs ht rfl rfl _ k).trans (if_neg hk)⟩,
      congrArg (·.st) hself, congrArg (·.pc) hself⟩
  · have htrap := takeTrap_of_atelier ha hi (t := { cause := 0x3F#6, addr := 0#64, info := code.setWidth 64 }) rfl rfl s.cur.slotA
    have hself := self_takeTrap_of_atelier ha hi (t := { cause := 0x3F#6, addr := 0#64, info := code.setWidth 64 }) rfl rfl s.cur.slotA
    refine ⟨_, ⟨exec_trap code s, congrArg (·.regs) hself, congrArg (·.taddr) hself, congrArg (·.tinfo) hself, congrArg (·.tcause) hself,
      ?_, fun k hk => ?_⟩, congrArg (·.pc) hself, ?_⟩
    · rw [htrap]; rfl
    · rw [htrap]; exact State.strand_setSelf_ne s _ hk
    · rw [htrap]; exact State.core_setCore_self _ _ _

end Sys2Proof.Machine
end

section
/-! SUPPORT. What a rollback, a write in the sight of tasks, and the translation of an address leave as it is; the accesses that loads
and stores issue. -/

namespace Sys2Proof.Machine

/-! ## Rollbacks (R182) -/

/-- What rollbacks may change: tasks, the strands that run them, accesses that go, and whether the issuing pair goes on. -/
def RolledBack (s t : State) : Prop :=
  t = { s with zones := t.zones, strands := t.strands, accesses := t.accesses, cur := t.cur } ∧
  t.cur.before = s.cur.before ∧ t.cur.strand = s.cur.strand ∧ ∀ x, x ∈ t.accesses → x ∈ s.accesses

theorem RolledBack.refl (s : State) : RolledBack s s := ⟨rfl, rfl, rfl, fun _ h => h⟩
theorem RolledBack.trans {s t u : State} (h : RolledBack s t) (h' : RolledBack t u) : RolledBack s u := by
  obtain ⟨ht, hb, hk, ha⟩ := h
  obtain ⟨hu, hb', hk', ha'⟩ := h'
  exact ⟨by rw [hu, ht], hb'.trans hb, hk'.trans hk, fun x hx => ha x (ha' x hx)⟩
theorem RolledBack.foldl {α : Type} {f : State → α → State} (hf : ∀ s x, RolledBack s (f s x)) (l : List α) (s : State) :
    RolledBack s (l.foldl f s) := by
  induction l generalizing s with
  | nil => exact .refl s
  | cons x l ih => exact (hf s x).trans (ih _)

theorem rolledBack_rollback (s : State) (z o : Nat) : RolledBack s (s.rollback z o) := by
  simp only [State.rollback]
  split
  · exact .refl s
  · split
    · refine ⟨rfl, ?_, ?_, fun x hx => (List.mem_filter.mp hx).1⟩
      · simp only; split <;> rfl
      · simp only; split <;> rfl
    · exact ⟨rfl, rfl, rfl, fun _ h => h⟩
theorem rolledBack_touchLine (s : State) (self : Option (Nat × Nat)) (line : Nat) : RolledBack s (s.touchLine self line) :=
  RolledBack.foldl (fun s z => RolledBack.foldl (fun s (t : Task) => rolledBack_rollback s z t.order) _ s) s.zones.keys s

theorem RolledBack.sameBytes {s t : State} (h : RolledBack s t) : SameBytes s t := by
  rw [h.1]; exact ⟨rfl, rfl⟩

/-! ## The pair stays as it was found -/

theorem cur_touch (s : State) (pa : Nat) : (s.touch pa).cur = s.cur := by
  unfold State.touch State.zeroFrame; split <;> rfl
theorem cur_writePa (s : State) (pa n x : Nat) : (s.writePa pa n x).cur = s.cur := by
  unfold State.writePa; simp only; split <;> exact cur_touch s pa
theorem before_writeShared (s : State) (self : Option (Nat × Nat)) (pa n x : Nat) : (s.writeShared self pa n x).before = s.before := by
  obtain ⟨-, hbefore, -, -⟩ := rolledBack_touchLine s self (pa / 64)
  exact (congrArg Issue.before (cur_writePa _ _ _ _)).trans hbefore
theorem markLeaf_cases (s : State) (self : Option (Nat × Nat)) (l : Leaf) (dirty : Bool) :
    s.markLeaf self l dirty = s ∨ ∃ x, s.markLeaf self l dirty = s.writeShared self l.entryPa 1 x :=
  (ite_eq_or_eq _ _ _).imp id fun h => ⟨_, h⟩
theorem before_markLeaf (s : State) (self : Option (Nat × Nat)) (l : Leaf) (dirty : Bool) : (s.markLeaf self l dirty).before = s.before := by
  obtain h | ⟨x, h⟩ := markLeaf_cases s self l dirty
  · rw [h]
  · rw [h, before_writeShared]
theorem before_markDirty (s : State) (self : Option (Nat × Nat)) (line : Nat) : (s.markDirty self line).before = s.before := by
  unfold State.markDirty
  split
  · exact before_markLeaf ..
  · rfl

section
variable {s t : State} {acc : Acc} {va : Word} {w : Who}

theorem before_translate {pa : Nat} (h : s.translate acc va = .ok (pa, t)) : t.before = s.before := by
  unfold State.translate at h
  split at h
  · cases h
  · split at h
    · cases h
    · split at h
      · cases h
      · cases h; exact before_markLeaf ..
theorem before_locate {pa : Nat} (h : s.locate acc va = .ok (pa, t)) : t.before = s.before := by
  unfold State.locate at h
  split at h
  · cases h
    split
    · exact before_markDirty ..
    · rfl
  · exact before_translate h
theorem before_protect {r : Region} (h : s.protect w acc va = .ok (r, t)) : t.before = s.before := by
  simp only [State.protect] at h
  split at h
  · cases h; rfl
  · split at h
    · split at h
      · cases h; rfl
      · cases h
    · cases h
    · cases h

variable {p : Place}

theorem before_settle {homes : BitVec 64} {report : Word} (h : s.settle acc va homes report = .ok (p, t)) : t.before = s.before := by
  unfold State.settle at h
  split at h
  · cases h; rfl
  · split at h
    · cases h
    · next pa u hu =>
      rw [← before_locate hu]
      split at h
      · cases h; rfl
      · simp only at h
        split at h <;> (cases h; rfl)
theorem before_resolveVirtual {report : Word} (h : s.resolveVirtual w acc va report = .ok (p, t)) : t.before = s.before := by
  unfold State.resolveVirtual at h
  split at h
  · cases h
  · next r u hu => exact (before_settle h).trans (before_protect hu)
theorem before_resolveScratch {q : Nat} (h : s.resolveScratch q acc va = .ok (p, t)) : t.before = s.before := by
  unfold State.resolveScratch at h
  split at h
  · cases h
  · split at h <;> (cases h; rfl)
theorem before_resolveWindow (h : s.resolveWindow w acc va = .ok (p, t)) : t.before = s.before := by
  simp only [State.resolveWindow] at h
  split at h
  · cases h
  · split at h
    · cases h; rfl
    · split at h
      · exact before_resolveVirtual h
      · split at h
        · cases h
        · exact before_resolveScratch h
theorem before_resolveOrdinary (h : s.resolveOrdinary w acc va = .ok (p, t)) : t.before = s.before := by
  simp only [State.resolveOrdinary] at h
  split at h
  · cases h
  · split at h
    · split at h
      · cases h
      · exact before_resolveScratch h
    · split at h
      · exact before_resolveWindow h
      · exact before_resolveVirtual h
theorem before_resolveStack (h : s.resolveStack w acc va = .ok (p, t)) : t.before = s.before := by
  simp only [State.resolveStack] at h
  split at h
  · cases h
  · split at h
    · cases h; rfl
    · split at h
      · cases h
      · split at h
        · cases h
        · exact before_resolveOrdinary h
theorem before_resolvePhysical (h : s.resolvePhysical acc va = .ok (p, t)) : t.before = s.before := by
  simp only [State.resolvePhysical] at h
  split at h
  · cases h
  · split at h
    · split at h
      · cases h
      · split at h <;> (cases h; rfl)
    · split at h
      · cases h
      · split at h <;> (cases h; rfl)
theorem before_resolve (h : s.resolve w acc va = .ok (p, t)) : t.before = s.before := by
  unfold State.resolve at h
  split at h
  · exact before_resolvePhysical h
  · split at h
    · exact before_resolveStack h
    · exact before_resolveOrdinary h

variable {n pa : Nat} {cached : Option (Nat × Nat)}

/-- A place that is judged fit is the one named, on the state given. -/
theorem checkPlace_ok {va' : Word} {pa' : Nat} {cached' : Option (Nat × Nat)} (h : s.checkPlace w acc va' n pa cached = .ok pa' cached' t) :
    t = s := by
  unfold State.checkPlace at h
  split at h
  · cases h
  · split at h
    · cases h
    · split at h
      · cases h
      · split at h
        · cases h
        · split at h
          · cases h
          · split at h
            · cases h
            · cases h; rfl
/-- The checks of an access leave the pair as it was found (R35). -/
theorem before_check (h : s.check acc va n = .ok pa cached t) : t.before = s.before := by
  simp only [State.check, State.checkAs] at h
  split at h
  · cases h
  · split at h
    · split at h <;> cases h
    · cases h
    · cases h
    · split at h <;> cases h
    · next hr => rw [checkPlace_ok h, before_resolve hr]
end

/-! ## Loads and stores outside any task (R103–R105, R127) -/

section
variable {s t : State} {va : Word} {n pa : Nat} {cached : Option (Nat × Nat)} (ht : s.before.task = none)
include ht

theorem load_of_check_ok (h : s.check .load va n = .ok pa cached t) (kind : AccessKind) (dest : Dest) :
    s.load kind dest va n = .next (t.issueRead kind dest va pa n cached) := by
  have htask : t.before.task = none := by rw [before_check h, ht]
  simp only [State.load, h, selfTask_none htask, Option.filter_none, gated_of_no_task htask]

theorem store_of_check_ok (h : s.check .store va n = .ok pa cached t) (x : Nat) :
    s.store va n x = .next (t.issueStore va pa n (x % 2 ^ (8 * n)) cached) := by
  have htask : t.before.task = none := by rw [before_check h, ht]
  simp only [State.store, h, selfTask_none htask, Option.filter_none, gated_of_no_task htask]
end

/-! ## The issue of an access (R13, R30) -/

theorem Dest.mark_only (d : Dest) (full : Bool) (r : RegFile) :
    d.mark full r = { r with gf := (d.mark full r).gf, vf := (d.mark full r).vf } := by
  cases d with
  | none => rfl
  | g i => simp only [Dest.mark, RegFile.markG]; split <;> rfl
  | v i => rfl
theorem RegFile.fullG_markG (r : RegFile) (d i : Reg) (full : Bool) :
    (r.markG d full).fullG i = if d ≠ 0#4 ∧ i = d then full else r.fullG i := by
  unfold RegFile.markG
  by_cases hd : d = 0#4
  · simp [hd]
  · have hlt : d.toNat < 16 := d.isLt
    by_cases hi : i = d
    · subst hi; simp [hd, RegFile.fullG, setBit_getLsbD _ _ _ _ hlt]
    · simp [hd, hi, RegFile.fullG, setBit_getLsbD _ _ _ _ hlt, BitVec.toNat_inj]
theorem RegFile.fullV_markV (r : RegFile) (d i : Reg) (full : Bool) :
    (r.markV d full).fullV i = if i = d then full else r.fullV i := by
  have hlt : d.toNat < 16 := d.isLt
  simp [RegFile.markV, RegFile.fullV, setBit_getLsbD _ _ _ _ hlt, BitVec.toNat_inj]
theorem Dest.fullG_mark_false (d : Dest) (r : RegFile) (i : Reg) :
    (d.mark false r).fullG i = (r.fullG i && !(i != 0#4 && d == .g i)) := by
  cases d with
  | none => simp [Dest.mark]
  | v j => simp [Dest.mark, RegFile.markV, RegFile.fullG]
  | g j =>
    simp only [Dest.mark, RegFile.fullG_markG]
    by_cases hij : i = j
    · subst hij
      by_cases hi : i = 0#4 <;> simp [hi]
    · simp [hij, Ne.symm hij]
theorem Dest.fullV_mark_false (d : Dest) (r : RegFile) (i : Reg) :
    (d.mark false r).fullV i = (r.fullV i && !(d == .v i)) := by
  cases d with
  | none => simp [Dest.mark]
  | g j => simp only [Dest.mark, RegFile.markG]; split <;> simp [RegFile.fullV]
  | v j =>
    simp only [Dest.mark, RegFile.fullV_markV]
    by_cases hij : i = j
    · subst hij; simp
    · simp [hij, Ne.symm hij]

theorem self_issueAccess (s : State) (a : Access) :
    (s.issueAccess a).self = { s.self with regs := a.dest.mark false s.self.regs } := State.self_mapRegs s _

/-- Settles O16: past its checks an access outside any task issues; the issue is one record update and the mark of its destination. -/
theorem loadsAndStoresIssueTheirAccess : Obligations.LoadsAndStoresIssueTheirAccess := by
  refine ⟨fun s s' d base idx sz esz sg sc off off8 pa cached ht => ?_, fun s a => ?_⟩
  · refine ⟨fun h => ?_, fun h => ?_, fun h => ?_, fun h => ?_, fun h => ?_, fun h => ?_, fun h => ?_⟩
    · exact load_of_check_ok ht h _ _
    · exact load_of_check_ok ht h _ _
    · exact load_of_check_ok ht h _ _
    · exact load_of_check_ok ht h _ _
    · exact store_of_check_ok ht h _
    · exact store_of_check_ok ht h _
    · exact store_of_check_ok ht h _
  · have hself := self_issueAccess s a
    refine ⟨rfl, fun k hk => State.strand_mapRegs_ne s _ hk, ?_, fun i => ?_, fun i => ?_⟩
    · rw [hself, ← Dest.mark_only]
    · rw [hself]; exact Dest.fullG_mark_false a.dest s.self.regs i
    · rw [hself]; exact Dest.fullV_mark_false a.dest s.self.regs i

end Sys2Proof.Machine
end

section
/-! SUPPORT. What the completion of an access changes, by the kind of access, and the answers that set a waiting strand going. -/

namespace Sys2Proof.Machine

/-! ## Charging and touching leave the rest (R312, R465) -/

/-- Charging changes the tenants' counters and the lines that caches hold, and draws free values. -/
def Charged (s t : State) : Prop := t = { s with tenants := t.tenants, l2 := t.l2, free := t.free }

theorem Charged.trans {s t u : State} (h : Charged s t) (h' : Charged t u) : Charged s u := by
  unfold Charged at *; rw [h', h]
theorem charged_dropCopies (s : State) (line : Nat) (gone : Nat → Bool) : Charged s (s.dropCopies line gone) := by
  unfold State.dropCopies; split <;> rfl
theorem charged_fitVia (s : State) (via : Option Nat) (line : Nat) : Charged s (s.fitVia via line) := by
  cases via with
  | none => exact rfl
  | some c =>
    simp only [State.fitVia, State.fitL1]
    split
    · exact rfl
    · exact (charged_dropCopies s _ _).trans rfl
theorem charged_count (s : State) (tenant : Nat) (c : Nat × Nat) (frame : Nat) (via : Option Nat) (how : LineUse) :
    Charged s (s.count tenant c frame via how) := by
  simp only [State.count]; split <;> rfl
theorem charged_meetLine (s : State) (line : Nat) (how : LineUse) : Charged s (s.meetLine line how) := by
  unfold State.meetLine; split <;> rfl
theorem charged_meetFrame (s : State) (frame : Nat) (how : LineUse) : Charged s (s.meetFrame frame how) := by
  unfold State.meetFrame
  generalize s.linesOf frame = lines
  induction lines generalizing s with
  | nil => exact rfl
  | cons line _ ih => exact (charged_meetLine s line how).trans (ih _)
theorem charged_chargeFor (s : State) (payer : Option Nat) (c : Nat × Nat) (frame : Nat) (via : Option Nat) (how : LineUse) :
    Charged s (s.chargeFor payer c frame via how) := by
  cases payer with
  | none => exact charged_meetFrame s frame how
  | some t => exact (charged_count s t c frame via how).trans (charged_fitVia _ via c.2)

/-- Bytes, poison and marks differ, and nothing else. -/
def OnlyBytes (s t : State) : Prop := t = { s with mem := t.mem, poison := t.poison, zeroed := t.zeroed }

theorem onlyBytes_touch (s : State) (pa : Nat) : OnlyBytes s (s.touch pa) := by
  unfold State.touch State.zeroFrame; split <;> rfl
theorem onlyBytes_writePa (s : State) (pa n x : Nat) : OnlyBytes s (s.writePa pa n x) := by
  have h : ∃ p, s.writePa pa n x = { s.touch pa with mem := (s.touch pa).mem.writeN pa n x, poison := p } := by
    unfold State.writePa
    simp only
    split <;> exact ⟨_, rfl⟩
  obtain ⟨p, hp⟩ := h
  unfold OnlyBytes
  rw [hp, onlyBytes_touch s pa]

/-! ## Accesses go by rollbacks of speculative tasks alone (R182) -/

/-- No task is speculative. -/
def AllIrrevocable (s : State) : Prop := ∀ z x, x ∈ (s.zone z).tasks → x.irrevocable = true
/-- Accesses only go, and while no task is speculative they stay, as every task does. -/
def DropsOnly (s t : State) : Prop :=
  (∀ x, x ∈ t.accesses → x ∈ s.accesses) ∧ (AllIrrevocable s → t.accesses = s.accesses ∧ t.zones = s.zones)

theorem DropsOnly.of_eq {s t : State} (ha : t.accesses = s.accesses) (hz : t.zones = s.zones) : DropsOnly s t :=
  ⟨fun _ h => ha ▸ h, fun _ => ⟨ha, hz⟩⟩
theorem DropsOnly.trans {s t u : State} (h : DropsOnly s t) (h' : DropsOnly t u) : DropsOnly s u := by
  refine ⟨fun x hx => h.1 x (h'.1 x hx), fun hs => ?_⟩
  obtain ⟨ha, hz⟩ := h.2 hs
  have ht : AllIrrevocable t := fun z x hx => hs z x (by rwa [State.zone, ← hz])
  obtain ⟨ha', hz'⟩ := h'.2 ht
  exact ⟨ha'.trans ha, hz'.trans hz⟩
theorem Charged.dropsOnly {s t : State} (h : Charged s t) : DropsOnly s t := .of_eq (by rw [h]) (by rw [h])
theorem OnlyBytes.dropsOnly {s t : State} (h : OnlyBytes s t) : DropsOnly s t := .of_eq (by rw [h]) (by rw [h])

theorem touchLine_of_allIrrevocable {s : State} (h : AllIrrevocable s) (self : Option (Nat × Nat)) (line : Nat) :
    s.touchLine self line = s := by
  refine List.foldl_fixed' (fun z => ?_) _
  have hnone : ((s.zone z).tasks.filter fun t =>
      !t.irrevocable && self != some (z, t.order) && (t.writes.contains line || t.reads.contains line)) = [] :=
    List.filter_eq_nil_iff.mpr fun t ht => by simp [h z t ht]
  simp only [hnone, List.foldl_nil]
theorem dropsOnly_touchLine (s : State) (self : Option (Nat × Nat)) (line : Nat) : DropsOnly s (s.touchLine self line) := by
  obtain ⟨-, -, -, hsub⟩ := rolledBack_touchLine s self line
  exact ⟨hsub, fun h => by rw [touchLine_of_allIrrevocable h]; exact ⟨rfl, rfl⟩⟩
theorem dropsOnly_markDirty (s : State) (self : Option (Nat × Nat)) (line : Nat) : DropsOnly s (s.markDirty self line) := by
  unfold State.markDirty
  split
  case h_1 l _ =>
    obtain h | ⟨x, h⟩ := markLeaf_cases s self l true
    · rw [h]; exact .of_eq rfl rfl
    · rw [h]; exact (dropsOnly_touchLine s self _).trans (onlyBytes_writePa _ _ _ _).dropsOnly
  case h_2 => exact .of_eq rfl rfl

/-! ## What a walk and its marks depend on (R259) -/

theorem Charged.sameBytes {s t : State} (h : Charged s t) : SameBytes s t := ⟨by rw [h], by rw [h]⟩
theorem Charged.module_eq {s t : State} (h : Charged s t) : t.module = s.module := by rw [h]

theorem SameBytes.writeShared {s t : State} (h : SameBytes s t) (self : Option (Nat × Nat)) (pa n x : Nat) :
    SameBytes (s.writeShared self pa n x) (t.writeShared self pa n x) := by
  have hs := (rolledBack_touchLine s self (pa / 64)).sameBytes
  have ht := (rolledBack_touchLine t self (pa / 64)).sameBytes
  exact SameBytes.writePa ⟨ht.1.trans (h.1.trans hs.1.symm), ht.2.trans (h.2.trans hs.2.symm)⟩ pa n x
theorem SameBytes.ite {s t s' t' : State} (c : Prop) [Decidable c] (h : SameBytes s t) (h' : SameBytes s' t') :
    SameBytes (if c then s else s') (if c then t else t') := by
  split <;> assumption
theorem SameBytes.markLeaf {s t : State} (h : SameBytes s t) (self : Option (Nat × Nat)) (l : Leaf) (dirty : Bool) :
    SameBytes (s.markLeaf self l dirty) (t.markLeaf self l dirty) := by
  simp only [State.markLeaf, h.readPa]
  exact SameBytes.ite _ h (h.writeShared _ _ _ _)
theorem SameBytes.walkFrom {s t : State} (h : SameBytes s t) (va fuel table : Nat) :
    t.walkFrom va fuel table = s.walkFrom va fuel table := by
  induction fuel generalizing table with
  | zero => rfl
  | succ fuel ih => simp only [State.walkFrom, State.freshFrame, h.readPa, h.marked, ih]
theorem SameBytes.markDirty {s t : State} (h : SameBytes s t) (hm : t.module = s.module) (self : Option (Nat × Nat)) (line : Nat) :
    SameBytes (s.markDirty self line) (t.markDirty self line) := by
  have hwalk : t.walk (BitVec.ofNat 64 (64 * line)) = s.walk (BitVec.ofNat 64 (64 * line)) := by
    simp only [State.walk, hm, h.walkFrom]
  simp only [State.markDirty, hwalk]
  split
  · exact h.markLeaf _ _ _
  · exact h

/-! ## A register filled (R30) -/

/-- A fill writes one register of one strand, and may let that strand go on; the pair that issues sees it too. -/
theorem fill_eq (s : State) (k : Nat) (d : Dest) (x : Nat) :
    ∃ st c, s.fill k d x =
      { s.setStrand k { s.strand k with regs := d.mark true (d.write x (s.strand k).regs), st := st } with cur := c } := by
  unfold State.fill
  by_cases h : s.cur.strand = k
  · exact ⟨_, _, if_pos h⟩
  · exact ⟨_, _, if_neg h⟩
theorem regs_fill (s : State) (k : Nat) (d : Dest) (x : Nat) :
    ((s.fill k d x).strand k).regs = d.mark true (d.write x (s.strand k).regs) := by
  obtain ⟨st, c, h⟩ := fill_eq s k d x
  rw [h]
  exact congrArg Strand.regs (State.strand_setStrand_self s k _)
theorem sameBytes_fill (s : State) (k : Nat) (d : Dest) (x : Nat) : SameBytes s (s.fill k d x) := by
  obtain ⟨st, c, h⟩ := fill_eq s k d x
  rw [h]; exact ⟨rfl, rfl⟩
theorem dropsOnly_fill (s : State) (k : Nat) (d : Dest) (x : Nat) : DropsOnly s (s.fill k d x) := by
  obtain ⟨st, c, h⟩ := fill_eq s k d x
  rw [h]; exact .of_eq rfl rfl
theorem regs_wakeDrained (s : State) (k : Nat) : ((s.wakeDrained k).strand k).regs = (s.strand k).regs := by
  unfold State.wakeDrained
  split
  · rw [State.wake, State.strand_setStrand_self]
  · rfl
theorem sameBytes_wakeDrained (s : State) (k : Nat) : SameBytes s (s.wakeDrained k) := by
  unfold State.wakeDrained; split <;> exact ⟨rfl, rfl⟩
theorem dropsOnly_wakeDrained (s : State) (k : Nat) : DropsOnly s (s.wakeDrained k) := by
  unfold State.wakeDrained; split <;> exact .of_eq rfl rfl

theorem Dest.delivered_g {d : Reg} (hd : d ≠ 0#4) (x : Nat) (r : RegFile) :
    ((Dest.g d).mark true ((Dest.g d).write x r)).fullG d = true ∧
      ((Dest.g d).mark true ((Dest.g d).write x r)).readG d = BitVec.ofNat 64 x := by
  refine ⟨?_, ?_⟩
  · simp [Dest.mark, Dest.write, RegFile.fullG_markG, hd]
  · have hmark (r : RegFile) : (r.markG d true).readG d = r.readG d := by unfold RegFile.markG; split <;> rfl
    simp [Dest.mark, Dest.write, hmark, RegFile.readG_writeG, hd]
theorem Dest.delivered_v (d : Reg) (x : Nat) (r : RegFile) :
    ((Dest.v d).mark true ((Dest.v d).write x r)).fullV d = true ∧
      ((Dest.v d).mark true ((Dest.v d).write x r)).readV d = BitVec.ofNat 512 x := by
  refine ⟨?_, ?_⟩
  · simp [Dest.mark, Dest.write, RegFile.fullV_markV]
  · exact (RegFile.readV_writeV r d d _).trans (if_pos rfl)

/-! ## The completion of an access (R30, R103, R127, R276) -/

/-- What an access that is no store delivers to its register. -/
def State.delivers (s : State) (a : Access) : Nat :=
  match a.kind with
  | .load sg => extendLoad a.n sg (s.sample a)
  | .bcast => broadcastBytes a.n (s.sample a)
  | .special => s.sampleSpecial (strandCore a.strand) a.data
  | _ => a.data

/-- An access that is no store fills its register; the bytes of memory read as before. -/
theorem perform_fills (s : State) {a : Access} (h : a.kind ≠ .store) :
    ∃ v, s.perform a = v.fill a.strand a.dest (s.delivers a) ∧ DropsOnly s v ∧ ∀ q, v.readPa q 1 = s.readPa q 1 := by
  have hread : DropsOnly s ((s.touch a.pa).touchLine none (a.pa / 64)) ∧
      ∀ q, ((s.touch a.pa).touchLine none (a.pa / 64)).readPa q 1 = s.readPa q 1 :=
    ⟨(onlyBytes_touch s a.pa).dropsOnly.trans (dropsOnly_touchLine _ _ _),
      fun q => ((rolledBack_touchLine _ _ _).sameBytes.readPa q 1).trans (readPa_touch s a.pa q)⟩
  cases hk : a.kind with
  | store => exact absurd hk h
  | load sg => exact ⟨_, by simp only [State.perform, State.delivers, hk], hread⟩
  | bcast => exact ⟨_, by simp only [State.perform, State.delivers, hk], hread⟩
  | value => exact ⟨s, by simp only [State.perform, State.delivers, hk], .of_eq rfl rfl, fun _ => rfl⟩
  | special => exact ⟨s, by simp only [State.perform, State.delivers, hk], .of_eq rfl rfl, fun _ => rfl⟩

/-- The page of a store to a tenant's line is marked dirty before the store becomes visible (R259). -/
def State.dirtied (s : State) (line : Option (Nat × Nat)) (payer : Option Nat) : State :=
  match line, payer with
  | some c, some _ => s.markDirty none c.2
  | _, _ => s

theorem SameBytes.dirtied {s t : State} (h : SameBytes s t) (hm : t.module = s.module) (line : Option (Nat × Nat)) (payer : Option Nat) :
    SameBytes (s.dirtied line payer) (t.dirtied line payer) := by
  cases line with
  | none => exact h
  | some c => cases payer with
    | none => exact h
    | some _ => exact h.markDirty hm none c.2

/-- A store becomes visible as a write, after charging and the mark of its page. -/
theorem storeVisible_writes (s : State) (payer : Option Nat) (line : Option (Nat × Nat)) (via : Option Nat) (pa n x : Nat) :
    ∃ v, s.storeVisible payer none line via pa n x = v.writePa pa n x ∧ DropsOnly s v ∧ SameBytes (s.dirtied line payer) v := by
  have htouch (t : State) := (rolledBack_touchLine t none (pa / 64)).sameBytes
  cases line with
  | none => exact ⟨_, rfl, dropsOnly_touchLine _ _ _, htouch s⟩
  | some c =>
    have hcharge := charged_chargeFor s payer c (pa / 64) via .store
    cases payer with
    | none =>
      exact ⟨_, rfl, hcharge.dropsOnly.trans (dropsOnly_touchLine _ _ _), hcharge.sameBytes.trans (htouch _)⟩
    | some t =>
      exact ⟨_, rfl, (hcharge.dropsOnly.trans (dropsOnly_markDirty _ _ _)).trans (dropsOnly_touchLine _ _ _),
        (hcharge.sameBytes.markDirty hcharge.module_eq none c.2).trans (htouch _)⟩

theorem perform_store {s : State} {a : Access} (h : a.kind = .store) (hsys : paIsSystem a.pa = false) :
    s.perform a = s.storeVisible a.tenant none a.line a.l1 a.pa a.n a.data := by
  simp only [State.perform, h, hsys, Bool.false_eq_true, if_false]

/-- Whatever an access outside system space is, its completion drops no access but by rollbacks. -/
theorem dropsOnly_perform (s : State) {a : Access} (hsys : paIsSystem a.pa = false) : DropsOnly s (s.perform a) := by
  by_cases hk : a.kind = .store
  · obtain ⟨v, hv, hdrops, -⟩ := storeVisible_writes s a.tenant a.line a.l1 a.pa a.n a.data
    rw [perform_store hk hsys, hv]
    exact hdrops.trans (onlyBytes_writePa _ _ _ _).dropsOnly
  · obtain ⟨v, hv, hdrops, -⟩ := perform_fills s hk
    rw [hv]
    exact hdrops.trans (dropsOnly_fill _ _ _ _)

section
variable {s : State} {a : Access} {i : Nat} (hi : s.accesses[i]? = some a)
include hi

theorem completeAt_eq : s.completeAt i = (State.perform { s with accesses := s.accesses.eraseIdx i } a).wakeDrained a.strand := by
  simp only [State.completeAt, hi]

/-- ACCESS_COMPLETION of an access that may complete. -/
theorem execAccessCompletion_of_mayComplete (hx : s.input.index = i) (ho : (s.accesses.take i).any (fun b => b.orders a) = false)
    (hw : s.accessWaits a = false) : exec .accessCompletion s = .next (s.completeAt i) := by
  have hmay : s.mayComplete i = true := by simp only [State.mayComplete, hi, Option.any_some, hw, ho]; rfl
  show Host.Outcome.next (s.completeAccess s.input.index) = _
  simp only [State.completeAccess, hx, hmay, if_true]

theorem dropsOnly_completeAt (hsys : paIsSystem a.pa = false) :
    DropsOnly { s with accesses := s.accesses.eraseIdx i } (s.completeAt i) := by
  rw [completeAt_eq hi]
  exact (dropsOnly_perform _ hsys).trans (dropsOnly_wakeDrained _ _)

theorem regs_completeAt (h : a.kind ≠ .store) :
    ∃ r : RegFile, ((s.completeAt i).strand a.strand).regs =
      a.dest.mark true (a.dest.write (State.delivers { s with accesses := s.accesses.eraseIdx i } a) r) := by
  obtain ⟨v, hv, -, -⟩ := perform_fills { s with accesses := s.accesses.eraseIdx i } h
  exact ⟨_, by rw [completeAt_eq hi, regs_wakeDrained, hv, regs_fill]⟩

theorem readPa_completeAt (h : a.kind ≠ .store) (q : Nat) : (s.completeAt i).readPa q 1 = s.readPa q 1 := by
  obtain ⟨v, hv, -, hbytes⟩ := perform_fills { s with accesses := s.accesses.eraseIdx i } h
  rw [completeAt_eq hi, (sameBytes_wakeDrained _ _).readPa, hv, (sameBytes_fill _ _ _ _).readPa, hbytes]
  rfl

theorem readPa_completeAt_store (h : a.kind = .store) (hsys : paIsSystem a.pa = false) :
    (s.completeAt i).readPa a.pa a.n = a.data % 256 ^ a.n ∧
      ∀ q, q < a.pa ∨ a.pa + a.n ≤ q → (s.completeAt i).readPa q 1 = (s.dirtied a.line a.tenant).readPa q 1 := by
  obtain ⟨v, hv, -, hbytes⟩ :=
    storeVisible_writes { s with accesses := s.accesses.eraseIdx i } a.tenant a.line a.l1 a.pa a.n a.data
  have hdone : SameBytes (v.writePa a.pa a.n a.data) (s.completeAt i) := by
    rw [completeAt_eq hi, perform_store h hsys, hv]
    exact sameBytes_wakeDrained _ _
  have hdirty : SameBytes (s.dirtied a.line a.tenant) v :=
    (SameBytes.dirtied (s := s) (t := { s with accesses := s.accesses.eraseIdx i }) ⟨rfl, rfl⟩ rfl _ _).trans hbytes
  exact ⟨by rw [hdone.readPa, readPa_writePa_self], fun q hq => by rw [hdone.readPa, readPa_writePa_out v _ hq, hdirty.readPa]⟩
end

/-! ## Answers (R218, R449) -/

section
variable {s : State} (hsil : s.silentStrand s.input.strand = false)
include hsil

theorem execAnswerArrival_answer (hst : (s.strand s.input.strand).st = .waiting .answer) :
    execAnswerArrival s = .next (s.release s.input.strand { value := 0#512 }) := by
  simp only [execAnswerArrival, hsil, hst, Bool.false_eq_true, if_false]

variable {acc : Nat} {va : Word} (hst : (s.strand s.input.strand).st = .waiting (.remote acc va))
include hst

theorem execAnswerArrival_remote (hf : s.input.flag = false) :
    execAnswerArrival s = .next (s.release s.input.strand { value := s.input.wide }) := by
  simp only [execAnswerArrival, hsil, hst, hf, Bool.false_eq_true, if_false]
/-- The other module's fault is taken as the waiting pair's own. -/
theorem execAnswerArrival_fault (hf : s.input.flag = true) :
    execAnswerArrival s = .next (State.takeTrap
      { s with cur := { strand := s.input.strand, before := { s.strand s.input.strand with st := .ready } } } false
      (remoteTrap s.input.off s.input.level acc va s.input.value.toNat)) := by
  simp only [execAnswerArrival, hsil, hst, hf, Bool.false_eq_true, if_false, if_true]
end

/-- Settles O17: the completion by the kind of the access, the answer by what it brings. -/
theorem accessesAndAnswersComplete : Obligations.AccessesAndAnswersComplete := by
  refine ⟨fun s a i hx hi ho hw hsys => ?_, fun s => ⟨fun hst hsil => ?_, fun acc va hst hsil hf => ?_, ?_⟩⟩
  · have hdrops := dropsOnly_completeAt hi hsys
    have hsample : State.sample { s with accesses := s.accesses.eraseIdx i } a = s.readPa a.pa a.n := by
      simp only [State.sample, hsys]; rfl
    refine ⟨_, execAccessCompletion_of_mayComplete hi hx ho hw, hdrops.1, fun h => (hdrops.2 h).1, ?_, ?_, ?_, ?_, ?_,
      readPa_completeAt hi⟩
    · intro sg d hk hdest hd
      obtain ⟨r, hr⟩ := regs_completeAt hi (by simp [hk])
      simp only [hr, hdest, State.delivers, hk, hsample]
      exact Dest.delivered_g hd _ r
    · intro sg d hk hdest hsg
      obtain ⟨r, hr⟩ := regs_completeAt hi (by simp [hk])
      simp only [hr, hdest, State.delivers, hk, hsample, hsg]
      exact Dest.delivered_v d _ r
    · intro d hk hdest
      obtain ⟨r, hr⟩ := regs_completeAt hi (by simp [hk])
      simp only [hr, hdest, State.delivers, hk, hsample]
      exact Dest.delivered_v d _ r
    · intro d hk hdest hd
      obtain ⟨r, hr⟩ := regs_completeAt hi (by simp [hk])
      simp only [hr, hdest, State.delivers, hk]
      exact Dest.delivered_g hd _ r
    · intro hk _ _
      obtain ⟨hself, hout⟩ := readPa_completeAt_store hi hk hsys
      refine ⟨hself, fun q hq => (hout q hq).trans ?_⟩
      cases a.line with
      | none => rfl
      | some c => cases a.tenant <;> rfl
  · exact execAnswerArrival_answer hsil hst
  · exact execAnswerArrival_remote hsil hst hf
  · intro acc va hst hsil hf hat hh hta hsh ht
    have hstrand := strand_takeTrap (t := remoteTrap s.input.off s.input.level acc va s.input.value.toNat)
      (s := { s with cur := { strand := s.input.strand, before := { s.strand s.input.strand with st := .ready } } })
      hat hh hsh ht rfl rfl false s.input.strand
    rw [if_pos rfl] at hstrand
    have hcause : (0 : Nat) + (remoteTrap s.input.off s.input.level acc va s.input.value.toNat).cause.toNat = s.input.off % 64 := by
      simp [remoteTrap]
    exact ⟨_, execAnswerArrival_fault hsil hst hf, congrArg (·.st) hstrand, congrArg (·.pc) hstrand, congrArg (·.regs) hstrand,
      (congrArg (·.tcause) hstrand).trans (congrArg (BitVec.ofNat 10) hcause), congrArg (·.taddr) hstrand, congrArg (·.tinfo) hstrand⟩

end Sys2Proof.Machine
end

section
/-! SUPPORT. What a pair's start and end leave, and a MOVL whose A slot is an ADD or an FMTSET that traps. -/

namespace Sys2Proof.Machine

/-! ## A pair's start and end (R34, R35, R147) -/

theorem overtakes_of_accesses_eq {s t : State} (h : t.accesses = s.accesses) : s.overtakes t = false := by
  simp only [State.overtakes, h, List.any_eq_false, Bool.and_eq_true, Bool.not_eq_true', not_and, Bool.not_eq_false, List.contains_iff_mem]
  exact fun x hx _ => hx

theorem faultAwaited_of_not_stopped {s : State} (h : s.cur.stopped = false) : s.faultAwaited = false := by
  simp [State.faultAwaited, h]

theorem noteIssue_eq (s : State) : s.noteIssue = { s with cores := s.noteIssue.cores } := by
  simp only [State.noteIssue]
  split <;> rfl

section
variable (s : State) (a : Option Instr)

/-- Both slots of a pair run on the state in which the pc is past the pair and a delivered grant is in hand (R34, R218). -/
theorem startPair_doom_eq :
    s.startPair.doom a = { s.setSelf { s.self with pc := s.self.pc + 8#64, grant := none } with
      cores := s.noteIssue.cores, cur := { s.cur with doomed := (s.startPair.doom a).cur.doomed } } := by
  simp only [State.doom, State.startPair]
  rw [noteIssue_eq]
  rfl
theorem cur_startPair_doom : (s.startPair.doom a).cur = { s.cur with doomed := (s.startPair.doom a).cur.doomed } := by
  rw [startPair_doom_eq]
theorem before_startPair_doom : (s.startPair.doom a).before = s.before := by rw [startPair_doom_eq]; rfl
theorem strand_startPair_doom (j : Nat) :
    (s.startPair.doom a).strand j = if j = s.cur.strand then { s.self with pc := s.self.pc + 8#64, grant := none } else s.strand j := by
  rw [startPair_doom_eq]
  exact State.strand_setStrand s s.cur.strand j _
theorem self_startPair_doom : (s.startPair.doom a).self = { s.self with pc := s.self.pc + 8#64, grant := none } := by
  rw [State.self, cur_startPair_doom, strand_startPair_doom, if_pos rfl]
end

theorem endPair_of_live {s : State} {c : Option Instr} (hhop : ∀ a m, c ≠ some (.hop a m)) (hlive : s.self.st ≠ .dormant) :
    s.endPair c = s := by
  have hst : ((s.strand s.cur.strand).st == .dormant) = false := beq_false_of_ne hlive
  unfold State.endPair
  split
  · rfl
  · split
    · exact absurd rfl (hhop _ _)
    · simp only [hst, Bool.false_eq_true, if_false]

/-- A pair whose slots are both disabled only moves its pc on (R34). -/
theorem runPair_none_none {s : State} (hlive : s.self.st ≠ .dormant) : s.runPair none none = .next (s.startPair.doom none).idle := by
  have hend := endPair_of_live (s := s.startPair.doom none) (c := none) nofun (by rw [self_startPair_doom]; exact hlive)
  have hover := overtakes_of_accesses_eq (s := s.startPair.doom none) rfl
  simp only [State.runPair, State.runC, State.runA, hover, hend, Bool.false_eq_true, if_false]

/-! ## MOVL in the C slot, and what the A slot makes of its pair (R35, R37) -/

section
variable {s : State} (d e : Reg) (a b : Src) (short : BitVec 12)

/-- What a MOVL without a literal writes (R101). -/
def State.movlShort (s : State) (a : Src) (short : BitVec 12) : Word := (s.g a <<< 44) + short.signExtend 64

theorem exec_movl_short (s : State) : exec (.movl d a ⟨short, none⟩) s = .next (s.setG d (s.movlShort a short)) := rfl
theorem exec_add (s : State) : exec (.add e a b) s = .next (s.setG e (s.g a + s.g b)) := rfl

theorem g_of_before_eq {s t : State} (h : t.before = s.before) (a : Src) : t.g a = s.g a :=
  congrArg (fun x : Strand => x.regs.readG a.r) h

variable {i : Instr} (hs : s.cur.stopped = false) (ht : s.cur.trapped = false)

theorem runPair_movl {t : State} (ha : (s.startPair.doom (some i)).runA ((s.startPair.doom (some i)).setG d (s.movlShort a short)) (some i) = .next t) :
    s.runPair (some (.movl d a ⟨short, none⟩)) (some i) = .next (t.endPair (some (.movl d a ⟨short, none⟩))).idle := by
  have hc : exec ((s.startPair.doom (some i)).routesetForm (.movl d a ⟨short, none⟩)) (s.startPair.doom (some i)) =
      .next ((s.startPair.doom (some i)).setG d (s.movlShort a short)) := by
    show exec (.movl d a ⟨short, none⟩) _ = _
    rw [exec_movl_short, State.movlShort, g_of_before_eq (before_startPair_doom s _)]
    rfl
  exact runPair_of_not_overtakes hc (overtakes_of_accesses_eq rfl) ha

include hs ht

/-- A pair of a MOVL and an ADD: each writes what it made of the registers that the pair began with (R35). -/
theorem runPair_movl_add (hlive : s.self.st ≠ .dormant) :
    s.runPair (some (.movl d a ⟨short, none⟩)) (some (.add e a b)) =
      .next ((((s.startPair.doom (some (.add e a b))).setG d (s.movlShort a short)).inSlotA).setG e (s.g a + s.g b)).idle := by
  have hcur := cur_startPair_doom s (some (.add e a b))
  have hg := g_of_before_eq (before_startPair_doom s (some (.add e a b)))
  have hself := self_startPair_doom s (some (.add e a b))
  have hmovl := @runPair_movl s d a short (.add e a b)
  generalize s.startPair.doom (some (.add e a b)) = v at hcur hg hself hmovl ⊢
  have hvs : v.cur.stopped = false := by rw [hcur]; exact hs
  have hvt : v.cur.trapped = false := by rw [hcur]; exact ht
  have hadd : exec (.add e a b) (v.setG d (s.movlShort a short)).inSlotA =
      .next ((v.setG d (s.movlShort a short)).inSlotA.setG e (s.g a + s.g b)) := by rw [← hg a, ← hg b]; rfl
  have hlive' : ((v.setG d (s.movlShort a short)).inSlotA.setG e (s.g a + s.g b)).self.st ≠ .dormant := by
    have hC : (v.setG d (s.movlShort a short)).inSlotA.self = _ := State.self_setG v d (s.movlShort a short)
    rw [State.self_setG, hC, hself]
    exact hlive
  rw [hmovl ((runA_of_not_stopped (s0 := v) (t1 := v.setG d (s.movlShort a short)) hvt (faultAwaited_of_not_stopped hvs) (exec_add e a b v.inSlotA) hvt hvs).trans hadd),
    endPair_of_live (c := some (.movl d a ⟨short, none⟩)) nofun hlive']

/-- An A slot that traps undoes what the C slot's MOVL wrote (R37). -/
theorem runPair_movl_traps {x : State} (hx : exec i (s.startPair.doom (some i)).inSlotA = .next x)
    (hxt : x.cur.stopped = true ∧ x.cur.trapped = true) :
    s.runPair (some (.movl d a ⟨short, none⟩)) (some i) = .next x.idle := by
  have hcur := cur_startPair_doom s (some i)
  have hvs : (s.startPair.doom (some i)).cur.stopped = false := by rw [hcur]; exact hs
  have hvt : (s.startPair.doom (some i)).cur.trapped = false := by rw [hcur]; exact ht
  rw [runPair_movl d a short (runA_of_slotA_traps hvt (faultAwaited_of_not_stopped hvs) hx hxt.2), endPair_of_stopped hxt.1]

end

theorem stopped_takeTrap (s : State) (slotA : Bool) (t : TrapInfo) :
    (s.takeTrap slotA t).cur.stopped = true ∧ (s.takeTrap slotA t).cur.trapped = true := by
  simp only [State.takeTrap]
  split
  · exact ⟨rfl, rfl⟩
  · split
    · exact ⟨rfl, rfl⟩
    · split
      · split <;> exact ⟨rfl, rfl⟩
      · exact ⟨rfl, rfl⟩

/-- Settles O52: both slots run on the state that the pair's start leaves, whose `before` is the pair's. -/
theorem pairsReadBeforeTheyWrite : Obligations.PairsReadBeforeTheyWrite := by
  intro s d e a b short w k long hs ht hbefore hlive
  refine ⟨?_, fun hd he hde => ?_, fun hp hh hw => ?_⟩
  · refine ⟨_, runPair_none_none hlive, ?_, fun j hj => ?_, ?_⟩
    · exact (strand_startPair_doom s none k).trans (if_pos rfl)
    · exact (strand_startPair_doom s none j).trans (if_neg hj)
    · rw [startPair_doom_eq]; rfl
  · have hself := self_startPair_doom s (some (.add e a b))
    have hk : (s.startPair.doom (some (.add e a b))).cur.strand = k := by rw [cur_startPair_doom]
    have hmem : (s.startPair.doom (some (.add e a b))).mem = s.mem := by rw [startPair_doom_eq]; rfl
    refine ⟨_, runPair_movl_add d e a b short hs ht hlive, ?_⟩
    generalize s.startPair.doom (some (.add e a b)) = v at hself hk hmem ⊢
    have hstrand : (((v.setG d long).inSlotA.setG e (s.g a + s.g b)).idle).strand k =
        { v.self with regs := (v.self.regs.writeG d long).writeG e (s.g a + s.g b) } := by
      have hC : (v.setG d long).inSlotA.self = _ := State.self_setG v d long
      rw [← hk]
      exact (State.self_setG (v.setG d long).inSlotA e _).trans (by rw [hC])
    refine ⟨(congrArg (·.pc) hstrand).trans (congrArg (·.pc) hself), hmem, fun i => ?_⟩
    refine (congrArg (·.regs.readG i) hstrand).trans ?_
    simp only [RegFile.readG_writeG, hd, he, ne_eq, not_false_eq_true, true_and, hself]
    by_cases hi : i = d
    · subst hi; simp [hde]
    · simp [hi]
  · obtain ⟨hin, hta, hsh, htask, hat⟩ := hp
    let v := (s.startPair.doom (some (.fmtset 3#4 a w))).inSlotA
    have hvb : v.before = s.before := before_startPair_doom s (some (.fmtset 3#4 a w))
    have hvk : v.cur.strand = k := by
      show (s.startPair.doom (some (.fmtset 3#4 a w))).cur.strand = k
      rw [cur_startPair_doom]
    have hva : v.inAtelier = false := by
      rw [State.inAtelier, State.selfCore, hvk]; exact hat
    have htrap : exec (.fmtset 3#4 a w) v = .next (v.takeTrap true { cause := 0x01#6 }) :=
      execFmtset_too_wide (s := v) (field := 3#4) (a := a) (imm := w) (lo := 10) (n := 2) rfl (by rw [g_of_before_eq hvb]; exact hw)
    have hstrand := strand_takeTrap (s := v) (t := { cause := 0x01#6 }) hva (by rw [hvb]; exact hin) (by rw [hvb]; exact hsh)
      (by rw [hvb]; exact htask) rfl rfl true k
    rw [if_pos hvk.symm, hvb] at hstrand
    refine ⟨_, runPair_movl_traps d a short hs ht htrap (stopped_takeTrap _ _ _), congrArg (·.st) hstrand, ?_, ?_, congrArg (·.tcause) hstrand⟩
    · rw [← hbefore]; exact congrArg (·.regs) hstrand
    · rw [← hbefore]; exact congrArg (·.pc) hstrand

end Sys2Proof.Machine
end

section
/-! SUPPORT. Traps by the birth of the strand that takes them: what reports, freezes, aborts and rollbacks leave as it is. -/

namespace Sys2Proof.Machine

/-! ## What a report and a freeze change (R392, R429) -/

theorem report_eq (s : State) (r : Report) :
    s.report r = { s with zones := (s.report r).zones, reports := (s.report r).reports } := by
  simp only [State.report]
  split
  · split <;> rfl
  · rfl

theorem tenancy_report (s : State) (r : Report) :
    (s.report r).tenants = s.tenants ∧ (s.report r).parts = s.parts ∧ (s.report r).launches = s.launches ∧ (s.report r).ops = s.ops := by
  rw [report_eq]; exact ⟨rfl, rfl, rfl, rfl⟩
theorem launchOf_report (s : State) (r : Report) (k : Nat) : (s.report r).launchOf k = s.launchOf k := by rw [report_eq]; rfl
/-- A report to the primary that finds no other waiting and a free record stands in its mailbox (R392). -/
theorem mbx_report {s : State} {r : Report} {n : Nat} (hw : s.reports = []) (hs : (r.standby && (s.zone r.zone).hasStandby) = false)
    (hn : freeIndex (s.zone r.zone).mbx r.slot = some n) :
    ((s.report r).zone r.zone).mbx = (s.zone r.zone).mbx ++ [{ slot := r.slot, index := n, body := r.body }] := by
  simp only [State.report, hs, hn, hw, List.any_nil, Bool.false_eq_true, if_false, State.zone_setZone_self]
/-- The same of a report to the standby, where there is one. -/
theorem mbxStandby_report {s : State} {r : Report} {n : Nat} (hw : s.reports = [])
    (hs : (r.standby && (s.zone r.zone).hasStandby) = true) (hn : freeIndex (s.zone r.zone).mbxStandby r.slot = some n) :
    ((s.report r).zone r.zone).mbxStandby = (s.zone r.zone).mbxStandby ++ [{ slot := r.slot, index := n, body := r.body }] := by
  simp only [State.report, hs, hn, hw, List.any_nil, Bool.false_eq_true, if_false, if_true, State.zone_setZone_self]

theorem freezeTenant_eq (s : State) (t : Nat) :
    s.freezeTenant t = { s with tenants := (s.freezeTenant t).tenants, parts := (s.freezeTenant t).parts
                                launches := (s.freezeTenant t).launches, ops := (s.freezeTenant t).ops } := by
  unfold State.freezeTenant
  split <;> rfl
theorem frozen_freezeTenant (s : State) (t : Nat) : ((s.freezeTenant t).tenant t).frozen = true := by
  unfold State.freezeTenant
  split
  · assumption
  · have h : ((s.setTenant t { s.tenant t with frozen := true, frozenSince := s.time }).tenant t).frozen = true := by
      rw [State.tenant_setTenant_self]
    exact h

theorem entryGet_mapValues {α : Type} (f : Nat → α → α) (k : Nat) (l : List (Nat × α)) :
    entryGet k (l.map fun e => (e.1, f e.1 e.2)) = (entryGet k l).map (f k) := by
  induction l with
  | nil => rfl
  | cons e l ih =>
    simp only [List.map_cons, entryGet, ih]
    split
    · next h => rw [h]; rfl
    · rfl
theorem FMap.find?_mapValues {α : Type} (m : FMap α) (f : Nat → α → α) (k : Nat) :
    (m.mapValues f).find? k = (m.find? k).map (f k) := entryGet_mapValues f k m.entries

/-- The time that a launch has counted stops; whose launch it is stays (R427, R429). -/
theorem launchOf_freezeTenant (s : State) (t k : Nat) {α : Type} (f : Launch → α)
    (hf : ∀ (l : Launch) (now : Nat), f (l.pause now) = f l) :
    ((s.freezeTenant t).launchOf k).map f = (s.launchOf k).map f := by
  unfold State.freezeTenant
  split
  · rfl
  · show ((s.launches.mapValues fun _ l => if l.tenant == t then l.pause s.time else l).find? (s.strand k).launch).map f =
      (s.launches.find? (s.strand k).launch).map f
    rw [FMap.find?_mapValues, Option.map_map]
    congr 1
    funext l
    simp only [Function.comp]
    split
    · exact hf l s.time
    · rfl

theorem tenant_pause (l : Launch) (now : Nat) : (l.pause now).tenant = l.tenant := by unfold Launch.pause; split <;> rfl
theorem part_pause (l : Launch) (now : Nat) : (l.pause now).part = l.part := by unfold Launch.pause; split <;> rfl
theorem tenantOf_freezeTenant (s : State) (t k : Nat) : (s.freezeTenant t).tenantOf k = s.tenantOf k := by
  rw [State.tenantOf, launchOf_freezeTenant s t k _ tenant_pause]; rfl

/-- What freezes and reports may change. -/
def FreezesReports (s t : State) : Prop :=
  t = { s with zones := t.zones, reports := t.reports, tenants := t.tenants, parts := t.parts, launches := t.launches, ops := t.ops }

theorem FreezesReports.trans {s t u : State} (h : FreezesReports s t) (h' : FreezesReports t u) : FreezesReports s u := by
  rw [FreezesReports, h', h]
theorem freezesReports_report (s : State) (r : Report) : FreezesReports s (s.report r) := by
  rw [FreezesReports]; conv_lhs => rw [report_eq]
  rw [report_eq]
theorem freezesReports_freezeTenant (s : State) (t : Nat) : FreezesReports s (s.freezeTenant t) := by
  unfold State.freezeTenant
  split <;> rfl
theorem FreezesReports.fields {s t : State} (h : FreezesReports s t) :
    t.strands = s.strands ∧ t.mem = s.mem ∧ t.cores = s.cores ∧ t.tiles = s.tiles ∧ t.accesses = s.accesses ∧ t.cur = s.cur := by
  rw [h]; exact ⟨rfl, rfl, rfl, rfl, rfl, rfl⟩
theorem FreezesReports.strand {s t : State} (h : FreezesReports s t) (k : Nat) : t.strand k = s.strand k := by rw [h]; rfl
theorem FreezesReports.core {s t : State} (h : FreezesReports s t) (k : Nat) : t.core k = s.core k := by rw [h]; rfl
theorem FreezesReports.tile {s t : State} (h : FreezesReports s t) (k : Nat) : t.tile k = s.tile k := by rw [h]; rfl

/-! ## What a fault leaves behind (R458, R465) -/

theorem faultMet_eq (s : State) (t : TrapInfo) :
    s.faultMet t = { s with mem := (s.faultMet t).mem, poison := (s.faultMet t).poison, zeroed := (s.faultMet t).zeroed
                            hostRefused := (s.faultMet t).hostRefused } := by
  simp only [State.faultMet]
  cases t.fresh with
  | none => cases t.refusal <;> rfl
  | some pa =>
    have htouch := onlyBytes_touch s pa
    cases t.refusal <;> (simp only; rw [htouch])
/-- Where no marked frame was met, memory stays. -/
theorem faultMet_of_not_fresh (s : State) {t : TrapInfo} (hf : t.fresh = none) :
    s.faultMet t = { s with hostRefused := (s.faultMet t).hostRefused } := by
  simp only [State.faultMet, hf]
  cases t.refusal <;> rfl

/-! ## Parking by birth (R48, R174, R393, R398) -/

/-- What a parked strand reports: a handler's load that met poison reports the hardware (R398). -/
def TrapInfo.seenBy (t : TrapInfo) (b : Strand) : TrapInfo := if b.inHandler && t.loadPoison then t.hardware else t
/-- The message that a handler's trap names (R174). -/
def Strand.trapMsgid (b : Strand) : BitVec 32 :=
  if b.inHandler then (match b.handler with
    | some run => (run.msgs.head?.map (·.msgid)).getD 0#32
    | none => b.msgid)
  else b.msgid
/-- A strand as a trap parks it. -/
def Strand.trapped (b : Strand) (slotA : Bool) (t : TrapInfo) : Strand :=
  { b with
    st := .parked, grant := none
    tcause := BitVec.ofNat 10 ((if b.inHandler then 512 else 0) + (if slotA then 256 else 0) + t.cause.toNat)
    taddr := t.addr, tinfo := t.info, msgid := b.trapMsgid
    handler := b.handler.map fun run => { run with slots := [], held := [] } }
def State.handlerAborted (s : State) (core : Nat) (b : Strand) : State :=
  match b.handler with
  | some run => s.abortHandler core run
  | none => s
/-- A PROT freezes the strand's tenant (R429). -/
def State.protFreezes (s : State) (t : TrapInfo) (k : Nat) : State := if t.cause == causeProt then s.freezeTenant (s.tenantOf k) else s

/-- An aborted handler's messages stand at the head of its mailbox again (R174). -/
theorem core_abortHandler {s : State} {core : Nat} {run : HandlerRun} {m : Mailbox} (hm : (s.core core).mboxes.find? run.mbox = some m) :
    (s.abortHandler core run).core core = { s.core core with mboxes := (s.core core).mboxes.set run.mbox (m.giveBack run) } := by
  simp only [State.abortHandler, hm, State.core_setCore_self]
/-- Parking aborts the handler, parks the strand, freezes the tenant of a PROT and reports. -/
theorem park_eq (s : State) (k core zone : Nat) (b : Strand) (slotA : Bool) (t : TrapInfo) :
    ∃ r : Report,
      State.takeTrap.park s k core zone b slotA t =
        State.report (((s.handlerAborted core b).setStrand k (b.trapped slotA (t.seenBy b))).protFreezes (t.seenBy b) k) r := by
  unfold State.takeTrap.park State.protFreezes Strand.trapped Strand.trapMsgid TrapInfo.seenBy State.handlerAborted
  simp only
  split <;> exact ⟨_, rfl⟩

theorem freezesReports_protFreezes (s : State) (t : TrapInfo) (k : Nat) : FreezesReports s (s.protFreezes t k) := by
  unfold State.protFreezes
  split
  · exact freezesReports_freezeTenant s _
  · rfl


/-- The KIND 0 record of a trap of a strand that is no handler (R393, R394). -/
def State.userReport (s : State) (k core zone : Nat) (b : Strand) (slotA : Bool) (t : TrapInfo) : Report :=
  { zone := zone, standby := false, slot := coreMbxSlot core
    body := recordBody 0 (((s.launchOf k).map (·.part)).getD 0) (s.tenantOf k) (t.cause == causeProt)
      ((if slotA then 256 else 0) + t.cause.toNat) 0 (strandTarget k) b.pc t.addr t.info 0#64 }

theorem protFreezes_of_ne (s : State) {t : TrapInfo} (h : t.cause ≠ 0x08#6) (k : Nat) : s.protFreezes t k = s :=
  if_neg fun he => h (eq_of_beq he)
theorem frozen_protFreezes (s : State) {t : TrapInfo} (h : t.cause = 0x08#6) (k : Nat) :
    ((s.protFreezes t k).tenant (s.tenantOf k)).frozen = true := by
  have hprot : (t.cause == causeProt) = true := by rw [h]; rfl
  rw [State.protFreezes, if_pos hprot]
  exact frozen_freezeTenant s _
theorem zones_protFreezes (s : State) (t : TrapInfo) (k : Nat) :
    (s.protFreezes t k).zones = s.zones ∧ (s.protFreezes t k).reports = s.reports := by
  unfold State.protFreezes
  split
  · rw [freezeTenant_eq]; exact ⟨rfl, rfl⟩
  · exact ⟨rfl, rfl⟩
theorem tenantOf_protFreezes (s : State) (t : TrapInfo) (k : Nat) : (s.protFreezes t k).tenantOf k = s.tenantOf k := by
  unfold State.protFreezes
  split
  · exact tenantOf_freezeTenant s _ k
  · rfl

theorem park_of_user (s : State) (k core zone : Nat) {b : Strand} (hin : b.inHandler = false) (hh : b.handler = none) (slotA : Bool)
    (t : TrapInfo) :
    State.takeTrap.park s k core zone b slotA t =
      let u := (s.setStrand k (b.trapped slotA t)).protFreezes t k
      u.report (u.userReport k core zone b slotA t) := by
  simp only [State.userReport, tenantOf_protFreezes]
  simp only [State.takeTrap.park, State.protFreezes, Strand.trapped, Strand.trapMsgid, hin, hh, Bool.false_and, Bool.false_eq_true, if_false,
    Nat.zero_add]

/-! ## Taking a trap, by the birth of the strand -/

section
variable {s : State} (ha : s.inAtelier = false) (slotA : Bool) (t : TrapInfo)
include ha

theorem takeTrap_of_no_task (hs : s.before.inShadow = false) (ht : s.before.task = none) :
    s.takeTrap slotA t =
      (State.takeTrap.park (s.faultMet t) s.cur.strand s.selfCore s.selfZone s.before slotA t).setCur
        { (State.takeTrap.park (s.faultMet t) s.cur.strand s.selfCore s.selfZone s.before slotA t).cur with stopped := true, trapped := true } := by
  have ha' : coreIsAtelier (strandCore s.cur.strand) = false := ha
  have hs' : s.cur.before.inShadow = false := hs
  have ht' : s.cur.before.task = none := ht
  simp only [State.takeTrap, ha', hs', ht', Option.bind_none, Bool.false_eq_true, if_false]
  rfl

theorem takeTrap_of_shadow (hs : s.before.inShadow = true) :
    s.takeTrap slotA t = ((s.faultMet t).endShadow s.cur.strand t).setCur
      { ((s.faultMet t).endShadow s.cur.strand t).cur with stopped := true, trapped := true } := by
  have ha' : coreIsAtelier (strandCore s.cur.strand) = false := ha
  have hs' : s.cur.before.inShadow = true := hs
  simp only [State.takeTrap, ha', hs', Bool.false_eq_true, if_false, if_true]

/-- A speculative task that traps is rolled back, and is to run again as the irrevocable one (R183). -/
theorem takeTrap_of_speculative (hs : s.before.inShadow = false) {o : Nat} {z : Sys2Proof.Machine.Task} (ht : s.before.task = some o)
    (hz : (s.zone s.selfZone).task? o = some z) (hi : z.irrevocable = false) :
    s.takeTrap slotA t =
      let u := ((s.faultMet t).setStrand s.cur.strand s.before).rollback s.selfZone z.order
      (u.setZone s.selfZone ((u.zone s.selfZone).mapTask z.order fun x => { x with retry := true })).setCur
        { u.cur with stopped := true, trapped := true } := by
  have ha' : coreIsAtelier (strandCore s.cur.strand) = false := ha
  have hs' : s.cur.before.inShadow = false := hs
  have ht' : s.cur.before.task = some o := ht
  have hz' : ((s.faultMet t).zone (coreZone (strandCore s.cur.strand))).task? o = some z := by rw [faultMet_eq]; exact hz
  simp only [State.takeTrap, ha', hs', ht', hz', hi, Option.bind_some, Bool.false_eq_true, if_false, Bool.not_false, if_true]
  rfl

end

/-! ## The rollback of a running task (R182) -/

/-- A zone whose task `o` starts afresh: its buffer, its sets and the tasks that it enqueued are gone. -/
def Zone.restarted (z : Zone) (o : Nat) (st : TaskSt) : Zone :=
  let kids := (descendants z.tasks z.tasks.length [o]).filter (· != o)
  Zone.mapTask { z with tasks := z.tasks.filter fun x => !kids.contains x.order } o
    fun x => { x with buffer := [], reads := [], writes := [], st := st }

theorem rollback_of_running {s : State} {zone o k : Nat} {z : Sys2Proof.Machine.Task} (hz : (s.zone zone).task? o = some z)
    (hst : z.st = .running k) :
    s.rollback zone o =
      { (s.setZone zone ((s.zone zone).restarted o z.st)).setStrand k (taskStrand z (strandSlot k)) with
        accesses := s.accesses.filter fun a => a.strand != k
        cur := if s.cur.strand = k then { s.cur with stopped := true } else s.cur } := by
  simp only [State.rollback, hz, hst]
  rfl

theorem task?_mapTask (z : Zone) (o : Nat) (f : Sys2Proof.Machine.Task → Sys2Proof.Machine.Task) (hf : ∀ x, (f x).order = x.order) :
    (z.mapTask o f).task? o = (z.task? o).map f := by
  simp only [Zone.task?, Zone.mapTask, List.find?_map]
  have hp : ((fun t : Sys2Proof.Machine.Task => t.order == o) ∘ fun t => if t.order == o then f t else t) = fun t => t.order == o := by
    funext x
    simp only [Function.comp]
    split <;> simp_all
  rw [hp]
  cases h : z.tasks.find? fun t => t.order == o with
  | none => rfl
  | some x =>
    have hx : (x.order == o) = true := List.find?_some (p := fun y : Sys2Proof.Machine.Task => y.order == o) h
    simp only [Option.map_some, hx, if_true]

/-- A task stays through the removal of others. -/
theorem task?_filter (z : Zone) (o : Nat) (p : Nat → Bool) (hp : p o = true) :
    Zone.task? { z with tasks := z.tasks.filter fun x => p x.order } o = z.task? o := by
  simp only [Zone.task?, List.find?_filter]
  congr 1
  funext x
  by_cases h : x.order = o <;> simp [h, hp]

theorem task?_restarted (z : Zone) (o : Nat) (st : TaskSt) :
    (z.restarted o st).task? o = (z.task? o).map fun x => { x with buffer := [], reads := [], writes := [], st := st } := by
  have hkeep := task?_filter z o (fun i => !((descendants z.tasks z.tasks.length [o]).filter (· != o)).contains i) (by simp)
  rw [← hkeep]
  exact task?_mapTask _ o _ fun _ => rfl

theorem mbx_restarted (z : Zone) (o : Nat) (st : TaskSt) : (z.restarted o st).mbx = z.mbx := rfl


theorem zone_rollback_of_running {s : State} {zone o k : Nat} {z : Sys2Proof.Machine.Task} (hz : (s.zone zone).task? o = some z)
    (hst : z.st = .running k) : (s.rollback zone o).zone zone = (s.zone zone).restarted o z.st := by
  rw [rollback_of_running hz hst]
  exact State.zone_setZone_self s zone _
theorem strand_rollback_of_running {s : State} {zone o k : Nat} {z : Sys2Proof.Machine.Task} (hz : (s.zone zone).task? o = some z)
    (hst : z.st = .running k) : (s.rollback zone o).strand k = taskStrand z (strandSlot k) := by
  rw [rollback_of_running hz hst]
  exact State.strand_setStrand_self (s.setZone zone _) k _

/-! ## What a shadow handler's trap leaves (R306, R398) -/

/-- The end of the strand, its outstanding loads with it. -/
def State.shadowFreed (s : State) (k : Nat) : State :=
  { s.setStrand k {} with accesses := s.accesses.filter fun a => a.strand != k || a.kind == .store }

/-- Past the end of the strand and of its tile's run, what follows freezes, reports and releases the walking operation. -/
theorem endShadow_eq (s : State) (k : Nat) (t : TrapInfo) :
    FreezesReports ((s.shadowFreed k).setTile (strandSite k) { s.tile (strandSite k) with shadow := none }) (s.endShadow k t) ∨
      (s.tile (strandSite k)).shadow = none ∧ s.endShadow k t = s.shadowFreed k := by
  simp only [State.endShadow]
  split
  · next h => exact .inr ⟨h, rfl⟩
  · next run h =>
    refine .inl (FreezesReports.trans ?_ (freezesReports_report _ _))
    have hops : ∀ (u : State) (f : Op → Op), FreezesReports u { u with ops := u.ops.map f } := fun _ _ => rfl
    refine FreezesReports.trans ?_ (hops _ _)
    have hfreeze : ∀ (u : State) (c : Bool), FreezesReports u (if c then u.freezeTenant run.tenant else u) := by
      intro u c; cases c
      · rfl
      · exact freezesReports_freezeTenant u _
    refine FreezesReports.trans ?_ (hfreeze _ _)
    split
    · exact freezesReports_report _ _
    · rfl

theorem strand_endShadow (s : State) (k : Nat) (t : TrapInfo) : (s.endShadow k t).strand k = {} := by
  have hfree : (s.shadowFreed k).strand k = {} := State.strand_setStrand_self s k {}
  obtain h | ⟨-, h⟩ := endShadow_eq s k t
  · exact (h.strand k).trans hfree
  · rw [h, hfree]
theorem shadow_endShadow (s : State) (k : Nat) (t : TrapInfo) : ((s.endShadow k t).tile (strandSite k)).shadow = none := by
  obtain h | ⟨hnone, h⟩ := endShadow_eq s k t
  · rw [h.tile, State.tile_setTile_self]
  · rw [h]; exact hnone

/-! ## A trap within the atelier's handler (R403) -/

/-- The record of a second trap (R403): KIND 5, to slot 290 of the other atelier core's mailbox. -/
def State.doubleTrapReport (s : State) (t : TrapInfo) : Report :=
  { zone := s.selfZone, standby := (s.selfCore - atelierBase) % 2 == (s.zone s.selfZone).primary, slot := 290
    body := recordBody 5 0 0 false 0x38 0 0 0#64 0#64 (BitVec.ofNat 64 t.cause.toNat) 0#64 }

theorem takeTrap_of_intrap {s : State} {t : TrapInfo} (ha : s.inAtelier = true) (hi : (s.core s.selfCore).intrap = true)
    (hf : t.fresh = none) (hr : t.refusal = none) (slotA : Bool) :
    s.takeTrap slotA t =
      let u := ((s.setStrand s.cur.strand s.before).setCore s.selfCore { s.core s.selfCore with stopped := true }).report (s.doubleTrapReport t)
      u.setCur { u.cur with stopped := true, trapped := true } := by
  have ha' : coreIsAtelier (strandCore s.cur.strand) = true := ha
  have hi' : (s.core (strandCore s.cur.strand)).intrap = true := hi
  simp only [State.takeTrap, State.faultMet, hf, hr, ha', State.atelierTrap, hi', if_true, State.zone_setCore_other, State.zone_setStrand_other,
    State.doubleTrapReport, State.selfZone, State.selfCore, State.before]

/-! ## The six clauses -/

section
variable {s : State} {x : TrapInfo} (slotA : Bool)

/-- The trap of a strand that is no handler and no task: it is parked, its tenant frozen on a PROT, and the record sent. -/
theorem takeTrap_of_user (ha : s.inAtelier = false) (hs : s.before.inShadow = false) (hin : s.before.inHandler = false)
    (ht : s.before.task = none) (hh : s.before.handler = none) (hf : x.fresh = none) :
    ∃ v u r, v = State.setStrand { s with hostRefused := v.hostRefused } s.cur.strand (s.before.trapped slotA x) ∧
      u = v.protFreezes x s.cur.strand ∧ r = u.userReport s.cur.strand s.selfCore s.selfZone s.before slotA x ∧
      s.takeTrap slotA x = (u.report r).setCur { (u.report r).cur with stopped := true, trapped := true } := by
  refine ⟨(s.faultMet x).setStrand s.cur.strand (s.before.trapped slotA x), _, _, ?_, rfl, rfl, ?_⟩
  · rw [faultMet_of_not_fresh s hf]; rfl
  · rw [takeTrap_of_no_task ha slotA x hs ht, park_of_user _ _ _ _ hin hh]

theorem trapped_of_user {b : Strand} (hin : b.inHandler = false) (hh : b.handler = none) (slotA : Bool) (x : TrapInfo) :
    b.trapped slotA x =
      { b with st := .parked, grant := none, tcause := BitVec.ofNat 10 ((if slotA then 256 else 0) + x.cause.toNat), taddr := x.addr
               tinfo := x.info } := by
  simp [Strand.trapped, Strand.trapMsgid, hin, hh]

theorem cause_of_loadPoison (h : x.loadPoison = true) : x.cause = 0x0B#6 := by
  simp only [TrapInfo.loadPoison, Bool.and_eq_true, beq_iff_eq] at h
  exact h.1

/-- A mailbox handler's trap parks it and gives its messages back (R174). -/
theorem takeTrap_of_handler (ha : s.inAtelier = false) (hin : s.before.inHandler = true) (ht : s.before.task = none) {run : HandlerRun}
    {m : Mailbox} (hrun : s.before.handler = some run) (hm : (s.core s.selfCore).mboxes.find? run.mbox = some m) :
    (s.takeTrap slotA x).strand s.cur.strand = s.before.trapped slotA (x.seenBy s.before) ∧
      (s.takeTrap slotA x).core s.selfCore =
        { s.core s.selfCore with mboxes := (s.core s.selfCore).mboxes.set run.mbox (m.giveBack run) } := by
  have hs : s.before.inShadow = false := by
    have hbirth : s.before.birth = .handler := by simpa [Strand.inHandler] using hin
    simp [Strand.inShadow, hbirth]
  obtain ⟨r, hpark⟩ := park_eq (s.faultMet x) s.cur.strand s.selfCore s.selfZone s.before slotA x
  rw [takeTrap_of_no_task ha slotA x hs ht, hpark]
  have hsame : (s.faultMet x).core s.selfCore = s.core s.selfCore := by rw [faultMet_eq]; rfl
  have haborted : (s.faultMet x).handlerAborted s.selfCore s.before = (s.faultMet x).abortHandler s.selfCore run := by
    simp only [State.handlerAborted, hrun]
  have hw := (freezesReports_protFreezes (((s.faultMet x).handlerAborted s.selfCore s.before).setStrand s.cur.strand
    (s.before.trapped slotA (x.seenBy s.before))) (x.seenBy s.before) s.cur.strand).trans (freezesReports_report _ r)
  refine ⟨(hw.strand _).trans (State.strand_setStrand_self _ _ _), (hw.core _).trans ?_⟩
  rw [State.core_setStrand_other, haborted, core_abortHandler (hsame.symm ▸ hm), hsame]

/-- A speculative task's trap starts it afresh and reports nothing (R183). -/
theorem takeTrap_of_running_task (ha : s.inAtelier = false) (hs : s.before.inShadow = false) {o : Nat} {z : Sys2Proof.Machine.Task}
    (ht : s.before.task = some o) (hz : (s.zone s.selfZone).task? o = some z) (hi : z.irrevocable = false)
    (hst : z.st = .running s.cur.strand) :
    (s.takeTrap slotA x).strand s.cur.strand = taskStrand z (strandSlot s.cur.strand) ∧ (s.takeTrap slotA x).reports = s.reports ∧
      (s.takeTrap slotA x).zone s.selfZone = ((s.zone s.selfZone).restarted o z.st).mapTask o fun y => { y with retry := true } := by
  have hord : z.order = o := by simpa using List.find?_some (p := fun y : Sys2Proof.Machine.Task => y.order == o) hz
  have hsame : ((s.faultMet x).setStrand s.cur.strand s.before).zone s.selfZone = s.zone s.selfZone := by rw [faultMet_eq]; rfl
  have hz' := hsame.symm ▸ hz
  have hzone := zone_rollback_of_running hz' hst
  have hreports : (((s.faultMet x).setStrand s.cur.strand s.before).rollback s.selfZone o).reports = s.reports := by
    rw [rollback_of_running hz' hst, faultMet_eq]; rfl
  rw [takeTrap_of_speculative ha slotA x hs ht hz hi, hord]
  refine ⟨strand_rollback_of_running hz' hst, hreports, ?_⟩
  rw [← hsame, ← hzone]
  exact State.zone_setZone_self _ _ _
end

/-- Settles O53: what each birth's trap leaves, by the lemma on that birth; then what freezes and reports leave as it is. -/
theorem trapsOfEveryKindOfStrand : Obligations.TrapsOfEveryKindOfStrand := by
  refine ⟨?_, ?_, ?_⟩
  · intro s slotA x k zone slot b tc t ha hs hin ht hh hf
    obtain ⟨v, u, r, hv, hu, hr, htrap⟩ := takeTrap_of_user slotA ha hs hin ht hh hf
    have hw : FreezesReports v (u.report r) := hu ▸ (freezesReports_protFreezes v x k).trans (freezesReports_report _ r)
    obtain ⟨-, hmem, hcores, htiles, haccesses, -⟩ := hw.fields
    have hlaunch : t.launchOf k = u.launchOf k := (congrArg (State.launchOf · k) htrap).trans (launchOf_report u r k)
    have htenant : t.tenantOf k = u.tenantOf k := by rw [State.tenantOf, hlaunch]; rfl
    have htenantv : u.tenantOf k = v.tenantOf k := hu ▸ tenantOf_protFreezes v x k
    obtain ⟨htenants, hparts, hlaunches, hops⟩ := tenancy_report u r
    rw [hlaunch, htenant, show t = _ from htrap]
    refine ⟨?_, fun j hj => ?_, ?_, ?_, ?_, ?_, fun hc => ?_, fun hc => ?_, fun n hrep hn => ?_⟩
    · refine (hw.strand k).trans ?_
      rw [hv, ← trapped_of_user hin hh]
      exact State.strand_setStrand_self _ k _
    · refine (hw.strand j).trans ?_
      rw [hv]
      exact State.strand_setStrand_ne _ _ hj
    · exact hmem.trans (by rw [hv]; rfl)
    · exact hcores.trans (by rw [hv]; rfl)
    · exact htiles.trans (by rw [hv]; rfl)
    · exact haccesses.trans (by rw [hv]; rfl)
    · have huv : u = v := hu.trans (protFreezes_of_ne v hc k)
      rw [State.setCur_tenants, State.setCur_parts, State.setCur_launches, State.setCur_ops, htenants, hparts, hlaunches, hops, huv, hv]
      exact ⟨rfl, rfl, rfl, rfl⟩
    · rw [htenantv, State.tenant, State.setCur_tenants, htenants, hu]
      exact frozen_protFreezes v hc k
    · obtain ⟨hzones, hreports⟩ := zones_protFreezes v x k
      have hz : u.zone r.zone = s.zone zone := by
        rw [hu, State.zone, hzones, hv, hr]; rfl
      have hsent := mbx_report (s := u) (r := r) (n := n) (by rw [hu, hreports, hv]; exact hrep) (by rw [hr]; rfl)
        (by rw [hz, hr]; exact hn)
      rw [hz, hr] at hsent
      rw [hr]
      exact hsent
  · intro s slotA x k core b t ha
    refine ⟨?_, ?_, fun hs => ?_⟩
    · intro run m hin ht hrun hm
      obtain ⟨hstrand, hcore⟩ := takeTrap_of_handler slotA (x := x) ha hin ht hrun hm
      rw [show t.strand k = _ from hstrand, show t.core core = _ from hcore]
      refine ⟨rfl, rfl, rfl, fun hp => ?_, fun hp => ?_, ⟨m.giveBack run, ?_, rfl⟩, ?_⟩
      · simp [Strand.trapped, TrapInfo.seenBy, show s.before.inHandler = true from hin, hp]
      · simp [Strand.trapped, TrapInfo.seenBy, show s.before.inHandler = true from hin, hp, TrapInfo.hardware, cause_of_loadPoison hp]
      · rw [FMap.find?_set, if_pos rfl]
      · exact ⟨{ run with slots := [], held := [] }, by simp [Strand.trapped, show s.before.handler = some run from hrun], rfl⟩
    · intro o z hs ht hz hi hst
      obtain ⟨hstrand, hreports, hzone⟩ := takeTrap_of_running_task slotA (x := x) ha hs ht hz hi hst
      have hretry := task?_mapTask ((s.zone s.selfZone).restarted o z.st) o (fun y => { y with retry := true }) fun _ => rfl
      rw [show t.zone s.selfZone = _ from hzone, hretry, task?_restarted, hz]
      exact ⟨hstrand, hreports, rfl, rfl⟩
    · have htrap : t = _ := takeTrap_of_shadow ha slotA x hs
      rw [htrap]
      exact ⟨congrArg (·.st) (strand_endShadow _ k x), shadow_endShadow _ k x⟩
  · intro s slotA x k core c b z t ha hf hr
    refine ⟨fun hi => ?_, fun hi => ?_⟩
    · exact takeTrap_of_atelier ha hi hf hr slotA
    · obtain ⟨u, hu⟩ : ∃ u, u = (s.setStrand s.cur.strand s.before).setCore s.selfCore { s.core s.selfCore with stopped := true } := ⟨_, rfl⟩
      obtain ⟨r, hr'⟩ : ∃ r, r = s.doubleTrapReport x := ⟨_, rfl⟩
      have htrap := takeTrap_of_intrap ha hi hf hr slotA
      simp only [← hu, ← hr'] at htrap
      have hw := freezesReports_report u r
      have hz : u.zone r.zone = z := by rw [hu, hr']; rfl
      have hslot : r.slot = 290 := by rw [hr']; rfl
      have hprimary : r.standby = ((core - 18432) % 2 == z.primary) := by rw [hr']; simp [State.doubleTrapReport, atelierBase, core, z]
      have hrzone : r.zone = s.selfZone := by rw [hr']; rfl
      rw [show t = _ from htrap]
      refine ⟨?_, ?_, fun n hrep hprim hstand hn => ⟨{ slot := r.slot, index := n, body := r.body }, ?_, hslot, rfl⟩,
        fun n hrep hprim hn => ⟨{ slot := r.slot, index := n, body := r.body }, ?_, hslot, rfl⟩⟩
      · refine (hw.strand k).trans ?_
        rw [hu]; exact State.strand_setStrand_self s k b
      · refine (hw.core core).trans ?_
        rw [hu]; exact State.core_setCore_self _ core _
      · have h := mbxStandby_report (s := u) (r := r) (n := n) (by rw [hu]; exact hrep) (by rw [hprimary, hprim, hz, hstand]; simp) (by rw [hz, hslot]; exact hn)
        rw [hz] at h
        rw [← hrzone]; exact h
      · have h := mbx_report (s := u) (r := r) (n := n) (by rw [hu]; exact hrep) (by rw [hprimary]; simp [hprim]) (by rw [hz, hslot]; exact hn)
        rw [hz] at h
        rw [← hrzone]; exact h
end Sys2Proof.Machine
end

section
/-! SUPPORT. A pair that decodes and is ILLEGAL all the same: the reserved opcode 0x3F in atelier mode (R83, R416). -/

namespace Sys2Proof.Machine

/-- A C slot of opcode 0x3F, enabled by p0, beside an A slot that is NOPA. -/
def diagnosticWord : BitVec 32 := 0x7E000000#32

/-- It decodes, for every pair with that opcode does (log 70); yet atelier mode refuses it (R416). -/
theorem examine_diagnostic :
    decodeC diagnosticWord 0#32 = .ok (.diagnostic 0#25) ∧ decodeSlotA diagnosticWord 0#32 = .ok .nopa ∧
      examine true {} diagnosticWord 0#32 = .traps false { cause := 0x01#6 } := by decide

/-- Refutes O51: its last clause lets every pair issue whose slots decode, conflict in nothing and find no register empty. In atelier
mode the pair of `diagnosticWord` is one such, and it traps ILLEGAL. -/
theorem not_pairsAreExaminedInOrder : ¬ Obligations.PairsAreExaminedInOrder := by
  intro h
  obtain ⟨hc, ha, htraps⟩ := examine_diagnostic
  obtain ⟨-, -, -, hexamined⟩ := h true {} diagnosticWord 0#32
  obtain ⟨-, -, -, -, hissues⟩ := hexamined (.diagnostic 0#25) .nopa (by simp) hc ha
  have hnone : uses (.diagnostic 0#25) = ⟨[], []⟩ ∧ uses .nopa = ⟨[], []⟩ := ⟨rfl, rfl⟩
  obtain ⟨hnoneC, hnoneA⟩ := hnone
  obtain ⟨x, y, hxy, -⟩ := hissues (by simp [hnoneC]) (by simp [hnoneC]) (by simp [hnoneA])
  rw [htraps] at hxy
  cases hxy

end Sys2Proof.Machine
end

section
/-! SUPPORT. The state after reset: what its lists of zones and of maquette rows answer. -/

namespace Sys2Proof.Machine

/-- A map that lists the numbers below `n`, each with its value. -/
theorem entryGet_range_map {α : Type} (f : Nat → α) (n k : Nat) :
    entryGet k ((List.range n).map fun i => (i, f i)) = if k < n then some (f k) else none := by
  have hoff : ∀ (l : List Nat), entryGet k (l.map fun i => (i, f i)) = if k ∈ l then some (f k) else none := by
    intro l
    induction l with
    | nil => rfl
    | cons i l ih =>
      simp only [List.map_cons, entryGet, ih, List.mem_cons]
      by_cases hk : k = i
      · simp [hk]
      · simp [hk]
  simp [hoff]

theorem zone_reset {z : Nat} (hz : z < 64) : State.reset.zone z = Zone.reset z := by
  have h := entryGet_range_map (fun z => Zone.reset z) 64 z
  rw [if_pos hz] at h
  rw [State.zone, FMap.getD, FMap.find?, State.reset, h]
  rfl

/-- Every row is absent after reset (R471). -/
theorem mapWord_reset {z r : Nat} (hz : z < 64) (hr : r < 12) : State.reset.mapWord z r = resetMapWord := by
  have h := entryGet_range_map (fun _ => resetMapWord) 12 r
  rw [if_pos hr] at h
  rw [State.mapWord, zone_reset hz, FMap.getD, FMap.find?, Zone.reset, h]
  rfl
theorem mapSite_resetMapWord (z r : Nat) {c : Nat} (hc : c < 11) : mapSite resetMapWord z r c = none := by
  have habsent : ∀ c < 11, bitAt resetMapWord.toNat (44 + c) = true := by decide
  simp [mapSite, habsent c hc]

/-- Settles O54. -/
theorem resetValues : Obligations.ResetValues := by
  refine ⟨rfl, rfl, rfl, rfl, rfl, rfl, rfl, rfl, rfl, rfl, rfl, rfl, rfl, rfl, ?_, ?_, ?_, ?_⟩
  · exact fun z r hz hr => mapWord_reset hz hr
  · intro z r c hz hr hc
    rw [State.site?, mapWord_reset hz hr, mapSite_resetMapWord z r hc]
  · intro z hz
    rw [zone_reset hz]
    exact ⟨rfl, rfl, rfl⟩
  · exact fun k => ⟨rfl, fun i => ite_self _⟩

end Sys2Proof.Machine
end

section
/-! SUPPORT. What an FMTSET puts into FMT, bit by bit. -/

namespace Sys2Proof.Machine

/-- A field's bits take the value's; every other bit of FMT stays. -/
theorem getLsbD_putField {f : BitVec 14} {lo n v i : Nat} (hv : v < 2 ^ n) (hi : i < 14) :
    (putField f lo n v).getLsbD i = if lo ≤ i ∧ i < lo + n then v.testBit (i - lo) else f.getLsbD i := by
  have hmask : ((2 ^ n - 1) * 2 ^ lo).testBit i = decide (lo ≤ i ∧ i < lo + n) := by
    rw [Nat.testBit_mul_two_pow, Nat.testBit_two_pow_sub_one, Bool.eq_iff_iff]
    simp only [Bool.and_eq_true, decide_eq_true_eq]
    omega
  simp only [putField, BitVec.getLsbD_or, BitVec.getLsbD_and, BitVec.getLsbD_not, BitVec.getLsbD_ofNat, hi, decide_true, Bool.true_and,
    hmask, Nat.testBit_mul_two_pow]
  split
  · next h => simp [h]
  · next h =>
    have hout : lo ≤ i → v.testBit (i - lo) = false := fun hlo =>
      Nat.testBit_lt_two_pow (hv.trans_le (Nat.pow_le_pow_right (by decide) (by omega)))
    by_cases hlo : lo ≤ i
    · simp [h, hout hlo]
    · simp [hlo]

/-- Settles O4: FMTSET by the bits of the field that it names. -/
theorem formatInstructionsComplete : Obligations.FormatInstructionsComplete := by
  refine ⟨fun s d => ⟨_, rfl, writesG_setG d _ s⟩, fun s field a imm lo n hf hv => ?_⟩
  have hfield : fmtField field = (lo, n) := by fin_cases hf <;> rfl
  have hset : execFmtset field a imm s = .next (s.setFmt (putField s.self.regs.fmt lo n (s.g a + imm.signExtend 64).toNat)) := by
    simp only [execFmtset, hfield]
    exact if_neg (Nat.not_le.mpr hv)
  refine ⟨_, hset, onlyRegs_mapRegs s _, ?_, fun i hi => ?_⟩
  · rw [State.self_setFmt]
  · rw [State.self_setFmt]
    exact getLsbD_putField hv hi

end Sys2Proof.Machine
end

section
/-! SUPPORT. What each number of the special-register space reads (02 R40–R49, 17 R401, R402). -/

namespace Sys2Proof.Machine

/-! ## MFS by the kind of the number (R107) -/

section
variable {s : State} (d : Reg) {num : BitVec 10}

theorem exec_mfs_local (hr : remoteSpecial num.toNat = false) (hp : num.toNat < 0x100 ∨ s.inAtelier = true) :
    exec (.mfs d num) s =
      .next (s.setG d (BitVec.ofNat 64 (if 0x100 ≤ num.toNat then s.atelierSpecial num.toNat else s.strandSpecial num.toNat))) := by
  have hpriv : (decide (0x100 ≤ num.toNat) && !s.inAtelier) = false := by
    rcases hp with h | h
    · simp [Nat.not_le.mpr h]
    · simp [h]
  show execMfs d num s = _
  simp only [execMfs, hpriv, hr, Bool.false_eq_true, if_false]

theorem exec_mfs_remote (hr : remoteSpecial num.toNat = true) (hp : num.toNat < 0x100 ∨ s.inAtelier = true) :
    exec (.mfs d num) s =
      .next (s.issueAccess { strand := s.cur.strand, kind := .special, dest := destG d, pa := 0, n := 0, data := num.toNat }) := by
  have hpriv : (decide (0x100 ≤ num.toNat) && !s.inAtelier) = false := by
    rcases hp with h | h
    · simp [Nat.not_le.mpr h]
    · simp [h]
  show execMfs d num s = _
  simp only [execMfs, hpriv, hr, Bool.false_eq_true, if_false, if_true]

/-- MFS writes g[D] at once. -/
def State.MfsReads (s : State) (d : Reg) (num : BitVec 10) (x : Word) : Prop := ∃ t, exec (.mfs d num) s = .next t ∧ WritesG d x s t

/-- A register of R41, in either mode. -/
theorem mfsReads_strand (hlt : num.toNat < 0x100) (hr : remoteSpecial num.toNat = false) {x : Word}
    (hx : BitVec.ofNat 64 (s.strandSpecial num.toNat) = x) : s.MfsReads d num x := by
  refine ⟨_, exec_mfs_local d hr (.inl hlt), ?_⟩
  rw [if_neg (Nat.not_le.mpr hlt), hx]
  exact writesG_setG d x s
/-- A register of R401, in atelier mode. -/
theorem mfsReads_atelier (ha : s.inAtelier = true) (hle : 0x100 ≤ num.toNat) (hr : remoteSpecial num.toNat = false) {x : Word}
    (hx : BitVec.ofNat 64 (s.atelierSpecial num.toNat) = x) : s.MfsReads d num x := by
  refine ⟨_, exec_mfs_local d hr (.inr ha), ?_⟩
  rw [if_pos hle, hx]
  exact writesG_setG d x s
end

/-! ## Values of the registers -/

theorem ofNat_toNat_self {n : Nat} (x : BitVec n) : BitVec.ofNat n x.toNat = x := by simp

theorem ofNat_mod_two_pow (n : Nat) : BitVec.ofNat 64 (n % 2 ^ 64) = BitVec.ofNat 64 n := by
  apply BitVec.eq_of_toNat_eq; simp

/-- FEMASK holds VF above GF, whose bit 0 reads 1 (R44). -/
theorem ofNat_femask (r : RegFile) : BitVec.ofNat 64 (femask r) = (r.vf ++ (r.gf ||| 1#16)).setWidth 64 := by
  have happend : (r.vf ++ (r.gf ||| 1#16)).toNat = femask r := by
    rw [BitVec.toNat_append, ← Nat.shiftLeft_add_eq_or_of_lt (BitVec.isLt _), Nat.shiftLeft_eq]
    rfl
  rw [← happend, BitVec.ofNat_toNat]

theorem strandSpecial_unlisted (s : State) {n : Nat} (hn : n < 0x100)
    (hl : n ∉ [0x01, 0x02, 0x03, 0x10, 0x11, 0x12, 0x13, 0x14, 0x20, 0x21, 0x30, 0x31, 0x60, 0x61, 0x62, 0x70, 0x71, 0x72, 0x80, 0x81,
      0x82, 0x83, 0x84]) (hg : ¬(0x18 ≤ n ∧ n < 0x1C)) (hc : ¬(0x40 ≤ n ∧ n < 0x60)) : s.strandSpecial n = 0 := by
  simp only [State.strandSpecial]
  rw [if_neg hg, if_neg (fun h => hc ⟨h.1, by omega⟩), if_neg (fun h => hc ⟨by omega, h.2⟩)]
  split
  case h_19 => rfl
  all_goals exact absurd hl (by decide)

theorem atelierSpecial_unlisted (s : State) {n : Nat} (hl : n ∉ [0x100, 0x101, 0x102, 0x103, 0x104, 0x108])
    (hz : ¬(0x140 ≤ n ∧ n < 0x14C)) : s.atelierSpecial n = 0 := by
  simp only [State.atelierSpecial]
  rw [if_neg hz]
  split
  case h_6 => rfl
  all_goals exact absurd hl (by decide)

theorem strandSpecial_cdone (s : State) {i : Nat} (hi : i < 16) :
    s.strandSpecial (0x40 + i) = ((s.core s.selfCore).cdone.getD i 0#32).toNat := by
  simp only [State.strandSpecial]
  rw [if_neg (by omega), if_pos (by omega), Nat.add_sub_cancel_left]
theorem strandSpecial_cnext (s : State) {i : Nat} (hi : i < 16) :
    s.strandSpecial (0x50 + i) = ((s.core s.selfCore).cnext.getD i 0#32).toNat := by
  simp only [State.strandSpecial]
  rw [if_neg (by omega), if_neg (by omega), if_pos (by omega), Nat.add_sub_cancel_left]
theorem strandSpecial_gslot {s : State} {l : Launch} (hl : s.selfLaunch = some l) {i : Nat} (hi : i < 4) :
    s.strandSpecial (0x18 + i) = s.gslotWord l s.selfCore i := by
  simp only [State.strandSpecial, hl]
  rw [if_pos (by omega), Nat.add_sub_cancel_left]
  rfl
theorem atelierSpecial_zdef (s : State) {r : Nat} (hr : r < 12) : s.atelierSpecial (0x140 + r) = (s.zdef s.selfZone r).toNat := by
  simp only [State.atelierSpecial]
  rw [if_pos (by omega), Nat.add_sub_cancel_left]

theorem toNat_ofNat_ten {n : Nat} (h : n < 1024) : (BitVec.ofNat 10 n).toNat = n := Nat.mod_eq_of_lt h

theorem not_remoteSpecial_of_lt {n : Nat} (h : n < 0x70) : remoteSpecial n = false := by
  simp [remoteSpecial]; omega

/-- A register that a launch sets (R45). -/
theorem mfsReads_of_launch {s : State} {l : Launch} (hl : s.selfLaunch = some l) (d : Reg) :
    s.MfsReads d 0x010#10 (BitVec.ofNat 64 (s.cidWord l s.selfCore)) ∧ s.MfsReads d 0x012#10 (BitVec.ofNat 64 l.ncore) ∧
      s.MfsReads d 0x013#10 (recArg l.record) ∧ s.MfsReads d 0x014#10 (l.count.setWidth 64) ∧
      s.MfsReads d 0x083#10 (BitVec.ofNat 64 (recEclass l.record)) := by
  have hof : ∀ f : Launch → Nat, (s.selfLaunch.map f).getD 0 = f l := fun f => by rw [hl]; rfl
  refine ⟨?_, ?_, ?_, ?_, ?_⟩
  · exact mfsReads_strand d (by decide) rfl (congrArg _ (hof _))
  · exact mfsReads_strand d (by decide) rfl (congrArg _ (hof _))
  · exact mfsReads_strand d (by decide) rfl ((congrArg _ (hof _)).trans (ofNat_toNat_self _))
  · exact mfsReads_strand d (by decide) rfl ((congrArg _ (hof _)).trans (BitVec.ofNat_toNat ..))
  · exact mfsReads_strand d (by decide) rfl (congrArg _ (hof _))

/-- A fixed register of an atelier core (R402). -/
theorem mfsReads_of_atelier {s : State} (ha : s.inAtelier = true) (d : Reg) :
    s.MfsReads d 0x100#10 (BitVec.ofNat 64 (s.selfZone * 2 ^ 16 + (if s.isPrimary s.selfCore then 0 else 2 ^ 8))) ∧
      s.MfsReads d 0x101#10 (BitVec.ofNat 64 ((s.ownMailbox s.selfCore).filter fun r => !r.read).length) ∧
      s.MfsReads d 0x102#10 (s.core s.selfCore).atvec ∧ s.MfsReads d 0x103#10 (s.core s.selfCore).atepc ∧
      s.MfsReads d 0x104#10 (if (s.core s.selfCore).intrap then 1#64 else 0#64) := by
  refine ⟨?_, ?_, ?_, ?_, ?_⟩
  · have hid : s.atelierSpecial 0x100 = s.atid s.selfCore := rfl
    exact mfsReads_atelier d ha (by decide) rfl (congrArg _ (hid.trans (by rw [State.atid, State.selfZone])))
  · have hunread : s.atelierSpecial 0x101 = ((s.ownMailbox s.selfCore).filter fun r => !r.read).length := by
      simp [State.atelierSpecial]
    exact mfsReads_atelier d ha (by decide) rfl (congrArg _ hunread)
  · exact mfsReads_atelier d ha (by decide) rfl (ofNat_toNat_self _)
  · exact mfsReads_atelier d ha (by decide) rfl (ofNat_toNat_self _)
  · exact mfsReads_atelier d ha (by decide) rfl (apply_ite (BitVec.ofNat 64) _ 1 0)

/-- A remote register leaves as an access: of the full bits g[D]'s alone clears (R30, R41). -/
theorem mark_destG (d : Reg) (r : RegFile) :
    (destG d).mark false r = { r with gf := ((destG d).mark false r).gf } ∧
      ∀ i, i < 16 → ((destG d).mark false r).gf.getLsbD i = (r.gf.getLsbD i && !(d != 0#4 && i == d.toNat)) := by
  by_cases hd : d = 0#4
  · subst hd
    exact ⟨rfl, fun i _ => by simp [destG, Dest.mark]⟩
  · have hmark : (destG d).mark false r = { r with gf := setBit r.gf d.toNat false } := by
      simp only [destG, hd, if_false, Dest.mark, RegFile.markG]
    rw [hmark]
    refine ⟨rfl, fun i _ => ?_⟩
    simp only [setBit_getLsbD r.gf d.toNat i false d.isLt]
    by_cases hi : i = d.toNat
    · simp [hi, hd]
    · simp [hi]

/-- Settles O13: each number by its line of the table, an unlisted one by its 0, a remote one by its access. -/
theorem mfsReadsSpecialRegistersEach : Obligations.MfsReadsSpecialRegistersEach := by
  refine ⟨fun s d num => ?_, fun s d => ⟨fun l hl => ?_, fun ha => ?_, fun n hn => ?_⟩⟩
  · intro reads core
    refine ⟨fun hr hp => ?_, fun x hx => ?_, fun i hi hn => ?_, fun i hi hn => ?_, fun hlt hl hg hc => ?_, fun ha hle hl hz => ?_⟩
    · have hr' : remoteSpecial num.toNat = false := by simpa [remoteSpecial, ← BitVec.toNat_inj] using hr
      exact ⟨_, _, exec_mfs_local d hr' hp, writesG_setG d _ s⟩
    · simp only [List.mem_cons, Prod.mk.injEq, List.not_mem_nil, or_false] at hx
      rcases hx with ⟨rfl, rfl⟩ | ⟨rfl, rfl⟩ | ⟨rfl, rfl⟩ | ⟨rfl, rfl⟩ | ⟨rfl, rfl⟩ | ⟨rfl, rfl⟩ | ⟨rfl, rfl⟩ | ⟨rfl, rfl⟩ | ⟨rfl, rfl⟩ |
        ⟨rfl, rfl⟩ | ⟨rfl, rfl⟩ | ⟨rfl, rfl⟩ | ⟨rfl, rfl⟩
      · exact mfsReads_strand d (by decide) rfl (BitVec.ofNat_toNat ..)
      · exact mfsReads_strand d (by decide) rfl (BitVec.ofNat_toNat ..)
      · exact mfsReads_strand d (by decide) rfl (ofNat_femask _)
      · exact mfsReads_strand d (by decide) rfl (BitVec.ofNat_toNat ..)
      · exact mfsReads_strand d (by decide) rfl (ofNat_mod_two_pow _)
      · exact mfsReads_strand d (by decide) rfl (ofNat_mod_two_pow _)
      · exact mfsReads_strand d (by decide) rfl (ofNat_toNat_self _)
      · exact mfsReads_strand d (by decide) rfl rfl
      · exact mfsReads_strand d (by decide) rfl (BitVec.ofNat_toNat ..)
      · exact mfsReads_strand d (by decide) rfl (ofNat_toNat_self _)
      · exact mfsReads_strand d (by decide) rfl (ofNat_toNat_self _)
      · exact mfsReads_strand d (by decide) rfl (BitVec.ofNat_toNat ..)
      · exact mfsReads_strand d (by decide) rfl rfl
    · refine mfsReads_strand d (by omega) (not_remoteSpecial_of_lt (by omega)) ?_
      rw [hn, strandSpecial_cdone s hi, BitVec.ofNat_toNat]
    · refine mfsReads_strand d (by omega) (not_remoteSpecial_of_lt (by omega)) ?_
      rw [hn, strandSpecial_cnext s hi, BitVec.ofNat_toNat]
    · refine mfsReads_strand d hlt (by simp_all [remoteSpecial]; omega) ?_
      rw [strandSpecial_unlisted s hlt hl hg hc]
    · refine mfsReads_atelier d ha hle (by simp_all [remoteSpecial]; omega) ?_
      rw [atelierSpecial_unlisted s hl hz]
  · obtain ⟨hcid, hncore, harg, hcount, heclass⟩ := mfsReads_of_launch hl d
    refine ⟨hcid, hncore, harg, hcount, fun i hi => ?_, heclass⟩
    have hnum : (BitVec.ofNat 10 (0x018 + i)).toNat = 0x018 + i := toNat_ofNat_ten (by omega)
    refine mfsReads_strand d (by omega) (not_remoteSpecial_of_lt (by omega)) ?_
    rw [hnum, strandSpecial_gslot hl hi]
  · obtain ⟨hid, hunread, hvec, hepc, hintrap⟩ := mfsReads_of_atelier ha d
    refine ⟨hid, hunread, hvec, hepc, hintrap, fun r hr => ?_⟩
    have hnum : (BitVec.ofNat 10 (0x140 + r)).toNat = 0x140 + r := toNat_ofNat_ten (by omega)
    refine mfsReads_atelier d ha (by omega) (by rw [hnum]; simp [remoteSpecial]; omega) ?_
    rw [hnum, atelierSpecial_zdef s hr, BitVec.ofNat_toNat]
  · have hremote : remoteSpecial n.toNat = true ∧ (n.toNat < 0x100 ∨ s.inAtelier = true) := by
      rcases hn with hn | ⟨rfl, ha⟩
      · fin_cases hn <;> exact ⟨rfl, .inl (by decide)⟩
      · exact ⟨rfl, .inr ha⟩
    obtain ⟨hremote, hp⟩ := hremote
    obtain ⟨hgf, hbits⟩ := mark_destG d s.self.regs
    have hself := self_issueAccess s
      { strand := s.cur.strand, kind := .special, dest := destG d, pa := 0, n := 0, data := n.toNat }
    refine ⟨_, exec_mfs_remote d hremote hp, rfl, rfl, ⟨rfl, fun k hk => State.strand_mapRegs_ne s _ hk⟩, ?_, fun i hi => ?_⟩
    · rw [hself, ← hgf]
    · rw [hself]; exact hbits i hi

end Sys2Proof.Machine
end

section
/-! SUPPORT. The atelier's instructions on strands: PRIV in user mode, RESUME, KILL and RFT in atelier mode (17 R404–R408, R415). -/

namespace Sys2Proof.Machine

theorem privileged_of_user {s : State} (h : s.inAtelier = false) (r : Res) :
    s.privileged r = .next (s.takeTrap s.cur.slotA { cause := 0x02#6, addr := 0#64, info := 0#64 }) := by
  simp only [State.privileged, h, Bool.false_eq_true, if_false]
  rfl
theorem exec_mbxack_of_user {s : State} (h : s.inAtelier = false) (d : Reg) (a : Src) (m : BitVec 32) :
    exec (.mbxack d a m) s = .next (s.takeTrap s.cur.slotA { cause := 0x02#6, addr := 0#64, info := 0#64 }) := by
  show execMbxack d a m s = _
  rw [execMbxack, privileged_of_user h]
theorem privileged_of_atelier {s : State} (h : s.inAtelier = true) (r : Res) : s.privileged r = r := by
  simp only [State.privileged, h, if_true]

/-! ## RESUME (R407) -/

theorem readG_markG (r : RegFile) (d i : Reg) (full : Bool) : (r.markG d full).readG i = r.readG i := by
  unfold RegFile.markG
  split <;> rfl

theorem readG_resumed (x : Strand) (m : BitVec 32) (pc value : Word) (r : Reg) :
    (x.resumed m pc value).regs.readG r =
      if m.getLsbD 2 = true ∧ r = m.extractLsb' 4 4 ∧ r ≠ 0#4 then value else x.regs.readG r := by
  simp only [Strand.resumed]
  by_cases h2 : m.getLsbD 2 = true
  · simp only [h2, if_true, readG_markG, RegFile.readG_writeG, true_and]
    by_cases hr : r = m.extractLsb' 4 4
    · subst hr; simp
    · simp [hr]
  · simp only [h2, if_false, false_and, Bool.false_eq_true]

section
variable {s : State} (ha : s.inAtelier = true) (d c : Reg) (a b : Src) (m : BitVec 32)
include ha

theorem exec_resume_error {n : Nat} (h : (s.drainCore s.selfCore).resolveTarget ((s.drainCore s.selfCore).g a).toNat = .error n) :
    exec (.resume d a b c m) s = .next ((s.drainCore s.selfCore).setG d (BitVec.ofNat 64 n)) := by
  show execResume d a b c m s = _
  simp only [execResume, privileged_of_atelier ha, h]

/-- A parked strand that no handler runs on: BADOPT is answered 4, and any other option sets it going. -/
theorem exec_resume_strand {k : Nat}
    (h : (s.drainCore s.selfCore).resolveTarget ((s.drainCore s.selfCore).g a).toNat = .ok (.strand k))
    (hk : ((s.drainCore s.selfCore).strand k).inHandler = false) :
    exec (.resume d a b c m) s =
      let u := s.drainCore s.selfCore
      if badOption m (u.g b) true then .next (u.setG d 4#64)
      else .next ((u.setStrand k ((u.strand k).resumed m (u.g b) (u.gr c))).setG d 0#64) := by
  show execResume d a b c m s = _
  simp only [execResume, privileged_of_atelier ha, h, Found.isOp, State.foundStrand, State.resumeFound, hk, Bool.not_false, Bool.and_self,
    Bool.false_eq_true, if_false]

/-! ## KILL (R408) -/

theorem exec_kill_error {n : Nat} (h : s.resolveTarget (s.g a).toNat = .error n) :
    exec (.kill d a m) s = .next (s.setG d (BitVec.ofNat 64 n)) := by
  show execKill d a m s = _
  simp only [execKill, privileged_of_atelier ha, h]
theorem exec_kill_found {f : Found} (h : s.resolveTarget (s.g a).toNat = .ok f) :
    exec (.kill d a m) s = .next ((s.killFound f (m.getLsbD 0)).setG d 0#64) := by
  show execKill d a m s = _
  simp only [execKill, privileged_of_atelier ha, h]
end

/-- A retired strand's slot is free, and nothing of it is outstanding (R145, R408). -/
theorem retire_frees (s : State) (k : Nat) : ((s.retire k).strand k).st = .dormant ∧ ∀ x, x ∈ (s.retire k).accesses → x.strand ≠ k := by
  refine ⟨congrArg (·.st) (State.strand_setStrand_self s k {}), fun x hx => ?_⟩
  have hne : (x.strand != k) = true := (List.mem_filter.mp hx).2
  simpa using hne

theorem killFound_strand_frees (s : State) (k : Nat) (drop : Bool) :
    ((s.killFound (.strand k) drop).strand k).st = .dormant ∧ ∀ x, x ∈ (s.killFound (.strand k) drop).accesses → x.strand ≠ k :=
  retire_frees _ k

/-! ## RFT (R415) -/

theorem exec_rft {s : State} (ha : s.inAtelier = true) (m : BitVec 32) :
    exec (.rft m) s = if (s.core s.selfCore).intrap then .next (s.returnFromTrap (m.getLsbD 0)) else s.illegal :=
  privileged_of_atelier ha _

theorem returnFromTrap_eq (s : State) (next : Bool) :
    s.returnFromTrap next = (s.setCore s.selfCore { s.core s.selfCore with intrap := false }).setPc
      ((s.core s.selfCore).atepc + if next then 8#64 else 0#64) := by
  cases next <;> simp [State.returnFromTrap]

/-- Settles O38: PRIV comes before anything else; past it RESUME and KILL answer by what the target word names, and RFT by INTRAP. -/
theorem atelierStrandsComplete : Obligations.AtelierStrandsComplete := by
  refine ⟨fun s d c a b m hu i hi => ?_, fun s d c a b m ha => ?_⟩
  · simp only [List.mem_cons, List.not_mem_nil, or_false] at hi
    rcases hi with rfl | rfl | rfl | rfl | hi
    · exact privileged_of_user hu _
    · exact privileged_of_user hu _
    · exact privileged_of_user hu _
    · exact exec_mbxack_of_user hu d a m
    · rcases hi with rfl | rfl | rfl | rfl | rfl | rfl | rfl | rfl | rfl | rfl | rfl | rfl | rfl | rfl | rfl | rfl | rfl <;>
        exact privileged_of_user hu _
  · intro u w
    refine ⟨fun n h => exec_resume_error ha d c a b m h, fun k h hk => ⟨fun hb => ?_, fun hb => ?_⟩, fun n h => exec_kill_error ha d a m h,
      fun k h => ?_, fun zone v hz hbad => ?_, fun hi => ?_, fun hi => ?_⟩
    · rw [exec_resume_strand ha d c a b m h hk]
      exact if_pos hb
    · refine ⟨(u.strand k).resumed m (u.g b) (u.gr c), ?_, rfl, rfl, readG_resumed _ m _ _⟩
      rw [exec_resume_strand ha d c a b m h hk]
      exact if_neg (by simp [show badOption m ((s.drainCore s.selfCore).g b) true = false from hb])
    · exact ⟨_, exec_kill_found ha d a m h, killFound_strand_frees s k _⟩
    · simp only [State.resolveTarget, hz, hbad, if_true]
    · rw [exec_rft ha, if_pos hi, returnFromTrap_eq]
    · rw [exec_rft ha, hi]
      rfl

end Sys2Proof.Machine
end

section
/-! SUPPORT. Which strand issues, and its state before the pair but for registers that loads fill, through the core's earlier
accesses and the reading of a structure. -/

namespace Sys2Proof.Machine

/-- The same strand issues, and no more than registers of its state before the pair differ. -/
def SameIssuer (s t : State) : Prop := t.cur.strand = s.cur.strand ∧ ∃ r, t.before = { s.before with regs := r }

namespace SameIssuer
variable {s t u : State}

theorem of_cur (h : t.cur = s.cur) : SameIssuer s t := ⟨congrArg Issue.strand h, _, congrArg Issue.before h⟩
theorem refl (s : State) : SameIssuer s s := of_cur rfl
theorem trans (h : SameIssuer s t) (h' : SameIssuer t u) : SameIssuer s u := by
  obtain ⟨hk, r, hr⟩ := h
  obtain ⟨hk', r', hr'⟩ := h'
  exact ⟨hk'.trans hk, r', by rw [hr', hr]⟩
theorem selfCore_eq (h : SameIssuer s t) : t.selfCore = s.selfCore := congrArg strandCore h.1
theorem task_eq (h : SameIssuer s t) : t.before.task = s.before.task := by
  obtain ⟨-, r, hr⟩ := h
  rw [hr]
theorem handler_eq (h : SameIssuer s t) : t.before.handler = s.before.handler := by
  obtain ⟨-, r, hr⟩ := h
  rw [hr]
theorem launch_eq (h : SameIssuer s t) : t.before.launch = s.before.launch := by
  obtain ⟨-, r, hr⟩ := h
  rw [hr]
end SameIssuer

theorem RolledBack.sameIssuer {s t : State} (h : RolledBack s t) : SameIssuer s t := by
  obtain ⟨-, hbefore, hstrand, -⟩ := h
  exact ⟨hstrand, _, hbefore⟩
theorem Charged.sameIssuer {s t : State} (h : Charged s t) : SameIssuer s t := .of_cur (by rw [h])
theorem sameIssuer_touch (s : State) (pa : Nat) : SameIssuer s (s.touch pa) := .of_cur (cur_touch s pa)
theorem sameIssuer_writePa (s : State) (pa n x : Nat) : SameIssuer s (s.writePa pa n x) := .of_cur (cur_writePa s pa n x)
theorem sameIssuer_touchLine (s : State) (self : Option (Nat × Nat)) (line : Nat) : SameIssuer s (s.touchLine self line) :=
  (rolledBack_touchLine s self line).sameIssuer
theorem sameIssuer_writeShared (s : State) (self : Option (Nat × Nat)) (pa n x : Nat) : SameIssuer s (s.writeShared self pa n x) :=
  (sameIssuer_touchLine s self _).trans (sameIssuer_writePa _ pa n x)

/-! ## What the checks of an access change (R257, R259) -/

/-- The checks of an access may fill a core's PLB and set marks in the leaves of pages. -/
inductive LeftByChecks (s : State) : State → Prop
  | same : LeftByChecks s s
  | plb {t : State} (c : Nat) (x : Core) : LeftByChecks s t → LeftByChecks s (t.setCore c x)
  | mark {t : State} (self : Option (Nat × Nat)) (pa n x : Nat) : LeftByChecks s t → LeftByChecks s (t.writeShared self pa n x)

theorem LeftByChecks.trans {s t u : State} (h : LeftByChecks s t) (h' : LeftByChecks t u) : LeftByChecks s u := by
  induction h' with
  | same => exact h
  | plb c x _ ih => exact .plb c x ih
  | mark self pa n x _ ih => exact .mark self pa n x ih
theorem LeftByChecks.sameIssuer {s t : State} (h : LeftByChecks s t) : SameIssuer s t := by
  induction h with
  | same => exact .refl s
  | plb c x _ ih => exact ih.trans (.of_cur rfl)
  | mark self pa n x _ ih => exact ih.trans (sameIssuer_writeShared _ self pa n x)

theorem leftByChecks_markLeaf (s : State) (self : Option (Nat × Nat)) (l : Leaf) (dirty : Bool) : LeftByChecks s (s.markLeaf self l dirty) := by
  obtain h | ⟨x, h⟩ := markLeaf_cases s self l dirty
  · rw [h]; exact .same
  · rw [h]; exact .mark _ _ _ _ .same
theorem leftByChecks_markDirty (s : State) (self : Option (Nat × Nat)) (line : Nat) : LeftByChecks s (s.markDirty self line) := by
  unfold State.markDirty
  split
  · exact leftByChecks_markLeaf ..
  · exact .same

section
variable {s t : State} {acc : Acc} {va : Word} {w : Who}

theorem leftByChecks_locate {pa : Nat} (h : s.locate acc va = .ok (pa, t)) : LeftByChecks s t := by
  unfold State.locate at h
  split at h
  · cases h
    split
    · exact leftByChecks_markDirty ..
    · exact .same
  · unfold State.translate at h
    split at h
    · cases h
    · split at h
      · cases h
      · split at h <;> cases h
        exact leftByChecks_markLeaf ..
theorem leftByChecks_protect {r : Region} (h : s.protect w acc va = .ok (r, t)) : LeftByChecks s t := by
  simp only [State.protect] at h
  split at h
  · cases h; exact .same
  · split at h
    · split at h <;> cases h
      exact .plb _ _ .same
    · cases h
    · cases h

variable {p : Place}

theorem leftByChecks_settle {homes : BitVec 64} {report : Word} (h : s.settle acc va homes report = .ok (p, t)) : LeftByChecks s t := by
  unfold State.settle at h
  split at h
  · cases h; exact .same
  · split at h
    · cases h
    · next pa u hu =>
      have hut : t = u := by
        split at h
        · cases h; rfl
        · simp only at h
          split at h <;> (cases h; rfl)
      rw [hut]
      exact leftByChecks_locate hu
theorem leftByChecks_resolveVirtual {report : Word} (h : s.resolveVirtual w acc va report = .ok (p, t)) : LeftByChecks s t := by
  unfold State.resolveVirtual at h
  split at h
  · cases h
  · next r u hu => exact (leftByChecks_protect hu).trans (leftByChecks_settle h)
theorem leftByChecks_resolveScratch {q : Nat} (h : s.resolveScratch q acc va = .ok (p, t)) : LeftByChecks s t := by
  unfold State.resolveScratch at h
  split at h
  · cases h
  · split at h <;> (cases h; exact .same)
theorem leftByChecks_resolveOrdinary (h : s.resolveOrdinary w acc va = .ok (p, t)) : LeftByChecks s t := by
  simp only [State.resolveOrdinary, State.resolveWindow] at h
  split at h
  · cases h
  · split at h
    · split at h
      · cases h
      · exact leftByChecks_resolveScratch h
    · split at h
      · split at h
        · cases h
        · split at h
          · cases h; exact .same
          · split at h
            · exact leftByChecks_resolveVirtual h
            · split at h
              · cases h
              · exact leftByChecks_resolveScratch h
      · exact leftByChecks_resolveVirtual h
theorem leftByChecks_resolveStack (h : s.resolveStack w acc va = .ok (p, t)) : LeftByChecks s t := by
  simp only [State.resolveStack] at h
  split at h
  · cases h
  · split at h
    · cases h; exact .same
    · split at h
      · cases h
      · split at h
        · cases h
        · exact leftByChecks_resolveOrdinary h
theorem resolvePhysical_ok (h : s.resolvePhysical acc va = .ok (p, t)) : t = s := by
  simp only [State.resolvePhysical] at h
  split at h
  · cases h
  · split at h <;> split at h
    · cases h
    · split at h <;> (cases h; rfl)
    · cases h
    · split at h <;> (cases h; rfl)
theorem leftByChecks_resolve (h : s.resolve w acc va = .ok (p, t)) : LeftByChecks s t := by
  unfold State.resolve at h
  split at h
  · rw [resolvePhysical_ok h]; exact .same
  · split at h
    · exact leftByChecks_resolveStack h
    · exact leftByChecks_resolveOrdinary h
theorem leftByChecks_check {n pa : Nat} {cached : Option (Nat × Nat)} (h : s.check acc va n = .ok pa cached t) : LeftByChecks s t := by
  simp only [State.check, State.checkAs] at h
  split at h
  · cases h
  · split at h
    · split at h <;> cases h
    · cases h
    · cases h
    · split at h <;> cases h
    · next hr => rw [checkPlace_ok h]; exact leftByChecks_resolve hr
end

/-! ## Writes of system space (R461) -/

theorem cur_ringWrite (s : State) (fn off : Nat) (v : Word) : (s.ringWrite fn off v).cur = s.cur := by
  unfold State.ringWrite; simp only; split <;> rfl
theorem cur_dropLines (s : State) (lo hi : Nat) : (s.dropLines lo hi).cur = s.cur := by
  simp only [State.dropLines]
  generalize s.l2.entries.filter _ = hit
  induction hit generalizing s with
  | nil => rfl
  | cons e _ ih =>
    refine (ih _).trans ?_
    dsimp only
    split
    · rfl
    · split
      · exact cur_touch s _
      · rfl
theorem cur_finishShootdown (s : State) : s.finishShootdown.cur = s.cur := by
  simp only [State.finishShootdown]
  split <;> exact cur_dropLines s _ _
theorem cur_shctlGo (s : State) (v : Word) : (s.shctlGo v).cur = s.cur := by
  simp only [State.shctlGo]
  split
  · split
    · rfl
    · split
      · exact cur_finishShootdown _
      · rfl
  · rfl
theorem cur_shctlClear (s : State) (v : Word) : (s.shctlClear v).cur = s.cur := by
  unfold State.shctlClear; split <;> rfl
theorem cur_hostRequest (s : State) (v : Word) : (s.hostRequest v).cur = s.cur := by
  simp only [State.hostRequest]
  split
  · rfl
  · rw [report_eq]
theorem cur_moduleWrite (s : State) (off : Nat) (v : Word) : (s.moduleWrite off v).cur = s.cur := by
  unfold State.moduleWrite
  split
  · rfl
  · unfold State.writeMstat; split <;> rfl
  · unfold State.writeShva; split <;> rfl
  · unfold State.writeShcnt; split <;> rfl
  · exact (cur_shctlGo _ v).trans (cur_shctlClear s v)
  · rfl
  · exact cur_hostRequest s v
  · split
    · exact cur_ringWrite ..
    · rfl
theorem cur_spanWrite (s : State) (p off : Nat) (v : Word) : (s.spanWrite p off v).cur = s.cur := by
  simp only [State.spanWrite]
  split
  · rfl
  · split
    · split <;> rfl
    · split
      · split <;> rfl
      · rfl
theorem cur_sysWrite (s : State) (pa n x : Nat) : (s.sysWrite pa n x).cur = s.cur := by
  simp only [State.sysWrite]
  split
  · rfl
  · split
    · exact cur_writePa ..
    · split
      · exact cur_moduleWrite ..
      · split
        · unfold State.errorWrite; split <;> rfl
        · split
          · exact cur_spanWrite ..
          · rfl

/-! ## The completion of accesses (R30, R279) -/

theorem sameIssuer_fill (s : State) (k : Nat) (d : Dest) (x : Nat) : SameIssuer s (s.fill k d x) := by
  by_cases h : s.cur.strand = k
  · have hcur : (s.fill k d x).cur = { s.cur with before := { s.cur.before with regs := d.mark true (d.write x s.cur.before.regs) } } :=
      congrArg State.cur (if_pos h)
    exact ⟨(congrArg Issue.strand hcur).trans rfl, _, (congrArg Issue.before hcur).trans rfl⟩
  · exact .of_cur ((congrArg State.cur (if_neg h)).trans rfl)
theorem sameIssuer_storeVisible (s : State) (payer : Option Nat) (self : Option (Nat × Nat)) (line : Option (Nat × Nat)) (via : Option Nat)
    (pa n x : Nat) : SameIssuer s (s.storeVisible payer self line via pa n x) := by
  unfold State.storeVisible
  split
  · exact sameIssuer_writeShared ..
  · next c =>
    have hcharge := (charged_chargeFor s payer c (pa / 64) via .store).sameIssuer
    simp only
    split
    · exact (hcharge.trans (leftByChecks_markDirty _ self c.2).sameIssuer).trans (sameIssuer_writeShared ..)
    · exact hcharge.trans (sameIssuer_writeShared ..)
theorem sameIssuer_perform (s : State) (a : Access) : SameIssuer s (s.perform a) := by
  have hread : SameIssuer s ((s.touch a.pa).touchLine none (a.pa / 64)) := (sameIssuer_touch s _).trans (sameIssuer_touchLine _ _ _)
  unfold State.perform
  split
  · exact hread.trans (sameIssuer_fill ..)
  · exact hread.trans (sameIssuer_fill ..)
  · split
    · exact .of_cur (cur_sysWrite ..)
    · exact sameIssuer_storeVisible ..
  · exact sameIssuer_fill ..
  · exact sameIssuer_fill ..
theorem sameIssuer_completeAt (s : State) (i : Nat) : SameIssuer s (s.completeAt i) := by
  unfold State.completeAt
  split
  · exact .refl s
  · next a _ =>
    have hdone := sameIssuer_perform { s with accesses := s.accesses.eraseIdx i } a
    unfold State.wakeDrained
    split <;> exact hdone
theorem sameIssuer_drainWhere (p : Access → Bool) (fuel : Nat) (s : State) : SameIssuer s (State.drainWhere p fuel s) := by
  induction fuel generalizing s with
  | zero => exact .refl s
  | succ fuel ih =>
    unfold State.drainWhere
    split
    · exact (sameIssuer_completeAt s _).trans (ih _)
    · exact .refl s
theorem sameIssuer_drainCore (s : State) (c : Nat) : SameIssuer s (s.drainCore c) := sameIssuer_drainWhere _ _ s

/-! ## A structure that an instruction reads (R220) -/

theorem sameIssuer_account (s : State) (va : Word) (pa : Nat) (cached : Option (Nat × Nat)) (how : LineUse) :
    SameIssuer s (s.account va pa cached how) := by
  unfold State.account State.accountVia
  split
  · exact .refl s
  · exact (charged_chargeFor ..).sameIssuer
theorem rolledBack_settleConflicts (s : State) (zone fuel : Nat) : RolledBack s (s.settleConflicts zone fuel) := by
  induction fuel generalizing s with
  | zero => exact .refl s
  | succ fuel ih =>
    unfold State.settleConflicts
    split
    · exact (rolledBack_rollback s zone _).trans (ih _)
    · exact .refl s
theorem sameIssuer_readItems {s0 : State} {va : Word} {w : Nat} (k i acc : Nat) {s v : State} {x : Nat} (ht : s.before.task = none)
    (h : s0.readItems va w k i acc s = .data x v) : SameIssuer s v := by
  induction k generalizing i acc s with
  | zero => cases h; exact .refl _
  | succ k ih =>
    unfold State.readItems at h
    simp only at h
    split at h
    · cases h
    · cases h
    · cases h
    · cases h
    · next pa cached u hu =>
      have hju := (leftByChecks_check hu).sameIssuer
      have hut : u.before.task = none := hju.task_eq.trans ht
      simp only [selfTask_none hut, Option.filter_none, State.irrevocably] at h
      have hread : SameIssuer u (((u.touch pa).account (va + BitVec.ofNat 64 (w * i)) pa cached .read).touchLine u.selfTag (pa / 64)) :=
        ((sameIssuer_touch u pa).trans (sameIssuer_account ..)).trans (sameIssuer_touchLine ..)
      exact (hju.trans hread).trans (ih _ _ (hread.task_eq.trans hut) h)
theorem sameIssuer_readBack {s v : State} {va : Word} {w n x : Nat} (ht : s.before.task = none) (h : s.readBack va w n = .data x v) :
    SameIssuer s v := by
  unfold State.readBack at h
  split at h
  · cases h
  · split at h
    · cases h
    · next y u hu =>
      simp only at h
      split at h <;> cases h
      exact (sameIssuer_readItems n 0 0 ht hu).trans (rolledBack_settleConflicts u _ _).sameIssuer

end Sys2Proof.Machine
end

section
/-! SUPPORT. SEND, HOP and SPAWN: the message that leaves, the packet and the registers that it carries, the strand that is born
(07 R143, R146, R176–R178, 09 R222, R223, R225, R226). -/

namespace Sys2Proof.Machine

/-! ## SEND (R222, R223) -/

/-- The message of a SEND with payload `x` to core `c` of this module, with the core's serial number. -/
def State.sendMsg (v : State) (m : BitVec 32) (l : Launch) (c x : Nat) : Message :=
  { src := BitVec.ofNat 22 (v.cidWord l v.selfCore), msgid := (v.core v.selfCore).sendSerial, tag := m.extractLsb' 16 16
    payload := BitVec.ofNat 384 x, srcCore := v.selfCore, target := c, mbox := sendMbox m, module := none }
/-- It is on its way, and the serial number counts up. -/
def State.sent (v : State) (m : BitVec 32) (l : Launch) (c x : Nat) : State :=
  { v.setCore v.selfCore { v.core v.selfCore with sendSerial := (v.core v.selfCore).sendSerial + 1#32 } with
    messages := v.messages ++ [v.sendMsg m l c x] }

theorem sendBufferFull_of_no_handler {v : State} (h : v.before.handler = none) : v.sendBufferFull = false := by
  simp only [State.sendBufferFull, h]
theorem sendMessage_of_no_handler {v : State} (h : v.self.handler = none) (msg : Message) : v.sendMessage msg = v.pushMessage msg := by
  simp only [State.sendMessage, h]

section
variable {s : State} (d : Reg) {b : Src} (m : BitVec 32) (l : Launch) (c : Nat)

theorem exec_send_of_here (hp : PlainStrand s) {a : Src} (hb : (s.g b).toNat % 8 = 0) (hl : s.selfLaunch = some l)
    (ht : s.target l ((s.g a).toNat % 2 ^ 22) = .here c) : exec (.send d a b m) s = s.sendTo d b m l c none := by
  show execSend d a b m s = _
  simp only [execSend, hp.unless, hp.gated, hl, ht, execSend.multiple8, hb, beq_self_eq_true, Bool.not_true, Bool.and_false,
    Bool.false_eq_true, if_false]

/-- What is sent is the payload that `v`, the state after the core's earlier accesses and the reading, has at hand. -/
theorem sendTo_eq {u v : State} {x : Nat} (hu : u = s.drainCore s.selfCore) (hv : v.before.handler = none) (hself : v.self.handler = none)
    (hx : u.g b = 0#64 ∧ v = u ∧ x = 0 ∨ u.g b ≠ 0#64 ∧ u.readBack (u.g b) 8 6 = .data x v) :
    s.sendTo d b m l c none = .next ((v.sent m l c x).setG d ((v.core v.selfCore).sendSerial.setWidth 64)) := by
  have hfull := sendBufferFull_of_no_handler hv
  have hsend := fun core msg => sendMessage_of_no_handler (v := v.setCore v.selfCore core) hself msg
  unfold State.sendTo
  rw [← hu]
  obtain ⟨hb, rfl, rfl⟩ | ⟨hb, hread⟩ := hx
  · simp only [hb, if_true, hfull, Bool.false_eq_true, if_false, hsend]
    rfl
  · simp only [hb, if_false, State.readStruct, hread, hfull, Bool.false_eq_true, hsend]
    rfl
end

/-! ## HOP (R176–R178, R225) -/

theorem entryGet_filter {α : Type} (p : Nat → Bool) (k : Nat) (l : List (Nat × α)) :
    entryGet k (l.filter fun e => p e.1) = if p k then entryGet k l else none := by
  induction l with
  | nil => simp [entryGet]
  | cons e l ih =>
    by_cases hk : k = e.1
    · subst hk
      by_cases hp : p e.1 = true <;> simp [hp, entryGet, ih]
    · by_cases hp : p e.1 = true <;> simp [hp, entryGet, ih, hk]
theorem FMap.getD_keep {α : Type} (f : FMap α) (p : Nat → Bool) (k : Nat) (x : α) :
    (f.keep p).getD k x = if p k then f.getD k x else x := by
  simp only [FMap.getD, FMap.find?, FMap.keep, entryGet_filter]
  split <;> rfl

/-- g1–g9 go with the strand. -/
theorem readG_hopRegs (r : RegFile) (vmask : BitVec 8) (i : Reg) :
    (hopRegs r vmask).readG i = if 1 ≤ i.toNat ∧ i.toNat ≤ 9 then r.readG i else 0#64 := by
  simp only [RegFile.readG, hopRegs, FMap.getD_keep, Bool.and_eq_true, decide_eq_true_eq]
  by_cases hi : i = 0#4
  · simp [hi]
  · simp only [hi, if_false]
/-- The vector registers of the mask go with it. -/
theorem readV_hopRegs (r : RegFile) (m : BitVec 32) (i : Reg) :
    (hopRegs r (m.extractLsb' 0 8)).readV i = if i.toNat < 8 ∧ m.getLsbD i.toNat = true then r.readV i else 0#512 := by
  simp only [RegFile.readV, hopRegs, FMap.getD_keep, Bool.and_eq_true, decide_eq_true_eq, BitVec.getLsbD_extractLsb', Nat.zero_add]
  exact if_congr (by tauto) rfl rfl

section
variable {s : State} {m : BitVec 32}

theorem exec_hop_of_here (hp : PlainStrand s) {a : Src} {l : Launch} {c : Nat} (hl : s.selfLaunch = some l)
    (ht : s.target l ((s.g a).toNat % 2 ^ 22) = .here c) : exec (.hop a m) s = s.hop ((s.g a).toNat % 2 ^ 22) m c none := by
  show execHop a m s = _
  simp only [execHop, hp.unless, hl, ht]

variable (hd : s.drained s.cur.strand = true) (hc : hasCarry s.selfCore = false) (cid : Nat)
include hd hc

theorem hop_of_own_core : s.hop cid m s.selfCore none =
    .next (s.setSelf (s.hopped s.selfCore (strandSlot s.cur.strand) s.before.launch (hopRegs s.before.regs (m.extractLsb' 0 8))
      (s.before.pc + 8#64) s.before.birth)) := by
  simp only [State.hop, hd, hc, Bool.not_true, Bool.false_and, Bool.false_eq_true, if_false, Option.isNone_none, Bool.true_and,
    decide_true, if_true]

theorem hop_of_other_core {c : Nat} (hne : c ≠ s.selfCore) : s.hop cid m c none =
    .next { s.setSelf { s.before with st := .migrating } with
      packets := s.packets ++ [
        { strand := s.cur.strand, target := c, cid := BitVec.ofNat 22 cid, pc := s.before.pc + 8#64
          regs := hopRegs s.before.regs (m.extractLsb' 0 8), launch := s.before.launch, carry := none
          before := { s.before with st := .ready }, module := none, minTime := s.time }] } := by
  simp only [State.hop, hd, hc, hne, Bool.not_true, Bool.false_and, Bool.false_eq_true, if_false, Option.isNone_none, Bool.true_and,
    decide_false]
end

/-! ## Births and arrivals (R143, R146, R177, R204) -/

/-- A birth sets one slot; else it changes its tile alone. -/
theorem birth_eq (s : State) (core slot : Nat) (x : Strand) :
    s.birth core slot x = { s.setStrand (strandOf core slot) x with tiles := (s.birth core slot x).tiles } := by
  simp only [State.birth]
  split <;> split <;> rfl
theorem strand_birth (s : State) (core slot : Nat) (x : Strand) (k : Nat) :
    (s.birth core slot x).strand k = if k = strandOf core slot then x else s.strand k := by
  rw [birth_eq]
  exact State.strand_setStrand s _ k x
theorem cur_birth (s : State) (core slot : Nat) (x : Strand) : (s.birth core slot x).cur = s.cur := by rw [birth_eq]; rfl
theorem self_birth (s : State) {core slot : Nat} (x : Strand) (h : s.cur.strand ≠ strandOf core slot) :
    (s.birth core slot x).self = s.self := by
  rw [State.self, strand_birth, cur_birth, if_neg h]
  rfl
/-- A strand that leaves frees its slot; else its accesses and its tile alone change. -/
theorem leave_eq (s : State) (k : Nat) :
    s.leave k = { s.setStrand k {} with accesses := (s.leave k).accesses, tiles := (s.leave k).tiles } := by
  simp only [State.leave]
  split <;> rfl
theorem strand_leave (s : State) (k j : Nat) : (s.leave k).strand j = if j = k then {} else s.strand j := by
  rw [leave_eq]
  exact State.strand_setStrand s k j {}
/-- An arrival is a birth, but for the carry block. -/
theorem takeIn_eq (s : State) (p : Packet) (slot : Nat) :
    s.takeIn p slot = { s.birth p.target slot (s.hopped p.target slot p.launch p.regs p.pc p.before.birth) with
      tiles := (s.takeIn p slot).tiles } := by
  simp only [State.takeIn]
  split
  · split <;> rfl
  · rfl
theorem strand_takeIn (s : State) (p : Packet) (slot k : Nat) :
    (s.takeIn p slot).strand k =
      if k = strandOf p.target slot then s.hopped p.target slot p.launch p.regs p.pc p.before.birth else s.strand k := by
  rw [takeIn_eq]
  exact strand_birth s p.target slot _ k
theorem packets_takeIn_leave (s : State) (k : Nat) (p : Packet) (slot : Nat) : ((s.leave k).takeIn p slot).packets = s.packets := by
  rw [takeIn_eq, birth_eq, leave_eq]
  rfl

section
variable {s : State} {p : Packet} (hi : s.packets[s.input.index]? = some p) (hm : p.module = none)
include hi hm

theorem exec_hopArrival_of_free {slot : Nat} (hl : s.input.level ≠ 1) (hdead : s.deadSite (coreSite p.target) = false)
    (hsil : s.silent (coreSite p.target) = false) (htime : p.minTime ≤ s.time) (hres : s.restoring p.target = false)
    (hslot : s.freeSlot p.target = some slot) :
    exec .hopArrival s = .next ((State.leave { s with packets := s.packets.eraseIdx s.input.index } p.strand).takeIn p slot) := by
  show execHopArrival s = _
  simp only [execHopArrival, hl, if_false, hi, hm, hdead, hsil, hres, Nat.not_lt.mpr htime, decide_false, Bool.or_self,
    Bool.false_eq_true, hslot]

theorem exec_hopPacketReturn_of_dead (hdead : s.deadSite (coreSite p.target) = true) (hsil : s.silentStrand p.strand = false) :
    exec .hopPacketReturn s =
      .next (State.takeTrap { s with packets := s.packets.eraseIdx s.input.index, cur := { strand := p.strand, before := p.before } }
        false { cause := 0x19#6, info := p.cid.setWidth 64 }) := by
  show execHopPacketReturn s = _
  simp only [execHopPacketReturn, hi, hm, hdead, hsil, Bool.true_or, Bool.not_true, Bool.or_self, Bool.false_eq_true, if_false]
  rfl
end

/-! ## SPAWN (R146, R226) -/

theorem checkTarget_ok {s : State} {t : Word} (ha : t.toNat % 8 = 0) (h : t.toNat < 2 ^ 57) (aligned : Bool) (r : Res) :
    s.checkTarget t aligned r = r := by
  simp only [State.checkTarget, extractLsb'_low_ne_zero, extractLsb'_high_ne_zero, ha, Nat.not_le.mpr h, ne_eq, not_true, decide_false,
    Bool.and_false, Bool.false_eq_true, if_false]

/-- The strand that SPAWN starts in a slot, of the operands that the pair found. -/
def State.spawned (u : State) (a b c : Src) (launch slot : Nat) : Strand :=
  { st := .ready, regs := { g := ⟨[(1, u.g b), (14, swin)]⟩ }, pc := u.g a, birth := .spawn, launch := launch
    index := BitVec.ofNat 3 slot, ovfp := u.g c &&& ~~~0x3F#64 }
theorem readG_spawned (u : State) (a b c : Src) (launch slot : Nat) (i : Reg) :
    (u.spawned a b c launch slot).regs.readG i = if i = 1#4 then u.g b else if i = 14#4 then 0x01FE000000000000#64 else 0#64 := by
  by_cases h1 : i = 1#4
  · subst h1; rfl
  · by_cases h14 : i = 14#4
    · subst h14; rfl
    · have h1' : i.toNat ≠ 1 := fun h => h1 (BitVec.eq_of_toNat_eq h)
      have h14' : i.toNat ≠ 14 := fun h => h14 (BitVec.eq_of_toNat_eq h)
      have hget : (u.spawned a b c launch slot).regs.g.getD i.toNat 0#64 = 0#64 := by
        simp [State.spawned, FMap.getD, FMap.find?, entryGet, h1', h14']
      simp only [RegFile.readG, hget, ite_self, h1, h14, if_false]

section
variable {s : State} (hp : PlainStrand s) (d : Reg) {a b c : Src} (hlt : (s.g a).toNat < 2 ^ 57) (ha : (s.g a).toNat % 8 = 0)
include hp hlt ha

theorem exec_spawn_of_no_slot (h : s.freeSlot s.selfCore = none) : exec (.spawn d a b c) s = .next (s.setG d minusOne) := by
  show execSpawn d a b c s = _
  simp only [execSpawn, hp.unless, checkTarget_ok ha hlt, h]
theorem exec_spawn_of_slot {slot : Nat} (h : s.freeSlot s.selfCore = some slot) :
    exec (.spawn d a b c) s =
      .next (((s.drainCore s.selfCore).birth s.selfCore slot ((s.drainCore s.selfCore).spawned a b c s.before.launch slot)).setG d
        (BitVec.ofNat 64 slot)) := by
  have hlaunch := (sameIssuer_drainCore s s.selfCore).launch_eq
  have hatelier : coreIsAtelier s.selfCore = false := hp.2.2.2.2
  show execSpawn d a b c s = _
  simp only [execSpawn, hp.unless, checkTarget_ok ha hlt, h, hlaunch, hatelier, Bool.false_eq_true, if_false]
  rfl
end

/-! ## The obligation -/

theorem send_completes {s u v : State} {d : Reg} {a b : Src} {m : BitVec 32} {l : Launch} {c x : Nat} (hp : PlainStrand s)
    (hbefore : s.before.handler = none) (hl : s.selfLaunch = some l) (ht : s.target l ((s.g a).toNat % 2 ^ 22) = .here c)
    (hu : u = s.drainCore s.selfCore) (hb : (s.g b).toNat % 8 = 0) (hself : v.self.handler = none)
    (hx : u.g b = 0#64 ∧ v = u ∧ x = 0 ∨ u.g b ≠ 0#64 ∧ u.readBack (u.g b) 8 6 = .data x v) :
    exec (.send d a b m) s = .next ((v.sent m l c x).setG d ((v.core v.selfCore).sendSerial.setWidth 64)) ∧ SameIssuer s v := by
  have hsu : SameIssuer s u := hu ▸ sameIssuer_drainCore s _
  have hsv : SameIssuer s v := by
    obtain ⟨-, rfl, -⟩ | ⟨-, hread⟩ := hx
    · exact hsu
    · exact hsu.trans (sameIssuer_readBack (hsu.task_eq.trans hp.2.2.2.1) hread)
  rw [exec_send_of_here d m l c hp hb hl ht, sendTo_eq d m l c hu (hsv.handler_eq.trans hbefore) hself hx]
  exact ⟨rfl, hsv⟩

/-- Settles O26: a SEND by the state after its earlier accesses and its reading, a HOP by where its target is, a SPAWN by its slot;
the issuing strand stays the same throughout. -/
theorem sendHopSpawnComplete : Obligations.SendHopSpawnComplete := by
  refine ⟨fun s u v d a b m l c x hp _ hbefore hl ht hu huself hcase => ?_, fun s a m => ?_, fun s d a b c hp hlt ha => ⟨fun h => ?_, ?_⟩⟩
  · intro serial
    have hb : (s.g b).toNat % 8 = 0 := by
      obtain ⟨h, -⟩ | ⟨-, h, -⟩ := hcase
      · rw [h]; rfl
      · exact h
    have hself : v.self.handler = none := by
      obtain ⟨-, -, rfl, -⟩ | ⟨-, -, -, -, h⟩ := hcase
      · exact huself
      · exact h
    have hx : u.g b = 0#64 ∧ v = u ∧ x = 0 ∨ u.g b ≠ 0#64 ∧ u.readBack (u.g b) 8 6 = .data x v :=
      hcase.imp (fun ⟨_, h⟩ => h) fun ⟨_, _, hne, hread, _⟩ => ⟨hne, hread⟩
    obtain ⟨hexec, hsv⟩ := send_completes (d := d) (m := m) hp hbefore hl ht hu hb hself hx
    have hcore : v.selfCore = s.selfCore := hsv.selfCore_eq
    have hserial : (v.core v.selfCore).sendSerial = serial := by rw [hcore]
    refine ⟨_, v.sendMsg m l c x, hexec, rfl, by rw [← hcore]; rfl, hserial, rfl, rfl, rfl, hcore, rfl, rfl, rfl, ?_, fun i hi => ?_,
      fun k hk => ?_, fun i => ?_⟩
    · rw [← hserial, ← hcore]
      exact congrArg Core.sendSerial (State.core_setCore_self v _ _)
    · exact State.core_setCore_ne v _ (hcore ▸ hi)
    · exact State.strand_mapRegs_ne _ _ (hsv.1 ▸ hk)
    · rw [State.self_setG, RegFile.readG_writeG, hserial]
      rfl
  · intro k core carried
    refine ⟨fun l c hp hl ht hd hc => ⟨fun h => ?_, fun h => ?_⟩, fun p slot hlevel hi hm hdead hsil htime hres hslot hne => ?_,
      fun p hi hm hdead hsil => exec_hopPacketReturn_of_dead hi hm hdead hsil, readG_hopRegs _ _, readV_hopRegs _ m, rfl, rfl, rfl, rfl, rfl⟩
    · subst h
      refine ⟨_, (exec_hop_of_here hp hl ht).trans (hop_of_own_core hd hc _), ⟨rfl, fun j hj => State.strand_setSelf_ne s _ hj⟩, ?_⟩
      rw [State.self_setSelf]
      exact ⟨rfl, rfl, rfl, rfl⟩
    · exact ⟨_, _, (exec_hop_of_here hp hl ht).trans (hop_of_other_core hd hc _ h), rfl, State.self_setSelf s _, rfl, rfl, rfl, rfl, rfl, rfl⟩
    · refine ⟨_, _, exec_hopArrival_of_free hi hm hlevel hdead hsil htime hres hslot, packets_takeIn_leave _ _ _ _, rfl, ?_⟩
      rw [strand_takeIn, if_pos rfl, strand_takeIn, if_neg hne, strand_leave, if_pos rfl]
      exact ⟨rfl, rfl, rfl, rfl, rfl⟩
  · exact ⟨_, exec_spawn_of_no_slot hp d hlt ha h, writesG_setG _ _ _⟩
  · intro slot u h hu hne
    have hstrand : u.cur.strand = s.cur.strand := hu ▸ (sameIssuer_drainCore s s.selfCore).1
    have hcur (x : Strand) : (u.birth s.selfCore slot x).cur.strand = s.cur.strand := by rw [cur_birth, hstrand]
    refine ⟨_, u.spawned a b c s.before.launch slot, hu ▸ exec_spawn_of_slot hp d hlt ha h, ?_, rfl, rfl, rfl, rfl,
      rfl, rfl, readG_spawned u a b c _ slot, fun i => rfl, rfl, rfl, rfl, fun i => ?_, fun k hk hks => ?_⟩
    · exact (State.strand_mapRegs_ne _ _ (by rw [hcur]; exact hne.symm)).trans ((strand_birth u _ _ _ _).trans (if_pos rfl))
    · rw [State.self_setG, RegFile.readG_writeG, self_birth u _ (by rw [hstrand]; exact hne)]
    · exact (State.strand_mapRegs_ne _ _ (by rw [hcur]; exact hks)).trans ((strand_birth u _ _ _ _).trans (if_neg hk))

end Sys2Proof.Machine
end

section
/-! SUPPORT. Floating-point arithmetic: the pattern of a value and its negation, sums and products in either order, and the
rounding of a value that its format holds (03 R51, R55, R59, R63, 05 R117). -/

namespace Sys2Proof.Machine

/-! ## Fields of a pattern -/

theorem testBit_bits (x lo n i : Nat) : (bits x lo n).testBit i = (decide (i < n) && x.testBit (lo + i)) := by
  rw [bits, Nat.testBit_mod_two_pow, Nat.testBit_div_two_pow, Nat.add_comm]

theorem bitAt_eq_testBit (x i : Nat) : bitAt x i = x.testBit i := by
  rw [bitAt, bits, pow_one, Nat.testBit_eq_decide_div_mod_eq]
  rfl

theorem bits_lt (x lo n : Nat) : bits x lo n < 2 ^ n := Nat.mod_lt _ (Nat.two_pow_pos n)

/-- The magnitude code of a pattern: its exponent and mantissa fields side by side, the sign left out. -/
def Format.magnitude (f : Format) (x : Nat) : Nat := bits x f.mbits f.ebits * 2 ^ f.mbits + bits x 0 f.mbits

theorem Format.magnitude_eq_mod (f : Format) (x : Nat) : f.magnitude x = x % f.signBit := by
  rw [Format.signBit, Nat.add_comm f.ebits, pow_add, Nat.mod_mul, Format.magnitude, bits, bits, pow_zero, Nat.div_one]
  ring

/-- A pattern is its sign put before its magnitude code. -/
theorem withSign_magnitude {f : Format} {x : Nat} (hx : x < 2 ^ f.width) :
    withSign f (bitAt x (f.ebits + f.mbits)) (f.magnitude x) = x := by
  have hquot : x / f.signBit < 2 := by
    refine Nat.div_lt_of_lt_mul (hx.trans_eq ?_)
    rw [Format.signBit, Format.width, Nat.add_assoc, pow_add, pow_one, Nat.mul_comm]
  have hsplit : x % f.signBit + f.signBit * (x / f.signBit) = x := Nat.mod_add_div x _
  rw [withSign, Format.magnitude_eq_mod, bitAt_eq_testBit, Nat.testBit_eq_decide_div_mod_eq, ← Format.signBit, Nat.mod_eq_of_lt hquot]
  obtain h | h : x / f.signBit = 0 ∨ x / f.signBit = 1 := Nat.le_one_iff_eq_zero_or_eq_one.mp (Nat.lt_succ_iff.mp hquot)
  · simpa [h] using hsplit
  · simpa [h] using hsplit

/-! ## Negation of a pattern (R118) -/

theorem testBit_fpNegBits (f : Format) (x i : Nat) :
    (fpNegBits f x).testBit i = ((decide (i < f.width) && x.testBit i) ^^ decide (f.ebits + f.mbits = i)) := by
  rw [fpNegBits, Nat.testBit_xor, Nat.testBit_mod_two_pow, Format.signBit, Nat.testBit_two_pow]

/-- Negation leaves every field below the sign. -/
theorem bits_fpNegBits {f : Format} {lo n : Nat} (h : lo + n ≤ f.ebits + f.mbits) (x : Nat) :
    bits (fpNegBits f x) lo n = bits x lo n := by
  refine Nat.eq_of_testBit_eq fun i => ?_
  rw [testBit_bits, testBit_bits, testBit_fpNegBits]
  by_cases hi : i < n
  · have hbelow : lo + i < f.width := by rw [Format.width]; omega
    have hsign : f.ebits + f.mbits ≠ lo + i := by omega
    simp [hbelow, hsign]
  · simp [hi]

theorem bitAt_fpNegBits_sign (f : Format) (x : Nat) :
    bitAt (fpNegBits f x) (f.ebits + f.mbits) = !bitAt x (f.ebits + f.mbits) := by
  have hin : f.ebits + f.mbits < f.width := by rw [Format.width]; omega
  simp [bitAt_eq_testBit, testBit_fpNegBits, hin]

/-- The inverted sign bit means the negated value, NaNs and infinities included. -/
theorem ofBits_fpNegBits (f : Format) (x : Nat) : Fp.ofBits f (fpNegBits f x) = (Fp.ofBits f x).negate := by
  have hexp : bits (fpNegBits f x) f.mbits f.ebits = bits x f.mbits f.ebits := bits_fpNegBits (Nat.add_comm _ _).le x
  have hmant : bits (fpNegBits f x) 0 f.mbits = bits x 0 f.mbits := bits_fpNegBits (by omega) x
  simp only [Fp.ofBits, hexp, hmant, bitAt_fpNegBits_sign]
  cases f.special <;> dsimp only <;> split_ifs <;> rfl

theorem fpSub_eq_fpAdd_fpNegBits (f : Format) (x y : Nat) : fpSub f x y = fpAdd f x (fpNegBits f y) := by
  rw [fpSub, fpAdd, ofBits_fpNegBits]

/-! ## Order of the operands (R55, R59, R117) -/

theorem signalFlag_swap (a b : Fp) : signalFlag [a, b] = signalFlag [b, a] := by
  simp [signalFlag, Bool.or_comm]

/-- The aligned mantissas change places with the operands; the common exponent is the same. -/
theorem alignPair_swap (n1 n2 : Bool) (m1 m2 : Nat) (e1 e2 : Int) :
    alignPair n2 m2 e2 n1 m1 e1 =
      ((alignPair n1 m1 e1 n2 m2 e2).2.1, (alignPair n1 m1 e1 n2 m2 e2).1, (alignPair n1 m1 e1 n2 m2 e2).2.2) := by
  simp only [alignPair, min_comm e2 e1]

theorem fpAddV_fin_comm (f : Format) (n1 n2 : Bool) (m1 m2 : Nat) (e1 e2 : Int) :
    fpAddV f (.fin n1 m1 e1) (.fin n2 m2 e2) = fpAddV f (.fin n2 m2 e2) (.fin n1 m1 e1) := by
  simp only [fpAddV, alignPair_swap n1 n2, Int.add_comm (alignPair n1 m1 e1 n2 m2 e2).2.1, Bool.and_comm n2]

theorem fpAddV_inf_comm (f : Format) (n1 n2 : Bool) : fpAddV f (.inf n1) (.inf n2) = fpAddV f (.inf n2) (.inf n1) := by
  cases n1 <;> cases n2 <;> rfl

theorem fpAddV_comm (f : Format) (a b : Fp) : fpAddV f a b = fpAddV f b a := by
  cases a with
  | nan s => cases b <;> exact congrArg (nanRes f) (signalFlag_swap _ _)
  | inf n =>
    cases b with
    | nan s => exact congrArg (nanRes f) (signalFlag_swap _ _)
    | inf n' => exact fpAddV_inf_comm f n n'
    | fin n' m' e' => rfl
  | fin n m e =>
    cases b with
    | nan s => exact congrArg (nanRes f) (signalFlag_swap _ _)
    | inf n' => rfl
    | fin n' m' e' => exact fpAddV_fin_comm f n n' m m' e e'

theorem fpMulX_comm (a b : Fp) : fpMulX a b = fpMulX b a := by
  cases a with
  | nan s => cases b <;> exact congrArg (Prod.mk _) (signalFlag_swap _ _)
  | inf n =>
    cases b with
    | nan s => exact congrArg (Prod.mk _) (signalFlag_swap _ _)
    | inf n' | fin n' m' e' => simp only [fpMulX, bne_comm (a := n)]
  | fin n m e =>
    cases b with
    | nan s => exact congrArg (Prod.mk _) (signalFlag_swap _ _)
    | inf n' => simp only [fpMulX, bne_comm (a := n)]
    | fin n' m' e' => simp only [fpMulX, bne_comm (a := n), Nat.mul_comm m, Int.add_comm e]

theorem fpAdd_comm (f : Format) (x y : Nat) : fpAdd f x y = fpAdd f y x := fpAddV_comm f _ _

theorem fpMul_comm (f : Format) (x y : Nat) : fpMul f x y = fpMul f y x := by
  simp only [fpMul, fpMulV, fpMulX_comm (Fp.ofBits f x)]

/-! ## A representable value rounds to itself (R51, R59, R63) -/

/-- The exponent of the unit in the last place of a subnormal value. -/
def Format.qmin (f : Format) : Int := 1 - (f.bias : Int) - f.mbits

/-- The value of exponent field `E` and mantissa field `M` where they stand for a finite one. -/
def Format.finiteValue (f : Format) (n : Bool) (E M : Nat) : Fp :=
  if E = 0 then .fin n M f.qmin else .fin n (2 ^ f.mbits + M) ((E : Int) - f.bias - f.mbits)

/-- A zero exponent field gives the mantissa field itself, at the subnormal unit; any other puts the hidden one before it (R51). -/
theorem finiteValue_eq_fin {f : Format} {s n : Bool} {E M m : Nat} {e : Int} (h : f.finiteValue s E M = .fin n m e) :
    s = n ∧ (E = 0 ∧ m = M ∧ e = f.qmin ∨ E ≠ 0 ∧ m = 2 ^ f.mbits + M ∧ e = E - f.bias - f.mbits) := by
  rw [Format.finiteValue] at h
  split at h <;> cases h
  · next hE => exact ⟨rfl, .inl ⟨hE, rfl, rfl⟩⟩
  · next hE => exact ⟨rfl, .inr ⟨hE, rfl, rfl⟩⟩

/-- `Fp.ofBits` and `Format.maxCode` name E4M3's NaN patterns for fields of four and three bits; no other format is tied to widths. -/
def Format.Sound (f : Format) : Prop := f.special = .e4m3 → f.ebits = 4 ∧ f.mbits = 3

theorem sound_of_mem : ∀ f ∈ [fp64, fp32, fp16, bf16, fp8e4m3, fp8e5m2, fp4e2m1], f.Sound := by
  unfold Format.Sound
  decide

/-- A finite value is that of its fields, and its magnitude code is at most the largest finite one. -/
theorem finiteValue_of_ofBits {f : Format} (hf : f.Sound) {x : Nat} {n : Bool} {m : Nat} {e : Int} (h : Fp.ofBits f x = .fin n m e) :
    f.finiteValue (bitAt x (f.ebits + f.mbits)) (bits x f.mbits f.ebits) (bits x 0 f.mbits) = .fin n m e ∧ f.magnitude x ≤ f.maxCode := by
  have hE : bits x f.mbits f.ebits < 2 ^ f.ebits := bits_lt ..
  have hM : bits x 0 f.mbits < 2 ^ f.mbits := bits_lt ..
  have hcode : f.magnitude x < 2 ^ (f.ebits + f.mbits) := f.magnitude_eq_mod x ▸ Nat.mod_lt _ (Nat.two_pow_pos _)
  unfold Fp.ofBits at h
  cases hs : f.special with
  | ieee =>
    simp only [hs] at h
    split at h
    · split at h <;> cases h
    · next hones =>
      refine ⟨h, ?_⟩
      have hlast : (bits x f.mbits f.ebits + 1) * 2 ^ f.mbits ≤ (2 ^ f.ebits - 1) * 2 ^ f.mbits := Nat.mul_le_mul_right _ (by omega)
      rw [Nat.add_mul, Nat.one_mul] at hlast
      simp only [Format.maxCode, Format.magnitude, hs]
      omega
  | e4m3 =>
    obtain ⟨he, hm⟩ := hf hs
    simp only [hs] at h
    split at h
    · cases h
    · next hnan =>
      refine ⟨h, ?_⟩
      simp only [Format.maxCode, Format.magnitude, hs]
      simp only [he, hm] at hE hM hnan ⊢
      omega
  | none =>
    simp only [hs] at h
    refine ⟨h, ?_⟩
    simp only [Format.maxCode, hs]
    omega

/-- Where the unit of rounding is the value's own, every digit is kept. -/
theorem roundCode_of_unit {f : Format} {m : Nat} {e : Int} (hq : max (e + m.log2 - f.mbits) f.qmin = e) (rm : RMode) (n : Bool) :
    roundCode f rm n m e = ((e - f.qmin).toNat * 2 ^ f.mbits + m, true) := by
  rw [Format.qmin] at hq
  simp only [roundCode, roundAt, hq, le_refl, if_true, Int.sub_self, Int.toNat_zero, Nat.shiftLeft_zero, Format.qmin]

/-- A finite value of nonzero magnitude rounds to its own magnitude code, in every mode. -/
theorem roundCode_finiteValue {f : Format} {E M m : Nat} {e : Int} {s n : Bool} (hM : M < 2 ^ f.mbits)
    (h : f.finiteValue s E M = .fin n m e) (hm : m ≠ 0) (rm : RMode) : roundCode f rm n m e = (E * 2 ^ f.mbits + M, true) := by
  obtain ⟨-, ⟨rfl, rfl, rfl⟩ | ⟨hE, rfl, rfl⟩⟩ := finiteValue_eq_fin h
  · have hlog : m.log2 < f.mbits := (Nat.log2_lt hm).mpr hM
    rw [roundCode_of_unit (by omega), Int.sub_self, Int.toNat_zero]
  · have hlog : (2 ^ f.mbits + M).log2 = f.mbits := by
      rw [Nat.log2_eq_iff hm, pow_succ]
      omega
    have hexp : ((E : Int) - f.bias - f.mbits - f.qmin).toNat = E - 1 := by rw [Format.qmin]; omega
    rw [roundCode_of_unit (by rw [hlog, Format.qmin]; omega), hexp, ← Nat.add_assoc, ← Nat.succ_mul, Nat.succ_eq_add_one,
      Nat.sub_add_cancel (Nat.pos_of_ne_zero hE)]

/-- An exact magnitude code within the format is delivered with no flag, whatever the mode. -/
theorem roundTo_of_exact {f : Format} {rm : RMode} {n : Bool} {m c : Nat} {e : Int} (hm : m ≠ 0)
    (hc : roundCode f rm n m e = (c, true)) (hmax : c ≤ f.maxCode) (sat : Bool) :
    roundTo f rm sat n m e = ⟨withSign f n c, 0#6⟩ := by
  simp [roundTo, hm, hc, hmax.not_gt, flagIf]

theorem roundTo_ofBits {f : Format} (hf : f.Sound) {x : Nat} (hx : x < 2 ^ f.width) {n : Bool} {m : Nat} {e : Int}
    (h : Fp.ofBits f x = .fin n m e) (rm : RMode) (sat : Bool) : roundTo f rm sat n m e = ⟨x, 0#6⟩ := by
  obtain ⟨hfin, hmax⟩ := finiteValue_of_ofBits hf h
  obtain ⟨hsign, hfields⟩ := finiteValue_eq_fin hfin
  have hback : withSign f n (f.magnitude x) = x := hsign ▸ withSign_magnitude hx
  by_cases hm : m = 0
  · have hzero : f.magnitude x = 0 := by
      have := Nat.two_pow_pos f.mbits
      obtain ⟨hE, hM, -⟩ | ⟨-, hM, -⟩ := hfields
      · rw [Format.magnitude, hE, ← hM, hm, Nat.zero_mul]
      · omega
    rw [roundTo, if_pos hm, ← hback, hzero]
    rfl
  · rw [roundTo_of_exact hm (roundCode_finiteValue (bits_lt ..) hfin hm rm) hmax sat, ← Format.magnitude, hback]

/-- Settles O8: the sum and the product by the operands' cases, the difference by the sign bit that it inverts, and the rounding of a
representable value by the unit of rounding, which is that of the value's own last place. -/
theorem floatingPointLaws : Obligations.FloatingPointLaws :=
  ⟨fun f x y _ => ⟨fpAdd_comm f x y, fpMul_comm f x y, fun _ => fpSub_eq_fpAdd_fpNegBits f x y⟩,
    fun f rm sat _ _ _ _ hf hx h => roundTo_ofBits (sound_of_mem f hf) hx h rm sat⟩

end Sys2Proof.Machine
end

section
/-! SUPPORT. Every meaning answers a next state: what the shared operations of the meanings do with an outcome, then the instructions
that share one, by name. -/

namespace Sys2Proof.Machine

/-- The outcome is a next state: neither a fault nor a refusal. -/
def Answers (r : Res) : Prop := ∃ t, r = .next t

theorem answers_next (s : State) : Answers (.next s) := ⟨s, rfl⟩
theorem Answers.ite {c : Prop} [Decidable c] {r q : Res} (hr : Answers r) (hq : Answers q) : Answers (if c then r else q) := by
  split
  · exact hr
  · exact hq

section
variable {s : State} {r : Res} {f : State → Res}

/-! ## Traps and waits (R37, R144) -/

theorem answers_trap (t : TrapInfo) : Answers (s.trap t) := answers_next _
theorem answers_trapAt (c : BitVec 6) (a : Word) : Answers (s.trapAt c a) := answers_next _
theorem answers_trapWith (c : BitVec 6) (a i : Word) : Answers (s.trapWith c a i) := answers_next _
theorem answers_illegal : Answers s.illegal := answers_next _
theorem answers_deferFault (t : TrapInfo) : Answers (s.deferFault t) := answers_next _

theorem Answers.unless (h : Answers r) {bar : Bool} : Answers (s.unless bar r) := .ite answers_illegal h
theorem Answers.privileged (h : Answers r) : Answers (s.privileged r) := .ite h (answers_trap _)
theorem Answers.checkTarget (h : Answers r) {t : Word} {aligned : Bool} : Answers (s.checkTarget t aligned r) :=
  .ite (answers_trapAt _ _) (.ite (answers_trap _) h)
theorem Answers.onceDrained (h : Answers r) : Answers (s.onceDrained r) := .ite h (answers_next _)
theorem Answers.withRoom (h : Answers r) {ch : Nat} : Answers (s.withRoom ch r) := .ite h (answers_next _)
theorem Answers.withEngine (h : Answers r) {room : Bool} : Answers (s.withEngine room r) := .ite h (answers_next _)
theorem Answers.afterDrain (h : ∀ u, Answers (f u)) : Answers (s.afterDrain f) := .ite (answers_next _) (h _)
theorem Answers.gated (h : ∀ u, Answers (f u)) : Answers (s.gated f) := by
  unfold State.gated
  split
  · exact h _
  · exact answers_next _
theorem Answers.answered (h : ∀ u, Answers (f u)) : Answers (s.answered f) := by
  unfold State.answered
  split
  · exact h _
  · exact answers_next _

/-! ## Structures that an instruction reads (R220) -/

theorem answers_of_readItems_stop {s0 : State} {va : Word} {w k i acc : Nat} (h : s0.readItems va w k i acc s = .stop r) : Answers r := by
  induction k generalizing i acc s with
  | zero => cases h
  | succ k ih =>
    unfold State.readItems at h
    dsimp only at h
    split at h
    case h_5 =>
      split at h
      · exact ih h
      · split at h
        · cases h; exact answers_next _
        · exact ih h
    all_goals cases h; exact answers_next _
theorem answers_of_readBack_stop {va : Word} {w n : Nat} (h : s.readBack va w n = .stop r) : Answers r := by
  unfold State.readBack at h
  split at h
  · cases h; exact answers_next _
  · split at h
    next hi => cases h; exact answers_of_readItems_stop hi
    next =>
      dsimp only at h
      split at h
      · cases h; exact answers_next _
      · cases h
theorem Answers.readStruct {f : Nat → State → Res} (h : ∀ x u, Answers (f x u)) {va : Word} {n : Nat} :
    Answers (s.readStruct va n f) := by
  unfold State.readStruct
  split
  next hr => exact answers_of_readBack_stop hr
  next => exact h _ _
theorem Answers.readShape {f : Nat → State → Res} (h : ∀ x u, Answers (f x u)) {va : Word} : Answers (s.readShape va f) := by
  refine .ite (.readStruct h) ?_
  cases s.check .load va 8 with
  | remote m a t =>
    dsimp only
    split
    · exact h _ _
    · exact answers_next _
  | _ => exact answers_next _

/-! ## Loads, stores and atomics -/

theorem answers_load (kind : AccessKind) (dest : Dest) (va : Word) (n : Nat) : Answers (s.load kind dest va n) := by
  unfold State.load
  cases s.check .load va n with
  | remote m a u =>
    dsimp only
    split
    · exact answers_next _
    · exact .gated fun _ => answers_next _
  | ok pa cached u =>
    dsimp only
    split
    · exact answers_next _
    · exact .gated fun _ => answers_next _
  | _ => exact answers_next _
theorem answers_store (va : Word) (n x : Nat) : Answers (s.store va n x) := by
  unfold State.store
  cases s.check .store va n with
  | remote m a u =>
    dsimp only
    split
    · exact answers_next _
    · exact .gated fun _ => answers_next _
  | ok pa cached u =>
    dsimp only
    split
    · exact answers_next _
    · exact .gated fun _ => answers_next _
  | _ => exact answers_next _
theorem answers_amo (aop : Nat) (d : Reg) (a b : Src) (w : Bool) : Answers (s.amo aop d a b w) := by
  unfold State.amo
  refine .afterDrain fun u => ?_
  cases u.check .amo (s.g a) (if w then 8 else 4) with
  | remote m a v =>
    dsimp only
    split
    · exact answers_next _
    · exact .gated fun _ => answers_next _
  | ok pa cached v => exact .gated fun _ => answers_next _
  | _ => exact answers_next _
theorem answers_execLda (d : Reg) (base : Src) (sz : BitVec 2) (scope : BitVec 3) (off : Ext 6) :
    Answers (execLda d base sz scope off s) := by
  unfold execLda
  refine .afterDrain fun u => ?_
  dsimp only
  split
  · exact .ite (answers_load ..) (.gated fun _ => answers_next _)
  · exact answers_load ..
theorem answers_cacheOp (va : Word) (f : State → Nat → State) : Answers (s.cacheOp va f) := by
  have act (u : State) (lines : List Nat) :
      Answers (match u.heldLine lines with | some site => .next (u.hold (.remap site)) | none => .next (lines.foldl f u)) := by
    split <;> exact answers_next _
  refine .ite (.ite (answers_trap _) (act _ _)) (.ite (answers_trap _) (.ite (answers_next _) ?_))
  split
  · exact answers_trap _
  · exact act _ _

/-! ## Engine commands (R291, R317) -/

theorem answers_fork (d : Reg) (o : Op) : Answers (s.fork d o) := answers_next _
theorem answers_atOnce (d : Reg) (o : Op) (sts : Nat) : Answers (s.atOnce d o sts) := answers_next _
/-- An engine's command goes on past its range checks or traps with what they find (R321). -/
theorem Answers.checkRanges {w : Who} {windows : Bool} {us : List RangeUse} (h : ∀ u, Answers (f u)) :
    Answers (match s.checkRanges w windows us with | .error t => s.trap t | .ok u => f u) := by
  split
  · exact answers_trap _
  · exact h _
theorem answers_issueXfer (d : Reg) (x : Shape) (m : BitVec 32) (two descBad : Bool) : Answers (s.issueXfer d x m two descBad) := by
  refine .ite (answers_trapAt _ _) (.ite (answers_trapAt _ _) (.ite (answers_trapAt _ _) (.ite (.withRoom (answers_atOnce ..)) ?_)))
  exact .checkRanges fun u => .withRoom (.ite (answers_atOnce ..) (.ite (answers_atOnce ..) (answers_fork ..)))
theorem answers_issueTs (op : Nat) (d : Reg) (row other count : Word) (m : BitVec 32) : Answers (s.issueTs op d row other count m) := by
  refine .ite answers_illegal (.gated fun u => .ite (answers_trapAt _ _) ?_)
  exact .checkRanges fun v => .withRoom (.ite (answers_atOnce ..) (.ite (answers_atOnce ..) (answers_fork ..)))
theorem answers_issueMxe (d : Reg) (o : Op) (range : Bool) : Answers (s.issueMxe d o range) :=
  .withRoom (.withEngine (.ite (answers_atOnce ..) (answers_fork ..)))
theorem answers_issueMma (op : Nat) (d : Reg) (a b : Src) (m : BitVec 32) : Answers (s.issueMma op d a b m) :=
  .ite answers_illegal (.gated fun _ => .ite (answers_trapWith ..) (answers_issueMxe ..))
theorem answers_execMmal (d : Reg) (a b c : Src) (m : BitVec 32) : Answers (execMmal d a b c m s) := by
  refine .ite answers_illegal (.gated fun u => .ite (answers_trapWith ..) (.ite (answers_trapAt _ _) (.ite (answers_trapAt _ _) ?_)))
  exact .checkRanges fun v => answers_issueMxe ..
theorem answers_execGmm (d : Reg) (a : Src) (m : BitVec 32) : Answers (execGmm d a m s) := by
  refine .ite answers_illegal (.gated fun u => .ite (answers_trapWith ..) (.ite (answers_trapAt _ _) (.readStruct fun x v => ?_)))
  split
  next h => exact answers_of_readBack_stop h
  next => exact answers_issueMxe ..
theorem answers_forkSweep (kind : OpKind) (d : Reg) (a b : Src) : Answers (s.forkSweep kind d a b) :=
  .gated fun _ => .withEngine (answers_next _)
theorem answers_issueAtt (op : Nat) (d : Reg) (m : BitVec 32) (modBits : Nat) (uses : List RangeUse) (args : List Word) (desc total : Nat)
    (bad : Bool) : Answers (s.issueAtt op d m modBits uses args desc total bad) :=
  .checkRanges fun _ => .withRoom (.withEngine (.ite (answers_atOnce ..) (answers_fork ..)))
theorem answers_issueElems (scat : Bool) (d : Reg) (lo table : Word) (c : Src) (m : BitVec 32) :
    Answers (s.issueElems scat d lo table c m) := by
  refine .ite answers_illegal (.gated fun u =>
    .ite (answers_trapAt _ _) (.ite (answers_trapAt _ _) (.ite (answers_trapAt _ _) (.readStruct fun x v => .ite (answers_trapAt _ _) ?_))))
  exact .checkRanges fun w => .withRoom (.ite (answers_next _) (.ite (answers_next _) (answers_fork ..)))
theorem answers_onEntries (d : Reg) (a b : Src) (f : State → Nat → NatSet → State × Bool) : Answers (s.onEntries d a b f) := by
  refine .ite answers_illegal (.gated fun u => .ite (answers_next _) (.answered fun v => ?_))
  split
  · exact answers_next _
  · exact .ite (answers_next _) (answers_next _)
theorem answers_execGcancel (d : Reg) (a b : Src) (m : BitVec 32) : Answers (execGcancel d a b m s) := by
  unfold execGcancel
  exact answers_onEntries ..
theorem answers_execSmerge (d : Reg) (a b c : Src) (m : BitVec 32) : Answers (execSmerge d a b c m s) := by
  refine .ite answers_illegal (.gated fun u => ?_)
  split
  · exact answers_trapAt _ _
  · exact .checkRanges fun v => .withRoom (.ite (answers_atOnce ..) (answers_fork ..))
theorem answers_issueColl (op : Nat) (d : Reg) (a b c : Src) (m : BitVec 32) : Answers (s.issueColl op d a b c m) := by
  refine .ite answers_illegal (.gated fun u => ?_)
  dsimp only
  split
  · refine .ite (answers_trapAt _ _) (.ite (answers_trapAt _ _) (.checkRanges fun v => .withRoom ?_))
    exact .ite (answers_atOnce ..) (.ite (answers_atOnce ..) (answers_fork ..))
  · exact answers_trapWith ..

/-! ## Control flow, messages and births -/

theorem answers_execBr (off : Ext 21) : Answers (execBr off s) := by
  unfold execBr
  exact .checkTarget (answers_next _)
theorem answers_execBrl (off : Ext 21) : Answers (execBrl off s) := by
  unfold execBrl
  exact .checkTarget (answers_next _)
theorem answers_execPause (a : Src) : Answers (execPause a s) := .unless (.ite (answers_next _) (answers_next _))
theorem answers_execHend : Answers (execHend s) := by
  refine .ite (.onceDrained (answers_next _)) ?_
  split
  · exact answers_illegal
  · exact .onceDrained (answers_next _)
theorem answers_sendTo (d : Reg) (b : Src) (m : BitVec 32) (l : Launch) (target : Nat) (module : Option Nat) :
    Answers (s.sendTo d b m l target module) :=
  .ite (.ite (answers_trapWith ..) (answers_next _)) (.readStruct fun _ _ => .ite (answers_trapWith ..) (answers_next _))
theorem answers_execSend (d : Reg) (a b : Src) (m : BitVec 32) : Answers (execSend d a b m s) := by
  refine .unless (.gated fun u => .ite (answers_trapAt _ _) ?_)
  split
  · exact answers_trapWith ..
  · split
    · exact answers_sendTo ..
    · exact answers_sendTo ..
    · exact answers_trapWith ..
theorem answers_execSendReturned (d : Reg) (a : Src) (m : BitVec 32) : Answers (execSendReturned d a m s) := by
  refine .unless (.gated fun u => .ite (answers_trapAt _ _) ?_)
  split
  · exact answers_next _
  · cases u.check .store (u.g a) 64 <;> exact answers_next _
theorem answers_execMbcfg (d : Reg) (a b : Src) (m : BitVec 32) : Answers (execMbcfg d a b m s) := by
  refine .unless (.ite (.ite (answers_next _) (answers_next _)) (.ite (answers_trapAt _ _) (.readStruct fun x u => ?_)))
  exact .ite (answers_next _) (.ite (answers_next _) (.ite (answers_next _)
    (.ite (answers_trap _) (.ite (answers_next _) (answers_next _)))))
theorem answers_hop (cid : Nat) (m : BitVec 32) (target : Nat) (module : Option Nat) : Answers (s.hop cid m target module) :=
  .ite (answers_next _) (.ite (answers_next _) (.ite (answers_next _) (answers_next _)))
theorem answers_execHop (a : Src) (m : BitVec 32) : Answers (execHop a m s) := by
  refine .unless ?_
  dsimp only
  split
  · exact answers_trapWith ..
  · split
    · exact answers_hop ..
    · exact answers_hop ..
    · exact answers_trapWith ..
theorem answers_execSpawn (d : Reg) (a b c : Src) : Answers (execSpawn d a b c s) := by
  refine .unless (.checkTarget ?_)
  dsimp only
  split <;> exact answers_next _

/-! ## Events, groups and tasks -/

theorem answers_execEvcfg (a b : Src) : Answers (execEvcfg a b s) := by
  refine .unless (.gated fun u => .ite answers_illegal (.ite ?_ (answers_next _)))
  split
  · exact answers_trapWith ..
  · exact .ite answers_illegal (answers_next _)
theorem answers_execEvwait (d : Reg) (a : Src) : Answers (execEvwait d a s) := by
  refine .unless ?_
  split
  · exact answers_next _
  · dsimp only
    split
    · exact answers_next _
    all_goals exact .ite (answers_next _) (answers_next _)
theorem answers_execEvsig (a b : Src) (m : BitVec 32) : Answers (execEvsig a b m s) := by
  refine .unless (.gated fun u => .ite (answers_next _) ?_)
  dsimp only
  split
  · exact answers_trapWith ..
  · split <;> exact answers_next _
theorem Answers.withGroup {f : Group → Res} (h : ∀ g, Answers (f g)) {a : Src} : Answers (s.withGroup a f) := by
  unfold State.withGroup
  dsimp only
  split
  · exact h _
  · exact answers_trapWith ..
theorem answers_execBar (d : Reg) (a : Src) : Answers (execBar d a s) := by
  refine .unless (.withGroup fun g => ?_)
  split <;> exact answers_next _
theorem answers_offerTask (ts hpc : Word) (args : List Word) : Answers (s.offerTask ts hpc args) :=
  .ite (answers_next _) (.ite (answers_trapWith ..) (answers_next _))
theorem answers_execTenq (a b c : Src) : Answers (execTenq a b c s) :=
  .unless (.checkTarget (.ite (answers_trapAt _ _)
    (.afterDrain fun _ => .ite (answers_offerTask ..) (.readStruct fun _ _ => answers_offerTask ..))))
theorem answers_execTend (m : BitVec 32) : Answers (execTend m s) := by
  unfold execTend
  split
  · exact answers_illegal
  · exact .ite (answers_trapWith ..) (.onceDrained (answers_next _))
theorem answers_execTself (d : Reg) (m : BitVec 32) : Answers (execTself d m s) := by
  unfold execTself
  split
  · exact answers_illegal
  · exact .ite (.gated fun _ => answers_next _) (answers_next _)

/-! ## Launches, pages and KV -/

theorem Answers.withRecord {f : BitVec 1024 → State → Res} (h : ∀ x u, Answers (f x u)) {va : Word} : Answers (s.withRecord va f) :=
  .ite (answers_trapAt _ _) (.gated fun _ => .readStruct fun _ _ => h _ _)
theorem answers_placeDirect (d : Reg) (va : Word) (indirect : Bool) (x : BitVec 1024) : Answers (s.placeDirect d va indirect x) :=
  .ite (answers_next _) (answers_next _)
theorem answers_execLaunchQ (d : Reg) (a b : Src) : Answers (execLaunchQ d a b s) := by
  refine .unless (.withRecord fun x u => .ite (answers_next _) (.ite (answers_next _) ?_))
  dsimp only
  split <;> exact answers_next _
theorem Answers.pageOp {f : Word → State → Res} (h : ∀ va u, Answers (f va u)) {a : Src} : Answers (s.pageOp a f) := by
  refine .unless (.gated fun u => .ite (answers_trap _) ?_)
  split
  · exact answers_trap _
  · exact .answered fun v => h _ _
theorem Answers.withLeaf {f : Leaf → Res} (h : ∀ l, Answers (f l)) {va : Word} : Answers (s.withLeaf va f) := by
  unfold State.withLeaf
  split
  · exact h _
  · exact answers_deferFault _
theorem Answers.unlessHeld (h : ∀ u, Answers (f u)) {lo hi : Nat} : Answers (s.unlessHeld lo hi f) := by
  unfold State.unlessHeld
  split
  · exact answers_next _
  · exact h _
theorem answers_execPgmig (d : Reg) (a b : Src) : Answers (execPgmig d a b s) :=
  .pageOp fun _ _ => .ite (answers_next _) (.ite (answers_next _)
    (.ite (.withLeaf fun _ => .ite (answers_next _) (.unlessHeld fun _ => answers_next _)) (.unlessHeld fun _ => answers_next _)))
theorem answers_execPgownGive (d : Reg) (a : Src) (m : BitVec 32) : Answers (execPgownGive d a m s) :=
  .pageOp fun _ _ => .ite (answers_next _)
    (.withLeaf fun _ => .ite (answers_next _) (.ite (answers_next _) (.unlessHeld fun _ => answers_next _)))
theorem answers_execPgownTake (d : Reg) (a : Src) (m : BitVec 32) : Answers (execPgownTake d a m s) :=
  .pageOp fun _ _ => .ite (answers_next _) (.withLeaf fun _ => .ite (answers_next _) (answers_next _))
theorem answers_execKvprobe (d : Reg) (a : Src) (m : BitVec 32) : Answers (execKvprobe d a m s) :=
  .unless (.gated fun _ => .answered fun _ => .ite (answers_next _) (.ite (answers_next _) (answers_next _)))
theorem answers_execKvinv (d : Reg) (a b : Src) : Answers (execKvinv d a b s) :=
  .unless (.gated fun _ => .answered fun _ =>
    .ite (answers_next _) (.ite (answers_next _) (.ite (answers_next _) (answers_next _))))
theorem answers_execKvfill (d : Reg) (a b : Src) : Answers (execKvfill d a b s) := by
  refine .ite answers_illegal (.ite (answers_trapAt _ _) ?_)
  split
  · exact answers_illegal
  · exact .ite (answers_next _) (.readStruct fun x u => .answered fun v => answers_next _)

/-! ## Semaphores, special registers and the atelier -/

theorem answers_execSemp (d : Reg) (a : Src) (m : BitVec 32) : Answers (execSemp d a m s) := by
  refine .unless ?_
  split
  · exact answers_next _
  · exact .gated fun u => .ite (answers_next _) (answers_next _)
theorem answers_execMts (d : Reg) (num : BitVec 10) : Answers (execMts d num s) := by
  refine .ite (answers_trap _) ?_
  split
  · exact answers_illegal
  · exact .ite answers_illegal (answers_next _)
theorem answers_of_storeWords_error {s0 : State} {a : Word} {x n i : Nat} (h : s0.storeWords a x n i s = .error r) : Answers r := by
  induction n generalizing i s with
  | zero => cases h
  | succ n ih =>
    unfold State.storeWords at h
    dsimp only at h
    split at h
    case h_5 => exact ih h
    all_goals cases h; exact answers_next _
theorem answers_execMbxrd (d : Reg) (a : Src) (m : BitVec 32) : Answers (execMbxrd d a m s) := by
  refine .privileged (.ite (answers_trapAt _ _) ?_)
  extract_lets core u
  split
  · exact .ite (answers_next _) (answers_next _)
  · split
    next h => exact answers_of_storeWords_error h
    next => exact answers_next _
theorem answers_execMbxack (d : Reg) (a : Src) (m : BitVec 32) : Answers (execMbxack d a m s) := by
  refine .privileged ?_
  extract_lets core
  split
  · exact answers_next _
  · exact .ite (answers_next _) (answers_next _)
theorem answers_execResume (d : Reg) (a b : Src) (c : Reg) (m : BitVec 32) : Answers (execResume d a b c m s) := by
  refine .privileged ?_
  dsimp only
  split
  · exact answers_next _
  · exact .ite (answers_next _) (answers_next _)
theorem answers_execKill (d : Reg) (a : Src) (m : BitVec 32) : Answers (execKill d a m s) := by
  refine .privileged ?_
  split <;> exact answers_next _
theorem answers_partctl (d : Reg) (f : State → State × Nat) : Answers (s.partctl d f) := .privileged (.answered fun _ => answers_next _)
theorem answers_execPartctlReset (d : Reg) (a b : Src) (c : Reg) (m : BitVec 32) : Answers (execPartctlReset d a b c m s) := by
  refine .privileged (.ite (.answered fun _ => answers_next _) ?_)
  split
  · exact .ite (answers_next _) (answers_next _)
  · exact .ite (answers_next _) (answers_next _)

/-! ## Events of the device that go on from one operation -/

theorem Answers.sweepAt {f : Nat → Op → State → Res} (h : ∀ i o u, Answers (f i o u)) : Answers (s.sweepAt f) := by
  unfold State.sweepAt
  dsimp only
  split
  · exact answers_next _
  · exact .ite (answers_next _) (h _ _ _)
theorem answers_execBlockFold : Answers (execBlockFold s) := by
  refine .sweepAt fun i o u => ?_
  split <;> exact answers_next _
theorem answers_execAttentionSweepStop : Answers (execAttentionSweepStop s) := by
  refine .sweepAt fun i o u => ?_
  split <;> exact answers_next _
theorem answers_execShadowHandlerStart : Answers (execShadowHandlerStart s) := by
  refine .sweepAt fun i o u => ?_
  split
  · exact .ite (answers_next _) (answers_next _)
  · exact answers_next _
theorem answers_execPref (a : Src) (scope : BitVec 3) (kind : BitVec 2) : Answers (execPref a scope kind s) := by
  refine .ite (answers_next _) ?_
  split <;> exact answers_next _
theorem answers_vscan (et : BitVec 3) (d : Reg) (a : Src) (op : Nat → Nat → FpRes) : Answers (s.vscan et d a op) := by
  unfold State.vscan
  split <;> exact answers_next _
theorem answers_execFqpeek (d : Reg) (a b : Src) (m : BitVec 32) : Answers (execFqpeek d a b m s) := by
  refine .ite answers_illegal (.gated fun u => .ite (answers_next _) ?_)
  split <;> exact answers_next _

end

/-! ## Every instruction and every event -/

theorem exec_answers (i : Instr) (s : State) : Answers (exec i s) := by
  cases i
  case br => exact answers_execBr _
  case brl => exact answers_execBrl _
  case jmp | jmpl | ret => exact .checkTarget (answers_next _)
  case dbnz => exact .ite (answers_next _) (.checkTarget (answers_next _))
  case endStrand => exact .unless (.onceDrained (answers_next _))
  case pause => exact answers_execPause _
  case hend => exact answers_execHend
  case ld | ldx | ldv | ldvb => exact answers_load ..
  case st | stx | stv => exact answers_store ..
  case lda d base sz scope off => exact answers_execLda d base sz scope off
  case stl => exact .afterDrain fun _ => answers_store ..
  case amoAdd | amoAnd | amoOr | amoXor | amoMin | amoMax | amoMinu | amoMaxu | amoSwap | amoCas => exact answers_amo ..
  case pref => exact answers_execPref ..
  case flush | inv => exact answers_cacheOp ..
  case plbinv => exact .unless (.gated fun _ => .ite (answers_next _) (.answered fun _ => answers_next _))
  case mfs => exact .ite (answers_trap _) (.ite (answers_next _) (answers_next _))
  case mts => exact answers_execMts ..
  case fmtset => exact .ite answers_illegal (answers_next _)
  case vscanAdd | vscanMin | vscanMax => exact answers_vscan ..
  case vdqnt => exact .ite (answers_next _) (answers_next _)
  case kvfill => exact answers_execKvfill ..
  case kvinv => exact answers_execKvinv ..
  case kvprobe => exact answers_execKvprobe ..
  case pgmig => exact answers_execPgmig ..
  case pgownGive d a m => exact answers_execPgownGive d a m
  case pgownTake d a m => exact answers_execPgownTake d a m
  case xfer => exact .unless (.gated fun _ => answers_issueXfer ..)
  case xfer2d => exact .unless (.gated fun _ => .ite (answers_trapAt _ _) (.readShape fun _ _ => answers_issueXfer ..))
  case xwait => exact .unless (.gated fun _ => .ite (answers_next _) (.ite (answers_next _) (answers_next _)))
  case xpoll => exact .unless (.gated fun _ => .ite (answers_next _) (answers_next _))
  case tsld | tsst | tscpy | tszero => exact answers_issueTs ..
  case mma | bsmma => exact answers_issueMma ..
  case mmal => exact answers_execMmal ..
  case gmm => exact answers_execGmm ..
  case aczero | acld => exact .ite answers_illegal (.gated fun _ => answers_issueMxe ..)
  case acst => exact .ite answers_illegal (.gated fun _ => .ite (answers_trapWith ..) (answers_issueMxe ..))
  case semv => exact .unless (.gated fun _ => .ite (answers_trapWith ..) (answers_next _))
  case semp => exact answers_execSemp ..
  case semq | tkreq | tklend => exact .unless (.gated fun _ => answers_next _)
  case atts => exact .ite (answers_forkSweep ..) answers_illegal
  case kvnext => exact .ite answers_illegal (answers_forkSweep ..)
  case attm | cbld | cbst => exact .ite answers_illegal (.gated fun _ => .ite (answers_trapAt _ _) (answers_issueAtt ..))
  case attn =>
    exact .ite answers_illegal (.gated fun _ =>
      .ite (answers_next _) (.ite (answers_trapAt _ _) (.ite (answers_trapAt _ _) (answers_issueAtt ..))))
  case cbinit =>
    exact .ite answers_illegal (.gated fun _ => .ite (answers_trapAt _ _) (.readStruct fun _ _ => answers_issueAtt ..))
  case gath | scat => exact answers_issueElems ..
  case greplay => exact answers_onEntries ..
  case gcancel => exact answers_execGcancel ..
  case fqpeek => exact answers_execFqpeek ..
  case smerge => exact answers_execSmerge ..
  case collAr | collSr | collBc => exact answers_issueColl ..
  case send => exact answers_execSend ..
  case sendReturned d a m => exact answers_execSendReturned d a m
  case hop => exact answers_execHop ..
  case spawn => exact answers_execSpawn ..
  case launch | launchi => exact .unless (.withRecord fun _ _ => answers_placeDirect ..)
  case launchQ => exact answers_execLaunchQ ..
  case mbcfg => exact answers_execMbcfg ..
  case evcfg => exact answers_execEvcfg ..
  case evwait => exact answers_execEvwait ..
  case evsig => exact answers_execEvsig ..
  case evpoll => exact .unless (answers_next _)
  case grank | gsize => exact .unless (.withGroup fun _ => answers_next _)
  case gmap => exact .unless (.withGroup fun _ => .answered fun _ => answers_next _)
  case bar => exact answers_execBar ..
  case tenq => exact answers_execTenq ..
  case tend => exact answers_execTend _
  case tself => exact answers_execTself ..
  case tkqry => exact .unless (.answered fun _ => answers_next _)
  case resume => exact answers_execResume ..
  case kill => exact answers_execKill ..
  case mbxrd =>
    unfold exec
    exact answers_execMbxrd ..
  case mbxack =>
    unfold exec
    exact answers_execMbxack ..
  case mapset => exact .privileged (.ite (answers_next _) (.ite (answers_next _) (.answered fun _ => answers_next _)))
  case routesetSite => exact .privileged (answers_next _)
  case routesetPort | toksetCap | toksetClear => exact .privileged (.ite (answers_next _) (answers_next _))
  case partctlCreate | partctlResize | partctlDestroy | partctlFloor | partctlQcreate | partctlQdelete | partctlSetreg | partctlFreeze |
      partctlRelease | partctlSavearea => exact answers_partctl ..
  case partctlReset d a b c m => exact answers_execPartctlReset d a b c m
  case rft => exact .privileged (.ite (answers_next _) answers_illegal)
  case diagnostic => exact .ite answers_illegal (answers_trap _)
  case blockFold => exact answers_execBlockFold
  case attentionSweepStop => exact answers_execAttentionSweepStop
  case shadowHandlerStart => exact answers_execShadowHandlerStart
  -- Whatever an event finds, it ends in a next state: each branch of these meanings is one.
  case pauseExpiry | translationFaultReturn | pageMigration | xferGranuleDelivery | engineOperationComplete |
      gatherElementArrival | scatterElementApply | mergeNode | messageArrival | messageReturn | mailboxFire | hopArrival |
      hopPacketReturn | remoteSignalArrival | groupTreeArrival | groupTreeRelease | taskDispatch | taskCommit | taskRollback |
      taskIrrevocable | armatureCycle | tokhRaise | tokhLower | loanTermEnd | dispatcherSelection | launchBinding | wakeFlood |
      launchCompletion | sealRead | stalePacketTimeout | dependencesSatisfied | watchdogExpiry | drainResetComplete |
      gangSwitchArm | gangSwitchStop | saveStart | saveComplete | restoreStart | restoreComplete | coreDead | atelierTakeover |
      zoneOutOfService | tileStateError | sramPatrolRead | sramBankSweep | meshFlitRetry | errorCounterClear | scrubZeroingPass |
      scrubReadPass | wearSensorSample | powerGood | firmwareVerification | storedResultsCheck | hbmTrainingComplete |
      portTrainingComplete | atelierCoresStart | moduleReady | registerWrite | priResponse | spanLaunchSequence |
      spanShareComplete | flitReceive | nakReplay | idleFlit | linkFailure | linkReconciliation | spanBreak | getCapabilities |
      negotiateAlgorithms | answerArrival | vfEnable | engineMemoryGranule =>
    simp only [exec, execPauseExpiry, execTranslationFaultReturn, execPageMigration, execXferGranuleDelivery,
      execEngineOperationComplete, execGatherElementArrival, execScatterElementApply, execMergeNode, execMessageArrival,
      execMessageReturn, execMailboxFire, execHopArrival, execHopPacketReturn, execRemoteSignalArrival, execGroupTreeArrival,
      execGroupTreeRelease, execTaskDispatch, execTaskCommit, execTaskRollback, execTaskIrrevocable, execArmatureCycle,
      execTokhRaise, execTokhLower, execLoanTermEnd, execDispatcherSelection, execLaunchBinding, execWakeFlood,
      execLaunchCompletion, execSealRead, execStalePacketTimeout, execDependencesSatisfied, execWatchdogExpiry,
      execDrainResetComplete, execGangSwitchArm, execGangSwitchStop, execSaveStart, execSaveComplete, execRestoreStart,
      execRestoreComplete, execCoreDead, execAtelierTakeover, execZoneOutOfService, execTileStateError, execSramPatrolRead,
      execSramBankSweep, execMeshFlitRetry, execErrorCounterClear, execScrubZeroingPass, execScrubReadPass, execWearSensorSample,
      execPowerGood, execFirmwareVerification, execStoredResultsCheck, execHbmTrainingComplete, execPortTrainingComplete,
      execAtelierCoresStart, execModuleReady, execRegisterWrite, execPriResponse, execSpanLaunchSequence, execSpanShareComplete,
      execFlitReceive, execNakReplay, execIdleFlit, execLinkFailure, execLinkReconciliation, execSpanBreak, execGetCapabilities,
      execNegotiateAlgorithms, execAnswerArrival, execVfEnable, execEngineMemoryGranule]
    repeat' split
    all_goals exact answers_next _
  -- The rest are one next state, whatever they find.
  all_goals exact answers_next _

/-! ## Every step -/

theorem answers_runC (s : State) (c : Option Instr) : Answers (s.runC c) := by
  cases c with
  | none => exact answers_next _
  | some i => exact exec_answers _ _
theorem answers_runA (s0 s : State) (a : Option Instr) : Answers (s0.runA s a) := by
  cases a with
  | none => exact answers_next _
  | some i =>
    refine .ite (answers_next _) ?_
    split
    · exact answers_next _
    · exact .ite (answers_next _) (exec_answers _ _)
theorem answers_runPair (s : State) (c a : Option Instr) : Answers (s.runPair c a) := by
  obtain ⟨u, hu⟩ := answers_runC (s.startPair.doom a) c
  obtain ⟨v, hv⟩ := answers_runA (s.startPair.doom a) u a
  simp only [State.runPair, hu, hv]
  exact .ite (answers_next _) (answers_next _)
theorem answers_issue (s : State) (k : Nat) : Answers (s.issue k) := by
  unfold State.issue
  split
  · exact answers_next _
  · unfold State.runWords
    split
    · exact answers_next _
    · exact answers_next _
    · exact answers_runPair ..
theorem answers_issueTurn (s : State) (core : Nat) : Answers (s.issueTurn core) := by
  unfold State.issueTurn
  dsimp only
  split
  · exact answers_issue ..
  · exact answers_next _
theorem answers_eventTurn (s : State) (i : Instr) (x : Input) : Answers (s.eventTurn i x) := by
  obtain ⟨t, ht⟩ := exec_answers i { s with input := x }
  unfold State.eventTurn
  rw [ht]
  exact .ite (answers_next _) (answers_next _)
theorem answers_runTurn (s : State) (t : Turn) : Answers (s.runTurn t) := by
  cases t with
  | issue core => exact answers_issueTurn ..
  | event i x => exact answers_eventTurn ..
  | _ => exact answers_next _
theorem answers_step (s : State) : Answers (step s) := by
  unfold step
  split <;> exact answers_runTurn ..

/-- Settles O60: every meaning answers, instruction by instruction, and a turn ends in a next state of its own or in a meaning's. -/
theorem nothingStopsTheMachine : Obligations.NothingStopsTheMachine := ⟨exec_answers, answers_step⟩

end Sys2Proof.Machine
end

section
/-! SUPPORT. The A slot's integer and floating-point results, and the NOPs (05 R94, R100, R110–R120). -/

namespace Sys2Proof.Machine

/-! ## One result in g[D] (R94) -/

section
variable (s : State) (d : Reg)

theorem completes_putG (x : Word) : ∃ t, s.putG d x = .next t ∧ WritesG d x s t := ⟨_, rfl, writesG_setG d x s⟩
theorem completes_putG_with {P : Word → Prop} {x : Word} (h : P x) : ∃ t y, s.putG d x = .next t ∧ WritesG d y s t ∧ P y :=
  ⟨_, x, rfl, writesG_setG d x s, h⟩
theorem completes_putF (r : FpRes) : ∃ t, s.putF d r = .next t ∧ WritesGF d (BitVec.ofNat 64 r.bits) r.flags s t :=
  ⟨_, rfl, writesGF_setG_raise d _ _ s⟩
end

/-! ## Integer results as numbers (R110, R111) -/

theorem shiftCount_eq (b : Word) : shiftCount b = b.toNat % 64 := by simp [shiftCount]

section
variable (a b : Word)

theorem toInt_smin : (smin a b).toInt = min a.toInt b.toInt := by
  simp only [smin, BitVec.slt_iff_toInt_lt]
  split <;> omega
theorem toInt_smax : (smax a b).toInt = max a.toInt b.toInt := by
  simp only [smax, BitVec.slt_iff_toInt_lt]
  split <;> omega
theorem toNat_umin : (umin a b).toNat = min a.toNat b.toNat := by
  simp only [umin, BitVec.ult_iff_lt, BitVec.lt_def]
  split <;> omega
theorem toNat_umax : (umax a b).toNat = max a.toNat b.toNat := by
  simp only [umax, BitVec.ult_iff_lt, BitVec.lt_def]
  split <;> omega

theorem toInt_extractLsb'_upper (x : BitVec 128) : (x.extractLsb' 64 64).toInt = x.toInt / 2 ^ 64 := by
  rw [BitVec.toInt_extractLsb', BitVec.toInt_eq_toNat_cond, Nat.shiftRight_eq_div_pow, Int.bmod_def]
  omega
/-- The full product of two words fits in 128 bits. -/
theorem toInt_mulHighSigned : (mulHighSigned a b).toInt = a.toInt * b.toInt / 2 ^ 64 := by
  have hle := BitVec.toInt_mul_toInt_le (x := a) (y := b)
  have hge := BitVec.le_toInt_mul_toInt (x := a) (y := b)
  rw [mulHighSigned, toInt_extractLsb'_upper, BitVec.toInt_mul, BitVec.toInt_signExtend_of_le (by omega),
    BitVec.toInt_signExtend_of_le (by omega), Int.bmod_eq_of_le (by omega) (by omega)]
theorem toNat_mulHighUnsigned : (mulHighUnsigned a b).toNat = a.toNat * b.toNat / 2 ^ 64 := by
  have hlt : a.toNat * b.toNat < 2 ^ 64 * 2 ^ 64 := Nat.mul_lt_mul'' a.isLt b.isLt
  rw [mulHighUnsigned, BitVec.extractLsb'_toNat, BitVec.toNat_mul, BitVec.toNat_setWidth_of_le (by omega),
    BitVec.toNat_setWidth_of_le (by omega), Nat.shiftRight_eq_div_pow]
  omega
end

theorem divSigned_overflow {a b : Word} (ha : a = 0x8000000000000000#64) (hb : b = BitVec.allOnes 64) :
    divSigned a b = 0x8000000000000000#64 := by
  subst ha hb
  decide

section
variable {a b : Word} (hb : b ≠ 0#64)
include hb
theorem toInt_divSigned (h : ¬(a = 0x8000000000000000#64 ∧ b = BitVec.allOnes 64)) : (divSigned a b).toInt = a.toInt.tdiv b.toInt := by
  rw [divSigned, if_neg hb]
  exact BitVec.toInt_sdiv_of_ne_or_ne a b (not_and_or.mp h)
theorem toNat_divUnsigned : (divUnsigned a b).toNat = a.toNat / b.toNat := by
  rw [divUnsigned, if_neg hb, BitVec.toNat_udiv]
theorem toInt_remSigned : (remSigned a b).toInt = a.toInt.tmod b.toInt := by
  rw [remSigned, if_neg hb, BitVec.toInt_srem]
theorem toNat_remUnsigned : (remUnsigned a b).toNat = a.toNat % b.toNat := by
  rw [remUnsigned, if_neg hb, BitVec.toNat_umod]
end

/-- Settles O1: each of them puts its table's value into g[D]; a shift counts by the low six bits. -/
theorem integerInstructionsComplete : Obligations.IntegerInstructionsComplete := by
  intro s d a b imm sh sh2
  simp only [← shiftCount_eq]
  and_intros <;> exact completes_putG s d _

/-- Settles O2: each result by its value as a number. -/
theorem multiplyDivideComplete : Obligations.MultiplyDivideComplete := fun s d _ _ =>
  ⟨completes_putG_with s d (toInt_smin ..), completes_putG_with s d (toInt_smax ..), completes_putG_with s d (toNat_umin ..),
    completes_putG_with s d (toNat_umax ..), completes_putG_with s d (toInt_mulHighSigned ..),
    completes_putG_with s d (toNat_mulHighUnsigned ..),
    completes_putG_with s d ⟨fun hb => if_pos hb, toInt_divSigned, divSigned_overflow⟩,
    completes_putG_with s d ⟨fun hb => if_pos hb, toNat_divUnsigned⟩,
    completes_putG_with s d ⟨fun hb => if_pos hb, toInt_remSigned⟩,
    completes_putG_with s d ⟨fun hb => if_pos hb, toNat_remUnsigned⟩⟩

/-- Settles O6: both opcodes are the lines of the maps that accept the zero body alone. -/
theorem nopsDoNothing : Obligations.NopsDoNothing := by
  refine fun s w0 w1 => ⟨rfl, rfl, fun h => ?_, fun h => ?_⟩
  · simp [decodeC, h, decodeBodyC, accept]
  · simp [decodeA, h, decodeBodyA, accept]

/-! ## Scalar floating point (R94, R117–R120) -/

theorem etFormat_of_mem {et : BitVec 2} {f : Format} (h : (et, f) ∈ [(0#2, fp32), (1#2, bf16), (2#2, fp16), (3#2, fp64)]) :
    etFormat et = f := by
  simp only [List.mem_cons, Prod.mk.injEq, List.not_mem_nil, or_false] at h
  obtain ⟨rfl, rfl⟩ | ⟨rfl, rfl⟩ | ⟨rfl, rfl⟩ | ⟨rfl, rfl⟩ := h <;> rfl
theorem fpNegBits_f (s : State) (f : Format) (a : Src) : fpNegBits f (s.f f a) = s.f f a ^^^ 2 ^ (f.width - 1) := by
  rw [fpNegBits, State.f, Nat.mod_mod, Format.signBit, Format.width, Nat.add_assoc, Nat.add_sub_cancel_left]

/-- Settles O7: each operation by its function of the model on operands of the format's width. -/
theorem floatingPointComplete : Obligations.FloatingPointComplete := by
  refine ⟨fun s et d a b f x y z hf hx hy hz => ?_, fun s cc et f p d a b dst src hf => ⟨?_, fun _ _ => ?_⟩⟩
  · obtain rfl := etFormat_of_mem hf
    subst hx hy hz
    refine ⟨completes_putF .., completes_putF .., completes_putF .., completes_putF .., completes_putF .., completes_putF ..,
      completes_putF .., completes_putF .., completes_putF .., ?_, completes_putF .., completes_putF .., completes_putF ..,
      completes_putF ..⟩
    -- FNEG: the model reads the pattern at the format's width once more before it inverts the sign.
    refine ⟨_, rfl, ?_⟩
    dsimp only
    rw [← State.f, ← fpNegBits_f]
    exact writesGF_setG_raise ..
  · obtain rfl := etFormat_of_mem hf
    exact ⟨_, rfl, writesPF_setP_raise ..⟩
  · exact ⟨_, rfl, writesGF_setG_raise ..⟩

end Sys2Proof.Machine
end

section
/-! SUPPORT. The end of a strand's turn, of a strand and of a pause (R99, R145). -/

namespace Sys2Proof.Machine

theorem yieldTurn_of_shadow {s : State} (h : s.before.inShadow = true) :
    s.yieldTurn = s.setCore s.selfCore { s.core s.selfCore with
      yieldTo := (List.range 8).filter fun i => (s.strand (strandOf s.selfCore i)).st == .ready } := by
  rw [State.yieldTurn, if_pos h]
theorem yieldTurn_of_not_shadow {s : State} (h : s.before.inShadow = false) : s.yieldTurn = s := by
  simp [State.yieldTurn, h]
theorem exec_endStrand_of_drained {s : State} (hp : PlainStrand s) (h : s.drained s.cur.strand = true) :
    exec .endStrand s = .next (s.retire s.cur.strand) :=
  (hp.unless ..).trans (if_pos h)
theorem strand_retire (s : State) (k j : Nat) : (s.retire k).strand j = if j = k then {} else s.strand j := s.strand_setStrand k j {}
theorem mem_accesses_retire (s : State) (k : Nat) (a : Access) : a ∈ (s.retire k).accesses ↔ a ∈ s.accesses ∧ a.strand ≠ k := by
  simp [State.retire]

/-- The state in which a PAUSE of `n` core cycles leaves its strand. -/
def State.paused (s : State) (n : Nat) : State :=
  s.setSelf { s.self with st := .waiting (.pause (s.time + cyclesNs s.selfZone n)) }
theorem exec_pause_zero {s : State} (hp : PlainStrand s) {a : Src} (h : s.g a = 0#64) : exec (.pause a) s = .next s := by
  obtain ⟨-, -, hshadow, -, -⟩ := id hp
  refine (hp.unless ..).trans ?_
  simp [h, yieldTurn_of_not_shadow hshadow]
theorem exec_pause_of_ne_zero {s : State} (hp : PlainStrand s) {a : Src} (h : s.g a ≠ 0#64) :
    exec (.pause a) s = .next (s.paused (min (s.g a).toNat (2 ^ 24))) := by
  have hn : (s.g a).toNat ≠ 0 := fun h0 => h (BitVec.eq_of_toNat_eq h0)
  exact (hp.unless ..).trans (if_neg (by omega))
theorem cyclesPer10ns_pos (p : Config.Point) : 0 < Config.cyclesPer10ns p := by cases p <;> decide
/-- The nanoseconds of `n` cycles are the fewest in which they have passed. -/
theorem cyclesNs_spec (zone n : Nat) :
    10 * n ≤ Config.cyclesPer10ns (Config.zonePoint zone) * cyclesNs zone n ∧
    Config.cyclesPer10ns (Config.zonePoint zone) * cyclesNs zone n < 10 * n + Config.cyclesPer10ns (Config.zonePoint zone) := by
  have hpos := cyclesPer10ns_pos (Config.zonePoint zone)
  have hdiv := Nat.div_add_mod (10 * n + Config.cyclesPer10ns (Config.zonePoint zone) - 1) (Config.cyclesPer10ns (Config.zonePoint zone))
  have hmod := Nat.mod_lt (10 * n + Config.cyclesPer10ns (Config.zonePoint zone) - 1) hpos
  unfold cyclesNs ceilDiv
  omega
theorem exec_pauseExpiry_of_due {s : State} {until_ : Nat} (hw : (s.strand s.input.strand).st = .waiting (.pause until_))
    (hdue : until_ ≤ s.time) (hf : s.frozen (s.tenantOf s.input.strand) = false) :
    exec .pauseExpiry s = .next (s.wake s.input.strand) := by
  show execPauseExpiry s = _
  simp [execPauseExpiry, hw, hdue, hf]

/-- Settles O12: what YIELD, END, PAUSE and PAUSE_EXPIRY leave, by the lemma on each. -/
theorem endYieldPauseComplete : Obligations.EndYieldPauseComplete := by
  refine fun s a => ⟨fun h => congrArg Host.Outcome.next (yieldTurn_of_not_shadow h), fun h => ?_, fun hp hd => ?_,
    fun hp => exec_pause_zero hp, fun hp h => ?_, fun until_ hw hdue hf => ?_⟩
  · refine ⟨_, congrArg Host.Outcome.next (yieldTurn_of_shadow h), rfl, fun c hc => ?_, ?_, fun i => ?_⟩
    · rw [State.core_setCore, if_neg hc]
    · rw [State.core_setCore, if_pos rfl]
    · simp
  · refine ⟨_, exec_endStrand_of_drained hp hd, ?_, fun k hk => ?_, rfl, mem_accesses_retire s _⟩
    · rw [strand_retire, if_pos rfl]
    · rw [strand_retire, if_neg hk]
  · exact ⟨_, _, exec_pause_of_ne_zero hp h, onlySelf_setSelf s _, State.self_setSelf s _, cyclesNs_spec ..⟩
  · refine ⟨_, exec_pauseExpiry_of_due hw hdue hf, rfl, ?_, fun k hk => ?_⟩
    · exact (s.strand_setStrand ..).trans (if_pos rfl)
    · exact (s.strand_setStrand ..).trans (if_neg hk)

end Sys2Proof.Machine
end

section
/-! SUPPORT. The checks of an access, in their order (R105, R128, R247, R255, R296, R461). -/

namespace Sys2Proof.Machine

section
variable {s s' : State} {w : Who} {acc : Acc} {va : Word} {n : Nat}

theorem checkAs_misaligned (h : va.toNat % n ≠ 0) : s.checkAs w acc va n = .trap { cause := causeMisaligned, addr := va } := if_pos h
theorem checkAs_of_resolve_error (ha : va.toNat % n = 0) {t : TrapInfo} (h : s.resolve w acc va = .error t) :
    s.checkAs w acc va n = if t.cause == causePageNotPresent || t.cause == causeOwnerHost then .defer t else .trap t := by
  simp [State.checkAs, ha, h]
theorem checkAs_of_resolve_phys (ha : va.toNat % n = 0) {pa : Nat} {cached : Option (Nat × Nat)}
    (h : s.resolve w acc va = .ok (.phys pa cached, s')) :
    s.checkAs w acc va n = s'.checkPlace w acc (s'.reported w va) n pa cached := by
  simp [State.checkAs, ha, h]

variable {pa : Nat} (cached : Option (Nat × Nat))

theorem checkPlace_system_amo (hs : paIsSystem pa = true) : s.checkPlace w .amo va n pa cached = .trap (protAt 2 .amo va) := by
  simp [State.checkPlace, hs]
theorem checkPlace_system_wide (hs : paIsSystem pa = true) (hacc : acc ≠ .amo) (hn : 8 < n) :
    s.checkPlace w acc va n pa cached = .trap (protAt 9 acc va) := by
  simp [State.checkPlace, hs, hacc, hn]
theorem accInfo_eq (acc : Acc) : accInfo acc = BitVec.ofNat 64 (acc.code * 2 ^ 48) := by
  rw [accInfo, reasonInfo, Nat.zero_mul, Nat.zero_add]
theorem checkPlace_system_denied (hs : paIsSystem pa = true) (hacc : acc ≠ .amo) (hn : n ≤ 8) (hu : coreIsAtelier w.core = false)
    (hlow : pa % 2 ^ 48 < 0x14000000) :
    s.checkPlace w acc va n pa cached = .trap { cause := causeProt, addr := va, info := BitVec.ofNat 64 (acc.code * 2 ^ 48) } := by
  have hd : systemDenied w pa = true := by simpa [systemDenied, hs, hu] using hlow
  have htrap : protAt 0 acc va = { cause := causeProt, addr := va, info := BitVec.ofNat 64 (acc.code * 2 ^ 48) } := by
    rw [← accInfo_eq]; rfl
  rw [← htrap]
  simp [State.checkPlace, hs, hacc, hn.not_gt, hd]
theorem checkPlace_poisoned (hs : paIsSystem pa = false) (hh : paIsHost pa = false) (hacc : acc = .load ∨ acc = .amo)
    (hp : s.poisonedIn pa n = true) (hown : s.ownWhole w.strand pa = false) :
    s.checkPlace w acc va n pa cached =
      .trap { cause := causePoison, addr := va, info := BitVec.ofNat 64 (acc.code * 2 ^ 48), granule := pa / 64 * 64 } := by
  have hd : systemDenied w pa = false := by simp [systemDenied, hs]
  have hask : s.asksHost pa cached = false := by simp [State.asksHost, hh]
  rw [← accInfo_eq]
  simp [State.checkPlace, hs, hd, hask, hacc, hp, hown]
end

theorem exec_translationFaultReturn {s : State} (hsil : s.silentStrand s.input.strand = false) {slotA : Bool} {t : TrapInfo}
    (hw : (s.strand s.input.strand).st = .waiting (.translation slotA t)) :
    exec .translationFaultReturn s = .next (State.takeTrap
      { s with cur := { strand := s.input.strand, before := { s.strand s.input.strand with st := .ready } } } slotA t) := by
  show execTranslationFaultReturn s = _
  simp [execTranslationFaultReturn, hsil, hw]

/-- Settles O18: alignment, then what the address resolves to, then the place. -/
theorem accessChecksInOrder : Obligations.AccessChecksInOrder := by
  refine fun s w acc va n => ⟨checkAs_misaligned, fun ha t => checkAs_of_resolve_error ha, fun ha pa cached s' h => ?_, ?_⟩
  · rw [checkAs_of_resolve_phys ha h]
    refine ⟨?_, checkPlace_system_wide cached, checkPlace_system_denied cached, checkPlace_poisoned cached⟩
    rintro hs rfl
    exact checkPlace_system_amo cached hs
  · rintro k slotA t rfl hsil hw
    exact exec_translationFaultReturn hsil hw

end Sys2Proof.Machine
end

section
/-! SUPPORT. The vector A-slot instructions: a vector as its lanes, and the one result of each instruction (06 R124–R142). -/

namespace Sys2Proof.Machine

/-! ## A vector is its lanes (R124) -/

theorem bits_zero_low (x n : Nat) : bits x 0 n = x % 2 ^ n := by rw [bits, pow_zero, Nat.div_one]
theorem bits_add_low (x k lo n : Nat) : bits x (k + lo) n = bits (x / 2 ^ k) lo n := by rw [bits, bits, pow_add, Nat.div_div_eq_div_mul]

section
variable (w : Nat)

theorem packLanes_cons_mod (x : Nat) (xs : List Nat) : packLanes w (x :: xs) % 2 ^ w = x % 2 ^ w := by
  rw [packLanes, Nat.add_mul_mod_self_left, Nat.mod_mod]
theorem packLanes_cons_div (x : Nat) (xs : List Nat) : packLanes w (x :: xs) / 2 ^ w = packLanes w xs := by
  rw [packLanes, Nat.add_mul_div_left _ _ (Nat.two_pow_pos w), Nat.div_eq_of_lt (Nat.mod_lt _ (Nat.two_pow_pos w)), Nat.zero_add]
theorem packLanes_lt (xs : List Nat) : packLanes w xs < 2 ^ (w * xs.length) := by
  induction xs with
  | nil => exact Nat.two_pow_pos _
  | cons x xs ih =>
    rw [List.length_cons, Nat.mul_succ, pow_add, ← Nat.div_lt_iff_lt_mul (Nat.two_pow_pos w), packLanes_cons_div]
    exact ih
/-- Lane `j` of the lanes put together is the `j`-th of them. -/
theorem bits_packLanes (xs : List Nat) (j : Nat) : bits (packLanes w xs) (w * j) w = xs.getD j 0 % 2 ^ w := by
  induction xs generalizing j with
  | nil => simp [packLanes, bits]
  | cons x xs ih =>
    cases j with
    | zero => rw [Nat.mul_zero, bits_zero_low, packLanes_cons_mod, List.getD_cons_zero]
    | succ j => rw [Nat.mul_succ, Nat.add_comm, bits_add_low, packLanes_cons_div, ih, List.getD_cons_succ]
/-- The `n` low lanes of a number put together are its `w * n` low bits. -/
theorem packLanes_bits (n x : Nat) : packLanes w ((List.range n).map fun j => bits x (w * j) w) = x % 2 ^ (w * n) := by
  induction n generalizing x with
  | zero => simp [packLanes, Nat.mod_one]
  | succ n ih =>
    have hshift (j : Nat) : bits x (w * j.succ) w = bits (x / 2 ^ w) (w * j) w := by rw [Nat.mul_succ, Nat.add_comm, bits_add_low]
    simp only [List.range_succ_eq_map, List.map_cons, List.map_map, Function.comp_def, hshift, packLanes, ih]
    rw [Nat.mul_zero, bits_zero_low, Nat.mod_mod, Nat.mul_succ, Nat.add_comm (w * n), pow_add, Nat.mod_mul]
end

theorem length_lanesOf (w : Nat) (v : VWord) : (lanesOf w v).length = 512 / w := by rw [lanesOf, List.length_map, List.length_range]
theorem getElem_lanesOf {w : Nat} {v : VWord} {j : Nat} (h : j < (lanesOf w v).length) : (lanesOf w v)[j] = bits v.toNat (w * j) w := by
  simp only [lanesOf, List.getElem_map, List.getElem_range]

theorem toNat_ofNat_of_lt {n x : Nat} (h : x < 2 ^ n) : (BitVec.ofNat n x).toNat = x := (BitVec.toNat_ofNat ..).trans (Nat.mod_eq_of_lt h)

section
variable {w : Nat} (hw : w * (512 / w) = 512)
include hw

theorem toNat_ofLanes {xs : List Nat} (hlen : xs.length = 512 / w) : (ofLanes w xs).toNat = packLanes w xs := by
  have hfits := packLanes_lt w xs
  rw [hlen, hw] at hfits
  exact toNat_ofNat_of_lt hfits
theorem lanesOf_ofLanes {xs : List Nat} (hlen : xs.length = 512 / w) (hlt : ∀ x ∈ xs, x < 2 ^ w) : lanesOf w (ofLanes w xs) = xs := by
  refine List.ext_getElem ((length_lanesOf ..).trans hlen.symm) fun j _ hj => ?_
  rw [getElem_lanesOf, toNat_ofLanes hw hlen, bits_packLanes, List.getD_eq_getElem _ _ hj,
    Nat.mod_eq_of_lt (hlt _ (List.getElem_mem hj))]
theorem ofLanes_lanesOf (v : VWord) : ofLanes w (lanesOf w v) = v := by
  rw [ofLanes, lanesOf, packLanes_bits, hw, Nat.mod_eq_of_lt v.isLt, BitVec.ofNat_toNat, BitVec.setWidth_eq]
end

theorem laneWidth_mul_lanes {w : Nat} (h : w ∈ [8, 16, 32, 64]) : w * (512 / w) = 512 :=
  Nat.mul_div_cancel' ((by decide : ∀ w ∈ [8, 16, 32, 64], w ∣ 512) w h)
theorem etLanes_pos : ∀ et : BitVec 3, 0 < etLanes et := by decide
theorem etType_of_etInt : ∀ {et : BitVec 3}, etInt et = true → etType et = .int (etWidth et) (et != 7#3) := by decide

/-! ## One result in v[D] (R125) -/

section
variable (s : State) (d : Reg)

theorem completes_setV (x : VWord) : ∃ t, Host.Outcome.next (s.setV d x) = (.next t : Res) ∧ WritesVF d x 0#6 s t :=
  ⟨_, rfl, writesVF_setV d x s⟩
theorem completes_putV (r : VWord × Flags) : ∃ t, s.putV d r = .next t ∧ WritesVF d r.1 r.2 s t :=
  ⟨_, rfl, writesVF_setV_raise d _ _ s⟩
theorem completes_ofResults {o : Res} {w : Nat} {rs : List FpRes} (h : o = s.putV d (ofResults w rs)) :
    ∃ t rs', o = .next t ∧ rs' = rs ∧
      WritesVF d (ofLanes w (rs'.map (·.bits))) (rs'.foldl (fun f r => f ||| r.flags) 0#6) s t :=
  ⟨_, rs, h, rfl, writesVF_setV_raise d _ _ s⟩
theorem completes_vred (et : BitVec 3) (a : Src) (op : Nat → Nat → FpRes) :
    let r := treeReduce op (etLanes et).log2 ((s.lanes et a.r).map (widenLane (etType et)))
    ∃ t, s.vred et d a op = .next t ∧ WritesGF d (BitVec.ofNat 64 r.bits) r.flags s t :=
  ⟨_, rfl, writesGF_setG_raise d _ _ s⟩
end

/-! ## Shifts, comparison and extraction (R131, R132, R135) -/

theorem laneShl_eq (t : NumType) (x y : Nat) : laneShl t x y = x * 2 ^ (y % t.width) % 2 ^ t.width := by
  rw [laneShl, laneCount, Nat.shiftLeft_eq]
/-- Both right shifts are the division of the lane's number; an unsigned one does not leave the lane. -/
theorem laneShr_int {w x : Nat} (hx : x < 2 ^ w) (sg : Bool) (y : Nat) :
    laneShr (.int w sg) x y = wrapInt w (intOf w sg x / ((2 ^ (y % w) : Nat) : Int)) := by
  cases sg with
  | true => rfl
  | false =>
    have hquot : x / 2 ^ (y % w) < 2 ^ w := (Nat.div_le_self ..).trans_lt hx
    calc laneShr (.int w false) x y
        = x / 2 ^ (y % w) := Nat.shiftRight_eq_div_pow ..
      _ = x % 2 ^ w / 2 ^ (y % w) % 2 ^ w := by rw [Nat.mod_eq_of_lt hx, Nat.mod_eq_of_lt hquot]
      _ = wrapInt w (intOf w false x / ((2 ^ (y % w) : Nat) : Int)) := rfl
theorem zipWith_laneShr {et : BitVec 3} (h : etInt et = true) (s : State) (r : Reg) (ys : List Nat) :
    (s.lanes et r).zipWith (laneShr (etType et)) ys =
      (s.lanes et r).zipWith
        (fun p q => wrapInt (etWidth et) (intOf (etWidth et) (et != 7#3) p / ((2 ^ (q % etWidth et) : Nat) : Int))) ys := by
  rw [etType_of_etInt h]
  simp only [State.lanes, lanesOf, List.zipWith_map_left, laneShr_int (bits_lt ..)]

theorem ofResults_zipWith (w : Nat) (f : Nat → Nat → Nat) (g : Nat → Nat → Flags) (xs ys : List Nat) :
    ofResults w (xs.zipWith (fun x y => ⟨f x y, g x y⟩) ys) = (ofLanes w (xs.zipWith f ys), (xs.zipWith g ys).foldl (· ||| ·) 0#6) := by
  have hflags (rs : List FpRes) : rs.foldl (fun f r => f ||| r.flags) 0#6 = (rs.map (·.flags)).foldl (· ||| ·) 0#6 := List.foldl_map.symm
  rw [ofResults, List.map_zipWith]
  exact congrArg _ ((hflags _).trans (by rw [List.map_zipWith]))
theorem exec_vcmp (cc et : BitVec 3) (d : Reg) (a b : Src) (s : State) : exec (.vcmp cc et d a b) s = s.putV d
    (ofLanes (etWidth et) ((s.lanes et a.r).zipWith (fun p q => if (laneCmp (etType et) cc p q).1 then 2 ^ etWidth et - 1 else 0)
        (s.lanes et b.r)),
      ((s.lanes et a.r).zipWith (fun p q => (laneCmp (etType et) cc p q).2) (s.lanes et b.r)).foldl (· ||| ·) 0#6) :=
  congrArg (s.putV d) (ofResults_zipWith ..)
theorem completes_vext (s : State) (et : BitVec 3) (d : Reg) (a b : Src) :
    ∃ t, exec (.vext et d a b) s = .next t ∧ WritesG d
      (if (s.g b).toNat < etLanes et then extendTo64 (etType et) ((s.lanes et a.r).getD (s.g b).toNat 0) else 0#64) s t := by
  refine ⟨_, rfl, ?_⟩
  simp only [ge_iff_le, ← not_lt, ite_not]
  exact writesG_setG ..

/-- Settles O9: each instruction by its list of lane results, a right shift as a division, and the round trip of the lanes. -/
theorem vectorArithmeticMovementComplete : Obligations.VectorArithmeticMovementComplete := by
  refine ⟨fun s et d a b bs sat => ⟨completes_putV .., completes_putV .., completes_putV .., completes_putV .., completes_putV ..,
      completes_putV .., completes_putV .., completes_putV .., fun _ =>
        ⟨completes_putV .., completes_putV .., completes_putV .., completes_putV ..⟩⟩,
    fun s et cc d a b => ⟨completes_setV .., completes_setV .., completes_setV .., completes_setV .., completes_vext ..,
      fun hint => ⟨completes_setV .., completes_setV .., completes_setV .., ?_, ?_, completes_setV ..⟩,
      fun _ => ⟨_, exec_vcmp .., writesVF_setV_raise ..⟩⟩,
    fun w hw => ⟨fun _ => lanesOf_ofLanes (laneWidth_mul_lanes hw), ofLanes_lanesOf (laneWidth_mul_lanes hw)⟩⟩
  · dsimp only
    simp only [etWidth, ← laneShl_eq]
    exact completes_setV ..
  · dsimp only
    rw [← zipWith_laneShr hint]
    exact completes_setV ..

/-! ## Scans (R137) -/

theorem lanes_ne_nil (s : State) (et : BitVec 3) (r : Reg) : s.lanes et r ≠ [] := by
  rw [← List.length_pos_iff, State.lanes, length_lanesOf]
  exact etLanes_pos et
theorem vscan_eq (s : State) (et : BitVec 3) (d : Reg) (a : Src) (op : Nat → Nat → FpRes) :
    s.vscan et d a op = s.putV d (ofResults (etWidth et)
      (scanFirst (etType et) ((s.lanes et a.r).headD 0) ::
        scanFrom op (scanFirst (etType et) ((s.lanes et a.r).headD 0)).bits (s.lanes et a.r).tail)) := by
  obtain ⟨x, xs, h⟩ := List.exists_cons_of_ne_nil (lanes_ne_nil s et a.r)
  simp only [State.vscan, h, List.headD_cons, List.tail_cons]
theorem completes_vscan (s : State) (et : BitVec 3) (d : Reg) (a : Src) (op : Nat → Nat → FpRes) :
    ∃ u r rs, s.vscan et d a op = .next u ∧ r = scanFirst (etType et) ((s.lanes et a.r).headD 0) ∧
      rs = r :: scanFrom op r.bits (s.lanes et a.r).tail ∧
      WritesVF d (ofLanes (etWidth et) (rs.map (·.bits))) (rs.foldl (fun f q => f ||| q.flags) 0#6) s u :=
  ⟨_, _, _, vscan_eq .., rfl, rfl, writesVF_setV_raise ..⟩

/-! ## Blocks with a common scale (R139–R141) -/

section
variable {et : BitVec 3} {f : Format} (h : (et, f) ∈ [(0#3, fp32), (1#3, bf16), (2#3, fp16)])
include h
theorem etType_eq_fp_of_mem : etType et = .fp f :=
  (by decide : ∀ p ∈ [(0#3, fp32), (1#3, bf16), (2#3, fp16)], etType p.1 = .fp p.2) _ h
theorem width_eq_sixteen_of_mem : et ≠ 0#3 → f.width = 16 :=
  (by decide : ∀ p ∈ [(0#3, fp32), (1#3, bf16), (2#3, fp16)], p.1 ≠ 0#3 → p.2.width = 16) _ h
end

section
variable {et : BitVec 3} {f : Format} (hf : etType et = .fp f) (fp4 : Bool) (d d2 : Reg) (a b : Src) (s : State)
include hf

theorem exec_vqnt_of_fp : exec (.vqnt et fp4 d a b) s =
    s.putV d (mxQuantise fp4 (fmtRm s.fmt)
      ((if et = 0#3 then s.lanes et a.r ++ s.lanes et b.r else s.lanes et a.r).map (Fp.ofBits f))) := by
  show execVqnt et fp4 d a b s = _
  simp only [execVqnt, hf, beq_iff_eq]
theorem exec_vdqnt_of_ne_zero (h0 : et ≠ 0#3) : exec (.vdqnt et fp4 d a d2) s =
    s.putV d (ofResults f.width ((List.range 32).map (mxDequant fp4 f (s.vr a.r).toNat))) := by
  show execVdqnt et fp4 d a d2 s = _
  simp only [execVdqnt, hf, beq_iff_eq, if_neg h0]
/-- A block of 32 fills two registers of FP32 lanes. -/
theorem exec_vdqnt_of_zero (h0 : et = 0#3) : exec (.vdqnt et fp4 d a d2) s =
    let rs := (List.range 32).map (mxDequant fp4 f (s.vr a.r).toNat)
    let lo := ofResults 32 (rs.take 16)
    let hi := ofResults 32 (rs.drop 16)
    .next (((s.setV d lo.1).setV d2 hi.1).raise (lo.2 ||| hi.2)) := by
  show execVdqnt et fp4 d a d2 s = _
  simp only [execVdqnt, hf, beq_iff_eq, if_pos h0]
end

theorem onlyRegs_trans {s t u : State} (h : OnlyRegs s t) (h' : OnlyRegs t u) : OnlyRegs s u := by
  obtain ⟨hself, hregs⟩ := h
  obtain ⟨hself', hregs'⟩ := h'
  exact ⟨onlySelf_trans hself hself', by rw [hregs', hregs]⟩
theorem readV_setV_setV_raise (s : State) (d d2 : Reg) (x y : VWord) (f : Flags) (i : Reg) :
    (((s.setV d x).setV d2 y).raise f).self.regs.readV i = if i = d2 then y else if i = d then x else s.self.regs.readV i := by
  rw [State.self_raise, State.self_setV, State.self_setV]
  exact (RegFile.readV_writeV ..).trans (if_congr Iff.rfl rfl (RegFile.readV_writeV ..))

/-- Settles O10: each reduction by its tree, each scan by its list of results, and the block forms by the format that ET names. -/
theorem vectorReductionsConversionsComplete : Obligations.VectorReductionsConversionsComplete := by
  refine ⟨fun s et d a => ⟨completes_vred .., completes_vred .., completes_vred .., fun _ =>
      ⟨completes_vred .., completes_vred .., completes_vred ..⟩, completes_vscan .., completes_vscan .., completes_vscan ..⟩,
    fun s et dst fp4 d d2 a b => ⟨completes_ofResults s d rfl, fun f hmem => ?_,
      fun _ => completes_ofResults s d rfl⟩⟩
  have hf := etType_eq_fp_of_mem hmem
  refine ⟨⟨_, _, exec_vqnt_of_fp hf .., rfl, writesVF_setV_raise ..⟩, fun h0 => ?_, fun h0 hd => ?_⟩
  · refine ⟨_, exec_vdqnt_of_ne_zero (h0 := h0) hf .., ?_⟩
    rw [width_eq_sixteen_of_mem hmem h0]
    exact writesVF_setV_raise ..
  · refine ⟨_, exec_vdqnt_of_zero (h0 := h0) hf .., onlyRegs_trans (onlyRegs_mapRegs_mapRegs ..) (onlyRegs_mapRegs ..), ?_, ?_,
      fun i hi hi2 => ?_⟩
    · rw [readV_setV_setV_raise, if_neg hd, if_pos rfl, ofResults]
    · rw [readV_setV_setV_raise, if_pos rfl, ofResults]
    · rw [readV_setV_setV_raise, if_neg hi2, if_neg hi]

end Sys2Proof.Machine
end

section
/-! SUPPORT. The atomics: past the checks of its access an AMO outside any task reads, writes what its table says and issues the old
value (11 R279, R287, 12 R295, R296, R312). -/

namespace Sys2Proof.Machine

theorem cur_countAmo (s : State) (va : Word) (pa : Nat) : (s.countAmo va pa).cur = s.cur := by
  simp only [State.countAmo]
  split
  · rfl
  · split <;> split <;> rfl
theorem sameIssuer_amoAt (s : State) (va : Word) (pa n : Nat) (cached : Option (Nat × Nat)) (y : Option Nat) :
    SameIssuer s (s.amoAt va pa n cached y) := by
  have htouch : SameIssuer s ((s.countAmo va pa).touch pa) := (SameIssuer.of_cur (cur_countAmo s va pa)).trans (sameIssuer_touch ..)
  have hwrite : SameIssuer s ((s.countAmo va pa).amoWrite (s.amoVia va) pa n cached y) := by
    cases y with
    | some x => exact htouch.trans (sameIssuer_storeVisible ..)
    | none =>
      refine (htouch.trans ?_).trans (sameIssuer_touchLine ..)
      unfold State.accountVia
      split
      · exact .refl _
      · exact (charged_chargeFor ..).sameIssuer
  exact hwrite

/-- What an AMO that has passed its checks outside any task answers, by what its table gives. -/
theorem amo_of_check_ok {s s' : State} (ht : s.before.task = none) (hstop : (s.drainCore s.selfCore).cur.stopped = false) {w : Bool}
    {n : Nat} (hn : n = if w then 8 else 4) {a : Src} {pa : Nat} {cached : Option (Nat × Nat)}
    (hcheck : (s.drainCore s.selfCore).check .amo (s.g a) n = .ok pa cached s') (aop : Nat) (d : Reg) (b : Src) {y : Option Nat}
    (hy : amoResult aop (8 * n) (s'.readPa pa n) ((s.g b).toNat % 2 ^ (8 * n)) ((s.gr d).toNat % 2 ^ (8 * n)) = y) :
    s.amo aop d a b w = .next ((s'.amoAt (s.g a) pa n cached y).issueAccess
      { strand := s.cur.strand, kind := .value, dest := destG d, pa := 0, n := 0, data := s'.readPa pa n }) := by
  have hsame : SameIssuer s s' := (sameIssuer_drainCore s s.selfCore).trans (leftByChecks_check hcheck).sameIssuer
  have hstrand : (s'.amoAt (s.g a) pa n cached y).cur.strand = s.cur.strand := (hsame.trans (sameIssuer_amoAt ..)).1
  simp only [State.amo, State.afterDrain, ← hn, hstop, hcheck, gated_of_no_task (hsame.task_eq.trans ht), hy, State.issueValue, hstrand,
    Bool.false_eq_true, if_false]

/-- Settles O19: each atomic by what its table gives for the value that the access finds. -/
theorem atomicsComplete : Obligations.AtomicsComplete := by
  intro s s' d a b w m pa cached ht n old x cmp less result hstop hcheck
  have hamo (aop : Nat) (y : Option Nat) (hy : amoResult aop (8 * n) old x cmp = y) : s.amo aop d a b w = .next (result y) := by
    rw [amo_of_check_ok ht hstop rfl hcheck aop d b hy]
    cases y <;> rfl
  refine ⟨hamo 0 _ rfl, hamo 1 _ rfl, hamo 2 _ rfl, hamo 3 _ rfl, fun h => ⟨hamo 4 (some old) ?_, hamo 5 (some x) ?_⟩,
    fun h => ⟨hamo 4 (some x) ?_, hamo 5 (some old) ?_⟩,
    hamo 6 _ rfl, hamo 7 _ rfl, hamo 8 _ rfl, fun h => hamo 9 _ (if_pos h), fun h => hamo 9 _ (if_neg h)⟩
  · exact congrArg some (if_pos h)
  · exact congrArg some (if_pos h)
  · exact congrArg some (if_neg h)
  · exact congrArg some (if_neg h)

end Sys2Proof.Machine
end

section
/-! SUPPORT. Event lines: what arrivals make of a barrier, what a configuration, a wait and a signal make of any line
(07 R160–R167, 09 R232, R233). -/

namespace Sys2Proof.Machine

/-! ## A pair's issuer and groups after the core's earlier accesses -/

theorem selfSite_drainCore (s : State) (c : Nat) : (s.drainCore c).selfSite = s.selfSite :=
  congrArg coreSite (sameIssuer_drainCore s c).selfCore_eq

/-! ## Arrivals at a barrier (R161, R162, R164) -/

section
variable {l : Line} (a : Option Nat)

theorem arrive_of_lt (h : l.arr + 1 < l.count) :
    l.arrive a = ({ l with arr := l.arr + 1, waiters := l.waiters ++ a.toList }, [], false) := by
  have hfull : ¬l.count ≤ l.arr := by omega
  simp only [Line.arrive, hfull, decide_false, Bool.and_false, Bool.false_eq_true, if_false, h, if_true]
theorem arrive_of_last_local (hg : l.gv = false) (h : l.count ≤ l.arr + 1) :
    l.arrive a = ({ l with arr := 0, gen := l.gen + 1#32, waiters := [] }, l.waiters ++ a.toList, false) := by
  simp only [Line.arrive, hg, Bool.false_and, Bool.false_eq_true, if_false, Nat.not_lt.mpr h]
theorem arrive_of_last_group (hg : l.gv = true) (hlt : l.arr < l.count) (h : l.count ≤ l.arr + 1) :
    l.arrive a = ({ l with arr := l.arr + 1, waiters := l.waiters ++ a.toList }, [], true) := by
  simp only [Line.arrive, hg, Bool.true_and, Nat.not_le.mpr hlt, decide_false, Bool.false_eq_true, if_false, Nat.not_lt.mpr h, if_true]
/-- An arrival after the last one on a group line is kept for the next generation. -/
theorem arrive_of_late (hg : l.gv = true) (h : l.count ≤ l.arr) : l.arrive a = ({ l with later := l.later ++ [a] }, [], false) := by
  simp only [Line.arrive, hg, h, decide_true, Bool.and_self, if_true]
end

/-! ## EVCFG (R160, R164, R165, R232) -/

section
variable {s : State} (hp : PlainStrand s) {a b : Src}
include hp

theorem exec_evcfg_refused (h : lineOk (s.g b).toNat = false) : exec (.evcfg a b) s = s.illegal := by
  show execEvcfg a b s = _
  simp only [execEvcfg, hp.unless, hp.gated, h, Bool.not_false, if_true]
theorem exec_evcfg_local (h : lineOk (s.g b).toNat = true) (hg : (lineOf (s.g b).toNat).gv = false) :
    exec (.evcfg a b) s = .next (s.configureLine s.selfSite (lineIndex (s.g a)) (lineOf (s.g b).toNat)) := by
  show execEvcfg a b s = _
  simp only [execEvcfg, hp.unless, hp.gated, h, hg, Bool.not_true, Bool.false_eq_true, if_false]
theorem exec_evcfg_group (h : lineOk (s.g b).toNat = true) (hg : (lineOf (s.g b).toNat).gv = true) {g : Group}
    (hm : s.selfGslot (lineOf (s.g b).toNat).gs.toNat = some g)
    (hne : s.groupLineElsewhere s.selfSite (lineIndex (s.g a)) g.index s.before.launch = false) :
    exec (.evcfg a b) s = .next (s.configureLine s.selfSite (lineIndex (s.g a))
      { lineOf (s.g b).toNat with group := some (g.index, s.before.launch) }) := by
  show execEvcfg a b s = _
  simp only [execEvcfg, hp.unless, hp.gated, h, hg, hm, hne, Bool.not_true, Bool.false_eq_true, if_false, if_true]
end

/-! ## EVWAIT (R161–R164, R232) -/

theorem putWait_unconfigured (s : State) (d : Reg) :
    s.putWait d { value := 2#512, p7 := false } = .next ((s.setG d 2#64).setP 7#3 false) := by
  simp only [State.putWait, State.setP7, BitVec.reduceSetWidth]
theorem putWait_grantOk (s : State) (d : Reg) : s.putWait d grantOk = .next ((s.setG d 0#64).setP 7#3 true) := by
  simp only [State.putWait, State.setP7, grantOk, BitVec.reduceSetWidth]

/-- What an EVWAIT without a grant comes to after the core's earlier accesses, by the line that it finds. -/
def State.waitOn (u : State) (d : Reg) (site i : Nat) : Res :=
  let k := u.cur.strand
  let l := u.line site i
  match l.mode with
  | .off => u.putWait d { value := 2#512, p7 := false }
  | .barrier =>
    let r := l.arrive (some k)
    let t := u.putLine site i (r.1, r.2.1.filter (· != k), r.2.2)
    if r.2.1.contains k then t.putWait d grantOk else .next (t.hold .event)
  | .mutex =>
    if l.set then .next ((u.setLine site i { l with waiters := l.waiters ++ [k] }).hold .event)
    else (u.setLine site i { l with set := true }).putWait d grantOk
  | .flag =>
    if l.set then (u.setLine site i { l with set := !l.ac }).putWait d grantOk
    else .next ((u.setLine site i { l with waiters := l.waiters ++ [k] }).hold .event)

section
variable {s : State} (hp : PlainStrand s) (d : Reg) (a : Src)
include hp

theorem exec_evwait_of_grant {gr : Grant} (h : s.before.grant = some gr) : exec (.evwait d a) s = s.useGrant.putWait d gr := by
  have h' : s.grant = some gr := h
  show execEvwait d a s = _
  simp only [execEvwait, hp.unless, h']
theorem exec_evwait_of_no_grant (h : s.before.grant = none) :
    exec (.evwait d a) s = (s.drainCore s.selfCore).waitOn d s.selfSite (lineIndex ((s.drainCore s.selfCore).g a)) := by
  have h' : s.grant = none := h
  show execEvwait d a s = _
  simp only [execEvwait, hp.unless, h', selfSite_drainCore]
  rfl
end

section
variable {u : State} (d : Reg) {site i : Nat}

theorem waitOn_off (h : (u.line site i).mode = .off) : u.waitOn d site i = u.putWait d { value := 2#512, p7 := false } := by
  simp only [State.waitOn, h]
theorem waitOn_mutex (h : (u.line site i).mode = .mutex) : u.waitOn d site i =
    if (u.line site i).set then .next ((u.setLine site i { u.line site i with waiters := (u.line site i).waiters ++ [u.cur.strand] }).hold .event)
    else (u.setLine site i { u.line site i with set := true }).putWait d grantOk := by
  simp only [State.waitOn, h]
theorem waitOn_flag (h : (u.line site i).mode = .flag) : u.waitOn d site i =
    if (u.line site i).set then (u.setLine site i { u.line site i with set := !(u.line site i).ac }).putWait d grantOk
    else .next ((u.setLine site i { u.line site i with waiters := (u.line site i).waiters ++ [u.cur.strand] }).hold .event) := by
  simp only [State.waitOn, h]

variable (h : (u.line site i).mode = .barrier) {l : Line} {ks : List Nat} {up : Bool}
  (hr : (u.line site i).arrive (some u.cur.strand) = (l, ks, up))
include h hr

/-- An arrival that is not released waits. -/
theorem waitOn_barrier_held (hk : u.cur.strand ∉ ks) :
    u.waitOn d site i = .next ((u.putLine site i (l, ks.filter (· != u.cur.strand), up)).hold .event) := by
  simp only [State.waitOn, h, hr, List.contains_eq_mem, hk, decide_false, Bool.false_eq_true, if_false]
theorem waitOn_barrier_released (hk : u.cur.strand ∈ ks) :
    u.waitOn d site i = (u.putLine site i (l, ks.filter (· != u.cur.strand), up)).putWait d grantOk := by
  simp only [State.waitOn, h, hr, List.contains_eq_mem, hk, decide_true, if_true]
end

/-- The last arrival on a group line goes up its tree (R164). -/
theorem treeUp_of_node {s : State} {site : Nat} {l : Line} {g n nd : Nat} {lc : Launch} {x : Group} (hl : l.group = some (g, n))
    (hlc : s.launch? n = some lc) (hx : lc.group? g = some x) (hn : x.node? (s.treeTileOf site) = some nd) :
    s.treeUp site l =
      { s with treeMsgs := s.treeMsgs ++ [{ launch := n, group := g, bar := false, node := nd, item := s.treeTileOf site }] } := by
  simp only [State.treeUp, hl, hlc, Option.bind_some, hx, hn]

/-- Settles O23: a configuration by its checks, a wait by its grant, or else by the mode of its line and by its place among the
arrivals. -/
theorem eventsConfigureWaitComplete : Obligations.EventsConfigureWaitComplete := by
  refine ⟨fun s d a b hp => ⟨exec_evcfg_refused hp, exec_evcfg_local hp, fun h hg g => exec_evcfg_group hp h hg, ?_⟩,
    fun s d a hp => ⟨fun gr => exec_evwait_of_grant hp d a, fun hgrant => ?_⟩⟩
  · refine ⟨_, ?_, writesG_setG d _ s⟩
    show execEvpoll d a s = _
    simp only [execEvpoll, hp.unless]
    rfl
  intro u site i k l goesOn waits
  have hk : u.cur.strand = k := (sameIssuer_drainCore s s.selfCore).1
  have hexec : exec (.evwait d a) s = u.waitOn d site i := exec_evwait_of_no_grant hp d a hgrant
  have hgoes {t : State} {status : Word} {p7 : Bool} (h : u.waitOn d site i = .next ((t.setG d status).setP 7#3 p7)) :
      goesOn t status p7 := hexec.trans h
  have hwaits {t : State} (h : u.waitOn d site i = .next (t.hold .event)) : waits t := hexec.trans h
  refine ⟨fun h => hgoes ?_, fun h hs => hgoes ?_, fun h hs => hwaits ?_, fun h hs => hgoes ?_, fun h hs => hwaits ?_,
    fun h hlt => hwaits ?_, fun h hg hlast hnew => hgoes ?_, fun h hg hlate => hwaits ?_,
    fun g n lc x nd h hg hlt hlast hl hlc hx hn => ?_⟩
  · rw [waitOn_off d h, putWait_unconfigured]
  · rw [waitOn_mutex d h, if_neg (Bool.eq_false_iff.mp hs), putWait_grantOk]
  · rw [waitOn_mutex d h, if_pos hs, hk]
  · rw [waitOn_flag d h, if_pos hs, putWait_grantOk]
  · rw [waitOn_flag d h, if_neg (Bool.eq_false_iff.mp hs), hk]
  · rw [waitOn_barrier_held d h (arrive_of_lt _ hlt) List.not_mem_nil, hk]
    rfl
  · have hothers : (l.waiters ++ (some u.cur.strand).toList).filter (· != u.cur.strand) = l.waiters := by
      rw [hk, List.filter_append, List.filter_eq_self.mpr fun x hx => bne_iff_ne.mpr (ne_of_mem_of_not_mem hx hnew)]
      simp
    rw [waitOn_barrier_released d h (arrive_of_last_local _ hg hlast) (by simp), hothers, putWait_grantOk]
    rfl
  · rw [waitOn_barrier_held d h (arrive_of_late _ hg hlate) List.not_mem_nil, hk]
    rfl
  · have hup := treeUp_of_node (s := u.setLine site i { l with arr := l.arr + 1, waiters := l.waiters ++ [k] }) (site := site)
      (l := { l with arr := l.arr + 1, waiters := l.waiters ++ [k] }) hl hlc hx hn
    refine ⟨_, hwaits ?_, congrArg State.treeMsgs hup, ?_⟩
    · rw [waitOn_barrier_held d h (arrive_of_last_group _ hg hlt hlast) List.not_mem_nil, hk]
      rfl
    · rw [hup]

end Sys2Proof.Machine
end

section
/-! SUPPORT. Signals on event lines, by the line's kind (07 R161, R162, R167, 09 R232). -/

namespace Sys2Proof.Machine

/-! ## One signal on a line -/

section
variable {s : State} {site i : Nat}

theorem signal_off (h : (s.line site i).mode = .off) : s.signal site i = s := by simp only [State.signal, h]
theorem signal_mutex_free (h : (s.line site i).mode = .mutex) (hw : (s.line site i).waiters = []) :
    s.signal site i = s.setLine site i { s.line site i with set := false } := by simp only [State.signal, h, hw]
theorem signal_mutex_wakes (h : (s.line site i).mode = .mutex) {k : Nat} {rest : List Nat} (hw : (s.line site i).waiters = k :: rest) :
    s.signal site i = (s.setLine site i { s.line site i with waiters := rest }).release k grantOk := by simp only [State.signal, h, hw]
theorem signal_flag_all (h : (s.line site i).mode = .flag) (ha : (s.line site i).ac = false) :
    s.signal site i = (s.setLine site i { s.line site i with waiters := [], set := true }).releaseAll (s.line site i).waiters grantOk := by
  simp only [State.signal, h, ha, Bool.false_eq_true, if_false]
theorem signal_flag_one (h : (s.line site i).mode = .flag) (ha : (s.line site i).ac = true) {k : Nat} {rest : List Nat}
    (hw : (s.line site i).waiters = k :: rest) :
    s.signal site i = (s.setLine site i { s.line site i with waiters := rest, set := false }).release k grantOk := by
  simp only [State.signal, h, ha, hw, if_true]
theorem signal_flag_sets (h : (s.line site i).mode = .flag) (ha : (s.line site i).ac = true) (hw : (s.line site i).waiters = []) :
    s.signal site i = s.setLine site i { s.line site i with set := true } := by
  simp only [State.signal, h, ha, hw, if_true]
/-- A signal counts as an arrival of no strand; short of the group tree it frees whom the arrival frees. -/
theorem signal_barrier (h : (s.line site i).mode = .barrier) {l : Line} {ks : List Nat}
    (hr : (s.line site i).arrive none = (l, ks, false)) :
    s.signal site i = (s.setLine site i l).releaseAll ks grantOk := by
  simp only [State.signal, h, hr, State.putLine, Bool.false_eq_true, if_false]
end

/-! ## EVSIG and the arrival of a remote signal (R167) -/

section
variable {s : State} (hp : PlainStrand s) (a b : Src) {m : BitVec 32}
include hp

theorem exec_evsig_own (hm : m.getLsbD 0 = false) :
    exec (.evsig a b m) s =
      .next ((s.drainCore s.selfCore).signal s.selfSite (lineIndex ((s.drainCore s.selfCore).g a))) := by
  show execEvsig a b m s = _
  simp only [execEvsig, hp.unless, hp.gated, hm, selfSite_drainCore, Bool.not_false, if_true]
theorem exec_evsig_of_here (hm : m.getLsbD 0 = true) {l : Launch} {c : Nat} (hl : (s.drainCore s.selfCore).selfLaunch = some l)
    (ht : (s.drainCore s.selfCore).target l (((s.drainCore s.selfCore).g b).toNat % 2 ^ 22) = .here c) :
    exec (.evsig a b m) s = .next { s.drainCore s.selfCore with
      signals := (s.drainCore s.selfCore).signals ++
        [{ src := s.selfSite, site := coreSite c, line := lineIndex ((s.drainCore s.selfCore).g a) }] } := by
  show execEvsig a b m s = _
  simp only [execEvsig, hp.unless, hp.gated, hm, selfSite_drainCore, hl, ht, Bool.not_true, Bool.false_eq_true, if_false]
end

theorem exec_remoteSignalArrival_of_first {s : State} {g : Signal} (hlevel : s.input.level ≠ 1)
    (hg : s.signals[s.input.index]? = some g) (hmod : g.module = none)
    (hfirst : (s.signals.take s.input.index).any (fun q => q.src == g.src && q.site == g.site && q.module == g.module) = false)
    (hsil : s.silent g.site = false) (hdead : s.deadSite g.site = false) :
    exec .remoteSignalArrival s = .next (State.signal { s with signals := s.signals.eraseIdx s.input.index } g.site g.line) := by
  have hdead' : State.deadSite { s with signals := s.signals.eraseIdx s.input.index } g.site = false := hdead
  rw [hmod] at hfirst
  show execRemoteSignalArrival s = _
  simp only [execRemoteSignalArrival, hlevel, if_false, hg, hfirst, hmod, hsil, hdead', Option.isNone_none, Option.isSome_none,
    Bool.true_and, Bool.or_self, Bool.false_eq_true]

/-- Settles O24: EVSIG by RM, the arrival by its place among the signals, a signal by the mode of its line. -/
theorem eventSignalsComplete : Obligations.EventSignalsComplete := by
  intro s a b m u
  refine ⟨fun hp => exec_evsig_own hp a b, fun l c hp hm hl ht => exec_evsig_of_here hp a b hm hl ht, ?_, fun site i => ?_⟩
  · rintro i g rfl hlevel hg hmod hfirst hsil hdead
    exact exec_remoteSignalArrival_of_first hlevel hg hmod hfirst hsil hdead
  · refine ⟨signal_off, signal_mutex_free, fun k rest h hw => signal_mutex_wakes h hw, signal_flag_all,
      fun k rest h ha hw => signal_flag_one h ha hw, signal_flag_sets, fun h hlt => ?_, fun h hg hlate => ?_, fun h hg hlast => ?_⟩
    · rw [signal_barrier h (arrive_of_lt none hlt), Option.toList_none, List.append_nil]
      rfl
    · exact signal_barrier h (arrive_of_late none hg hlate)
    · rw [signal_barrier h (arrive_of_last_local none hg hlast), Option.toList_none, List.append_nil]
      rfl

end Sys2Proof.Machine
end

section
/-! SUPPORT. Groups: the instructions that ask for a membership, the arrivals on a group's tree and the release of its root
(07 R156–R159, R162, R164, R168, 09 R234). -/

namespace Sys2Proof.Machine

/-! ## The instructions of a group (R158, R159, R168, R234) -/

theorem answered_of_grant {s : State} {gr : Grant} (h : s.before.grant = some gr) (f : State → Res) : s.answered f = f s.useGrant := by
  have h' : s.grant = some gr := h
  simp only [State.answered, h']

section
variable {s : State} {a : Src} (f : Group → Res)

theorem withGroup_none (h : s.selfGslot ((s.g a).toNat % 4) = none) :
    s.withGroup a f = .next (s.takeTrap s.cur.slotA { cause := 0x18#6, info := BitVec.ofNat 64 ((s.g a).toNat % 4) }) := by
  simp only [State.withGroup, h]
  rfl
theorem withGroup_some {g : Group} (h : s.selfGslot ((s.g a).toNat % 4) = some g) : s.withGroup a f = f g := by
  simp only [State.withGroup, h]
end

section
variable {s : State} (hp : PlainStrand s) (d : Reg) (a b : Src)
include hp

theorem exec_grank : exec (.grank d a) s = s.withGroup a fun g =>
    .next (s.setG d (BitVec.ofNat 64 ((s.selfLaunch.bind fun l => g.rank? (s.cidWord l s.selfCore)).getD 0))) := by
  show execGrank d a s = _
  rw [execGrank, hp.unless]
theorem exec_gsize : exec (.gsize d a) s = s.withGroup a fun g => .next (s.setG d (BitVec.ofNat 64 g.members.length)) := by
  show execGsize d a s = _
  rw [execGsize, hp.unless]
theorem exec_gmap : exec (.gmap d a b) s = s.withGroup a fun g =>
    s.answered fun s => .next (s.setG d ((g.members[(s.g b).toNat]?.map fun w => w.setWidth 64).getD minusOne)) := by
  show execGmap d a b s = _
  rw [execGmap, hp.unless]

theorem exec_group_none (h : s.selfGslot ((s.g a).toNat % 4) = none) {i : Instr}
    (hi : i ∈ [Instr.grank d a, .gsize d a, .gmap d a b, .bar d a]) :
    exec i s = .next (s.takeTrap s.cur.slotA { cause := 0x18#6, info := BitVec.ofNat 64 ((s.g a).toNat % 4) }) := by
  simp only [List.mem_cons, List.not_mem_nil, or_false] at hi
  rcases hi with rfl | rfl | rfl | rfl
  · rw [exec_grank hp, withGroup_none _ h]
  · rw [exec_gsize hp, withGroup_none _ h]
  · rw [exec_gmap hp, withGroup_none _ h]
  · show execBar d a s = _
    rw [execBar, hp.unless, withGroup_none _ h]

theorem exec_bar_of_grant {g : Group} (h : s.selfGslot ((s.g a).toNat % 4) = some g) {gr : Grant} (hg : s.before.grant = some gr) :
    exec (.bar d a) s = .next (s.useGrant.setG d (gr.value.setWidth 64)) := by
  have hg' : s.grant = some gr := hg
  show execBar d a s = _
  rw [execBar, hp.unless, withGroup_some _ h, hg']

/-- A BAR whose core has made no arrival sends it to its node and waits (R168). -/
theorem exec_bar_of_first {u : State} {g : Group} {l : Launch} {r n : Nat} (h : s.selfGslot ((s.g a).toNat % 4) = some g)
    (hg : s.before.grant = none) (hu : u = s.drainCore s.selfCore) (hl : u.selfLaunch = some l)
    (hr : g.rank? (u.cidWord l s.selfCore) = some r) (hn : g.node? (u.treeTileOf s.selfSite) = some n)
    (hnew : ∀ x, x ∈ g.tree → r ∉ x.bar)
    (hsent : ({ launch := s.before.launch, group := g.index, bar := true, node := n, item := r } : TreeMsg) ∉ u.treeMsgs) :
    exec (.bar d a) s = .next ((State.mapGroup
      { u with treeMsgs := u.treeMsgs ++ [{ launch := s.before.launch, group := g.index, bar := true, node := n, item := r }] }
      s.before.launch g.index fun g => { g with barWaiters := g.barWaiters ++ [u.cur.strand] }).hold .event) := by
  have hg' : s.grant = none := hg
  have hsame : SameIssuer s u := hu ▸ sameIssuer_drainCore s s.selfCore
  have hcore := hsame.selfCore_eq
  have hsite : u.selfSite = s.selfSite := congrArg coreSite hcore
  have harrived : g.arrived r = false := by simpa [Group.arrived] using hnew
  show execBar d a s = _
  rw [execBar, hp.unless, withGroup_some _ h, hg']
  simp only [← hu, hl, hcore, hsite, hsame.launch_eq, Option.bind_some, hr, hn, Option.getD_some, harrived, List.contains_eq_mem, hsent,
    decide_false, Bool.or_self, Bool.false_eq_true, if_false]
end

theorem treeMsgs_mapGroup (s : State) (n i : Nat) (f : Group → Group) : (s.mapGroup n i f).treeMsgs = s.treeMsgs := by
  unfold State.mapGroup State.mapLaunch
  split <;> rfl
theorem self_hold (s : State) (w : Wait) : (s.hold w).self = { s.self with st := .waiting w, pc := s.before.pc } :=
  State.self_setSelf s _

/-! ## Arrivals on a tree (R157, R164) -/

section
variable {s : State} {m : TreeMsg} {l : Launch} {g : Group} (hl : s.launch? m.launch = some l) (hg : l.group? m.group = some g)
include hl hg

theorem countArrival_of_group : s.countArrival m =
    if !g.full m.bar m.node && (g.count m).full m.bar m.node then (s.mapGroup m.launch m.group fun g => g.count m).sendUp g m
    else s.mapGroup m.launch m.group fun g => g.count m := by
  simp only [State.countArrival, hl, Option.bind_some, hg]
end

theorem sendUp_root (s : State) (g : Group) {m : TreeMsg} (h : m.node = 0) : s.sendUp g m = s := if_pos h
/-- A node of this module is sent its arrival over the zone's mesh. -/
theorem sendUp_of_here (s : State) {g : Group} {m : TreeMsg} {n : TreeNode} (h : m.node ≠ 0) (hn : g.tree[(m.node - 1) / 2]? = some n)
    (hhere : n.tile < 2 ^ 20) :
    s.sendUp g m = { s with treeMsgs := s.treeMsgs ++ [{ m with node := (m.node - 1) / 2, item := 2 ^ 21 + m.node }] } := by
  have hhere' : n.here = true := decide_eq_true hhere
  simp only [State.sendUp, h, if_false, hn, hhere', if_true]
  rfl

section
variable {s : State} (hflag : s.input.flag = false) {m : TreeMsg} (hm : s.treeMsgs[s.input.index]? = some m)
include hflag hm

theorem exec_groupTreeArrival :
    exec .groupTreeArrival s = .next (State.countArrival { s with treeMsgs := s.treeMsgs.eraseIdx s.input.index } m) := by
  show execGroupTreeArrival s = _
  simp only [execGroupTreeArrival, hflag, Bool.false_eq_true, if_false, hm]
end

/-! ## The release of a root of this module (R157, R162, R168) -/

section
variable {s : State} {l : Launch} {g : Group} (hl : s.launch? s.input.launch = some l) (hg : l.group? s.input.group = some g)
  (hne : g.tree ≠ []) (hhere : ∀ n, n ∈ g.tree → n.tile < 2 ^ 20)
include hl hg hne hhere

theorem exec_groupTreeRelease : exec .groupTreeRelease s =
    if g.full s.input.flag 0 then .next (s.releaseTree s.input.launch s.input.group g s.input.flag) else .next s := by
  obtain ⟨n, ns, htree⟩ := List.exists_cons_of_ne_nil hne
  have hall (x : TreeNode) (hx : x ∈ g.tree) : x.here = true := decide_eq_true (hhere x hx)
  have hn : n.here = true := hall n (htree ▸ List.mem_cons_self)
  have hhead : g.tree.head? = some n := by rw [htree, List.head?_cons]
  have hready : s.rootReady g s.input.flag = g.full s.input.flag 0 := by simp only [State.rootReady, hhead, hn, if_true]
  have haway : g.rootAway = false := by simp only [Group.rootAway, hhead, Option.any_some, hn, Bool.not_true]
  have htell : s.tellRelease l g s.input.flag = s := by
    have hnone : (g.tree.filter fun n => !n.here) = [] := List.filter_eq_nil_iff.mpr fun x hx => by simp [hall x hx]
    simp only [State.tellRelease, hhead, hnone, hn, if_true, List.map_nil, List.dedup_nil, List.foldl_nil]
  show execGroupTreeRelease s = _
  simp only [execGroupTreeRelease, hl, hg, hready, haway, htell, Bool.false_eq_true, if_false]
  cases g.full s.input.flag 0 <;> rfl
end

/-- Settles O25: an instruction by the membership that it names, an arrival by what it makes of its node, a release by the root. -/
theorem groupsComplete : Obligations.GroupsComplete := by
  refine ⟨fun s d a b hp => ⟨fun h i hi => exec_group_none hp d a b h hi, fun g l r h hl hr => ⟨?_, ?_, fun gr hgr => ⟨?_, ?_, ?_⟩, ?_⟩⟩,
    fun s m l g => ⟨fun hflag hm hl hg => ?_, fun hl hg hne hhere => ⟨?_, ?_, ?_⟩⟩⟩
  · rw [exec_grank hp, withGroup_some _ h, hl, Option.bind_some, hr, Option.getD_some]
    exact ⟨_, rfl, writesG_setG ..⟩
  · rw [exec_gsize hp, withGroup_some _ h]
    exact ⟨_, rfl, writesG_setG ..⟩
  · intro w hw
    have hw' : g.members[(s.useGrant.g b).toNat]? = some w := hw
    rw [exec_gmap hp, withGroup_some _ h, answered_of_grant hgr, hw']
    rfl
  · intro hlen
    have hw' : g.members[(s.useGrant.g b).toNat]? = none := List.getElem?_eq_none hlen
    rw [exec_gmap hp, withGroup_some _ h, answered_of_grant hgr, hw']
    rfl
  · exact exec_bar_of_grant hp d a h hgr
  · intro u n hgr hu hul hur hn hnew m hsent
    refine ⟨_, exec_bar_of_first hp d a h hgr hu hul hur hn hnew hsent, by rw [self_hold], ?_⟩
    exact treeMsgs_mapGroup ..
  · intro u
    rw [exec_groupTreeArrival hflag hm, countArrival_of_group (s := { s with treeMsgs := s.treeMsgs.eraseIdx s.input.index }) hl hg]
    refine ⟨fun hquiet => ?_, fun n hold hfull h0 hn hhere => ?_⟩
    · obtain hfull | hfull | h0 := hquiet
      · rw [hfull]
        rfl
      · rw [hfull, Bool.and_false]
        rfl
      · rw [sendUp_root _ _ h0, ite_self]
    · rw [hold, hfull]
      exact congrArg _ (sendUp_of_here _ h0 hn hhere)
  · intro hflag hfull
    rw [exec_groupTreeRelease hl hg hne hhere, hflag, hfull]
    rfl
  · intro hflag hfull
    rw [exec_groupTreeRelease hl hg hne hhere, hflag, hfull]
    rfl
  · intro hfull
    rw [exec_groupTreeRelease hl hg hne hhere, hfull]
    rfl

end Sys2Proof.Machine
end

section
/-! SUPPORT. Messages on their way, mailboxes and handlers (07 R169–R173, 09 R222, R224, R230, R231). -/

namespace Sys2Proof.Machine

/-! ## What a message that sets out changes (R170, R444) -/

/-- What traffic for another module changes: ports and what leaves or waits there. -/
def Transmitted (s t : State) : Prop := t = { s with ports := t.ports, outputs := t.outputs, outbox := t.outbox, free := t.free }

theorem Transmitted.trans {s t u : State} (h : Transmitted s t) (h' : Transmitted t u) : Transmitted s u := by
  rw [Transmitted, h', h]
theorem Transmitted.foldl {α : Type} {f : State → α → State} (hf : ∀ s x, Transmitted s (f s x)) (l : List α) (s : State) :
    Transmitted s (l.foldl f s) := by
  induction l generalizing s with
  | nil => rfl
  | cons x l ih => exact (hf s x).trans (ih _)
theorem transmitted_sendNow (s : State) (x : Outgoing) (b : List Byte) (k : Nat) : Transmitted s (s.sendNow x b k) :=
  Transmitted.trans (Transmitted.foldl (fun s _ => (rfl : Transmitted s (s.sendFlit k _))) (List.range _) s) rfl
theorem transmitted_transmit (s : State) (x : Outgoing) : Transmitted s (s.transmit x) := by
  simp only [State.transmit]
  split
  · rfl
  · split
    · exact Transmitted.trans (t := { s with free := s.free + 1 }) rfl (transmitted_sendNow ..)
    · rfl

theorem pushMessage_of_module_none (s : State) {m : Message} (h : m.module = none) :
    s.pushMessage m = { s with messages := s.messages ++ [m] } := by
  simp only [State.pushMessage, h]
theorem transmitted_pushMessage (s : State) (m : Message) : Transmitted { s with messages := s.messages ++ [m] } (s.pushMessage m) := by
  simp only [State.pushMessage]
  split
  · split
    · exact transmitted_transmit ..
    · rfl
  · rfl
theorem transmitted_foldl_pushMessage (s : State) (ms : List Message) :
    Transmitted { s with messages := s.messages ++ ms } (ms.foldl (fun s m => s.pushMessage m) s) := by
  induction ms generalizing s with
  | nil => simp only [Transmitted, List.append_nil, List.foldl_nil]
  | cons m ms ih =>
    have hrest := ih (s.pushMessage m)
    have hfirst := transmitted_pushMessage s m
    rw [List.foldl_cons]
    refine Transmitted.trans ?_ hrest
    rw [Transmitted, hfirst]
    simp only [List.append_assoc, List.cons_append, List.nil_append]

/-! ## SEND of a returned message, and the return (R170, R224) -/

section
variable {s : State} (hp : PlainStrand s) (d : Reg) {a : Src} (m : BitVec 32) (ha : (s.g a).toNat % 64 = 0)
include hp ha

theorem exec_sendReturned_of_none (h : (s.core s.selfCore).returned = []) : exec (.sendReturned d a m) s = .next (s.setG d minusOne) := by
  show execSendReturned d a m s = _
  simp only [execSendReturned, hp.unless, hp.gated, ha, ne_eq, not_true, if_false, h]
theorem exec_sendReturned_of_cons {v : State} {msg : Message} {rest : List Message} {pa : Nat} {cached : Option (Nat × Nat)}
    (h : (s.core s.selfCore).returned = msg :: rest) (hc : s.check .store (s.g a) 64 = .ok pa cached v) :
    exec (.sendReturned d a m) s =
      .next (((v.setCore s.selfCore { v.core s.selfCore with returned := rest }).issueStore (s.g a) pa 64 msg.body cached).setG d
        (msg.sts.setWidth 64)) := by
  show execSendReturned d a m s = _
  simp only [execSendReturned, hp.unless, hp.gated, ha, ne_eq, not_true, if_false, h, hc]
end

theorem exec_messageReturn_of_first {s : State} {msg : Message} (hi : s.messages[s.input.index]? = some msg) (hs : msg.sts ≠ 0#4)
    (ho : msg.origin = none) (hb : s.returnBlocked s.input.index msg = false) :
    exec .messageReturn s = .next (State.setCore { s with messages := s.messages.eraseIdx s.input.index } msg.srcCore
      { s.core msg.srcCore with returned := (s.core msg.srcCore).returned ++ [msg] }) := by
  show execMessageReturn s = _
  simp only [execMessageReturn, hi, beq_false_of_ne hs, hb, Bool.or_self, Bool.false_eq_true, if_false, ho]

/-! ## MESSAGE_ARRIVAL (R170, R487) -/

theorem exec_messageArrival_of_first {s : State} {m : Message} (hlevel : s.input.level ≠ 1) (hi : s.messages[s.input.index]? = some m)
    (hs : m.sts = 0#4) (hh : m.held = none) (hb : s.messageBlocked s.input.index m = false) (hm : m.module = none) :
    exec .messageArrival s = .next (State.deliver { s with messages := s.messages.eraseIdx s.input.index } m) := by
  show execMessageArrival s = _
  simp only [execMessageArrival, hlevel, if_false, hi, hs, hh, hb, hm, bne_self_eq_false, Option.isSome_none, Bool.or_self,
    Bool.false_eq_true]

section
variable {s : State} {m : Message}

theorem deliver_of_dead (hdead : s.deadSite (coreSite m.target) = true) :
    s.deliver m = s.pushMessage { m.back 3#4 with held := some (coreSite m.target) } := by
  simp only [State.deliver, hdead, if_true]

variable (hdead : s.deadSite (coreSite m.target) = false) (hsil : s.silent (coreSite m.target) = false)
include hdead hsil

theorem deliver_of_no_mailbox (hb : (s.core m.target).mboxes.find? m.mbox = none) : s.deliver m = s.pushMessage (m.back 2#4) := by
  simp only [State.deliver, hdead, hsil, Bool.false_eq_true, if_false, hb]
theorem deliver_of_occupied {b : Mailbox} (hb : (s.core m.target).mboxes.find? m.mbox = some b) (ho : b.occupied = true) :
    s.deliver m = s.pushMessage (m.back 1#4) := by
  simp only [State.deliver, hdead, hsil, Bool.false_eq_true, if_false, hb, ho, if_true]
theorem deliver_of_free {b : Mailbox} (hb : (s.core m.target).mboxes.find? m.mbox = some b) (ho : b.occupied = false) :
    s.deliver m = (s.writePa (ringSlotPa m.target b b.next) 64 m.body).setCore m.target
      { s.core m.target with
        mboxes := (s.core m.target).mboxes.set m.mbox { b with waiting := b.waiting ++ [(b.next, m)], next := (b.next + 1) % 64 } } := by
  simp only [State.deliver, hdead, hsil, Bool.false_eq_true, if_false, hb, ho]
end

/-! ## MAILBOX_FIRE (R171, R172) -/

/-- The handler strand that a mailbox starts in a slot: it takes THR waiting messages. -/
def Mailbox.handlerStrand (b : Mailbox) (mbox slot : Nat) : Strand :=
  let take := b.waiting.take b.thr
  { st := .ready, pc := b.hpc, birth := .handler, launch := b.launch, index := BitVec.ofNat 3 slot
    regs := { g := ⟨[(1, b.ring + BitVec.ofNat 64 (64 * (take.map (·.1)).headD 0)), (2, BitVec.ofNat 64 b.thr), (3, BitVec.ofNat 64 mbox)]⟩ }
    msgid := ((take.map (·.2)).head?.map (·.msgid)).getD 0#32
    handler := some { mbox := mbox, slots := take.map (·.1), msgs := take.map (·.2), held := [] } }
/-- The mailbox once strand `k` handles them. -/
def Mailbox.handledBy (b : Mailbox) (k : Nat) : Mailbox :=
  { b with waiting := b.waiting.drop b.thr, given := b.given ++ (b.waiting.take b.thr).map (·.1), handlers := b.handlers ++ [k] }

theorem exec_mailboxFire_of_ready {s : State} {b : Mailbox} {l : Launch} {slot : Nat}
    (hb : (s.core s.input.core).mboxes.find? s.input.mbox = some b) (hl : s.launch? b.launch = some l) (hready : b.ready = true)
    (hruns : s.partRuns l.part = true) (hdead : s.deadSite (coreSite s.input.core) = false)
    (hsil : s.silent (coreSite s.input.core) = false) (hpin : s.pinned b.hpc = true) (hslot : s.freeSlot s.input.core = some slot) :
    exec .mailboxFire s = .next (State.birth
      (s.setCore s.input.core { s.core s.input.core with
        mboxes := (s.core s.input.core).mboxes.set s.input.mbox (b.handledBy (strandOf s.input.core slot)) })
      s.input.core slot (b.handlerStrand s.input.mbox slot)) := by
  show execMailboxFire s = _
  simp only [execMailboxFire, hb, hl, Option.getD_some, hready, hruns, hdead, hsil, hpin, hslot, Bool.not_true, Bool.or_self,
    Bool.false_eq_true, if_false]
  rfl

/-! ## MBCFG (R169, R230, R450) -/

section
variable {s : State} (hp : PlainStrand s) (d : Reg) {a : Src} (b : Src) (m : BitVec 32) {busy : Bool}
  (hbusy : (((s.core s.selfCore).mboxes.find? (m.extractLsb' 0 3).toNat).map fun x => x.busy s.before.launch).getD false = busy)
include hp hbusy

theorem exec_mbcfg_clear (ha : a.r = 0#4) : exec (.mbcfg d a b m) s =
    if busy then .next (s.setG d 3#64)
    else .next ((s.setCore s.selfCore
      { s.core s.selfCore with mboxes := (s.core s.selfCore).mboxes.erase (m.extractLsb' 0 3).toNat }).setG d 0#64) := by
  show execMbcfg d a b m s = _
  simp only [execMbcfg, hp.unless, sendMbox, hbusy, ha, if_true]
/-- Past the reading of its descriptor `x`, MBCFG goes through the checks of R230 in their order. -/
theorem exec_mbcfg_of_data (ha : a.r ≠ 0#4) (h16 : (s.g a).toNat % 16 = 0) {x : Nat} {v : State}
    (hx : (s.drainCore s.selfCore).readBack (s.g a) 8 2 = .data x v) : exec (.mbcfg d a b m) s =
    if busy then .next (v.setG d 3#64)
    else if badDescriptor x then .next (v.setG d 4#64)
    else if !v.pinned (BitVec.ofNat 64 (bits x 0 64)) then .next (v.setG d 1#64)
    else if inWindow (v.g b) then v.trap (protAt 0 .store (v.g b))
    else if !v.ringOk s.selfCore (m.extractLsb' 0 3).toNat (v.g b) then .next (v.setG d 2#64)
    else .next ((v.setCore s.selfCore { v.core s.selfCore with
      mboxes := (v.core s.selfCore).mboxes.set (m.extractLsb' 0 3).toNat
        { launch := s.before.launch, hpc := BitVec.ofNat 64 (bits x 0 64), thr := bits x 64 7, ser := bitAt x 71, ring := v.g b } }).setG d
        0#64) := by
  subst hbusy
  show execMbcfg d a b m s = _
  simp only [execMbcfg, hp.unless, ha, if_false, h16, ne_eq, not_true, State.readStruct, hx]
  rfl
end

/-! ## HEND (R173, R231) -/

theorem mapMailbox_of_some {s : State} {core mbox : Nat} {q : Mailbox} (h : (s.core core).mboxes.find? mbox = some q) (f : Mailbox → Mailbox) :
    s.mapMailbox core mbox f = s.setCore core { s.core core with mboxes := (s.core core).mboxes.set mbox (f q) } := by
  simp only [State.mapMailbox, h]
theorem mapMailbox_eq (s : State) (core mbox : Nat) (f : Mailbox → Mailbox) :
    s.mapMailbox core mbox f = { s with cores := (s.mapMailbox core mbox f).cores } := by
  simp only [State.mapMailbox]
  split <;> rfl

theorem exec_hend_of_handler {s : State} {h : HandlerRun} (hs : s.before.inShadow = false) (hh : s.before.handler = some h)
    (hd : s.drained s.cur.strand = true) :
    ∃ u, exec .hend s = .next (u.retire s.cur.strand) ∧
      Transmitted { s.mapMailbox s.selfCore h.mbox (fun m => m.endHandler s.cur.strand h) with messages := s.messages ++ h.held } u := by
  have hmap : (s.mapMailbox s.selfCore h.mbox fun m => m.endHandler s.cur.strand h).messages = s.messages := by rw [mapMailbox_eq]
  refine ⟨_, ?_, hmap ▸ transmitted_foldl_pushMessage ..⟩
  show execHend s = _
  simp only [execHend, hs, hh, State.onceDrained, hd, Bool.false_eq_true, if_false, if_true]

/-! ## The obligation -/

/-- The issue of a store adds its access and leaves the cores as they are. -/
theorem issueStore_issues (s : State) (va : Word) (pa n x : Nat) (cached : Option (Nat × Nat)) :
    ∃ y : Access, (s.issueStore va pa n x cached).accesses = s.accesses ++ [y] ∧ (s.issueStore va pa n x cached).cores = s.cores ∧
      y.strand = s.cur.strand ∧ y.kind = .store ∧ y.dest = .none ∧ y.pa = pa ∧ y.n = n ∧ y.data = x ∧ y.line = cached := by
  refine ⟨{ strand := s.cur.strand, kind := .store, dest := .none, pa := pa, n := n, data := x, line := cached, tenant := s.payer
            l1 := s.viaAt va, window := s.windowed va }, ?_, ?_, rfl, rfl, rfl, rfl, rfl, rfl, rfl⟩ <;>
    rw [State.issueStore, onlyBytes_touch s pa] <;> rfl

/-- Settles O27: each clause by the lemma on that instruction or event; what a birth, a retirement and traffic that leaves keep. -/
theorem messagesAndMailboxesComplete : Obligations.MessagesAndMailboxesComplete := by
  refine ⟨fun s d a m => ⟨fun hp ha h => ⟨_, exec_sendReturned_of_none hp d m ha h, writesG_setG ..⟩,
      fun msg rest pa cached v hp ha h hc => ?_, ?_⟩,
    fun s i m => ⟨?_, ?_⟩, fun s d a b m => ?_⟩
  · have hstrand : v.cur.strand = s.cur.strand := (leftByChecks_check hc).sameIssuer.1
    obtain ⟨x, haccesses, hcores, hx, hfields⟩ :=
      issueStore_issues (v.setCore s.selfCore { v.core s.selfCore with returned := rest }) (s.g a) pa 64 msg.body cached
    obtain ⟨hkind, hdest, hpa, hn, hdata, hline⟩ := hfields
    refine ⟨_, x, exec_sendReturned_of_cons hp d m ha h hc, ?_, haccesses, hx.trans hstrand, hkind, hdest, hpa, hn, hdata, hline, fun hd => ?_⟩
    · rw [State.core_setG_other, State.core, hcores]
      exact congrArg Core.returned (State.core_setCore_self v _ _)
    · rw [State.self_setG, RegFile.readG_writeG, if_pos ⟨hd, rfl⟩]
  · rintro i msg rfl hi hs ho hb
    refine ⟨_, exec_messageReturn_of_first hi hs ho hb, rfl, ?_, fun c hc => State.core_setCore_ne _ _ hc⟩
    exact congrArg Core.returned (State.core_setCore_self _ _ _)
  · rintro rfl hlevel hi hs hh hb hm hsil u back
    have hexec : exec .messageArrival s = .next (u.deliver m) := exec_messageArrival_of_first hlevel hi hs hh hb hm
    rw [hexec]
    refine ⟨fun hdead => ?_, fun hdead hbox => ?_, fun b hdead hbox => ⟨fun ho => ?_, fun ho => ?_⟩⟩
    · rw [deliver_of_dead (s := u) hdead, pushMessage_of_module_none _ (by exact hm)]
      rfl
    · rw [deliver_of_no_mailbox (s := u) hdead hsil hbox, pushMessage_of_module_none _ (by exact hm)]
      rfl
    · rw [deliver_of_occupied (s := u) hdead hsil hbox ho, pushMessage_of_module_none _ (by exact hm)]
      rfl
    · refine ⟨_, congrArg _ (deliver_of_free (s := u) hdead hsil hbox ho), ?_, State.setCore_mem .., ?_⟩
      · rw [State.core_setCore_self, FMap.find?_set, if_pos rfl]
      · rw [State.setCore_messages, onlyBytes_writePa]
  · rintro core b l slot rfl hb hl hthr hser hruns hdead hsil hpin hslot
    have hready : b.ready = true := by
      simp only [Mailbox.ready, hthr, decide_true, Bool.true_and]
      cases hs : b.ser with
      | false => rfl
      | true => rw [hser hs]; rfl
    refine ⟨_, b.handlerStrand s.input.mbox slot, exec_mailboxFire_of_ready hb hl hready hruns hdead hsil hpin hslot, ?_, rfl, rfl, rfl, rfl, rfl,
      rfl, fun k hk => ?_⟩
    · rw [strand_birth, if_pos rfl]
    · rw [strand_birth, if_neg hk]
      rfl
  · intro mbox core busy
    refine ⟨fun hp ha hbusy => ?_, fun hp ha hbusy => ?_, fun x v hp ha h16 hx => ?_, fun h hs hh hd => ?_⟩
    · exact ⟨_, (exec_mbcfg_clear hp d b m hbusy ha).trans (if_pos rfl), writesG_setG ..⟩
    · exact (exec_mbcfg_clear hp d b m hbusy ha).trans (if_neg Bool.false_ne_true)
    · intro hpc
      refine ⟨fun hbusy => ?_, fun hbusy hbad => ?_, fun hbusy hbad hpin => ?_, fun hbusy hbad hpin hwin => ?_,
        fun hbusy hbad hpin hwin hring => ?_, fun hbusy hbad hpin hwin hring => ?_⟩
      all_goals rw [exec_mbcfg_of_data hp d b m hbusy ha h16 hx]
      · rw [if_pos rfl]
      · simp only [hbad, Bool.false_eq_true, if_false, if_true]
      · rw [if_neg Bool.false_ne_true, if_neg (Bool.eq_false_iff.mp hbad), if_pos (by rw [hpin]; rfl)]
      · rw [if_neg Bool.false_ne_true, if_neg (Bool.eq_false_iff.mp hbad), if_neg (by rw [hpin]; exact Bool.false_ne_true), if_pos hwin]
      · rw [if_neg Bool.false_ne_true, if_neg (Bool.eq_false_iff.mp hbad), if_neg (by rw [hpin]; exact Bool.false_ne_true),
          if_neg (Bool.eq_false_iff.mp hwin), if_pos (by rw [hring]; rfl)]
      · rw [if_neg Bool.false_ne_true, if_neg (Bool.eq_false_iff.mp hbad), if_neg (by rw [hpin]; exact Bool.false_ne_true),
          if_neg (Bool.eq_false_iff.mp hwin), if_neg (by rw [hring]; exact Bool.false_ne_true)]
    · obtain ⟨u, hexec, hu⟩ := exec_hend_of_handler hs hh hd
      refine ⟨_, hexec, ?_, ?_, fun k hk => ?_, fun q hq => ?_⟩
      · show u.messages = _
        rw [hu]
      · rw [strand_retire, if_pos rfl]
      · rw [strand_retire, if_neg hk, hu, mapMailbox_eq]
        rfl
      · show (u.core core).mboxes.find? h.mbox = _
        rw [hu, mapMailbox_of_some hq]
        exact (congrArg (fun c : Core => c.mboxes.find? h.mbox) (State.core_setCore_self s core _)).trans
          ((FMap.find?_set _ _ _ _).trans (if_pos rfl))

end Sys2Proof.Machine
end

section
/-! SUPPORT. The ordered task unit and the token instructions (07 R179–R183, 08 R208, 09 R235–R239). -/

namespace Sys2Proof.Machine

/-! ## TENQ (R235) -/

theorem g_of_g0 (s : State) {c : Src} (h : c.r = 0#4) : s.g c = 0#64 := if_pos h

/-- TENQ without a structure of arguments, outside a task: the unit takes the task as the core's earlier accesses have left it. -/
theorem exec_tenq_of_no_args {s : State} (hp : PlainStrand s) {a b c : Src} (hlt : (s.g b).toNat < 2 ^ 57) (h8 : (s.g b).toNat % 8 = 0)
    (hc : c.r = 0#4) (hstop : (s.drainCore s.selfCore).cur.stopped = false) :
    exec (.tenq a b c) s = (s.drainCore s.selfCore).offerTask ((s.drainCore s.selfCore).g a) ((s.drainCore s.selfCore).g b)
      [0#64, 0#64, 0#64, 0#64] := by
  show execTenq a b c s = _
  have h0 : ¬(s.g c).toNat % 8 ≠ 0 := by rw [g_of_g0 s hc]; decide
  simp only [execTenq, hp.unless, checkTarget_ok h8 hlt, if_neg h0, State.afterDrain, hstop, Bool.false_eq_true, if_false, hc, if_true]

section
variable {u : State} (ht : u.before.task = none)
include ht

/-- A strand outside a task is bound by the zone's last commit alone. -/
theorem refusesTimestamp_of_no_task (x : Word) : u.refusesTimestamp x = x.ult (u.zone u.selfZone).lastCommit := by
  simp only [State.refusesTimestamp, selfTask_none ht, Option.map_none, Option.getD_none, Bool.or_false]
/-- A task that no speculative one enqueues is visible at once. -/
theorem enqueue_of_no_task (ts hpc : Word) (args : List Word) : u.enqueue ts hpc args =
    { u.setZone u.selfZone { u.zone u.selfZone with
        tasks := (u.zone u.selfZone).tasks ++
          [{ order := u.nextOrder, timestamp := ts, hpc := hpc, args := args, launch := u.before.launch }] } with
      nextOrder := u.nextOrder + 1 } := by
  simp only [State.enqueue, speculative_of_no_task ht, Bool.false_eq_true, if_false]
end

theorem offerTask_of_room {u : State} (h : (u.zone u.selfZone).tasks.length < 4096) (ts hpc : Word) (args : List Word) :
    u.offerTask ts hpc args = if u.refusesTimestamp ts then u.trapWith causeTsRange 0#64 ts else .next (u.enqueue ts hpc args) :=
  if_neg (Nat.not_le.mpr h)

/-! ## TEND and TSELF (R236, R237) -/

section
variable {s : State}

theorem exec_tend_outside (h : s.selfTask = none) (m : BitVec 32) : exec (.tend m) s = s.illegal := by
  show execTend m s = _
  simp only [execTend, h]
theorem exec_tself_outside (h : s.selfTask = none) (d : Reg) (m : BitVec 32) : exec (.tself d m) s = s.illegal := by
  show execTself d m s = _
  simp only [execTself, h]

variable {k : Task} (hk : s.selfTask = some k) {m : BitVec 32}
include hk

theorem exec_tend_aborts (hm : m.getLsbD 0 = true) : exec (.tend m) s = s.trapWith causeTaskAbort 0#64 k.timestamp := by
  show execTend m s = _
  simp only [execTend, hk, hm, if_true]
theorem exec_tend_of_drained (hm : m.getLsbD 0 = false) (hd : s.drained s.cur.strand = true) :
    exec (.tend m) s = .next (State.retire (s.setZone s.selfZone (if k.irrevocable then (s.zone s.selfZone).commit k
      else (s.zone s.selfZone).mapTask k.order fun x => { x with st := .ended })) s.cur.strand) := by
  show execTend m s = _
  simp only [execTend, hk, hm, Bool.false_eq_true, if_false, State.onceDrained, hd, if_true]
theorem exec_tself_answers (d : Reg) (hm : m.getLsbD 0 = false) :
    exec (.tself d m) s = .next ((s.setG d k.timestamp).setP 7#3 k.irrevocable) := by
  show execTself d m s = _
  simp only [execTself, hk, hm, Bool.false_eq_true, if_false, State.setP7]
/-- TSELF that waits for the task to be irrevocable has nothing to wait for in a task that is. -/
theorem exec_tself_of_irrevocable (d : Reg) (hm : m.getLsbD 0 = true) (hi : k.irrevocable = true) :
    exec (.tself d m) s = .next ((s.setG d k.timestamp).setP 7#3 true) := by
  show execTself d m s = _
  simp only [execTself, hk, hm, if_true, State.gated, State.irrevocably, hi, State.setP7]
end

/-! ## The unit's steps (R179–R182) -/

section
variable {s : State} {t : Task}

/-- Where a core has a free slot, no task has to give up its own (R184). -/
theorem makeWay_of_freeSlot {core slot : Nat} (h : s.freeSlot core = some slot) (zone : Nat) (t : Task) : s.makeWay zone core t = s := by
  simp only [State.makeWay, h, Option.isNone_some, Bool.and_false, Bool.false_eq_true, if_false]

theorem exec_taskDispatch_of_waiting {l : Launch} {slot : Nat} (ht : (s.zone s.input.zone).task? s.input.task = some t)
    (hl : s.launch? t.launch = some l) (hslot : s.freeSlot s.input.core = some slot) (hst : t.st = .waiting) (hvis : t.parent = none)
    (hretry : t.retry = false) (hzone : coreZone s.input.core = s.input.zone) (hat : coreIsAtelier s.input.core = false)
    (hof : s.coreOf l s.input.core = true) (hruns : s.partRuns l.part = true) (hdead : s.deadSite (coreSite s.input.core) = false)
    (hsil : s.silent (coreSite s.input.core) = false) (hafter : (s.zone s.input.zone).irrevocableAfter t = false) :
    exec .taskDispatch s = .next (State.birth
      (s.setZone s.input.zone ((s.zone s.input.zone).mapTask t.order fun x => { x with st := .running (strandOf s.input.core slot) }))
      s.input.core slot (taskStrand t slot)) := by
  have hvis' : t.visible = true := by rw [Task.visible, hvis]; rfl
  show execTaskDispatch s = _
  simp only [execTaskDispatch, ht, if_pos hzone, makeWay_of_freeSlot hslot, hl, hslot, hst, hvis', hretry, hat, hof, hruns, hdead, hsil,
    hafter]
  simp [hzone]

theorem exec_taskCommit_of_ended (ht : (s.zone s.input.zone).oldest = some t) (hst : t.st = .ended)
    (hirr : ∀ x ∈ (s.zone s.input.zone).tasks, x.irrevocable = false) (hpub : s.mayPublish t = true) :
    exec .taskCommit s = .next (State.setZone (s.commitStores s.input.zone t) s.input.zone
      (((s.commitStores s.input.zone t).zone s.input.zone).commit t)) := by
  have hany : (s.zone s.input.zone).tasks.any (fun x => x.irrevocable) = false := by simpa using hirr
  show execTaskCommit s = _
  simp only [execTaskCommit, ht, hst, hany, hpub]
  rfl

theorem exec_taskRollback_of_speculative (ht : (s.zone s.input.zone).task? s.input.task = some t) (hirr : t.irrevocable = false) :
    exec .taskRollback s = .next (s.rollback s.input.zone t.order) := by
  show execTaskRollback s = _
  simp only [execTaskRollback, ht, hirr, Bool.false_eq_true, if_false]

theorem exec_taskIrrevocable_of_oldest {k : Nat} (ht : (s.zone s.input.zone).task? s.input.task = some t) (hst : t.st = .running k)
    (hwait : (s.strand k).st = .waiting .oldest) (hturn : (s.zone s.input.zone).mayTurn t.order = true) (hpub : s.mayPublish t = true) :
    exec .taskIrrevocable s = .next ((s.makeIrrevocable s.input.zone t.order).wake k) := by
  show execTaskIrrevocable s = _
  simp only [execTaskIrrevocable, ht, hst, hwait, hturn, hpub]
  rfl
end

/-! ## Tokens (R208, R238) -/

section
variable {s : State} (hp : PlainStrand s) (d : Reg) (a : Src)
include hp

theorem exec_tkreq : exec (.tkreq d a) s =
    .next ((s.mapAccount s.selfSite fun x => x.ask (tokenCount (s.g a))).setG d (BitVec.ofNat 64 (tokenCount (s.g a)))) := by
  show execTkreq d a s = _
  simp only [execTkreq, hp.unless, hp.gated]
theorem exec_tklend {n : Nat} (hn : n = lendable (s.tile s.selfSite).account (s.floorShare s.selfSite) (tokenCount (s.g a))) :
    exec (.tklend d a) s = .next ((s.mapAccount s.selfSite fun x => x.lend n s.time).setG d (BitVec.ofNat 64 n)) := by
  subst hn
  show execTklend d a s = _
  simp only [execTklend, hp.unless, hp.gated]
theorem exec_tkqry_of_grant {gr : Grant} (h : s.before.grant = some gr) :
    exec (.tkqry d) s = .next (s.useGrant.setG d (s.useGrant.accountWord s.selfSite)) := by
  show execTkqry d s = _
  rw [execTkqry, hp.unless, answered_of_grant h]
  rfl
end

/-- A change of one tile's account, with an answer in a register, changes no other tile and nothing else. -/
theorem setG_mapAccount (s : State) (site : Nat) (f : Account → Account) (d : Reg) (x : Word) (t : State)
    (ht : t = (s.mapAccount site f).setG d x) :
    (t.tile site).account = f (s.tile site).account ∧ (d ≠ 0#4 → t.self.regs.readG d = x) ∧ (∀ y, y ≠ site → t.tile y = s.tile y) ∧
      t = { s with strands := t.strands, tiles := t.tiles } := by
  subst ht
  refine ⟨?_, fun hd => ?_, fun y hy => ?_, rfl⟩
  · exact congrArg Tile.account (State.tile_setTile_self s site _)
  · rw [State.self_setG, RegFile.readG_writeG, if_pos ⟨hd, rfl⟩]
  · exact State.tile_setTile_ne s _ hy

/-! ## The obligation -/

/-- Settles O28: each clause by the lemma on that instruction or event; what a birth and a retirement keep. -/
theorem tasksAndTokensComplete : Obligations.TasksAndTokensComplete := by
  refine ⟨fun s d a b c m => ⟨?_, fun k hk => ⟨fun hm => exec_tend_aborts hk hm, fun hm hd => ?_, fun hm => exec_tself_answers hk d hm,
      fun hm hi => exec_tself_of_irrevocable hk d hm hi⟩, fun h => ⟨exec_tend_outside h m, exec_tself_outside h d m⟩⟩,
    fun s z t hz => ?_, fun s d a hp => ⟨⟨_, exec_tkreq hp d a, setG_mapAccount _ _ _ _ _ _ rfl⟩,
      ⟨_, exec_tklend hp d a rfl, setG_mapAccount _ _ _ _ _ _ rfl⟩, fun gr h => exec_tkqry_of_grant hp d h⟩⟩
  · rintro u hp hlt h8 hc rfl hstop hroom
    have hissuer := sameIssuer_drainCore s s.selfCore
    have htask : (s.drainCore s.selfCore).before.task = none := hissuer.task_eq.trans hp.2.2.2.1
    have hzone : (s.drainCore s.selfCore).selfZone = s.selfZone := congrArg coreZone hissuer.selfCore_eq
    rw [exec_tenq_of_no_args hp hlt h8 hc hstop, offerTask_of_room hroom, refusesTimestamp_of_no_task htask]
    refine ⟨fun h => if_pos h, fun h => ⟨_, if_neg (Bool.eq_false_iff.mp h), ?_⟩⟩
    rw [enqueue_of_no_task htask, hissuer.launch_eq, hzone]
    exact ⟨rfl, congrArg Zone.tasks (State.zone_setZone_self _ s.selfZone _), rfl⟩
  · refine ⟨_, exec_tend_of_drained hk hm hd, ?_, State.zone_setZone_self ..⟩
    rw [strand_retire, if_pos rfl]
  · subst hz
    refine ⟨fun l slot ht hl hslot hst hvis hretry hzone hat hof hruns hdead hsil hafter => ?_, fun ht hst hirr hpub => ?_,
      exec_taskRollback_of_speculative, fun k => exec_taskIrrevocable_of_oldest⟩
    · refine ⟨_, taskStrand t slot, exec_taskDispatch_of_waiting ht hl hslot hst hvis hretry hzone hat hof hruns hdead hsil hafter, ?_, rfl,
        rfl, rfl, rfl, rfl, fun k hk => ?_⟩
      · rw [strand_birth, if_pos rfl]
      · rw [strand_birth, if_neg hk]
        rfl
    · exact ⟨_, _, exec_taskCommit_of_ended ht hst hirr hpub, rfl, State.setZone_mem .., State.zone_setZone_self ..⟩

end Sys2Proof.Machine
end

section
/-! SUPPORT. Host queues and the dispatcher: seals, kicks, selection, binding, the wake flood and completion (07 R149–R154,
08 R188–R196). -/

namespace Sys2Proof.Machine

/-! ## What the dispatcher's own accesses keep (R149, R188) -/

/-- Launches, partitions and the time stand as they did. -/
def KeepsLaunches (s t : State) : Prop :=
  t.launches = s.launches ∧ t.nextLaunch = s.nextLaunch ∧ t.parts = s.parts ∧ t.time = s.time

namespace KeepsLaunches
variable {s t u : State}

theorem refl (s : State) : KeepsLaunches s s := ⟨rfl, rfl, rfl, rfl⟩
theorem trans (h : KeepsLaunches s t) (h' : KeepsLaunches t u) : KeepsLaunches s u := by
  obtain ⟨hl, hn, hp, ht⟩ := h
  obtain ⟨hl', hn', hp', ht'⟩ := h'
  exact ⟨hl'.trans hl, hn'.trans hn, hp'.trans hp, ht'.trans ht⟩
theorem foldl {α : Type} {f : State → α → State} (hf : ∀ s x, KeepsLaunches s (f s x)) (l : List α) (s : State) :
    KeepsLaunches s (l.foldl f s) := by
  induction l generalizing s with
  | nil => exact refl s
  | cons x l ih => exact (hf s x).trans (ih _)
theorem launch?_eq (h : KeepsLaunches s t) (n : Nat) : t.launch? n = s.launch? n := congrArg (·.find? n) h.1
theorem time_eq (h : KeepsLaunches s t) : t.time = s.time := by
  obtain ⟨-, -, -, ht⟩ := h
  exact ht
theorem part_eq (h : KeepsLaunches s t) (p : Nat) : t.part p = s.part p := by
  obtain ⟨-, -, hp, -⟩ := h
  rw [State.part, hp]; rfl
theorem ownModule_eq (h : KeepsLaunches s t) (p : Nat) : t.ownModule p = s.ownModule p := by simp only [State.ownModule, h.part_eq]
end KeepsLaunches

theorem Charged.keepsLaunches {s t : State} (h : Charged s t) : KeepsLaunches s t := by rw [h]; exact ⟨rfl, rfl, rfl, rfl⟩
theorem OnlyBytes.keepsLaunches {s t : State} (h : OnlyBytes s t) : KeepsLaunches s t := by rw [h]; exact ⟨rfl, rfl, rfl, rfl⟩
theorem Transmitted.keepsLaunches {s t : State} (h : Transmitted s t) : KeepsLaunches s t := by rw [h]; exact ⟨rfl, rfl, rfl, rfl⟩
theorem RolledBack.keepsLaunches {s t : State} (h : RolledBack s t) : KeepsLaunches s t := by rw [h.1]; exact ⟨rfl, rfl, rfl, rfl⟩

theorem keepsLaunches_writeShared (s : State) (self : Option (Nat × Nat)) (pa n x : Nat) : KeepsLaunches s (s.writeShared self pa n x) :=
  (rolledBack_touchLine s self _).keepsLaunches.trans (onlyBytes_writePa ..).keepsLaunches
theorem LeftByChecks.keepsLaunches {s t : State} (h : LeftByChecks s t) : KeepsLaunches s t := by
  induction h with
  | same => exact .refl s
  | plb c x _ ih => exact ih.trans ⟨rfl, rfl, rfl, rfl⟩
  | mark self pa n x _ ih => exact ih.trans (keepsLaunches_writeShared ..)
theorem keepsLaunches_faultMet (s : State) (t : TrapInfo) : KeepsLaunches s (s.faultMet t) := by
  rw [faultMet_eq]; exact ⟨rfl, rfl, rfl, rfl⟩
theorem keepsLaunches_askPage (s : State) (r : PageRequest) : KeepsLaunches s (s.askPage r) := by
  simp only [State.askPage]
  split <;> exact ⟨rfl, rfl, rfl, rfl⟩
theorem keepsLaunches_sendControl (s : State) (p m : Nat) (what : List Nat) : KeepsLaunches s (s.sendControl p m what) :=
  KeepsLaunches.trans (t := { s with nextTag := s.nextTag + 1 }) ⟨rfl, rfl, rfl, rfl⟩ (transmitted_transmit ..).keepsLaunches
theorem keepsLaunches_tellMembers (s : State) (p : Nat) (what : List Nat) : KeepsLaunches s (s.tellMembers p what) :=
  .foldl (fun s m => keepsLaunches_sendControl s p m what) _ s

/-- The state in which the way to a place ends. -/
def DispReach.Keeps (s : State) : DispReach → Prop
  | .place _ _ t => KeepsLaunches s t
  | .fault _ => True
  | .later _ t => KeepsLaunches s t

section
variable {s : State} (tenant part : Nat) (acc : Acc) (va : Word)

theorem keeps_dispPlace {r : Resolved} (hr : ∀ p t, r = .ok (p, t) → KeepsLaunches s t) : (s.dispPlace tenant acc va r).Keeps s := by
  unfold State.dispPlace
  split
  · trivial
  · exact KeepsLaunches.refl s
  · exact KeepsLaunches.refl s
  · trivial
  · next pa c t =>
    have ht := hr _ _ rfl
    split
    · exact ht
    · trivial
    · next u hu =>
      refine ht.trans ?_
      simp only [State.hostGate] at hu
      split at hu
      · cases hu
      · split at hu
        · cases hu
        · split at hu <;> cases hu
          exact keepsLaunches_askPage ..
theorem keeps_dispReach : (s.dispReach tenant part acc va).Keeps s := by
  simp only [State.dispReach]
  split
  · trivial
  · split
    · exact keeps_dispPlace tenant acc va fun p t h => (leftByChecks_resolveScratch h).keepsLaunches
    · split
      · trivial
      · exact keeps_dispPlace tenant acc va fun p t h => (leftByChecks_settle h).keepsLaunches
theorem keeps_dispMemory : (s.dispMemory tenant part acc va).Keeps s := by
  have hreach := keeps_dispReach (s := s) tenant part acc va
  unfold State.dispMemory
  split
  · next h =>
    rw [h] at hreach
    split
    · trivial
    · exact hreach
  · exact hreach
end

theorem keepsLaunches_deviceWrite (s : State) (pa : Nat) (cached : Option (Nat × Nat)) (n x : Nat) :
    KeepsLaunches s (s.deviceWrite pa cached n x) := by
  unfold State.deviceWrite
  split
  · exact ((charged_meetLine s _ _).keepsLaunches.trans (leftByChecks_markDirty ..).keepsLaunches).trans (keepsLaunches_writeShared ..)
  · exact keepsLaunches_writeShared ..
/-- Whatever becomes of a write of LID or STS, launches and partitions stand. -/
theorem keepsLaunches_dispStore (s : State) (tenant part : Nat) (va : Word) (n x : Nat) :
    KeepsLaunches s (s.dispStore tenant part va n x) := by
  have hmem := keeps_dispMemory (s := s) tenant part .store va
  simp only [State.dispStore, State.dispWrite]
  cases h : s.dispMemory tenant part .store va with
  | fault t => exact keepsLaunches_faultMet s t
  | later w t =>
    rw [h] at hmem
    exact KeepsLaunches.trans hmem ⟨rfl, rfl, rfl, rfl⟩
  | place pa c t =>
    rw [h] at hmem
    exact KeepsLaunches.trans hmem (keepsLaunches_deviceWrite ..)

/-! ## Seals (R189, R192) -/

section
variable {s v : State} {pn qn h : Nat} (hpn : s.input.part = pn) (hqn : s.input.queue = qn) (hst : (s.queue pn qn).st = .sealwait)
  (hnext : (s.queue pn qn).nextRead ≤ s.time)
  (hdata : s.dispRead (s.part pn).tenant pn ((s.queue pn qn).slotVa (s.queue pn qn).head) 64 = .data h v)
include hpn hqn hst hnext hdata

theorem exec_sealRead_of_mismatch (hseal : h % 2 ^ 16 ≠ sealOf (s.queue pn qn).head) :
    exec .sealRead s = .next (v.setQueue pn qn { s.queue pn qn with
      firstRead := some ((s.queue pn qn).firstRead.getD v.time), nextRead := v.time + 256 }) := by
  subst hpn hqn
  show execSealRead s = _
  simp only [execSealRead, hst, Nat.not_lt.mpr hnext, hdata, bits_zero_low, ne_eq, hseal, not_false_eq_true, if_true]
  rfl

variable (hseal : h % 2 ^ 16 = sealOf (s.queue pn qn).head)
include hseal

theorem exec_sealRead_of_bad (hbad : headerBad h = true) : exec .sealRead s = .next (v.faultQueue pn qn fcodeBadPacket 0) := by
  subst hpn hqn
  show execSealRead s = _
  simp only [execSealRead, hst, Nat.not_lt.mpr hnext, hdata, bits_zero_low, ne_eq, hseal, not_true, if_false, hbad, if_true]
  rfl
theorem exec_sealRead_of_noop (hbad : headerBad h = false) (hop : headerNoop h = true) :
    exec .sealRead s = .next (v.setQueue pn qn (s.queue pn qn).consume.next) := by
  subst hpn hqn
  show execSealRead s = _
  simp only [execSealRead, hst, Nat.not_lt.mpr hnext, hdata, bits_zero_low, ne_eq, hseal, not_true, if_false, hbad, hop, if_true]
  rfl
theorem exec_sealRead_of_launch (hbad : headerBad h = false) (hop : headerNoop h = false) {x : Nat} {w : State}
    (hrec : v.readRecord (s.part pn).tenant pn ((s.queue pn qn).slotVa (s.queue pn qn).head + 64#64) = .data x w) :
    exec .sealRead s = .next (w.setQueue pn qn
      { s.queue pn qn with st := .depwait, record := BitVec.ofNat 1024 x, firstRead := none, nextRead := 0 }) := by
  subst hpn hqn
  show execSealRead s = _
  simp only [execSealRead, hst, Nat.not_lt.mpr hnext, hdata, bits_zero_low, ne_eq, hseal, not_true, if_false, hbad, hop, hrec]
  rfl
end

section
variable {s : State} {pn qn : Nat} (hpn : s.input.part = pn) (hqn : s.input.queue = qn)
include hpn hqn

theorem exec_dependencesSatisfied_of_queue (hlt : qn < 32) (hst : (s.queue pn qn).st = .depwait)
    (hdeps : (s.part pn).depsMet (s.queue pn qn).record = true) :
    exec .dependencesSatisfied s = .next (s.setQueue pn qn { s.queue pn qn with st := .headready }) := by
  subst hpn hqn
  show execDependencesSatisfied s = _
  simp only [execDependencesSatisfied, if_neg (Nat.ne_of_lt hlt), hst, hdeps]
  rfl
theorem exec_stalePacketTimeout_of_late {t : Nat} (hst : (s.queue pn qn).st = .sealwait) (hfirst : (s.queue pn qn).firstRead = some t)
    (hlate : t + 64000 ≤ s.time) : exec .stalePacketTimeout s = .next (s.faultQueue pn qn fcodeStale 0) := by
  subst hpn hqn
  show execStalePacketTimeout s = _
  simp only [execStalePacketTimeout, hfirst, hst, hlate]
  rfl

/-! ## Kicks and queue control (R190, R191) -/

theorem onQueue_of_answering (hlive : (s.part pn).live = true) (hans : s.answers (s.part pn).tenant = true) (hlt : qn < 32)
    (f : State → Nat → Nat → State) : s.onQueue f = .next (f s pn qn) := by
  subst hpn hqn
  simp only [State.onQueue, hlive, hans, hlt, decide_true, Bool.and_self, if_true]
end

section
variable {s : State} {p qn : Nat} {v : Word}

theorem kick_of_bad (h : ¬(0 < v.toNat ∧ v.toNat ≤ (s.queue p qn).size ∧ v.toNat < 2 ^ 13 ∧ (s.queue p qn).st ≠ .off)) :
    s.kick p qn v = s.setQueue p qn (s.queue p qn).bad := by
  refine if_pos ?_
  by_contra hn
  simp only [not_or] at hn
  obtain ⟨hbig, hzero, hsize, hoff⟩ := hn
  exact h ⟨Nat.pos_of_ne_zero hzero, Nat.not_lt.mp hsize, Nat.not_le.mp hbig, hoff⟩

variable (hgood : 0 < v.toNat ∧ v.toNat ≤ (s.queue p qn).size ∧ v.toNat < 2 ^ 13 ∧ (s.queue p qn).st ≠ .off)
  (hfrozen : (s.queue p qn).st ≠ .frozen)
include hgood hfrozen

/-- A kick whose value passes R191's checks, on a queue that is not frozen, is refused no more. -/
theorem kick_of_good : s.kick p qn v =
    if (s.queue p qn).size < (s.queue p qn).pend + v.toNat then s.faultQueue p qn fcodeOverflow 0
    else s.setQueue p qn (if (s.queue p qn).st == .idle then { s.queue p qn with pend := (s.queue p qn).pend + v.toNat }.next
      else { s.queue p qn with pend := (s.queue p qn).pend + v.toNat }) := by
  obtain ⟨hpos, hsize, hbig, hoff⟩ := hgood
  have hn : ¬(2 ^ 13 ≤ v.toNat ∨ v.toNat = 0 ∨ (s.queue p qn).size < v.toNat ∨ (s.queue p qn).st = .off) := by
    simp only [not_or]
    exact ⟨Nat.not_le.mpr hbig, Nat.ne_of_gt hpos, Nat.not_lt.mpr hsize, hoff⟩
  simp only [State.kick, if_neg hn, beq_eq_false_iff_ne.mpr hfrozen, Bool.false_eq_true, if_false]
theorem kick_of_overflow (h : (s.queue p qn).size < (s.queue p qn).pend + v.toNat) :
    s.kick p qn v = s.faultQueue p qn fcodeOverflow 0 := by
  rw [kick_of_good hgood hfrozen, if_pos h]
theorem kick_of_room (h : (s.queue p qn).pend + v.toNat ≤ (s.queue p qn).size) :
    s.kick p qn v = s.setQueue p qn (if (s.queue p qn).st = .idle then { s.queue p qn with pend := (s.queue p qn).pend + v.toNat }.next
      else { s.queue p qn with pend := (s.queue p qn).pend + v.toNat }) := by
  rw [kick_of_good hgood hfrozen, if_neg (Nat.not_lt.mpr h)]
  simp only [beq_iff_eq]
end

theorem control_resume_of_faulted {q : Queue} (h : q.st = .faulted) : q.control 1#64 = { q.next with fcode := 0#4 } :=
  if_pos (beq_iff_eq.mpr h)
theorem control_resume_of_other {q : Queue} (h : q.st ≠ .faulted) : q.control 1#64 = q.bad := if_neg (mt beq_iff_eq.mp h)
/-- A QCTL write of `w`, with its bit set, goes to the queue that answers. -/
theorem control_of_bit {s : State} {pn qn : Nat} (hpn : s.input.part = pn) (hqn : s.input.queue = qn) (hlive : (s.part pn).live = true)
    (hans : s.answers (s.part pn).tenant = true) (hlt : qn < 32) {w : Word} (hw : s.input.value = w) {bit : Nat}
    (hbit : w.getLsbD bit = true) {x : Queue} (hx : (s.queue pn qn).control w = x) : s.control bit = .next (s.setQueue pn qn x) := by
  subst hw hx
  rw [State.control, onQueue_of_answering hpn hqn hlive hans hlt, hbit]
  rfl

/-! ## Selection (R193, R196) -/

/-- The launch that the head of a host queue becomes. -/
def State.headLaunch (s : State) (p k : Nat) : Launch :=
  let q := s.queue p k
  let r := setPrio q.record q.qprio
  { part := p, tenant := (s.part p).tenant, queue := k, record := r, indirect := false, addr := q.slotVa q.head + 64#64
    slotAddr := some (q.slotVa q.head), prio := q.qprio, ch := recDone r, lid := (s.part p).lnextOf (recDone r) + 1#32
    count := (recCount r).extractLsb' 0 32, wdtUs := q.wdtUs, wdtQueue := k }

section
variable (s : State) (p k : Nat)

theorem part_setQueue (x : Queue) : (s.setQueue p k x).part p = { s.part p with queues := (s.part p).queues.set k x } :=
  State.part_setPart_self ..
theorem part_enrol (l : Launch) : (s.enrol p l).1.part p = { s.part p with lnext := (s.part p).lnext.set l.ch l.lid } :=
  State.part_setPart_self ..

theorem keepsLaunches_selectQueue : KeepsLaunches
    ((s.enrol p (s.headLaunch p k)).1.setQueue p k { (s.queue p k).consume with st := .binding, binding := s.nextLaunch })
    (s.selectQueue p k) := keepsLaunches_dispStore ..
theorem launch?_selectQueue : ∃ awaits, (s.selectQueue p k).launch? s.nextLaunch = some { s.headLaunch p k with awaits := awaits } :=
  ⟨_, ((keepsLaunches_selectQueue s p k).launch?_eq _).trans ((FMap.find?_set ..).trans (if_pos rfl))⟩
theorem nextLaunch_selectQueue : (s.selectQueue p k).nextLaunch = s.nextLaunch + 1 := by
  obtain ⟨-, hnext, -⟩ := keepsLaunches_selectQueue s p k
  exact hnext
theorem part_selectQueue : (s.selectQueue p k).part p =
    { s.part p with
      lnext := (s.part p).lnext.set (s.headLaunch p k).ch (s.headLaunch p k).lid
      queues := (s.part p).queues.set k { (s.queue p k).consume with st := .binding, binding := s.nextLaunch } } := by
  rw [(keepsLaunches_selectQueue s p k).part_eq, part_setQueue, part_enrol]
end

/-- The dispatcher has taken candidate `k`, and selects no other for 4 ns (R196). -/
def State.turned (s : State) (p k prio : Nat) : State :=
  s.setPart p { s.part p with lastSel := (s.part p).lastSel.set prio k, nextSelect := s.time + 4 }
theorem part_turned (s : State) (p k prio : Nat) :
    (s.turned p k prio).part p = { s.part p with lastSel := (s.part p).lastSel.set prio k, nextSelect := s.time + 4 } :=
  State.part_setPart_self ..

theorem exec_dispatcherSelection_of_queue {s : State} {p k prio : Nat} (hp : s.input.part = p) (hlive : (s.part p).live = true)
    (hfrozen : (s.part p).frozen = false) (hgang : (s.part p).gang = .running) (hnext : (s.part p).nextSelect ≤ s.time)
    (hchoose : choose (s.part p).lastSel (s.candidates p) = some (k, prio)) (hk : k < 32) :
    exec .dispatcherSelection s = .next ((s.turned p k prio).selectQueue p k) := by
  have h33 : k ≠ 33 := by omega
  have h32 : k ≠ 32 := by omega
  subst hp
  show execDispatcherSelection s = _
  refine (if_neg ?_).trans ?_
  · simp only [hlive, hfrozen, hgang, Nat.not_lt.mpr hnext]
    decide
  · simp only [hchoose, if_neg h33, if_neg h32]
    rfl

/-! ## Posting and rejection (R150, R154) -/

theorem FMap.find?_erase_self {α : Type} (m : FMap α) (k : Nat) : (m.erase k).find? k = none := by
  rw [FMap.find?, FMap.erase, entryGet_filter (fun j => j != k)]
  simp

section
variable (s : State) (n : Nat) (l : Launch)

theorem launches_settleSpan : (s.settleSpan l).launches = s.launches := by
  unfold State.settleSpan
  split <;> rfl
theorem launches_leaveBinding : (s.leaveBinding n l).launches = s.launches := by
  unfold State.leaveBinding
  split <;> rfl

/-- The status is in the launch's slot, or waits to be written there. -/
def State.stsWritten (s : State) (l : Launch) (sts : Nat) : State :=
  match l.slotAddr with
  | some a => s.dispStore l.tenant l.part (a + 3#64) 1 sts
  | none => s
theorem keepsLaunches_stsWritten (sts : Nat) : KeepsLaunches s (s.stsWritten l sts) := by
  unfold State.stsWritten
  split
  · exact keepsLaunches_dispStore ..
  · exact .refl s
/-- The status is written, and the launch is gone. -/
def State.unposted (s : State) (n : Nat) (l : Launch) (sts : Nat) : State :=
  State.settleSpan { s.stsWritten l sts with launches := (s.stsWritten l sts).launches.erase n } l
theorem launches_unposted (sts : Nat) : (s.unposted n l sts).launches = s.launches.erase n := by
  rw [State.unposted, launches_settleSpan, (keepsLaunches_stsWritten s l sts).1]

theorem postLaunch_of_own (sts : Nat) (h : l.origin = none) : s.postLaunch n l sts =
    (s.unposted n l sts).setPart l.part (((s.unposted n l sts).part l.part).postDone l.ch l.lid) := by
  simp only [State.postLaunch, h]
  rfl
theorem postLaunch_of_origin (sts : Nat) {m : Nat} (h : l.origin = some m) :
    ∃ what, s.postLaunch n l sts = (s.unposted n l sts).tellMember l.part m what := by
  simp only [State.postLaunch, h]
  exact ⟨_, rfl⟩
theorem launch?_postLaunch (sts : Nat) : (s.postLaunch n l sts).launch? n = none := by
  have hgone : (s.unposted n l sts).launch? n = none := by
    rw [State.launch?, launches_unposted]
    exact FMap.find?_erase_self ..
  cases h : l.origin with
  | none =>
    rw [postLaunch_of_own s n l sts h]
    exact hgone
  | some m =>
    obtain ⟨what, hwhat⟩ := postLaunch_of_origin s n l sts h
    rw [hwhat]
    exact ((keepsLaunches_sendControl ..).launch?_eq n).trans hgone
end

theorem launch?_freezeTenant_of_none {s : State} {n : Nat} (h : s.launch? n = none) (t : Nat) : (s.freezeTenant t).launch? n = none := by
  unfold State.freezeTenant
  split
  · exact h
  · refine (FMap.find?_mapValues ..).trans ?_
    rw [show s.launches.find? n = none from h]
    rfl
theorem launch?_report (s : State) (r : Report) (n : Nat) : (s.report r).launch? n = s.launch? n := by
  rw [report_eq]; rfl
/-- A rejected launch is gone, whatever its cause. -/
theorem launch?_reject (s : State) (n : Nat) (l : Launch) (t : TrapInfo) : (s.reject n l t).launch? n = none := by
  have hposted := launch?_postLaunch (s.leaveBinding n l) n l 5
  have hmet {u : State} (hu : u.launch? n = none) : (u.faultMet t).launch? n = none :=
    ((keepsLaunches_faultMet u t).launch?_eq n).trans hu
  have htold (c : Bool) {u : State} (hu : u.launch? n = none) (what : List Nat) :
      (if c then u.tellMembers l.part what else u).launch? n = none := by
    cases c with
    | false => exact hu
    | true => exact ((keepsLaunches_tellMembers ..).launch?_eq n).trans hu
  simp only [State.reject, State.dispReport, launch?_report]
  split
  · exact launch?_freezeTenant_of_none (hmet (htold _ hposted _)) _
  · exact hmet (htold _ hposted _)

/-! ## Binding (R150–R153) -/

theorem keepsLaunches_forceWriteBack (s : State) (line : Nat) : KeepsLaunches s (s.forceWriteBack line) := by
  unfold State.forceWriteBack
  split
  · split
    · exact .refl s
    · exact ⟨rfl, rfl, rfl, rfl⟩
  · exact .refl s
theorem keepsLaunches_writeBackSlices (s : State) (here : Nat → Bool) : KeepsLaunches s (s.writeBackSlices here true) :=
  .foldl (fun s _ => keepsLaunches_forceWriteBack s _) _ s
theorem keepsLaunches_resizeL2 (s : State) (site s2 : Nat) : KeepsLaunches s (s.resizeL2 site s2) := by
  simp only [State.resizeL2]
  split
  · exact .refl s
  · exact (keepsLaunches_writeBackSlices s _).trans ⟨rfl, rfl, rfl, rfl⟩
theorem keepsLaunches_beginHosting (s : State) (site : Nat) : KeepsLaunches s (s.beginHosting site) := ⟨rfl, rfl, rfl, rfl⟩
theorem launches_tellBound (s : State) (l : Launch) : (s.tellBound l).launches = s.launches := by
  unfold State.tellBound
  split
  · rfl
  · exact (keepsLaunches_sendControl ..).1
  · split
    · exact (keepsLaunches_tellMembers ..).1
    · rfl

/-- What binding by a plan fixes of a launch. -/
def Launch.boundBy (l : Launch) (x : Plan) (own now : Nat) : Launch :=
  { l with
    bound := true, cids := x.cids, coreSet := x.coreSet, remote := x.remote, groups := x.groups.map fun g => g.planted own x.cids
    toWake := x.coreSet.foldl (fun t i => setInsert i t) [], since := some now, usedNs := 0 }

theorem launch?_bind (s : State) (n : Nat) (l : Launch) (x : Plan) :
    (s.bind n l x).launch? n = some (l.boundBy x (s.ownModule l.part) s.time) := by
  have hresized : KeepsLaunches s ((s.planSites x).foldl (fun s t => s.resizeL2 t (recL2sh l.record * 2 ^ 19)) s) :=
    .foldl (fun s _ => keepsLaunches_resizeL2 s _ _) _ s
  simp only [State.bind, State.launch?, launches_tellBound, launches_settleSpan, launches_leaveBinding, hresized.ownModule_eq,
    hresized.time_eq]
  rw [(KeepsLaunches.foldl keepsLaunches_beginHosting _ _).1]
  exact (FMap.find?_set ..).trans (if_pos rfl)

section
variable {s : State} {n : Nat} {l : Launch} (hn : s.input.launch = n) (hl : s.launch? n = some l) (hb : l.bound = false)
  (hmay : s.mayBind l = true)
include hn hl hb hmay

theorem exec_launchBinding_of_plan {x : Plan} {v : State} (hj : s.judge l = .plan x v) (hlost : v.lostMember l x = false)
    (hready : v.spanReady l x = true) (hfirst : v.bindsFirst l = true) (hfits : v.fits l x = true) :
    exec .launchBinding s = .next (v.bind n l x) := by
  have hspan : (v.isSpan l x.remote && l.spanSeq.isNone) = false := by
    cases hseq : l.spanSeq with
    | some k => rw [Option.isNone_some, Bool.and_false]
    | none =>
      simp only [State.spanReady, hseq, Bool.or_false, Bool.not_eq_true'] at hready
      rw [hready, Bool.false_and]
  subst hn
  show execLaunchBinding s = _
  simp only [execLaunchBinding, hl, hb, hmay, hj, hspan, hlost, hready, hfirst, hfits]
  rfl
theorem exec_launchBinding_of_bad {t : TrapInfo} (hj : s.judge l = .bad t) (hsts : s.stsWaits l = none) :
    exec .launchBinding s = .next (s.reject n l t) := by
  subst hn
  show execLaunchBinding s = _
  simp only [execLaunchBinding, hl, hb, hmay, hj, hsts]
  rfl
end

theorem judge_of_recordBad (s : State) {l : Launch} (h : recordBad l = true) : s.judge l = .bad illegalInfo := by
  rw [State.judge, if_pos h]

/-! ## The wake flood (R143, R152) -/

theorem strand_openCarve (s : State) (n core slot size k : Nat) : (s.openCarve n core slot size).strand k = s.strand k := by
  unfold State.openCarve
  split <;> rfl
theorem strandOf_inj {core i j : Nat} : strandOf core i = strandOf core j ↔ i = j := by simp only [strandOf, Nat.add_left_cancel_iff]

/-- One strand of a flood starts. -/
def State.startOne (s : State) (n : Nat) (l : Launch) (core cid : Nat) (e : Nat × Nat) : State :=
  (s.openCarve n core e.1 (recSpill l.record)).birth core e.1 (launchStrand (s.part l.part) n l core e.1 e.2 cid)

section
variable (n : Nat) (l : Launch) (core cid : Nat)

theorem strand_startOne (s : State) (e : Nat × Nat) (k : Nat) : (s.startOne n l core cid e).strand k =
    if k = strandOf core e.1 then launchStrand (s.part l.part) n l core e.1 e.2 cid else s.strand k := by
  rw [State.startOne, strand_birth, strand_openCarve]
theorem strand_foldl_startOne_ne (es : List (Nat × Nat)) (s : State) {slot : Nat} (h : slot ∉ es.map (·.1)) :
    (es.foldl (fun s e => s.startOne n l core cid e) s).strand (strandOf core slot) = s.strand (strandOf core slot) := by
  induction es generalizing s with
  | nil => rfl
  | cons e es ih =>
    simp only [List.map_cons, List.mem_cons, not_or] at h
    obtain ⟨hne, hrest⟩ := h
    rw [List.foldl_cons, ih _ hrest, strand_startOne, if_neg (mt strandOf_inj.mp hne)]
/-- Strands that start in different slots all stand as they were born. -/
theorem strand_foldl_startOne_mem (es : List (Nat × Nat)) (s : State) {slot i : Nat} (hnodup : (es.map (·.1)).Nodup)
    (hmem : (slot, i) ∈ es) :
    ∃ p, (es.foldl (fun s e => s.startOne n l core cid e) s).strand (strandOf core slot) = launchStrand p n l core slot i cid := by
  induction es generalizing s with
  | nil => cases hmem
  | cons e es ih =>
    obtain ⟨hnot, hnodup⟩ := List.nodup_cons.mp hnodup
    rw [List.foldl_cons]
    rcases List.mem_cons.mp hmem with rfl | hmem
    · refine ⟨s.part l.part, ?_⟩
      rw [strand_foldl_startOne_ne n l core cid es _ hnot, strand_startOne, if_pos rfl]
    · exact ih _ hnodup hmem

theorem strand_startStrands (s : State) {slot i : Nat} (h : ((s.dormantSlots core).take (recSpc l.record))[i]? = some slot) :
    ∃ p, (s.startStrands n l core cid).strand (strandOf core slot) = launchStrand p n l core slot i cid := by
  refine strand_foldl_startOne_mem n l core cid _ s ?_ (List.mem_of_getElem? (i := i) ?_)
  · rw [List.map_fst_zip (by rw [List.length_range])]
    exact (List.nodup_range.filter _).sublist (List.take_sublist ..)
  · obtain ⟨hlt, -⟩ := List.getElem?_eq_some_iff.mp h
    exact List.getElem?_zip_eq_some.mpr ⟨h, List.getElem?_range hlt⟩
end

theorem exec_wakeFlood_of_room {s : State} {n cid core : Nat} {l : Launch} (hn : s.input.launch = n) (hcid : s.input.item = cid)
    (hl : s.launch? n = some l) (hcore : s.physCore? (l.cids.getD cid 0) = some core) (hmem : cid ∈ l.toWake) (hspan : l.spanUnbound = [])
    (hsaved : l.saved = false) (hruns : s.partRuns l.part = true) (hdead : s.deadSite (coreSite core) = false)
    (hroom : recSpc l.record ≤ (s.dormantSlots core).length) :
    exec .wakeFlood s = .next (State.setLaunch (s.startStrands n l core cid) n { l with toWake := setRemove cid l.toWake }) := by
  have hwake : l.toWake.contains cid = true := List.contains_iff_mem.mpr hmem
  subst hn hcid
  show execWakeFlood s = _
  simp only [execWakeFlood, hl, hcore, hwake, hspan, hsaved, hruns, hdead, Nat.not_lt.mpr hroom]
  rfl

/-- A strand is born with the stack window in g14 and zero in every other register. -/
theorem readG_launchStrand (p : Partition) (n : Nat) (l : Launch) (core slot i cid : Nat) (r : Reg) :
    (launchStrand p n l core slot i cid).regs.readG r = if r = 14#4 then 0x01FE000000000000#64 else 0#64 := by
  have h : ∀ r : Reg, ({ g := ⟨[(14, swin)]⟩ } : RegFile).readG r = if r = 14#4 then swin else 0#64 := by decide
  exact h r
theorem full_launchStrand (p : Partition) (n : Nat) (l : Launch) (core slot i cid : Nat) (r : Reg) :
    (launchStrand p n l core slot i cid).regs.fullV r = true ∧ (launchStrand p n l core slot i cid).regs.fullG r = true := by
  have h : ∀ r : Reg, ({ g := ⟨[(14, swin)]⟩ } : RegFile).fullV r = true ∧ ({ g := ⟨[(14, swin)]⟩ } : RegFile).fullG r = true := by decide
  exact h r

/-! ## Completion (R154, R193) -/

theorem keepsLaunches_pushMessage (s : State) (m : Message) : KeepsLaunches s (s.pushMessage m) :=
  KeepsLaunches.trans (t := { s with messages := s.messages ++ [m] }) ⟨rfl, rfl, rfl, rfl⟩ (transmitted_pushMessage s m).keepsLaunches
theorem keepsLaunches_clearMailboxes (s : State) (n : Nat) : KeepsLaunches s (s.clearMailboxes n) := by
  refine .foldl (fun s c => ?_) _ s
  have hsent := KeepsLaunches.foldl (fun s (e : Nat × Mailbox) =>
    KeepsLaunches.foldl (fun s (w : Nat × Message) => keepsLaunches_pushMessage s (w.2.back 2#4)) e.2.waiting s)
    ((s.core c).mboxes.entries.filter fun e => e.2.launch == n) s
  simp only
  split
  · exact hsent
  · exact hsent.trans ⟨rfl, rfl, rfl, rfl⟩

theorem exec_launchCompletion_of_done {s : State} {n : Nat} {l : Launch} (hn : s.input.launch = n) (hl : s.launch? n = some l)
    (hb : l.bound = true) (hsaved : l.saved = false) (hruns : s.partRuns l.part = true) (hexp : l.expired s.time = false)
    (hlives : s.launchLives n l = false) (hspan : l.spanLeft = []) (hsts : s.stsWaits l = none) :
    exec .launchCompletion s = .next (((s.clearMailboxes n).releaseLaunch n).postLaunch n l l.sts.toNat) := by
  subst hn
  show execLaunchCompletion s = _
  simp only [execLaunchCompletion, hl, hb, hsaved, hruns, hexp, hlives, hspan, hsts]
  rfl

/-- A launch of this module alone is posted on its own channel. -/
theorem part_postLaunch_of_own (s : State) (n : Nat) {l : Launch} (sts : Nat) (ho : l.origin = none) (hs : l.spanSeq = none) :
    (s.postLaunch n l sts).part l.part = (s.part l.part).postDone l.ch l.lid := by
  have hpart : (s.unposted n l sts).part l.part = s.part l.part := by
    simp only [State.unposted, State.settleSpan, hs]
    exact (keepsLaunches_stsWritten s l sts).part_eq l.part
  rw [postLaunch_of_own s n l sts ho, State.part_setPart_self, hpart]

theorem doneKey_inj {ch : Nat} {i j : BitVec 32} : doneKey ch i = doneKey ch j ↔ i = j := by
  rw [doneKey, doneKey, Nat.add_left_cancel_iff, BitVec.toNat_inj]
theorem advanceDone_of_open {ch : Nat} {d : BitVec 32} {e : NatSet} (h : doneKey ch (d + 1#32) ∉ e) (fuel : Nat) :
    (advanceDone ch fuel d e).1 = d := by
  cases fuel with
  | zero => rfl
  | succ fuel => rw [advanceDone, if_neg (mt List.contains_iff_mem.mp h)]

section
variable (p : Partition) (ch : Nat) {i : BitVec 32}

theorem ldone_postDone : (p.postDone ch i).ldone.getD ch 0#32 =
    (advanceDone ch (setInsert (doneKey ch i) p.early).length (p.ldoneOf ch) (setInsert (doneKey ch i) p.early)).1 := FMap.getD_set_self ..

/-- LDONE rises over the next identifier, where the one after it has not completed. -/
theorem ldone_postDone_next (hi : i = p.ldoneOf ch + 1#32) (hopen : doneKey ch (i + 1#32) ∉ p.early) :
    (p.postDone ch i).ldone.getD ch 0#32 = i := by
  have hmem : doneKey ch i ∈ setInsert (doneKey ch i) p.early := (mem_setInsert ..).mpr (.inl rfl)
  have hopen' : doneKey ch (i + 1#32) ∉ setRemove (doneKey ch i) (setInsert (doneKey ch i) p.early) := by
    rw [mem_setRemove, mem_setInsert]
    rintro ⟨hne, h | h⟩
    · exact hne h
    · exact hopen h
  obtain ⟨fuel, hfuel⟩ := Nat.exists_eq_add_one.mpr (List.length_pos_of_mem hmem)
  rw [ldone_postDone, hfuel, advanceDone, ← hi, if_pos (List.contains_iff_mem.mpr hmem)]
  exact advanceDone_of_open hopen' fuel
/-- LDONE stays while an older identifier has not completed. -/
theorem ldone_postDone_early (hi : i ≠ p.ldoneOf ch + 1#32) (hopen : doneKey ch (p.ldoneOf ch + 1#32) ∉ p.early) :
    (p.postDone ch i).ldone.getD ch 0#32 = p.ldoneOf ch := by
  rw [ldone_postDone]
  refine advanceDone_of_open (fun h => ?_) _
  rcases (mem_setInsert ..).mp h with h | h
  · exact hi (doneKey_inj.mp h).symm
  · exact hopen h
end

/-! ## The obligation -/

/-- Settles O37: each clause by the lemma on that event; the dispatcher's own accesses keep launches and partitions. -/
theorem queuesAndDispatchComplete : Obligations.QueuesAndDispatchComplete := by
  refine ⟨fun s pn qn hpn hqn => ?_, fun s n => ⟨?_, ?_, ?_, ?_, fun p ch i => ⟨fun hi hopen => ?_, fun hi hopen => ?_⟩⟩⟩
  · intro part q set idles
    refine ⟨fun h v hst hnext => ?_, exec_dependencesSatisfied_of_queue hpn hqn, fun t => exec_stalePacketTimeout_of_late hpn hqn,
      fun hlive hans hlt => ?_⟩
    · intro slot hdata
      refine ⟨exec_sealRead_of_mismatch hpn hqn hst hnext hdata, fun hseal => ⟨exec_sealRead_of_bad hpn hqn hst hnext hdata hseal,
        fun hbad hop => ?_, fun x w hbad hop => ?_⟩⟩
      · exact exec_sealRead_of_noop hpn hqn hst hnext hdata hseal hbad (beq_iff_eq.mpr hop)
      · exact exec_sealRead_of_launch hpn hqn hst hnext hdata hseal hbad (by rw [headerNoop, hop]; rfl)
    · have hkick : exec .kick s = .next (s.kick pn qn s.input.value) :=
        onQueue_of_answering hpn hqn hlive hans hlt fun s p q => s.kick p q s.input.value
      refine ⟨fun hbad => hkick.trans (congrArg _ (kick_of_bad hbad)),
        fun hgood hfrozen hover => hkick.trans (congrArg _ (kick_of_overflow hgood hfrozen hover)),
        fun hgood hfrozen hroom => hkick.trans (congrArg _ (kick_of_room hgood hfrozen hroom)),
        fun hv hst => control_of_bit hpn hqn hlive hans hlt hv (bit := 0) rfl (control_resume_of_faulted hst),
        fun hv hst => control_of_bit hpn hqn hlive hans hlt hv (bit := 0) rfl (control_resume_of_other hst),
        fun hv => control_of_bit hpn hqn hlive hans hlt hv (bit := 1) rfl rfl,
        fun hv => control_of_bit hpn hqn hlive hans hlt hv (bit := 2) rfl rfl⟩
  · intro p k prio hp hlive hfrozen hgang hnext hchoose hk q
    have hpart := part_turned s p k prio
    obtain ⟨awaits, hlaunch⟩ := launch?_selectQueue (s.turned p k prio) p k
    refine ⟨_, _, exec_dispatcherSelection_of_queue hp hlive hfrozen hgang hnext hchoose hk, hlaunch, nextLaunch_selectQueue .., rfl, ?_, ?_,
      rfl, rfl, ?_, ?_, ?_, ?_⟩
    · exact (congrArg Partition.tenant hpart).trans rfl
    · exact (congrArg (fun x : Partition => (x.queues.getD k {}).qprio) hpart).trans rfl
    · exact (congrArg (fun x : Partition => x.lnext.getD _ 0#32 + 1#32) hpart).trans rfl
    · rw [part_selectQueue, State.queue, hpart]
      exact FMap.getD_set_self ..
    · rw [part_selectQueue, hpart]
    · rw [part_selectQueue]
      exact FMap.getD_set_self ..
  · intro l hn hl hb hmay
    refine ⟨fun x v hj hlost hready hfirst hfits => ⟨_, exec_launchBinding_of_plan hn hl hb hmay hj hlost hready hfirst hfits,
      launch?_bind v n l x⟩, fun t hj hsts => ⟨exec_launchBinding_of_bad hn hl hb hmay hj hsts, launch?_reject s n l t⟩, judge_of_recordBad s⟩
  · intro l core cid hn hcid hl hcore hmem hspan hsaved hruns hdead hroom
    refine ⟨_, exec_wakeFlood_of_room hn hcid hl hcore hmem hspan hsaved hruns hdead hroom, ?_, fun i slot hslot => ?_⟩
    · exact (FMap.find?_set ..).trans (if_pos rfl)
    · obtain ⟨p, hp⟩ := strand_startStrands n l core cid s hslot
      intro x
      have hx : x = launchStrand p n l core slot i cid := hp
      rw [hx]
      exact ⟨rfl, rfl, rfl, rfl, rfl, rfl, rfl, rfl, rfl, readG_launchStrand p n l core slot i cid,
        fun r => ⟨rfl, full_launchStrand p n l core slot i cid r⟩⟩
  · intro l hn hl hb hsaved hruns hexp hlives hspan hsts ho hs
    refine ⟨_, exec_launchCompletion_of_done hn hl hb hsaved hruns hexp hlives hspan hsts, launch?_postLaunch .., ?_⟩
    rw [part_postLaunch_of_own _ n _ ho hs]
    exact congrArg (·.postDone l.ch l.lid) ((keepsLaunches_clearMailboxes s n).part_eq l.part)
  · exact ldone_postDone_next p ch hi (by simpa [doneKey] using hopen)
  · exact ldone_postDone_early p ch hi (by simpa [doneKey, Partition.ldoneOf] using hopen)

end Sys2Proof.Machine
end

section
/-! SUPPORT. The division of a node's tokens among its children (08 R205, R206). -/

namespace Sys2Proof.Machine

/-! ## Sums -/

theorem natSum_eq_sum (xs : List Nat) : natSum xs = xs.sum := List.foldl_eq_foldr.trans rfl

/-- Quotients add up to no more than the quotient of the sum. -/
theorem sum_map_mul_div_le (r w : Nat) (xs : List Nat) : (xs.map fun x => r * x / w).sum ≤ r * xs.sum / w := by
  induction xs with
  | nil => simp
  | cons x xs ih =>
    rw [List.map_cons, List.sum_cons, List.sum_cons, Nat.mul_add]
    exact (Nat.add_le_add_left ih _).trans (Nat.div_add_div_le_add_div ..)

theorem sum_zipWith_min_le (xs : List Nat) (cs : List (Nat × Nat)) : (xs.zipWith (fun g c => min g c.2) cs).sum ≤ xs.sum := by
  induction xs generalizing cs with
  | nil => simp
  | cons x xs ih =>
    cases cs with
    | nil => simp
    | cons c cs => exact Nat.add_le_add (Nat.min_le_left ..) (ih cs)

/-! ## What is left over goes out token by token (R206) -/

theorem length_shareLeft (left : Nat) (gr : List (Nat × Nat)) : (shareLeft left gr).length = gr.length := by
  induction gr generalizing left with
  | nil => rfl
  | cons c gr ih =>
    rw [shareLeft]
    split <;> simp [ih]

theorem sum_shareLeft_le (left : Nat) (gr : List (Nat × Nat)) : (shareLeft left gr).sum ≤ (gr.map (·.1)).sum + left := by
  induction gr generalizing left with
  | nil => simp [shareLeft]
  | cons c gr ih =>
    rw [shareLeft]
    split
    · have := ih (left - 1)
      simp only [List.sum_cons, List.map_cons]
      omega
    · have := ih left
      simp only [List.sum_cons, List.map_cons]
      omega

/-- Each child keeps what it had. -/
theorem le_shareLeft_getElem {left : Nat} {gr : List (Nat × Nat)} {i : Nat} {c : Nat × Nat} (h : gr[i]? = some c) :
    ∃ g, (shareLeft left gr)[i]? = some g ∧ c.1 ≤ g := by
  induction gr generalizing left i with
  | nil => simp at h
  | cons d gr ih =>
    rw [shareLeft]
    cases i with
    | zero =>
      obtain rfl : d = c := by simpa using h
      split
      · exact ⟨_, rfl, Nat.le_succ _⟩
      · exact ⟨_, rfl, Nat.le_refl _⟩
    | succ i =>
      have h : gr[i]? = some c := by simpa using h
      split
      · exact ih h
      · exact ih h

/-! ## The division (R206) -/

/-- Where some child wants more than its floor, the floors and the shares of the rest fit into what is available. -/
theorem sum_shares_le {avail : Nat} {cs : List (Nat × Nat)} (hfit : (cs.map (·.1)).sum ≤ avail) :
    (cs.map fun c => c.1 + (avail - (cs.map (·.1)).sum) * (c.2 - c.1) / (cs.map fun c => c.2 - c.1).sum).sum ≤ avail := by
  set floors := (cs.map (·.1)).sum
  set want := (cs.map fun c => c.2 - c.1).sum with hwant
  have hsplit : (cs.map fun c => c.1 + (avail - floors) * (c.2 - c.1) / want).sum =
      floors + (cs.map fun c => (avail - floors) * (c.2 - c.1) / want).sum := List.sum_map_add
  have hshares := sum_map_mul_div_le (avail - floors) want (cs.map fun c => c.2 - c.1)
  rw [List.map_map, ← hwant] at hshares
  have hrest : (avail - floors) * want / want ≤ avail - floors := Nat.div_le_of_le_mul (Nat.mul_comm .. ▸ Nat.le_refl _)
  have : (cs.map fun c => (avail - floors) * (c.2 - c.1) / want).sum ≤ avail - floors := hshares.trans hrest
  omega

/-- A child with its demand, or its floor where that is larger. -/
def asksFor (c : Nat × Nat) : Nat × Nat := (c.1, max c.2 c.1)

/-- No child wants more than its floor: each gets it. -/
theorem divide_of_no_want {avail : Nat} {cs : List (Nat × Nat)} (h : natSum ((cs.map asksFor).map fun c => c.2 - c.1) = 0) :
    divide avail cs = cs.map (·.1) := by
  refine (if_pos h).trans ?_
  rw [List.map_map]
  exact List.map_congr_left fun c _ => Nat.min_eq_left (Nat.le_max_right c.2 c.1)

/-- Some child wants more than its floor: floors and shares of the rest, what is left token by token, and no more than was asked for. -/
theorem divide_of_want {avail : Nat} {cs : List (Nat × Nat)} (h : natSum ((cs.map asksFor).map fun c => c.2 - c.1) ≠ 0) :
    ∃ (left : Nat) (gr : List (Nat × Nat)), divide avail cs = (shareLeft left gr).zipWith (fun g c => min g c.2) (cs.map asksFor) ∧ gr.length = cs.length ∧
      (natSum (cs.map (·.1)) ≤ avail → (gr.map (·.1)).sum + left ≤ avail) ∧
      ∀ (i : Nat) (c : Nat × Nat), cs[i]? = some c → ∃ d, gr[i]? = some d ∧ c.1 ≤ d.1 := by
  refine ⟨_, _, if_neg h, by simp, fun hfit => ?_, fun i c hi => ?_⟩
  · have hfloors : (cs.map asksFor).map (·.1) = cs.map (·.1) := List.map_map
    have hsum := sum_shares_le (cs := cs.map asksFor) (avail := avail) (by rwa [hfloors, ← natSum_eq_sum])
    simp only [natSum_eq_sum, List.map_map, Function.comp_def] at hsum ⊢
    exact (Nat.add_sub_cancel' hsum).le
  · exact ⟨_, by rw [List.getElem?_map, List.getElem?_map, hi]; rfl, Nat.le_add_right ..⟩

/-- Settles O44: the floors and the rounded shares of the rest leave what is handed out token by token, and no child is given more than
it asked for. -/
theorem divisionFitsThePool : Obligations.DivisionFitsThePool := by
  intro avail cs hfit
  by_cases hwant : natSum ((cs.map asksFor).map fun c => c.2 - c.1) = 0
  · rw [divide_of_no_want hwant]
    refine ⟨hfit, List.length_map _, fun i fl dm hi => ⟨fl, by simp [hi], Nat.le_refl fl, Nat.le_max_right dm fl⟩⟩
  · obtain ⟨left, gr, hdiv, hlen, hsum, hkeeps⟩ := divide_of_want (avail := avail) hwant
    rw [hdiv, natSum_eq_sum]
    refine ⟨?_, by simp [length_shareLeft, hlen], fun i fl dm hi => ?_⟩
    · exact (sum_zipWith_min_le ..).trans ((sum_shareLeft_le left gr).trans (hsum hfit))
    · obtain ⟨d, hd, hle⟩ := hkeeps i _ hi
      obtain ⟨g, hg, hle'⟩ := le_shareLeft_getElem (left := left) hd
      refine ⟨min g (max dm fl), by simp [List.getElem?_zipWith, hg, hi, asksFor], ?_, Nat.min_le_right ..⟩
      exact Nat.le_min.mpr ⟨hle.trans hle', Nat.le_max_right dm fl⟩

end Sys2Proof.Machine
end

section
/-! SUPPORT. PARTCTL: what each request's checks let through, and what its answer leaves (08 R185–R187, R192, 17 R413, 18 R422). -/

namespace Sys2Proof.Machine

/-! ## A check that fails, and one that lets through -/

theorem bnot_of_false {b : Bool} (h : b = false) : (!b) = true := by rw [h]; rfl
theorem not_bnot_of_true {b : Bool} (h : b = true) : ¬(!b) = true := by rw [h]; exact Bool.false_ne_true

/-! ## A request and its answer (R413) -/

/-- A request whose answer has come runs on the state without its grant, and puts its status into g[D]. -/
theorem partctl_of_granted {s t : State} {gr : Grant} {d : Reg} {f : State → State × Nat} {n : Nat} (ha : s.inAtelier = true)
    (hg : s.before.grant = some gr) (hf : f s.useGrant = (t, n)) : s.partctl d f = .next (t.setG d (BitVec.ofNat 64 n)) := by
  have hgrant : s.grant = some gr := hg
  rw [State.partctl, privileged_of_atelier ha, State.answered, hgrant]
  simp only [hf]

section
variable {u : State} {a b c : Word} {f : Nat → State × Nat}

theorem partNo_of_missing (h : ¬(a.toNat < 64 ∧ (u.part a.toNat).live = true)) : u.partNo a f = (u, 1) := by
  refine if_pos ((not_and_or.mp h).imp Nat.not_lt.mp fun hl => ?_)
  simpa using hl
theorem partNo_of_exists (h : a.toNat < 64 ∧ (u.part a.toNat).live = true) : u.partNo a f = f a.toNat := by
  obtain ⟨hlt, hl⟩ := h
  refine if_neg (not_or.mpr ⟨Nat.not_le.mpr hlt, ?_⟩)
  simp [hl]

/-! ## CREATE, RESIZE, DESTROY and FLOOR (R185, R186) -/

/-- What a CREATE asks of its operands: numbers in range, a partition number not in use, and zones that are free. -/
def State.Creatable (u : State) (p mask tenant : Word) : Prop :=
  p.toNat < 64 ∧ tenant.toNat < 64 ∧ (u.part p.toNat).live = false ∧ u.zonesFree mask none = true

theorem createPart_of_not_creatable (h : ¬u.Creatable a b c) : u.createPart a b c = (u, 1) := by
  refine if_pos ?_
  by_contra hno
  simp only [not_or, Nat.not_le, Bool.not_eq_true, Bool.not_eq_eq_eq_not, Bool.not_true] at hno
  obtain ⟨hp, ht, hl, hz⟩ := hno
  exact h ⟨hp, ht, hl, by simpa using hz⟩
theorem createPart_of_creatable (h : u.Creatable a b c) : u.createPart a b c =
    if u.floorOk a.toNat (presentIn u b) (presentIn u b) then
      ((u.joinZones (maskZones b)).setPart a.toNat
        { tenant := c.toNat, zones := b, live := true, floor := presentIn u b, frozen := u.frozen c.toNat }, 0)
    else (u, 3) := by
  obtain ⟨hp, ht, hl, hz⟩ := h
  refine (if_neg ?_).trans ?_
  · simp [hl, hz, hp, ht]
  · dsimp only
    cases u.floorOk a.toNat (presentIn u b) (presentIn u b) <;> rfl
end

theorem parts_touch (s : State) (pa : Nat) : (s.touch pa).parts = s.parts := by rw [onlyBytes_touch s pa]
theorem part_touch (s : State) (pa n : Nat) : (s.touch pa).part n = s.part n := by rw [State.part, parts_touch]; rfl

/-! ## Queues of a partition (R187, R192) -/

theorem bits_of_selector {x : Nat} (h : x < 2 ^ 11) : bits x 5 6 = x / 32 ∧ bits x 0 5 = x % 32 := by
  simp only [bits]
  omega

section
variable {u : State} {sel a tenant : Word}

theorem createQueue_of_unnamed (h : ¬(sel.toNat < 2 ^ 11 ∧ tenant.toNat < 64 ∧ (u.part (sel.toNat / 32)).live = true)) :
    u.createQueue sel a tenant = (u, 1) := by
  refine if_pos ?_
  by_cases hlt : sel.toNat < 2 ^ 11
  · obtain ⟨hp, -⟩ := bits_of_selector hlt
    rw [hp]
    refine .inr ((not_and_or.mp (not_and.mp h hlt)).imp Nat.not_lt.mp fun hl => ?_)
    simpa using hl
  · exact .inl (Nat.not_lt.mp hlt)

section
variable (h : sel.toNat < 2 ^ 11 ∧ tenant.toNat < 64 ∧ (u.part (sel.toNat / 32)).live = true)
include h

theorem createQueue_of_unreadable (hx : u.readDescriptor a = none) : u.createQueue sel a tenant = (u, 1) := by
  obtain ⟨hsel, hten, hlive⟩ := h
  obtain ⟨hp, -⟩ := bits_of_selector hsel
  refine (if_neg ?_).trans (by rw [hx]; rfl)
  rw [hp]
  simpa [hlive, hten] using hsel

/-- The queue that a descriptor's fields describe (R187). -/
def describedQueue (y : Nat) : Queue :=
  { st := .idle, base := BitVec.ofNat 64 (bits y 0 64), log2n := bits y 80 4, wdtUs := bits y 104 24
    qprio := BitVec.ofNat 3 (bits y 96 3) }

/-- A descriptor that has been read: its checks in their order, on the state whose frames its read has touched. -/
theorem createQueue_of_read {y : Nat} (hx : u.readDescriptor a = some y) :
    let w := (u.touch a.toNat).touch (a.toNat + 63)
    let part := u.part (sel.toNat / 32)
    u.createQueue sel a tenant =
      if badQueueDescriptor y (sel.toNat / 32) then (w, 1)
      else if (part.queues.getD (sel.toNat % 32) {}).st ≠ .off then (w, 2)
      else if part.tenant ≠ tenant.toNat then (w, 4)
      else (w.setQueue (sel.toNat / 32) (sel.toNat % 32)
        (if part.frozen then { describedQueue y with st := .frozen, prior := .idle } else describedQueue y), 0) := by
  intro w part
  obtain ⟨hsel, hten, hlive⟩ := h
  obtain ⟨hp, hq⟩ := bits_of_selector hsel
  have hpart : w.part (sel.toNat / 32) = part := by rw [part_touch, part_touch]
  refine (if_neg ?_).trans ?_
  · rw [hp]
    simpa [hlive, hten] using hsel
  · simp only [hx, hp, hq, State.queue, bne_iff_ne]
    rw [hpart]
    rfl
end
end

section
variable {u : State} {x : Nat}

theorem qdelete_of_live (hlt : x < 2 ^ 11) (hl : (u.part (x / 32)).live = true) :
    (if 2 ^ 11 ≤ x ∨ !(u.part (bits x 5 6)).live then u.refuse 1
      else (u.setQueue (bits x 5 6) (bits x 0 5) (u.queue (bits x 5 6) (bits x 0 5)).disable, 0)) =
      (u.setQueue (x / 32) (x % 32)
        { (u.part (x / 32)).queues.getD (x % 32) {} with st := .off, pend := 0, firstRead := none, nextRead := 0 }, 0) := by
  obtain ⟨hp, hq⟩ := bits_of_selector hlt
  rw [hp, hq]
  exact if_neg (not_or.mpr ⟨Nat.not_le.mpr hlt, not_bnot_of_true hl⟩)
theorem qdelete_of_missing (h : 2 ^ 11 ≤ x ∨ (u.part (x / 32)).live = false) :
    (if 2 ^ 11 ≤ x ∨ !(u.part (bits x 5 6)).live then u.refuse 1
      else (u.setQueue (bits x 5 6) (bits x 0 5) (u.queue (bits x 5 6) (bits x 0 5)).disable, 0)) = (u, 1) := by
  refine if_pos ?_
  by_cases hlt : 2 ^ 11 ≤ x
  · exact .inl hlt
  · obtain ⟨hp, -⟩ := bits_of_selector (Nat.not_le.mp hlt)
    rw [hp]
    exact .inr (bnot_of_false (h.resolve_left hlt))
end

/-! ## SETREG (R268, R304) -/

/-- The bits of a register's value that must be 0, and the register numbers that R413's table lacks. -/
def badRegister (r x : Nat) : Prop :=
  r = 0 ∧ (x / 2 ^ 52 ≠ 0 ∨ x % 2 ^ 12 ≠ 0) ∨ r = 1 ∧ x % 2 ^ 4 ≠ 0 ∨ r = 2 ∧ (x / 2 ^ 57 ≠ 0 ∨ x / 2 % 2 ^ 14 ≠ 0) ∨
    r = 3 ∧ (x / 2 ^ 57 ≠ 0 ∨ x % 2 ^ 12 ≠ 0) ∨ r = 4 ∧ (x / 2 ^ 32 ≠ 0 ∨ x % 2 ^ 12 ≠ 0) ∨
    r = 5 ∧ (x / 2 ^ 57 ≠ 0 ∨ x / 2 % 4 ≠ 0) ∨ 6 < r

theorem bits_upper (v : Word) {lo n : Nat} (h : lo + n = 64) : bits v.toNat lo n = v.toNat / 2 ^ lo := by
  refine Nat.mod_eq_of_lt (Nat.div_lt_of_lt_mul ?_)
  rw [← Nat.pow_add, h]
  exact v.isLt
theorem bits_lower (x n : Nat) : bits x 0 n = x % 2 ^ n := by simp [bits]

section
variable {u : State} {r n : Nat} {v : Word}

theorem setReg_of_bad (h : badRegister r v.toNat ∨ 2 ≤ r ∧ (u.part n).live = false) : u.setReg r n v = (u, 1) := by
  unfold State.setReg
  simp only [bits_upper v (lo := 52) (n := 12) rfl, bits_upper v (lo := 57) (n := 7) rfl, bits_upper v (lo := 32) (n := 32) rfl, bits_lower]
  rcases h with h | ⟨hr, hl⟩
  · rcases h with ⟨rfl, h⟩ | ⟨rfl, h⟩ | ⟨rfl, h⟩ | ⟨rfl, h⟩ | ⟨rfl, h⟩ | ⟨rfl, h⟩ | h
    · exact if_pos h
    · exact if_pos h
    · exact if_pos (.inl (by simpa [bits] using h))
    · exact if_pos (.inl (by simpa using h))
    · exact if_pos (.inl (by simpa using h))
    · exact if_pos (.inl h)
    · split
      all_goals first | omega | rfl
  · have hnot : (!(u.part n).live) = true := by rw [hl]; rfl
    split
    · omega
    · omega
    all_goals first | exact if_pos (.inr hnot) | rfl

/-- What a value that its register holds leaves (R268, R304). -/
theorem setReg_of_good (h : ¬badRegister r v.toNat) :
    (r = 0 → u.setReg r n v = (u.setModule { u.module with pgroot := v }, 0)) ∧
    (r = 1 → u.setReg r n v = (u.setTenant n { u.tenant n with ptroot := v }, 0)) ∧
    ((u.part n).live = true →
      (r = 2 → u.setReg r n v = (u.setPart n { u.part n with kvroot := v }, 0)) ∧
      (r = 3 → u.setReg r n v = (u.setPart n { u.part n with ovbase := v }, 0)) ∧
      (r = 4 → u.setReg r n v = (u.setPart n { u.part n with ovstr := v }, 0)) ∧
      (r = 5 → u.setReg r n v =
        if u.pinned (v &&& ~~~7#64) then (u.setPart n { u.part n with kvsh := v }, 0) else (u, 3)) ∧
      (r = 6 → u.setReg r n v = (u.setPart n { u.part n with kvsharg := v }, 0))) := by
  simp only [badRegister, not_or, not_and, ne_eq, Decidable.not_not] at h
  obtain ⟨h0, h1, h2, h3, h4, h5, -⟩ := h
  unfold State.setReg
  simp only [bits_upper v (lo := 52) (n := 12) rfl, bits_upper v (lo := 57) (n := 7) rfl, bits_upper v (lo := 32) (n := 32) rfl, bits_lower]
  refine ⟨?_, ?_, fun hl => ⟨?_, ?_, ?_, ?_, ?_⟩⟩
  all_goals rintro rfl
  · exact if_neg (by simpa using h0 rfl)
  · exact if_neg (by simpa using h1 rfl)
  · exact if_neg (by simpa [hl, bits] using h2 rfl)
  · exact if_neg (by simpa [hl] using h3 rfl)
  · exact if_neg (by simpa [hl] using h4 rfl)
  · refine (if_neg (by simpa [hl, bits] using h5 rfl)).trans ?_
    cases u.pinned (v &&& ~~~7#64) <;> rfl
  · exact if_neg (by simp [hl])
end

/-- Register `r` = x % 32 of number x / 32: numbers above 6 have no register, and bit 4 of a selector must be 0. -/
theorem setreg_eq (u : State) (x : Nat) (v : Word) (h : x < 2 ^ 11) :
    (if 2 ^ 11 ≤ x ∨ bitAt x 4 then u.refuse 1 else u.setReg (bits x 0 4) (bits x 5 6) v) = u.setReg (x % 32) (x / 32) v := by
  obtain ⟨hn, -⟩ := bits_of_selector h
  rw [hn]
  by_cases hb : x % 32 < 16
  · have hr : bits x 0 4 = x % 32 := by simp only [bits]; omega
    rw [hr, if_neg]
    simp only [bitAt, bits, beq_iff_eq]
    omega
  · rw [if_pos (by simp only [bitAt, bits, beq_iff_eq]; omega)]
    exact (setReg_of_bad (.inl (by simp only [badRegister]; omega))).symm

/-! ## RESET (R428) -/

theorem exec_partctlReset_of_missing {s : State} {gr : Grant} {d c : Reg} {a b : Src} {m : BitVec 32} (ha : s.inAtelier = true)
    (hg : s.before.grant = some gr) (h : ¬((s.g a).toNat < 64 ∧ (s.part (s.g a).toNat).live = true)) :
    exec (.partctlReset d a b c m) s = .next (s.useGrant.setG d 1#64) := by
  have hgrant : s.grant = some gr := hg
  refine (privileged_of_atelier ha _).trans ((if_pos ?_).trans (by rw [State.answered, hgrant]))
  exact (not_and_or.mp h).imp Nat.not_lt.mp fun hl => bnot_of_false (Bool.not_eq_true _ ▸ hl)

/-- An answered RESET finds its partition's drain done, or completes it. -/
theorem exec_partctlReset_of_exists {s : State} {gr : Grant} {d c : Reg} {a b : Src} {m : BitVec 32} (ha : s.inAtelier = true)
    (hg : s.before.grant = some gr) (h : (s.g a).toNat < 64 ∧ (s.part (s.g a).toNat).live = true)
    (hno : ((s.part (s.g a).toNat).resetDue && ((s.part (s.g a).toNat).gang == .saving ||
      ((s.part (s.g a).toNat).gang == .stopping && !(s.part (s.g a).toNat).frozen))) = false)
    (hnot : ((s.part (s.g a).toNat).resetDue && (s.part (s.g a).toNat).gang == .stopping) = false) :
    exec (.partctlReset d a b c m) s =
      .next ((if (s.useGrant.part (s.g a).toNat).gang == .draining then s.useGrant.drainReset (s.g a).toNat else s.useGrant).setG d 0#64) := by
  have hgrant : s.grant = some gr := hg
  obtain ⟨hlt, hl⟩ := h
  refine (privileged_of_atelier ha _).trans ((if_neg (not_or.mpr ⟨Nat.not_le.mpr hlt, not_bnot_of_true hl⟩)).trans ?_)
  simp only [hgrant, hno, hnot, Bool.false_eq_true, if_false]

/-! ## SAVEAREA (R422) -/

theorem saveArea_in_hbm {base size : Nat} (h4096 : base % 4096 = 0) (hlow : base < 2 ^ 52) (hbase : paIsHbm base = true)
    (hend : size = 0 ∨ paIsHbm (base + size - 1) = true) :
    ¬(base % 4096 ≠ 0 ∨ 2 ^ 52 ≤ base ∨ !paIsHbm base ∨ (0 < size ∧ !paIsHbm (base + size - 1))) := by
  rw [not_or, not_or, not_or, not_not, Nat.not_le, not_and]
  refine ⟨h4096, hlow, not_bnot_of_true hbase, fun hpos => not_bnot_of_true (hend.resolve_left (Nat.pos_iff_ne_zero.mp hpos))⟩

/-! ## The obligation -/

/-- Settles O41: each request by its checks, in their order. -/
theorem partitionControlComplete : Obligations.PartitionControlComplete := by
  intro s d c a b m gr ha hg u p x q answers exists_
  have existing {f : Nat → State × Nat} {t : State} {n : Nat} (he : exists_) (h : f p = (t, n)) : u.partNo (s.g a) f = (t, n) :=
    (partNo_of_exists he).trans h
  have missing (he : ¬exists_) {f : State → Nat → State × Nat} :
      s.partctl d (fun s => s.partNo (s.g a) (f s)) = .next (u.setG d 1#64) := partctl_of_granted ha hg (n := 1) (partNo_of_missing he)
  refine ⟨?_, fun he hz hb hf => ?_, fun he hz => ?_, fun he hz hb => ?_, fun he hz hb hf => ?_, fun he hb => ?_, fun he hb => ?_,
    fun he hf => ?_, fun he hf => ?_, fun he => ?_, ?_, ?_, fun h => ⟨?_, ?_⟩, fun h => ⟨?_, ?_⟩, fun he hd => ?_, fun he hd hr => ?_,
    fun he h => ?_, fun he h4096 hlow hhbm hend => ⟨fun h => ?_, fun hsaved hgang => ?_⟩⟩
  · intro n free
    refine ⟨fun h => partctl_of_granted ha hg (t := u) (n := 1) ?_, fun hfree hm hf => partctl_of_granted ha hg (t := u) (n := 3) ?_,
      fun hfree hm hf => ⟨_, partctl_of_granted ha hg (n := 0) ((if_neg (not_not.mpr hm)).trans
        ((createPart_of_creatable hfree).trans (if_pos hf))), State.part_setPart_self ..⟩⟩
    · by_cases hm : m.toNat % 256 = 0
      · exact (if_neg (not_not.mpr hm)).trans (createPart_of_not_creatable (h.resolve_right (not_not.mpr hm)))
      · exact if_pos hm
    · exact (if_neg (not_not.mpr hm)).trans ((createPart_of_creatable hfree).trans (if_neg (ne_true_of_eq_false hf)))
  · exact ⟨_, partctl_of_granted ha hg (n := 0) (existing he ((if_neg (not_bnot_of_true hz)).trans ((if_neg (ne_true_of_eq_false hb)).trans
      (if_neg (not_bnot_of_true hf))))), State.part_setPart_self ..⟩
  · exact partctl_of_granted ha hg (n := 1) (existing he (if_pos (bnot_of_false hz)))
  · exact partctl_of_granted ha hg (n := 2) (existing he ((if_neg (not_bnot_of_true hz)).trans (if_pos hb)))
  · exact partctl_of_granted ha hg (n := 3) (existing he ((if_neg (not_bnot_of_true hz)).trans ((if_neg (ne_true_of_eq_false hb)).trans
      (if_pos (bnot_of_false hf)))))
  · exact partctl_of_granted ha hg (n := 2) (existing he (if_pos hb))
  · exact ⟨_, partctl_of_granted ha hg (n := 0) (existing he (if_neg (ne_true_of_eq_false hb))), State.part_setPart_self ..⟩
  · exact partctl_of_granted ha hg (n := 0) (existing he (if_neg (not_bnot_of_true hf)))
  · exact partctl_of_granted ha hg (n := 3) (existing he (if_pos (bnot_of_false hf)))
  · intro i hi
    simp only [List.mem_cons, List.not_mem_nil, or_false] at hi
    rcases hi with rfl | rfl | rfl | rfl | rfl
    · exact missing he
    · exact missing he
    · exact missing he
    · exact missing he
    · exact exec_partctlReset_of_missing ha hg he
  · intro pn qn w named creates
    refine ⟨fun h => partctl_of_granted ha hg (t := u) (n := 1) ?_, fun y hnamed hy => ?_,
      fun hlt hl => partctl_of_granted ha hg (n := 0) (qdelete_of_live hlt hl), fun h => partctl_of_granted ha hg (n := 1) (qdelete_of_missing h)⟩
    · by_cases hnamed : named
      · exact createQueue_of_unreadable hnamed (h.resolve_left (not_not.mpr hnamed))
      · exact createQueue_of_unnamed hnamed
    · have hcreate := createQueue_of_read hnamed hy
      refine ⟨fun hbad => partctl_of_granted ha hg (n := 1) (hcreate.trans (if_pos hbad)), fun hgood => ?_⟩
      have hgoes := hcreate.trans (if_neg (ne_true_of_eq_false hgood))
      refine ⟨fun hst => partctl_of_granted ha hg (n := 2) (hgoes.trans (if_pos hst)),
        fun hst hten => partctl_of_granted ha hg (n := 4) (hgoes.trans ((if_neg (not_not.mpr hst)).trans (if_pos hten))),
        fun hst hten hfr => partctl_of_granted ha hg (n := 0)
          ((hgoes.trans ((if_neg (not_not.mpr hst)).trans (if_neg (not_not.mpr hten)))).trans ?_)⟩
      rw [if_neg (ne_true_of_eq_false hfr)]
      rfl
  · intro n r k sets bad
    have hsets (h : p < 2 ^ 11) {t : State} {n' : Nat} (hset : u.setReg r n (s.g b) = (t, n')) : exec (.partctlSetreg d a b c m) s =
        .next (t.setG d (BitVec.ofNat 64 n')) := partctl_of_granted ha hg ((setreg_eq u p (s.g b) h).trans hset)
    refine ⟨fun h => ?_, fun hlt hgood => ?_⟩
    · by_cases hlt : 2 ^ 11 ≤ p
      · exact partctl_of_granted ha hg (n := 1) (if_pos (.inl hlt))
      · exact hsets (Nat.not_le.mp hlt) (n' := 1) (setReg_of_bad (h.resolve_left hlt))
    · obtain ⟨h0, h1, hpart⟩ := setReg_of_good (u := u) (n := n) hgood
      refine ⟨fun hr => hsets hlt (h0 hr), fun hr => hsets hlt (h1 hr), fun hl => ?_⟩
      obtain ⟨h2, h3, h4, h5, h6⟩ := hpart hl
      exact ⟨fun hr => hsets hlt (h2 hr), fun hr => hsets hlt (h3 hr), fun hr => hsets hlt (h4 hr),
        fun hr hpin => hsets hlt ((h5 hr).trans (if_neg (ne_true_of_eq_false hpin))),
        fun hr hpin => hsets hlt ((h5 hr).trans (if_pos hpin)), fun hr => hsets hlt (h6 hr)⟩
  · exact partctl_of_granted ha hg (n := 0) (if_neg (Nat.not_le.mpr h))
  · exact partctl_of_granted ha hg (n := 0) (if_neg (Nat.not_le.mpr h))
  · exact partctl_of_granted ha hg (n := 1) (if_pos h)
  · exact partctl_of_granted ha hg (n := 1) (if_pos h)
  · refine (exec_partctlReset_of_exists ha hg he ?_ ?_).trans (by rw [if_pos (beq_iff_eq.mpr hd)])
    · have hd : (s.part (s.g a).toNat).gang = .draining := hd
      rw [hd]
      exact Bool.and_false _
    · have hd : (s.part (s.g a).toNat).gang = .draining := hd
      rw [hd]
      exact Bool.and_false _
  · refine (exec_partctlReset_of_exists ha hg he ?_ ?_).trans (by rw [if_neg (mt beq_iff_eq.mp hd)])
    · exact (congrArg (· && _) hr).trans (Bool.false_and _)
    · exact (congrArg (· && _) hr).trans (Bool.false_and _)
  · refine partctl_of_granted ha hg (n := 1) (existing he (if_pos ?_))
    exact h.imp_right (Or.imp_right (Or.imp bnot_of_false (And.imp_right bnot_of_false)))
  · refine partctl_of_granted ha hg (n := 2) (existing he ((if_neg ?_).trans (if_pos ?_)))
    · exact saveArea_in_hbm h4096 hlow hhbm hend
    · rw [Bool.or_eq_true, bne_iff_ne]
      exact h
  · refine ⟨_, partctl_of_granted ha hg (n := 0)
      (existing he ((if_neg (saveArea_in_hbm h4096 hlow hhbm hend)).trans (if_neg ?_))), State.part_setPart_self .., ?_⟩
    · rw [Bool.or_eq_true, bne_iff_ne, not_or, not_not, Bool.not_eq_true, Option.isSome_eq_false_iff, Option.isNone_iff_eq_none]
      exact ⟨hsaved, hgang⟩
    · exact (readPa_writePa_self u x 64 0).trans (Nat.zero_mod _)

end Sys2Proof.Machine
end

section
/-! SUPPORT. A drain that posts a launch into a line which a task has read: the rollback of that task starts its strand (07 R182,
18 R428). -/

namespace Sys2Proof.Machine

/-- A speculative task of zone 1 whose strand is said to be strand 0, in zone 0, and which has read the first line of the scratch of
site 0. -/
def readerAcrossZones : Task :=
  { order := 0, timestamp := 0#64, hpc := 0#64, args := [], launch := 1, st := .running 0, reads := [sramPa 0 0 / 64] }
/-- A bound launch of partition 0 whose slot, with its STS, lies in that line. -/
def launchOnLine : Launch :=
  { part := 0, tenant := 0, queue := 0, record := 0#1024, indirect := false, addr := 0#64, slotAddr := some 0x01FF000000000000#64
    prio := 0#3, ch := 0, lid := 1#32, count := 0#32, bound := true }
/-- Partition 0, of zone 0 alone with its first row built, drains. -/
def drainHitsReader : State :=
  { (((State.reset.setPart 0 { zones := 1#64, live := true, gang := .draining }).setZone 0
      { State.reset.zone 0 with rows := (State.reset.zone 0).rows.set 0 0x00000A9876543210#64 }).setZone 1
      { State.reset.zone 1 with tasks := [readerAcrossZones] }).setLaunch 1 launchOnLine with
    input := { part := 0 } }

theorem exec_drainResetComplete_drainHitsReader : exec .drainResetComplete drainHitsReader = .next (drainHitsReader.drainReset 0) := rfl
/-- The drain has cleared strand 0; the write of STS then rolls the task back, and strand 0 is READY again. -/
theorem strand_drainReset_drainHitsReader : ((drainHitsReader.drainReset 0).strand 0).st = .ready := by decide +kernel

/-- Refutes O43: the clause of DRAIN_RESET_COMPLETE fails, that every strand of the partition is DORMANT. It asks nothing of the tasks
of zones outside the partition, and one of them may name a strand of the partition as its own. -/
theorem not_armatureAndGangEventsComplete : ¬ Obligations.ArmatureAndGangEventsComplete := by
  intro ⟨_, hgang⟩
  obtain ⟨-, -, -, -, -, -, -, -, hdrain, -⟩ := hgang drainHitsReader 0 rfl rfl rfl
  obtain ⟨t, ht, -, hdormant, -⟩ := hdrain rfl
  rw [exec_drainResetComplete_drainHitsReader] at ht
  injection ht with ht
  have hready := strand_drainReset_drainHitsReader
  rw [ht, hdormant 0 (by decide +kernel)] at hready
  exact StrandSt.noConfusion hready

end Sys2Proof.Machine
end

section
/-! SUPPORT. The host's writes: the module page, shootdowns, HREQ, event rings, span registers and queue registers (12 R313, 10 R261,
20 R444, 21 R460–R462). -/

namespace Sys2Proof.Machine

/-! ## The module page answers once a PCIe port is up (R463) -/

theorem answers_physicalFn {s : State} (h : s.module.pcieUp ≠ []) : s.answers physicalFn = true := by
  simp [State.answers, h]
theorem pfWrite_of_up {s : State} (h : s.module.pcieUp ≠ []) (off : Nat) (v : Word) : s.pfWrite off v = s.moduleWrite off v :=
  if_pos (answers_physicalFn h)
theorem pfWrite_of_down {s : State} (h : s.module.pcieUp = []) (off : Nat) (v : Word) : s.pfWrite off v = s := by
  refine if_neg ?_
  simp [State.answers, h]

/-- Without a port, no write reaches the page. -/
theorem exec_pageWrite_of_down {s : State} (h : s.module.pcieUp = []) {e : Instr}
    (he : e ∈ [Instr.pcapWrite, .shootdownGo, .shctlClre, .hreq, .hrlostClear]) : exec e s = .next s := by
  simp only [List.mem_cons, List.not_mem_nil, or_false] at he
  rcases he with rfl | rfl | rfl | rfl | rfl
  · exact congrArg _ (pfWrite_of_down h ..)
  · exact congrArg _ (ite_eq_right_iff.mpr fun _ => pfWrite_of_down h ..)
  · exact congrArg _ (ite_eq_right_iff.mpr fun _ => pfWrite_of_down h ..)
  · exact congrArg _ (pfWrite_of_down h ..)
  · exact congrArg _ (pfWrite_of_down h ..)

section
variable {s : State} (hup : s.module.pcieUp ≠ [])
include hup

theorem exec_pcapWrite_of_up : exec .pcapWrite s =
    .next (s.setModule { s.module with pcap := max 180000 (min 400000 (s.input.value.toNat % 2 ^ 19)) }) := by
  have hval : (BitVec.ofNat 64 (bits s.input.value.toNat 0 19)).toNat = s.input.value.toNat % 2 ^ 19 := by
    rw [bits_lower, BitVec.toNat_ofNat]
    omega
  refine congrArg _ ((pfWrite_of_up hup ..).trans ?_)
  show s.writePcap _ = _
  rw [State.writePcap, clampPcap, hval]

/-! ## Shootdowns (R261) -/

theorem exec_shootdownGo_of_go (hgo : s.input.value.getLsbD 0 = true) (hclre : s.input.value.getLsbD 2 = false) :
    exec .shootdownGo s = .next (
      if s.module.shBusy then s.setModule { s.module with shErr := true }
      else
        let u := s.setModule { s.module with shBusy := true, shPlb := s.input.value.getLsbD 1 }
        if s.module.shcnt = 0 then u.finishShootdown else u) := by
  have hclear : s.shctlClear s.input.value = s := if_neg (ne_true_of_eq_false hclre)
  refine congrArg _ ((if_pos hgo).trans ((pfWrite_of_up hup ..).trans ?_))
  show (s.shctlClear s.input.value).shctlGo s.input.value = _
  rw [hclear]
  exact if_pos hgo

theorem exec_shctlClre_of_clre (hclre : s.input.value.getLsbD 2 = true) (hgo : s.input.value.getLsbD 0 = false) :
    exec .shctlClre s = .next (s.setModule { s.module with shErr := false }) := by
  refine congrArg _ ((if_pos hclre).trans ((pfWrite_of_up hup ..).trans ?_))
  show (s.shctlClear s.input.value).shctlGo s.input.value = _
  rw [State.shctlClear, if_pos hclre]
  exact if_neg (ne_true_of_eq_false hgo)

/-! ## HREQ and HRLOST (R462) -/

theorem exec_hreq_of_up : exec .hreq s = .next (s.hostRequest s.input.value) := congrArg _ (pfWrite_of_up hup ..)
theorem exec_hrlostClear_of_set (h : s.input.value.getLsbD 4 = true) :
    exec .hrlostClear s = .next (s.setModule { s.module with hrlost := false }) := by
  refine congrArg _ ((pfWrite_of_up hup ..).trans ?_)
  show s.writeMstat s.input.value = _
  exact if_pos h
end

theorem exec_hrlostClear_of_clear {s : State} (h : s.input.value.getLsbD 4 = false) : exec .hrlostClear s = .next s := by
  by_cases hup : s.module.pcieUp = []
  · exact exec_pageWrite_of_down hup (by simp)
  · refine congrArg _ ((pfWrite_of_up hup ..).trans ?_)
    show s.writeMstat s.input.value = _
    exact if_neg (ne_true_of_eq_false h)

/-- The zone that HREQ's value names. -/
theorem bits_hreqZone (v : Word) : bits v.toNat 58 6 = v.toNat / 2 ^ 58 := bits_upper v rfl

theorem hostRequest_of_no_room {s : State} {v : Word}
    (h : s.module.ateliersStarted = false ∨ freeIndex (s.zone (v.toNat / 2 ^ 58)).mbx 289 = none) :
    s.hostRequest v = s.setModule { s.module with hrlost := true } := by
  rw [← bits_hreqZone] at h
  refine if_pos ?_
  rw [Bool.or_eq_true, Bool.not_eq_true', Option.isNone_iff_eq_none]
  exact h
theorem hostRequest_of_room {s : State} {v : Word} {k : Nat} (hstart : s.module.ateliersStarted = true)
    (hfree : freeIndex (s.zone (v.toNat / 2 ^ 58)).mbx 289 = some k) (hreports : s.reports = []) :
    s.hostRequest v = s.setZone (v.toNat / 2 ^ 58)
      { s.zone (v.toNat / 2 ^ 58) with
        mbx := (s.zone (v.toNat / 2 ^ 58)).mbx ++
          [{ slot := 289, index := k
             body := recordBody 6 0 0 false 0 0 0 0#64 0#64 0#64 (BitVec.ofNat 64 (v.toNat % 2 ^ 58)) }] } := by
  rw [State.hostRequest, bits_hreqZone, bits_lower]
  simp only [hstart, hfree, State.report, hreports, List.any_nil, Bool.false_and, Bool.false_eq_true, Bool.not_true, Option.isNone_some,
    Bool.or_self, if_false]

/-! ## What the completion of a shootdown leaves (R261, R262) -/

/-- Lines, counters and memory apart, nothing of what a shootdown's completion reads is changed. -/
def KeepsPages (s t : State) : Prop := t.module = s.module ∧ t.l2 = s.l2 ∧ t.slotWrites = s.slotWrites

theorem KeepsPages.refl (s : State) : KeepsPages s s := ⟨rfl, rfl, rfl⟩
theorem KeepsPages.trans {s t u : State} (h : KeepsPages s t) (h' : KeepsPages t u) : KeepsPages s u := by
  obtain ⟨hm, hl, hw⟩ := h
  obtain ⟨hm', hl', hw'⟩ := h'
  exact ⟨hm'.trans hm, hl'.trans hl, hw'.trans hw⟩
theorem KeepsPages.foldl {α : Type} {f : State → α → State} (hf : ∀ s x, KeepsPages s (f s x)) (l : List α) (s : State) :
    KeepsPages s (l.foldl f s) := by
  induction l generalizing s with
  | nil => exact .refl s
  | cons x l ih => exact (hf s x).trans (ih _)
theorem RolledBack.keepsPages {s t : State} (h : RolledBack s t) : KeepsPages s t := by
  rw [h.1]; exact ⟨rfl, rfl, rfl⟩
theorem OnlyBytes.keepsPages {s t : State} (h : OnlyBytes s t) : KeepsPages s t := by
  rw [h]; exact ⟨rfl, rfl, rfl⟩

theorem settlePages_of_no_access {s : State} (h : s.accesses = []) : s.settlePages = s.restartTasks := by
  have hdrained : s.drainAll = s := by rw [State.drainAll, h]; rfl
  rw [State.settlePages, hdrained]
theorem rolledBack_restartTasks (s : State) : RolledBack s s.restartTasks :=
  .foldl (fun s z => .foldl (fun s (t : Task) => rolledBack_rollback s z t.order) _ s) _ s

theorem keepsPages_setPoison (s : State) (pa : Nat) : KeepsPages s (s.setPoison pa) :=
  (onlyBytes_touch s pa).keepsPages.trans ⟨rfl, rfl, rfl⟩
/-- The lines of a range leave the caches, and no others. -/
theorem dropLines_leaves (s : State) (lo hi : Nat) :
    (s.dropLines lo hi).module = s.module ∧ (s.dropLines lo hi).slotWrites = s.slotWrites ∧
      (s.dropLines lo hi).l2 = s.l2.keep fun k => !(decide (lo ≤ k) && decide (k < hi)) := by
  obtain ⟨hm, hl, hw⟩ : KeepsPages s ((s.l2.entries.filter fun e => decide (lo ≤ e.1) && decide (e.1 < hi)).foldl
      (fun s e => match e.2.dirtier with
        | some t => s.setTenant t { s.tenant t with l2wbf := (s.tenant t).l2wbf + 1#64 }
        | none => if e.2.below then s.setPoison (64 * e.2.frame) else s) s) := by
    refine .foldl (fun s e => ?_) _ s
    split
    · exact ⟨rfl, rfl, rfl⟩
    · split
      · exact keepsPages_setPoison ..
      · exact .refl s
  exact ⟨hm, hw, congrArg (fun l : FMap L2Line => l.keep fun k => !(decide (lo ≤ k) && decide (k < hi))) hl⟩

theorem find?_keep_of_not {α : Type} {m : FMap α} {p : Nat → Bool} {k : Nat} (h : p k = false) : (m.keep p).find? k = none :=
  (entryGet_filter ..).trans (if_neg (ne_true_of_eq_false h))

theorem plb_of_dropped (m : FMap Core) (c : Nat) : ((m.mapValues fun _ x => { x with plb := [] }).getD c {}).plb = [] := by
  rw [FMap.getD, FMap.find?_mapValues]
  cases m.find? c <;> rfl

/-- The end of a shootdown leaves the range's lines, and every PLB if PLB was asked for, dropped. -/
theorem finishShootdown_of_plb {s : State} (h : s.module.shPlb = true) :
    s.finishShootdown =
      let u := s.dropLines (s.module.shva / 64) (s.module.shva / 64 + s.module.shcnt * 64)
      { u with cores := u.cores.mapValues fun _ c => { c with plb := [] } }.setModule { s.module with shBusy := false, shPlb := false } := by
  simp only [State.finishShootdown, h, if_true]
theorem finishShootdown_of_keep {s : State} (h : s.module.shPlb = false) :
    s.finishShootdown =
      (s.dropLines (s.module.shva / 64) (s.module.shva / 64 + s.module.shcnt * 64)).setModule
        { s.module with shBusy := false, shPlb := false } := by
  simp only [State.finishShootdown, h, Bool.false_eq_true, if_false]

theorem finishShootdown_leaves (s : State) :
    s.finishShootdown.module = { s.module with shBusy := false, shPlb := false } ∧ s.finishShootdown.slotWrites = s.slotWrites ∧
    (∀ line, s.module.shva / 64 ≤ line → line < s.module.shva / 64 + s.module.shcnt * 64 → s.finishShootdown.l2.find? line = none) ∧
    (s.module.shPlb = true → ∀ c, (s.finishShootdown.core c).plb = []) := by
  obtain ⟨-, hw, hl⟩ := dropLines_leaves s (s.module.shva / 64) (s.module.shva / 64 + s.module.shcnt * 64)
  have hgone : ∀ line, s.module.shva / 64 ≤ line → line < s.module.shva / 64 + s.module.shcnt * 64 →
      (s.dropLines (s.module.shva / 64) (s.module.shva / 64 + s.module.shcnt * 64)).l2.find? line = none := fun line hlo hhi => by
    rw [hl]
    exact find?_keep_of_not (by simp [hlo, hhi])
  cases hplb : s.module.shPlb with
  | false =>
    rw [finishShootdown_of_keep hplb]
    exact ⟨rfl, hw, hgone, fun h => nomatch h⟩
  | true =>
    rw [finishShootdown_of_plb hplb]
    exact ⟨rfl, hw, hgone, fun _ c => plb_of_dropped _ c⟩

theorem retryWrites_of_none {s : State} (h : s.slotWrites = []) : s.retryWrites = s := by
  rw [State.retryWrites, h, List.foldl_nil, ← h]

theorem exec_shootdownComplete_of_quiet {s : State} (hbusy : s.module.shBusy = true) (hacc : s.accesses = []) (hwrites : s.slotWrites = [])
    (hheld : s.heldIn (s.module.shva / 64) (s.module.shva / 64 + s.module.shcnt * 64) = none) :
    exec .shootdownComplete s = .next s.restartTasks.finishShootdown := by
  obtain ⟨-, -, hw⟩ := (rolledBack_restartTasks s).keepsPages
  obtain ⟨-, hw', -, -⟩ := finishShootdown_leaves s.restartTasks
  refine congrArg _ ((if_pos (by simp [hbusy, hheld])).trans ?_)
  rw [settlePages_of_no_access hacc]
  exact retryWrites_of_none (hw'.trans (hw.trans hwrites))

/-! ## Event rings (R460) -/

section
variable {s : State}

theorem exec_eventRingTailWrite_of_answering (h : s.ringAnswers s.input.fn = true) :
    exec .eventRingTailWrite s = .next (s.setRing s.input.fn ((s.ring s.input.fn).writeTail s.input.value)) := congrArg _ (if_pos h)
theorem exec_eventRingTailWrite_of_silent (h : s.ringAnswers s.input.fn = false) : exec .eventRingTailWrite s = .next s :=
  congrArg _ (if_neg (ne_true_of_eq_false h))
theorem exec_eventRingConfigWrite_of_base (h : s.ringAnswers s.input.fn = true) (hoff : s.input.off = 0) :
    exec .eventRingConfigWrite s = .next (s.setRing s.input.fn ((s.ring s.input.fn).writeBase s.input.value)) := by
  refine congrArg _ ((if_pos (by simp [h, hoff])).trans ?_)
  rw [hoff]
  rfl
theorem exec_eventRingConfigWrite_of_ctl (h : s.ringAnswers s.input.fn = true) (hoff : s.input.off = 8) :
    exec .eventRingConfigWrite s = .next (s.setRing s.input.fn ((s.ring s.input.fn).writeCtl s.input.value)) := by
  refine congrArg _ ((if_pos (by simp [h, hoff])).trans ?_)
  rw [hoff]
  rfl
theorem exec_eventRingConfigWrite_of_silent (h : s.ringAnswers s.input.fn = false) : exec .eventRingConfigWrite s = .next s :=
  congrArg _ (if_neg (by simp [h]))

theorem ring_setRing_self (s : State) (fn : Nat) (r : EventRing) : (s.setRing fn r).ring fn = r := FMap.getD_set_self ..

theorem writeCtl_eq (r : EventRing) (v : Word) :
    r.writeCtl v = { r with tail := r.head, en := v.getLsbD 4, log2n := v.toNat % 16 } := by
  rw [EventRing.writeCtl, BitVec.extractLsb'_toNat, Nat.shiftRight_zero]
  rfl

/-! ## Span registers and queue registers (R190, R444) -/

theorem exec_spanConfigWrite_of_answering (hup : s.module.pcieUp ≠ []) (hfw : s.module.fwfail = false) :
    exec .spanConfigWrite s = .next (s.spanWrite s.input.part s.input.off s.input.value) :=
  congrArg _ (if_pos (by simp [answers_physicalFn hup, hfw]))
theorem spanWrite_of_bound {p : Nat} (h : s.partBound p = true) (off : Nat) (v : Word) : s.spanWrite p off v = s := if_pos (by simp [h])
theorem exec_spanConfigWrite_of_bound (h : s.partBound s.input.part = true) : exec .spanConfigWrite s = .next s :=
  congrArg _ (ite_eq_right_iff.mpr fun _ => spanWrite_of_bound h ..)
theorem spanWrite_of_free {p : Nat} (hlive : (s.part p).live = true) (hb : s.partBound p = false) (off : Nat) (v : Word) :
    s.spanWrite p off v =
      if off = 0 then (if spcfgOk v then s.setPart p { s.part p with spcfg := v, nextSpan := 1, spanSettled := [] } else s)
      else if 0x100 ≤ off ∧ off < 0x300 then
        (if routeOk v then s.setPart p { s.part p with routes := (s.part p).routes.set ((off - 0x100) / 8) v } else s)
      else s := if_neg (by simp [hlive, hb])

/-- PORTSEL, written through system space. -/
theorem exec_registerWrite_of_portsel (hup : s.module.pcieUp ≠ []) (hflag : s.input.flag = false) (hoff : s.input.off = 0x28) :
    exec .registerWrite s = .next (s.setModule { s.module with portsel := s.input.value }) := by
  have hval : BitVec.ofNat 64 ((s.input.value.toNat % 2 ^ 64) * 1) = s.input.value := by
    rw [Nat.mul_one, Nat.mod_eq_of_lt s.input.value.isLt, BitVec.ofNat_toNat, BitVec.setWidth_eq]
  refine (if_neg (ne_true_of_eq_false hflag)).trans ((if_neg (by simp [hoff, answers_physicalFn hup])).trans ?_)
  rw [hoff]
  refine congrArg _ ((if_neg (by simp [answersUnverified])).trans ((if_neg (by simp [sysPlain])).trans ((if_pos (by decide)).trans ?_)))
  show s.setModule { s.module with portsel := BitVec.ofNat 64 ((s.input.value.toNat % 2 ^ 64) * 1) } = _
  rw [hval]

theorem exec_registerWrite_of_qprio (hflag : s.input.flag = true) (hoff : s.input.off ≠ 8) (hlive : (s.part s.input.part).live = true)
    (hans : s.answers (s.part s.input.part).tenant = true) (hlt : s.input.queue < 32) :
    exec .registerWrite s = .next (s.setQueue s.input.part s.input.queue
      ((s.queue s.input.part s.input.queue).writePrio s.input.value)) := by
  refine (if_pos hflag).trans ((onQueue_of_answering rfl rfl hlive hans hlt _).trans (congrArg _ ?_))
  rw [if_neg hoff]

/-! ## The host's answer to an access (R458) -/

theorem hostGate_of_refused {b : Asker} {acc : Acc} {va : Word} {pa fn : Nat} {c : Option (Nat × Nat)} (hask : s.asksHost pa c = true)
    (h : pageRequest fn b acc va pa ∈ s.hostRefused) :
    s.hostGate fn b acc va pa c = .refused { refusedPage acc va with refusal := some (pageRequest fn b acc va pa) } :=
  (if_neg (not_bnot_of_true hask)).trans (if_pos (List.contains_iff_mem.mpr h))
theorem hostGate_of_there {b : Asker} {acc : Acc} {va : Word} {pa fn : Nat} {c : Option (Nat × Nat)} (hask : s.asksHost pa c = true)
    (h : pageRequest fn b acc va pa ∉ s.hostRefused) (habsent : fn * 2 ^ 40 + pa / 4096 ∉ s.hostAbsent) :
    s.hostGate fn b acc va pa c = .pass :=
  (if_neg (not_bnot_of_true hask)).trans ((if_neg (mt List.contains_iff_mem.mp h)).trans (if_neg (mt List.contains_iff_mem.mp habsent)))
/-- A refusal is met once. -/
theorem faultMet_forgets_refusal {t : TrapInfo} {r : PageRequest} (hr : t.refusal = some r) : r ∉ (s.faultMet t).hostRefused := by
  rw [State.faultMet, hr]
  simp
end

/-! ## Page answers (R458) -/

/-- Nothing is asked of the host, and no refusal is met. -/
def KeepsRequests (s t : State) : Prop := t.pri = s.pri ∧ t.hostRefused = s.hostRefused ∧ t.slotWrites = s.slotWrites

theorem KeepsRequests.refl (s : State) : KeepsRequests s s := ⟨rfl, rfl, rfl⟩
theorem KeepsRequests.trans {s t u : State} (h : KeepsRequests s t) (h' : KeepsRequests t u) : KeepsRequests s u := by
  obtain ⟨hp, hr, hw⟩ := h
  obtain ⟨hp', hr', hw'⟩ := h'
  exact ⟨hp'.trans hp, hr'.trans hr, hw'.trans hw⟩
theorem RolledBack.keepsRequests {s t : State} (h : RolledBack s t) : KeepsRequests s t := by
  rw [h.1]; exact ⟨rfl, rfl, rfl⟩

theorem FreezesReports.keepsRequests {s t : State} (h : FreezesReports s t) : KeepsRequests s t := by
  rw [h]; exact ⟨rfl, rfl, rfl⟩

theorem keepsRequests_handlerAborted (s : State) (core : Nat) (b : Strand) : KeepsRequests s (s.handlerAborted core b) := by
  simp only [State.handlerAborted, State.abortHandler]
  split
  · split <;> exact ⟨rfl, rfl, rfl⟩
  · exact .refl s
theorem keepsRequests_atelierTrap (s : State) (slotA : Bool) (t : TrapInfo) : KeepsRequests s (s.atelierTrap slotA t) := by
  simp only [State.atelierTrap]
  split
  · refine .trans ?_ (freezesReports_report _ _).keepsRequests
    exact ⟨rfl, rfl, rfl⟩
  · exact ⟨rfl, rfl, rfl⟩
theorem keepsRequests_endShadow (s : State) (k : Nat) (t : TrapInfo) : KeepsRequests s (s.endShadow k t) := by
  have hfreed : KeepsRequests s (s.shadowFreed k) := ⟨rfl, rfl, rfl⟩
  obtain h | ⟨-, h⟩ := endShadow_eq s k t
  · exact hfreed.trans (.trans ⟨rfl, rfl, rfl⟩ h.keepsRequests)
  · rw [h]; exact hfreed
theorem keepsRequests_park (s : State) (k core zone : Nat) (b : Strand) (slotA : Bool) (t : TrapInfo) :
    KeepsRequests s (State.takeTrap.park s k core zone b slotA t) := by
  obtain ⟨r, h⟩ := park_eq s k core zone b slotA t
  rw [h]
  have hset : ∀ (u : State) (x : Strand), KeepsRequests u (u.setStrand k x) := fun _ _ => ⟨rfl, rfl, rfl⟩
  exact (keepsRequests_handlerAborted s core b).trans <| (hset _ _).trans <|
    ((freezesReports_protFreezes _ _ _).trans (freezesReports_report _ r)).keepsRequests

/-- A trap that meets no refusal leaves the requests and the refusals, whatever traps. -/
theorem keepsRequests_takeTrap (s : State) (slotA : Bool) {t : TrapInfo} (hf : t.fresh = none) (hr : t.refusal = none) :
    KeepsRequests s (s.takeTrap slotA t) := by
  have hmet : s.faultMet t = s := by simp only [State.faultMet, hf, hr]
  have hstop : ∀ (u : State) (i : Issue), KeepsRequests u (u.setCur i) := fun _ _ => ⟨rfl, rfl, rfl⟩
  simp only [State.takeTrap, hmet]
  split
  · exact (keepsRequests_atelierTrap ..).trans (hstop _ _)
  · split
    · exact (keepsRequests_endShadow ..).trans (hstop _ _)
    · split
      · split
        · have hset : ∀ x, KeepsRequests s (s.setStrand s.cur.strand x) := fun _ => ⟨rfl, rfl, rfl⟩
          have hzone : ∀ (u : State) (z : Nat) (x : Zone), KeepsRequests u (u.setZone z x) := fun _ _ _ => ⟨rfl, rfl, rfl⟩
          exact (hset _).trans ((rolledBack_rollback ..).keepsRequests.trans ((hzone _ _ _).trans (hstop _ _)))
        · exact (keepsRequests_park ..).trans (hstop _ _)
      · exact (keepsRequests_park ..).trans (hstop _ _)

/-- The access that a request names. -/
def refusedAcc (code : Nat) : Acc := ([Acc.load, .store, .fetch, .amo].find? fun a => a.code = code).getD .load
theorem code_refusedAcc (code : Nat) : (refusedAcc code).code = if code < 4 then code else 0 := by
  match code with
  | 0 => rfl
  | 1 => rfl
  | 2 => rfl
  | 3 => rfl
  | n + 4 => simp [refusedAcc, Acc.code]

/-- The strand traps at the pair that asked. -/
def State.trapsRefused (s : State) (k : Nat) (r : PageRequest) : State :=
  { { s with cur := { strand := k, before := { s.strand k with st := .ready } } }.takeTrap r.slotA (refusedPage (refusedAcc r.acc) r.va) with
    cur := {} }
theorem keepsRequests_trapsRefused (s : State) (k : Nat) (r : PageRequest) : KeepsRequests s (s.trapsRefused k r) := by
  have h := keepsRequests_takeTrap { s with cur := { strand := k, before := { s.strand k with st := .ready } } } r.slotA
    (t := refusedPage (refusedAcc r.acc) r.va) rfl rfl
  exact h

section
variable {s : State} {r : PageRequest}

theorem refusePage_of_waiting {k : Nat} (hr : r.asker = .strand k) (hst : (s.strand k).st = .waiting .pri)
    (hsilent : s.silentStrand k = false) : s.refusePage r = s.trapsRefused k r := by
  simp only [State.refusePage, hr, hst, hsilent, bne_self_eq_false, Bool.false_eq_true, if_false]
  rfl
theorem refusePage_of_gone {k : Nat} (hr : r.asker = .strand k) (hst : (s.strand k).st ≠ .waiting .pri) :
    s.refusePage r = { s with hostRefused := r :: s.hostRefused } := by
  simp only [State.refusePage, hr]
  exact if_pos (bne_iff_ne.mpr hst)
theorem refusePage_of_agent (h : (∃ c ch id, r.asker = .op c ch id) ∨ r.asker = .dispatcher) :
    s.refusePage r = { s with hostRefused := r :: s.hostRefused } := by
  obtain ⟨c, ch, id, hr⟩ | hr := h <;> simp only [State.refusePage, hr]

theorem refusePage_of_silent {k : Nat} (hr : r.asker = .strand k) (hst : (s.strand k).st = .waiting .pri)
    (hsilent : s.silentStrand k = true) : s.refusePage r = s := by
  simp only [State.refusePage, hr, hst, hsilent, bne_self_eq_false, Bool.false_eq_true, if_false, if_true]
theorem refusePage_of_nobody (hr : r.asker = .nobody) : s.refusePage r = s := by simp only [State.refusePage, hr]
end

/-- Nothing more is asked of the host, and no refusal is lost. -/
def AsksNothing (s t : State) : Prop := t.pri = s.pri ∧ t.slotWrites = s.slotWrites ∧ s.hostRefused ⊆ t.hostRefused

theorem AsksNothing.refl (s : State) : AsksNothing s s := ⟨rfl, rfl, List.Subset.refl _⟩
theorem AsksNothing.trans {s t u : State} (h : AsksNothing s t) (h' : AsksNothing t u) : AsksNothing s u := by
  obtain ⟨hp, hw, hr⟩ := h
  obtain ⟨hp', hw', hr'⟩ := h'
  exact ⟨hp'.trans hp, hw'.trans hw, List.Subset.trans hr hr'⟩
theorem KeepsRequests.asksNothing {s t : State} (h : KeepsRequests s t) : AsksNothing s t := by
  obtain ⟨hp, hr, hw⟩ := h
  exact ⟨hp, hw, hr ▸ List.Subset.refl _⟩
theorem asksNothing_noted (s : State) (r : PageRequest) : AsksNothing s { s with hostRefused := r :: s.hostRefused } :=
  ⟨rfl, rfl, List.subset_cons_self ..⟩

/-- A refusal asks for nothing: it is met at once or noted. -/
theorem asksNothing_refusePage (s : State) (r : PageRequest) : AsksNothing s (s.refusePage r) := by
  cases hr : r.asker with
  | nobody => rw [refusePage_of_nobody hr]; exact .refl s
  | dispatcher => rw [refusePage_of_agent (.inr hr)]; exact asksNothing_noted s r
  | op c ch id => rw [refusePage_of_agent (.inl ⟨c, ch, id, hr⟩)]; exact asksNothing_noted s r
  | strand k =>
    by_cases hst : (s.strand k).st = .waiting .pri
    · cases hsilent : s.silentStrand k with
      | true => rw [refusePage_of_silent hr hst hsilent]; exact .refl s
      | false => rw [refusePage_of_waiting hr hst hsilent]; exact (keepsRequests_trapsRefused s k r).asksNothing
    · rw [refusePage_of_gone hr hst]; exact asksNothing_noted s r
theorem asksNothing_foldl_refusePage (l : List PageRequest) (s : State) : AsksNothing s (l.foldl State.refusePage s) := by
  induction l generalizing s with
  | nil => exact .refl s
  | cons r l ih => exact (asksNothing_refusePage s r).trans (ih _)

/-- The refusal of an agent's access stands until it is met. -/
theorem foldl_refusePage_of_agent {r : PageRequest} (h : (∃ c ch id, r.asker = .op c ch id) ∨ r.asker = .dispatcher)
    {l : List PageRequest} (hmem : r ∈ l) (s : State) : r ∈ (l.foldl State.refusePage s).hostRefused := by
  induction l generalizing s with
  | nil => cases hmem
  | cons q l ih =>
    rcases List.mem_cons.mp hmem with rfl | hmem
    · obtain ⟨-, -, hr⟩ := asksNothing_foldl_refusePage l (s.refusePage r)
      refine hr ?_
      rw [refusePage_of_agent h]
      exact List.mem_cons_self
    · exact ih hmem _
/-- A strand that waits no longer meets no further refusal. -/
theorem strand_foldl_refusePage_of_gone {r : PageRequest} {k : Nat} (hr : r.asker = .strand k) {l : List PageRequest}
    (hl : ∀ q ∈ l, q = r) {s : State} (hst : (s.strand k).st ≠ .waiting .pri) : (l.foldl State.refusePage s).strand k = s.strand k := by
  induction l generalizing s with
  | nil => rfl
  | cons q l ih =>
    obtain rfl := hl q List.mem_cons_self
    rw [List.foldl_cons, refusePage_of_gone hr hst]
    exact ih (fun q hq => hl q (List.mem_cons_of_mem _ hq)) hst

section
variable {s : State} {r : PageRequest} {k : Nat}

/-- The refused strand, with no handler, shadow or task, is parked at its pair. -/
theorem strand_trapsRefused (ha : coreIsAtelier (strandCore k) = false) (hh : (s.strand k).inHandler = false)
    (hs : (s.strand k).inShadow = false) (ht : (s.strand k).task = none) :
    (s.trapsRefused k r).strand k =
      { s.strand k with st := .ready }.parkedBy r.slotA (refusedPage (refusedAcc r.acc) r.va) := by
  have h := strand_takeTrap (s := { s with cur := { strand := k, before := { s.strand k with st := .ready } } })
    (t := refusedPage (refusedAcc r.acc) r.va) ha hh hs ht rfl rfl r.slotA k
  exact h.trans (if_pos rfl)

theorem strand_foldl_refusePage_of_waiting (hr : r.asker = .strand k) {l : List PageRequest} (hl : ∀ q ∈ l, q = r) (hmem : r ∈ l)
    (hst : (s.strand k).st = .waiting .pri) (hsilent : s.silentStrand k = false)
    (ha : coreIsAtelier (strandCore k) = false) (hh : (s.strand k).inHandler = false) (hs : (s.strand k).inShadow = false)
    (ht : (s.strand k).task = none) :
    (l.foldl State.refusePage s).strand k =
      { s.strand k with st := .ready }.parkedBy r.slotA (refusedPage (refusedAcc r.acc) r.va) := by
  obtain ⟨q, l, rfl⟩ := List.exists_cons_of_ne_nil (List.ne_nil_of_mem hmem)
  obtain rfl := hl q List.mem_cons_self
  rw [List.foldl_cons, refusePage_of_waiting hr hst hsilent]
  have hparked := strand_trapsRefused (r := q) ha hh hs ht
  rw [strand_foldl_refusePage_of_gone hr (fun q hq => hl q (List.mem_cons_of_mem _ hq)) (by rw [hparked]; exact nofun), hparked]
end

/-! ## Admission (R458) -/

theorem admitted_of_waiting {s : State} {r : PageRequest} {k : Nat} (hr : r.asker = .strand k) (h : (s.strand k).st = .waiting .pri) :
    s.admitted r = s.wake k := by simp only [State.admitted, hr, h, beq_self_eq_true, if_true]
theorem admitted_of_not_waiting {s : State} {r : PageRequest} (h : ∀ k, r.asker = .strand k → (s.strand k).st ≠ .waiting .pri) :
    s.admitted r = s := by
  cases hr : r.asker with
  | strand k => simp only [State.admitted, hr]; exact if_neg (by simpa using h k hr)
  | nobody | dispatcher | op => simp only [State.admitted, hr]

theorem admitted_cases (s : State) (r : PageRequest) :
    (∃ k, r.asker = .strand k ∧ (s.strand k).st = .waiting .pri ∧ s.admitted r = s.wake k) ∨
      (∀ k, r.asker = .strand k → (s.strand k).st ≠ .waiting .pri) ∧ s.admitted r = s := by
  by_cases h : ∃ k, r.asker = .strand k ∧ (s.strand k).st = .waiting .pri
  · obtain ⟨k, hr, hst⟩ := h
    exact .inl ⟨k, hr, hst, admitted_of_waiting hr hst⟩
  · have h' : ∀ k, r.asker = .strand k → (s.strand k).st ≠ .waiting .pri := fun k hr hst => h ⟨k, hr, hst⟩
    exact .inr ⟨h', admitted_of_not_waiting h'⟩

/-- Only strands change when a page is there. -/
theorem foldl_admitted_eq (l : List PageRequest) (s : State) :
    l.foldl State.admitted s = { s with strands := (l.foldl State.admitted s).strands } := by
  induction l generalizing s with
  | nil => rfl
  | cons r l ih =>
    rw [List.foldl_cons]
    obtain ⟨k, -, -, h⟩ | ⟨-, h⟩ := admitted_cases s r
    · rw [h, ih (s.wake k)]; rfl
    · rw [h]; exact ih s

theorem st_admitted_of_ready {s : State} {r : PageRequest} {k : Nat} (h : (s.strand k).st = .ready) :
    ((s.admitted r).strand k).st = .ready := by
  obtain ⟨j, -, -, heq⟩ | ⟨-, heq⟩ := admitted_cases s r
  · rw [heq, State.wake, State.strand_setStrand]
    split
    · rfl
    · exact h
  · rw [heq]; exact h
theorem st_admitted_of_waiting {s : State} {r : PageRequest} {k : Nat} (h : (s.strand k).st = .waiting .pri) :
    ((s.admitted r).strand k).st = .waiting .pri ∧ r.asker ≠ .strand k ∨ ((s.admitted r).strand k).st = .ready := by
  obtain ⟨j, hr, -, heq⟩ | ⟨hno, heq⟩ := admitted_cases s r
  · rw [heq, State.wake, State.strand_setStrand]
    split
    · exact .inr rfl
    · next hne => exact .inl ⟨h, fun hk => hne (Asker.strand.inj (hk.symm.trans hr))⟩
  · rw [heq]
    exact .inl ⟨h, fun hk => hno k hk h⟩

theorem st_foldl_admitted_of_ready {k : Nat} (l : List PageRequest) {s : State} (h : (s.strand k).st = .ready) :
    ((l.foldl State.admitted s).strand k).st = .ready := by
  induction l generalizing s with
  | nil => exact h
  | cons r l ih => exact ih (st_admitted_of_ready h)
/-- A strand that waits for a page goes on once one of its requests is answered. -/
theorem st_foldl_admitted_of_waiting {k : Nat} {l : List PageRequest} {s : State} (h : (s.strand k).st = .waiting .pri) {p : PageRequest}
    (hp : p ∈ l) (hk : p.asker = .strand k) : ((l.foldl State.admitted s).strand k).st = .ready := by
  induction l generalizing s with
  | nil => cases hp
  | cons r l ih =>
    obtain ⟨hw, hne⟩ | hready := st_admitted_of_waiting (r := r) h
    · rcases List.mem_cons.mp hp with rfl | hp
      · exact absurd hk hne
      · exact ih hw hp
    · exact st_foldl_admitted_of_ready l hready

/-! ## The answer (R458) -/

section
variable {s : State} {p : PageRequest} (hp : s.pri[s.input.index]? = some p) (hbad : s.input.bad = []) (hw : s.slotWrites = [])
include hp hbad hw

/-- The requests that an answer to `p` meets are gone. -/
def State.priAnswered (s : State) (p : PageRequest) : State := { s with pri := s.pri.filter fun q => !p.same q }

theorem exec_priResponse_of_refused (hflag : s.input.flag = true) :
    exec .priResponse s = .next ((s.pri.filter p.same).foldl State.refusePage (s.priAnswered p)) := by
  obtain ⟨-, hw', -⟩ := asksNothing_foldl_refusePage (s.pri.filter p.same) (s.priAnswered p)
  show execPriResponse s = _
  simp only [execPriResponse, hbad, List.foldl_nil, hp, hflag, if_true]
  exact congrArg _ (retryWrites_of_none (hw'.trans hw))
theorem exec_priResponse_of_there (hflag : s.input.flag = false) :
    exec .priResponse s = .next ((s.pri.filter p.same).foldl State.admitted
      { s.priAnswered p with
        hostAbsent := setRemove (p.fn * 2 ^ 40 + p.page) s.hostAbsent, hostRefused := s.hostRefused.filter fun q => !p.same q }) := by
  show execPriResponse s = _
  simp only [execPriResponse, hbad, List.foldl_nil, hp, hflag, Bool.false_eq_true, if_false]
  refine congrArg _ (retryWrites_of_none ?_)
  rw [foldl_admitted_eq]
  exact hw
end

theorem same_iff (p r : PageRequest) : p.same r = true ↔ r.fn = p.fn ∧ r.page = p.page := by
  simp [PageRequest.same]
theorem mem_filter_not_same {l : List PageRequest} {p r : PageRequest} :
    r ∈ l.filter (fun q => !p.same q) ↔ r ∈ l ∧ ¬(r.fn = p.fn ∧ r.page = p.page) := by
  rw [List.mem_filter, Bool.not_eq_true', ← same_iff, Bool.not_eq_true]

/-- The pages there, the refusals that nothing met, the requests and the strands after an answer that the page is there. -/
theorem priResponse_admits {s : State} {p : PageRequest} (hp : s.pri[s.input.index]? = some p) (hbad : s.input.bad = [])
    (hw : s.slotWrites = []) (hflag : s.input.flag = false) :
    ∃ t : State, exec .priResponse s = .next t ∧ p.fn * 2 ^ 40 + p.page ∉ t.hostAbsent ∧
      (∀ r, r ∈ t.pri ↔ r ∈ s.pri ∧ ¬(r.fn = p.fn ∧ r.page = p.page)) ∧
      (∀ r, r ∈ t.hostRefused ↔ r ∈ s.hostRefused ∧ ¬(r.fn = p.fn ∧ r.page = p.page)) ∧
      (∀ k, p.asker = .strand k → (s.strand k).st = .waiting .pri → (t.strand k).st = .ready) := by
  refine ⟨_, exec_priResponse_of_there hp hbad hw hflag, ?_, fun r => ?_, fun r => ?_, fun k hk hst => ?_⟩
  · rw [foldl_admitted_eq]
    simp [mem_setRemove]
  · rw [foldl_admitted_eq]
    exact mem_filter_not_same
  · rw [foldl_admitted_eq]
    exact mem_filter_not_same
  · have hmem : p ∈ s.pri.filter p.same := List.mem_filter.mpr ⟨List.mem_of_getElem? hp, (same_iff p p).mpr ⟨rfl, rfl⟩⟩
    exact st_foldl_admitted_of_waiting hst hmem hk

/-- The same after a refusal: agents' refusals stand, and a strand is parked at its pair. -/
theorem priResponse_refuses {s : State} {p : PageRequest} (hp : s.pri[s.input.index]? = some p) (hbad : s.input.bad = [])
    (hw : s.slotWrites = []) (hflag : s.input.flag = true) :
    ∃ t : State, exec .priResponse s = .next t ∧ (∀ r, r ∈ t.pri → r ∈ s.pri ∧ ¬(r.fn = p.fn ∧ r.page = p.page)) ∧
      ((∃ c ch id, p.asker = .op c ch id) ∨ p.asker = .dispatcher → p ∈ t.hostRefused) ∧
      (∀ k x, p.asker = .strand k → x = s.strand k → x.st = .waiting .pri → s.silentStrand k = false →
        coreIsAtelier (strandCore k) = false → x.inHandler = false → x.inShadow = false → x.task = none →
        (∀ y, y ∈ s.pri → y.fn = p.fn ∧ y.page = p.page → y = p) →
        (t.strand k).st = .parked ∧ (t.strand k).pc = x.pc ∧ (t.strand k).taddr = p.va ∧
        (t.strand k).tcause = BitVec.ofNat 10 ((if p.slotA then 256 else 0) + 9) ∧
        (t.strand k).tinfo = BitVec.ofNat 64 (4 * 2 ^ 56 + (if p.acc < 4 then p.acc else 0) * 2 ^ 48)) := by
  have hmem : p ∈ s.pri.filter p.same := List.mem_filter.mpr ⟨List.mem_of_getElem? hp, (same_iff p p).mpr ⟨rfl, rfl⟩⟩
  refine ⟨_, exec_priResponse_of_refused hp hbad hw hflag, fun r hr => ?_, fun hagent => foldl_refusePage_of_agent hagent hmem _,
    fun k x hk hx hst hsilent ha hh hs ht honly => ?_⟩
  · obtain ⟨hpri, -, -⟩ := asksNothing_foldl_refusePage (s.pri.filter p.same) (s.priAnswered p)
    rw [hpri] at hr
    exact mem_filter_not_same.mp hr
  · subst hx
    have hl : ∀ q ∈ s.pri.filter p.same, q = p := fun q hq => by
      obtain ⟨hq, hsame⟩ := List.mem_filter.mp hq
      exact honly q hq ((same_iff p q).mp hsame)
    rw [strand_foldl_refusePage_of_waiting (s := s.priAnswered p) hk hl hmem hst hsilent ha hh hs ht, ← code_refusedAcc]
    exact ⟨rfl, rfl, rfl, rfl, rfl⟩

/-- Settles O47: what each of the host's writes does, by the lemma on it. -/
theorem hostEventsComplete : Obligations.HostEventsComplete := by
  refine ⟨?_, ?_⟩
  · intro s i m v zone
    refine ⟨fun hdown e he => exec_pageWrite_of_down hdown he, fun hup => ⟨exec_pcapWrite_of_up hup, ?_, ?_, ?_, exec_shctlClre_of_clre hup⟩,
      ?_, fun hup hno => ?_, ?_, fun hup => exec_hrlostClear_of_set hup, exec_hrlostClear_of_clear⟩
    · intro hgo hclre hbusy
      exact (exec_shootdownGo_of_go hup hgo hclre).trans (congrArg _ (if_pos hbusy))
    · intro hgo hclre hbusy hcnt
      exact (exec_shootdownGo_of_go hup hgo hclre).trans
        (congrArg _ ((if_neg (ne_true_of_eq_false hbusy)).trans (if_neg hcnt)))
    · intro hgo hclre hbusy hcnt
      refine ⟨_, (exec_shootdownGo_of_go hup hgo hclre).trans
        (congrArg _ ((if_neg (ne_true_of_eq_false hbusy)).trans (if_pos hcnt))), ?_⟩
      exact (finishShootdown_leaves _).1
    · intro hbusy hacc hwrites hheld
      obtain ⟨hmodule, -, -⟩ := (rolledBack_restartTasks s).keepsPages
      obtain ⟨hm, -, hrange, hplb⟩ := finishShootdown_leaves s.restartTasks
      rw [hmodule] at hm hrange hplb
      exact ⟨_, exec_shootdownComplete_of_quiet hbusy hacc hwrites hheld, hm, hrange, hplb⟩
    · exact (exec_hreq_of_up hup).trans (congrArg _ (hostRequest_of_no_room hno))
    · intro k hup hstart hfree hreports
      exact (exec_hreq_of_up hup).trans (congrArg _ (hostRequest_of_room hstart hfree hreports))
  · intro s i r v q low m
    refine ⟨fun hans => ⟨fun hlt => ?_, fun hge => ?_, fun hoff => exec_eventRingConfigWrite_of_base hans hoff, fun hoff => ?_⟩,
      fun hans => ⟨exec_eventRingTailWrite_of_silent hans, exec_eventRingConfigWrite_of_silent hans⟩,
      fun hup hfw hlive hfree => ⟨fun hoff hok => ?_, fun hlo hhi hok => ?_⟩,
      exec_spanConfigWrite_of_bound, exec_registerWrite_of_portsel, fun hflag hoff hlive hans hlt => ⟨fun hv => ?_, fun hv => ?_⟩,
      fun p hp hbad hw => ?_, fun b acc va pa fn c hask => ⟨fun hmem => ?_, hostGate_of_there hask⟩, fun hlt => ?_⟩
    · exact (exec_eventRingTailWrite_of_answering hans).trans (congrArg _ (congrArg (s.setRing s.input.fn) (if_pos hlt)))
    · refine ⟨_, exec_eventRingTailWrite_of_answering hans, (ring_setRing_self ..).trans (if_neg (Nat.not_lt.mpr hge))⟩
    · exact (exec_eventRingConfigWrite_of_ctl hans hoff).trans (congrArg _ (congrArg (s.setRing s.input.fn) (writeCtl_eq ..)))
    · exact (exec_spanConfigWrite_of_answering hup hfw).trans
        (congrArg _ ((spanWrite_of_free hlive hfree ..).trans ((if_pos hoff).trans (if_pos hok))))
    · have hne : s.input.off ≠ 0 := by intro h; rw [show i.off = 0 from h] at hlo; omega
      exact (exec_spanConfigWrite_of_answering hup hfw).trans
        (congrArg _ ((spanWrite_of_free hlive hfree ..).trans ((if_neg hne).trans ((if_pos ⟨hlo, hhi⟩).trans (if_pos hok)))))
    · exact (exec_registerWrite_of_qprio hflag hoff hlive hans hlt).trans
        (congrArg _ (congrArg (s.setQueue s.input.part s.input.queue) (if_neg (Nat.not_le.mpr hv))))
    · exact (exec_registerWrite_of_qprio hflag hoff hlive hans hlt).trans
        (congrArg _ (congrArg (s.setQueue s.input.part s.input.queue) (if_pos hv)))
    · cases hflag : s.input.flag with
      | false =>
        obtain ⟨t, hexec, h⟩ := priResponse_admits hp hbad hw hflag
        exact ⟨t, hexec, fun _ => h, nofun⟩
      | true =>
        obtain ⟨t, hexec, h⟩ := priResponse_refuses hp hbad hw hflag
        exact ⟨t, hexec, nofun, fun _ => h⟩
    · exact ⟨_, hostGate_of_refused hask hmem, rfl, rfl, faultMet_forgets_refusal rfl⟩
    · exact if_neg (Nat.not_le.mpr hlt)

end Sys2Proof.Machine
end

section
/-! SUPPORT. Thrumuth links: flits, replays, failures, breaks and lane widths (08 R215–R216, 13 R314 and R316, 20 R451–R457). -/

namespace Sys2Proof.Machine

/-! ## A flit's header and CRC (R451) -/

/-- The number that a port's header is. -/
def Port.headerOf (p : Port) (cls dmod smod span len : Nat) : Nat :=
  p.seq.toNat * 2 ^ 52 + (p.expect - 1#12).toNat * 2 ^ 40 + (if p.nakOwed then 2 ^ 39 else 0) + cls * 2 ^ 36 + dmod * 2 ^ 30 + smod * 2 ^ 24
    + span * 2 ^ 8 + len
/-- An idle flit's bytes before its CRC. -/
def Port.idleBody (p : Port) : List Byte := toBytes 8 (p.headerOf 6 0 0 0 0) ++ List.replicate 240 0#8

theorem length_idleBody (p : Port) : p.idleBody.length = 248 := by
  rw [Port.idleBody, List.length_append, length_toBytes, List.length_replicate]
theorem bytes_idleOf (p : Port) : (idleOf p).bytes = p.idleBody ++ toBytes 8 (crc64 p.idleBody).toNat := by
  simp only [idleOf, Port.frame, List.take_nil, List.length_nil, List.append_nil, Nat.sub_zero]
  rfl
theorem length_bytes_idleOf (p : Port) : (idleOf p).bytes.length = 256 := by
  rw [bytes_idleOf, List.length_append, length_idleBody, length_toBytes]
theorem header_idleOf (p : Port) : (idleOf p).header = p.headerOf 6 0 0 0 0 % 256 ^ 8 := by
  rw [LinkFlit.header, bytes_idleOf, Port.idleBody, List.append_assoc, List.take_append_of_le_length (by simp),
    List.take_of_length_le (by simp), ofBytes_toBytes]

/-- The fields of an idle flit's header. -/
theorem fields_idleOf (p : Port) :
    (idleOf p).seq = p.seq ∧ (idleOf p).ack = p.expect - 1#12 ∧ (idleOf p).nak = p.nakOwed ∧ (idleOf p).cls = 6 ∧ (idleOf p).len = 0 := by
  simp only [LinkFlit.seq, LinkFlit.ack, LinkFlit.nak, LinkFlit.cls, LinkFlit.len, header_idleOf, Port.headerOf, bitAt, bits]
  have hseq := p.seq.isLt
  have hack := (p.expect - 1#12).isLt
  generalize hn : (if p.nakOwed then 2 ^ 39 else 0 : Nat) = n
  have hnak : n = 0 ∧ p.nakOwed = false ∨ n = 2 ^ 39 ∧ p.nakOwed = true := by
    cases h : p.nakOwed <;> simp [h, ← hn]
  refine ⟨BitVec.eq_of_toNat_eq ?_, BitVec.eq_of_toNat_eq ?_, ?_, ?_, ?_⟩
  · rw [BitVec.toNat_ofNat]; omega
  · rw [BitVec.toNat_ofNat]; omega
  · obtain ⟨h, hb⟩ | ⟨h, hb⟩ := hnak
    · rw [hb, beq_eq_false_iff_ne]; omega
    · rw [hb, beq_iff_eq]; omega
  · omega
  · omega

theorem good_idleOf (p : Port) : (idleOf p).good = true := by
  obtain ⟨-, -, -, hcls, hlen⟩ := fields_idleOf p
  have hcrc : BitVec.ofNat 64 (ofBytes (toBytes 8 (crc64 p.idleBody).toNat)) = crc64 p.idleBody := by
    rw [ofBytes_toBytes, show 256 ^ 8 = 2 ^ 64 from rfl, Nat.mod_eq_of_lt (crc64 p.idleBody).isLt, BitVec.ofNat_toNat, BitVec.setWidth_eq]
  have hbody : (idleOf p).bytes.take 248 = p.idleBody := by
    rw [bytes_idleOf, List.take_left' (length_idleBody p)]
  have htail : (idleOf p).bytes.drop 248 = toBytes 8 (crc64 p.idleBody).toNat := by
    rw [bytes_idleOf, List.drop_left' (length_idleBody p)]
  rw [LinkFlit.good, hbody, htail, hcrc, length_bytes_idleOf, hcls, hlen]
  simp

/-! ## Flits that arrive, and idle ones (R451, R452) -/

theorem flush_of_empty {s : State} (h : s.outbox = []) : s.flush = s := by
  rw [State.flush, h, List.foldl_nil, ← h]
theorem takeFlit_of_empty {s : State} (h : s.outbox = []) (k : Nat) (f : LinkFlit) :
    s.takeFlit k f = s.setPort k ((s.port k).receive f s.time) := flush_of_empty h

section
variable {p : Port} {f : LinkFlit} (now : Nat)

theorem receive_of_expected (hg : f.good = true) (hseq : f.seq = p.expect) :
    p.receive f now =
      { Port.acknowledge { p with lastArrival := now } f.ack with
        expect := p.expect + 1#12, nakOwed := false, fails := 0, replayDue := p.replayDue || f.nak
        delivered := if f.cls = 6 then p.delivered else p.delivered ++ [f] } :=
  (if_neg (not_bnot_of_true hg)).trans (if_pos hseq)
theorem receive_of_bad (hg : f.good = false) :
    p.receive f now =
      { p with lastArrival := now, nakOwed := true, fails := if p.nakOwed && f.seq != p.expect then p.fails else p.fails + 1 } :=
  if_pos (bnot_of_false hg)
theorem receive_of_other (hg : f.good = true) (hseq : f.seq ≠ p.expect) :
    (p.receive f now).delivered = p.delivered ∧ (p.receive f now).expect = p.expect := by
  have h : p.receive f now = if 2048 ≤ (p.expect - f.seq).toNat then { p with lastArrival := now, nakOwed := true }
      else { p with lastArrival := now } := (if_neg (not_bnot_of_true hg)).trans (if_neg hseq)
  rw [h]
  split <;> exact ⟨rfl, rfl⟩
end

section
variable {s : State} {f : LinkFlit} (hout : s.outbox = []) (hf : s.input.flit = some f) (hup : (s.port s.input.port).up = true)
include hout hf hup

/-- A flit that completes no request is the port's alone. -/
theorem exec_flitReceive_of_plain (h : f.good = false ∨ s.input.flag = false) :
    exec .flitReceive s = .next (s.setPort s.input.port ((s.port s.input.port).receive f s.time)) := by
  have hplain : (!(f.good && f.seq == (s.port s.input.port).expect && s.input.flag && s.flitFor f s.input)) = true := by
    obtain h | h := h <;> simp [h]
  show execFlitReceive s = _
  simp only [execFlitReceive, hf, hup, hplain, Bool.not_true, Bool.false_eq_true, if_false, if_true, takeFlit_of_empty hout]

/-- A request whose tag is in the log is answered, and not applied (R456). -/
theorem exec_flitReceive_of_logged {x : Nat} (hg : f.good = true) (hseq : f.seq = (s.port s.input.port).expect)
    (hflag : s.input.flag = true) (hcls : f.cls = 0 ∨ f.cls = 1 ∧ 12 ≤ s.input.level) (hfor : s.flitFor f s.input = true)
    (hfull : s.logFull (s.spanNo s.input.part) s.input.owner = false)
    (htag : s.tagLog.find? (tagKey (s.spanNo s.input.part) s.input.owner (BitVec.ofNat 64 s.input.index)) = some x) :
    exec .flitReceive s =
      .next (State.respond (s.setPort s.input.port ((s.port s.input.port).receive f s.time)) s.input) := by
  have honce : s.serveOnce s.input = (s, true) := if_pos (by simp [State.inputTag, htag])
  have hreq : (decide (f.cls = 0) || (decide (f.cls = 1) && decide (12 ≤ s.input.level))) = true := by simpa using hcls
  have hseq' : (f.seq == (s.port s.input.port).expect) = true := beq_iff_eq.mpr hseq
  show execFlitReceive s = _
  simp only [execFlitReceive, hf, hup, hg, hseq', hflag, hfor, hreq, hfull, honce, Bool.and_self, Bool.not_true, Bool.false_eq_true, if_false,
    if_true, takeFlit_of_empty hout]
end

section
variable {s : State} {i : Input} {x : Nat} (htag : s.tagLog.find? (s.inputTag i) = some x)
include htag

theorem respond_of_home (hto : i.pushTo = none) :
    s.respond i = s.transmit { part := i.part, module := i.owner, cls := 1, what := [i.index, x], toEngine := decide (12 ≤ i.level) } := by
  simp only [State.respond, htag, hto, Option.filter_none]
theorem respond_of_push {m : Nat} (hto : i.pushTo = some m) (hm : m ≠ s.ownModule i.part) (hx : x < 2 ^ 512) :
    s.respond i =
      s.transmit { part := i.part, module := m, cls := 1, what := [i.owner, i.index, i.dest.toNat, i.off, i.item, x], toEngine := true } := by
  have hrange : x ≠ rangeResponse := by
    refine Nat.ne_of_lt (hx.trans ?_)
    unfold rangeResponse
    exact pow_lt_pow_right₀ (by decide) (by decide)
  have hpush : (m != s.ownModule i.part && x != rangeResponse && (decide (x < 2 ^ 512) || decide (poisonMark ≤ x))) = true := by
    simp only [bne_iff_ne.mpr hm, bne_iff_ne.mpr hrange, decide_eq_true hx, Bool.true_or, Bool.and_self]
  simp only [State.respond, htag, hto, Option.filter_some, hpush, if_true]
end

theorem exec_nakReplay_of_due {s : State} (hup : (s.port s.input.port).up = true) (hdue : (s.port s.input.port).replayDue = true) :
    exec .nakReplay s =
      .next { s.setPort s.input.port { s.port s.input.port with replayDue := false, lastSent := s.time } with
        outputs := s.outputs ++ (s.port s.input.port).replay.map fun f => Output.flit s.input.port f } :=
  if_neg (by simp [hup, hdue])

theorem exec_idleFlit_of_silent {s : State} (hout : s.outbox = []) (hup : (s.port s.input.port).up = true)
    (hlate : (s.port s.input.port).lastSent + 100 ≤ s.time) (hroom : (s.port s.input.port).replay.length < 1024) :
    exec .idleFlit s =
      .next { s.setPort s.input.port
          { s.port s.input.port with
            seq := (s.port s.input.port).seq + 1#12, replay := (s.port s.input.port).replay ++ [idleOf (s.port s.input.port)]
            lastSent := s.time } with
        outputs := s.outputs ++ [Output.flit s.input.port (idleOf (s.port s.input.port))] } := by
  show execIdleFlit s = _
  rw [execIdleFlit, flush_of_empty hout]
  exact if_neg (by simp [hup, Nat.not_lt.mpr hlate, Nat.not_le.mpr hroom])
theorem exec_idleFlit_of_full {s : State} (hout : s.outbox = []) (hfull : 1024 ≤ (s.port s.input.port).replay.length) :
    exec .idleFlit s = .next s := by
  show execIdleFlit s = _
  rw [execIdleFlit, flush_of_empty hout]
  exact if_pos (by simp [hfull])

/-! ## Lane widths (R215, R216, R452, R453) -/

theorem setDir_dir (p : Port) (rx : Bool) : p.setDir rx (p.dir rx) = p := by cases rx <;> rfl

/-- An event of a port's direction changes that direction. -/
theorem exec_of_onDir {s : State} {e : Instr} {f : Port → LinkDir → LinkDir} (he : exec e s = s.onDir f) (hk : s.input.port < 96)
    {x : LinkDir} (hx : f (s.port s.input.port) ((s.port s.input.port).dir s.input.flag) = x) :
    exec e s = .next (s.setPort s.input.port ((s.port s.input.port).setDir s.input.flag x)) := by
  subst hx
  exact he.trans (congrArg _ (if_neg (Nat.not_le.mpr hk)))

section
variable {s : State} {l : LinkDir} (hk : s.input.port < 96) (hl : (s.port s.input.port).dir s.input.flag = l)
include hk hl

theorem exec_laneShed_of_short (hup : (s.port s.input.port).up = true) (hshed : (s.port s.input.port).noshed = false)
    (hst : l.st = .steady) (hlanes : l.lanes ≠ .x1) (habove : l.aboveAt ≤ s.input.off) (hlate : s.input.off + 20000 ≤ s.time) :
    exec .laneShed s = .next (s.setPort s.input.port ((s.port s.input.port).setDir s.input.flag { l with st := .narrowing })) := by
  refine exec_of_onDir (show exec .laneShed s = execLaneShed s from rfl) hk ?_
  rw [hl]
  exact if_neg (by simp [hup, hshed, hst, hlanes, habove, hlate])
theorem exec_laneShed_of_noshed (hshed : (s.port s.input.port).noshed = true) :
    exec .laneShed s = .next (s.setPort s.input.port (s.port s.input.port)) := by
  refine (exec_of_onDir (show exec .laneShed s = execLaneShed s from rfl) hk (x := l) ?_).trans ?_
  · rw [hl]
    exact if_pos (by simp [hshed])
  · rw [← hl, setDir_dir]

section
variable (hup : (s.port s.input.port).up = true) (hpast : (s.port s.input.port).threshold < s.input.off)
include hup hpast

theorem exec_laneWiden_of_narrowing (hst : l.st = .narrowing) :
    exec .laneWiden s =
      .next (s.setPort s.input.port ((s.port s.input.port).setDir s.input.flag { l with aboveAt := s.time, st := .steady })) := by
  refine exec_of_onDir (show exec .laneWiden s = execLaneWiden s from rfl) hk ?_
  rw [hl]
  exact (if_neg (by simp [hup, hpast])).trans (by simp only [hst])
theorem exec_laneWiden_of_steady (hst : l.st = .steady) (hlanes : l.lanes ≠ widest l.goodLanes) :
    exec .laneWiden s =
      .next (s.setPort s.input.port ((s.port s.input.port).setDir s.input.flag { l with aboveAt := s.time, st := .widening })) := by
  refine exec_of_onDir (show exec .laneWiden s = execLaneWiden s from rfl) hk ?_
  rw [hl]
  refine (if_neg (by simp [hup, hpast])).trans ?_
  simp only [hst]
  exact if_neg (by simp [hlanes])
end

theorem exec_laneTrainingComplete_of_narrowing (hst : l.st = .narrowing) :
    exec .laneTrainingComplete s =
      .next (s.setPort s.input.port
        ((s.port s.input.port).setDir s.input.flag { l with st := .steady, lanes := narrower l.lanes, aboveAt := s.time })) := by
  refine exec_of_onDir (show exec .laneTrainingComplete s = execLaneTrainingComplete s from rfl) hk ?_
  rw [hl]
  simp only [hst]
theorem exec_laneTrainingComplete_of_widening (hst : l.st = .widening) :
    exec .laneTrainingComplete s =
      .next (s.setPort s.input.port ((s.port s.input.port).setDir s.input.flag { l with st := .steady, lanes := widest l.goodLanes })) := by
  refine exec_of_onDir (show exec .laneTrainingComplete s = execLaneTrainingComplete s from rfl) hk ?_
  rw [hl]
  simp only [hst]
theorem exec_laneFault_of_whole (hlanes : l.lanes = .x4) (hgood : l.goodLanes = 4) :
    exec .laneFault s =
      .next (s.setPort s.input.port ((s.port s.input.port).setDir s.input.flag { l with goodLanes := 3, lanes := .x2 })) := by
  refine exec_of_onDir (show exec .laneFault s = execLaneFault s from rfl) hk ?_
  rw [hl]
  simp only [hlanes, hgood]
  rfl
end

/-! ## Traffic in doubt (R455, R457) -/

/-- A port on which nothing is sent stays. -/
theorem port_sendNow_ne {s : State} {j k : Nat} (h : j ≠ k) (x : Outgoing) (b : List Byte) : (s.sendNow x b k).port j = s.port j := by
  have hflit : ∀ (u : State) (f : LinkFlit), (u.sendFlit k f).port j = u.port j := fun u f => State.port_setPort_ne u _ h
  have hfold : ∀ (l : List Nat) (g : State → Nat → LinkFlit) (u : State),
      (l.foldl (fun u i => u.sendFlit k (g u i)) u).port j = u.port j := fun l g u => by
    induction l generalizing u with
    | nil => rfl
    | cons i l ih => exact (ih _).trans (hflit ..)
  exact (State.port_setPort_ne _ _ h).trans (hfold ..)

/-- Traffic takes ports that are up. -/
theorem up_of_openPort {s : State} {p m n k : Nat} (h : s.openPort p m n = some k) : (s.port k).up = true := by
  unfold State.openPort at h
  split at h
  · cases h
  · obtain ⟨hroute, -⟩ := Option.filter_eq_some_iff.mp h
    have hk := List.find?_some hroute
    rw [Bool.and_eq_true] at hk
    exact hk.2
theorem port_transmit_of_down {s : State} {j : Nat} (h : (s.port j).up = false) (x : Outgoing) : (s.transmit x).port j = s.port j := by
  simp only [State.transmit]
  split
  · rfl
  · split
    · next k hk =>
      have hne : j ≠ k := by
        rintro rfl
        rw [up_of_openPort hk] at h
        cases h
      exact port_sendNow_ne hne ..
    · rfl
theorem port_flush_of_down {s : State} {j : Nat} (h : (s.port j).up = false) : s.flush.port j = s.port j := by
  have hfold : ∀ (l : List Outgoing) (u : State), (u.port j).up = false → (l.foldl (fun u x => u.transmit x) u).port j = u.port j :=
    fun l => by
      induction l with
      | nil => exact fun _ _ => rfl
      | cons x l ih =>
        intro u hu
        have hx := port_transmit_of_down hu x
        exact (ih _ (by rw [hx]; exact hu)).trans hx
  exact hfold s.outbox { s with outbox := [] } h
theorem transmitted_flush (s : State) : Transmitted s s.flush :=
  Transmitted.trans (t := { s with outbox := [] }) rfl (Transmitted.foldl transmitted_transmit _ _)

theorem traffic_flush (s : State) : s.flush.messages = s.messages ∧ s.flush.packets = s.packets ∧ s.flush.ops = s.ops := by
  rw [transmitted_flush]
  exact ⟨rfl, rfl, rfl⟩

theorem exec_linkFailure_of_failing {s : State} (hup : (s.port s.input.port).up = true)
    (h : 16 ≤ (s.port s.input.port).fails ∨ (s.port s.input.port).lastArrival + 2000 ≤ s.time) :
    exec .linkFailure s =
      .next (s.setPort s.input.port { s.port s.input.port with up := false, failedAt := some s.time, settled := [] }) := by
  refine if_neg ?_
  simp only [hup, Bool.not_true, Bool.false_or, Bool.and_eq_true, decide_eq_true_eq]
  omega
theorem exec_linkFailure_of_sound {s : State} (hfails : (s.port s.input.port).fails < 16)
    (htime : s.time < (s.port s.input.port).lastArrival + 2000) : exec .linkFailure s = .next s :=
  if_pos (by simp [hfails, htime])

/-- A failed port is settled with the module of the input, and the items of `lost` that go out again wait ahead. -/
def State.settledOver (s : State) (lost : List Outgoing) : State :=
  let i := s.input
  let p := s.port i.port
  { s.setPort i.port (p.settle i.part (s.spanNo i.part) i.module) with
    outbox := s.control5 i.part i.module [ctlDelivered, i.port, (p.expect - 1#12).toNat] :: lost.filter Outgoing.resent ++ s.outbox
    nextTag := s.nextTag + 1 }
theorem port_settledOver (s : State) (lost : List Outgoing) :
    (s.settledOver lost).port s.input.port =
      (s.port s.input.port).settle s.input.part (s.spanNo s.input.part) s.input.module := State.port_setPort_self ..
/-- A failed port is settled without another. -/
def State.settledAlone (s : State) : State :=
  s.setPort s.input.port ((s.port s.input.port).settle s.input.part (s.spanNo s.input.part) s.input.module)
/-- The host hears of a broken span, whose partition may be drained. -/
def State.spanBroken (s : State) (q m : Nat) : State :=
  let s := s.hostReport 5 (BitVec.ofNat 64 (q * 64 + m))
  if s.input.flag && (s.part q).live then s.orderDrain q 3#4 else s

theorem unsettled_iff (p : Port) (part m : Nat) :
    p.unsettled part m = true ↔ p.failedAt.isSome = true ∧ settledKey part m ∉ p.settled := by
  rw [Port.unsettled, Bool.and_eq_true, Bool.not_eq_true', ← Bool.not_eq_true, List.contains_iff_mem]

section
variable {s : State} {t0 : Nat} (hfailed : (s.port s.input.port).failedAt = some t0)
include hfailed

section
variable (hopen : settledKey s.input.part s.input.module ∉ (s.port s.input.port).settled)
include hopen

theorem unsettled_of_open : (s.port s.input.port).unsettled s.input.part s.input.module = true :=
  (unsettled_iff ..).mpr ⟨by rw [hfailed]; rfl, hopen⟩

theorem exec_linkReconciliation_of_open {k : Nat} (hroute : s.routePort s.input.part s.input.module = some k) {lost : List Outgoing}
    (hlost : lostItems (BitVec.ofNat 12 s.input.off) ((s.port s.input.port).doubtful s.input.part s.input.module) = lost) :
    exec .linkReconciliation s = .next (lost.foldl State.loseItem (s.settledOver lost)).flush := by
  subst hlost
  show execLinkReconciliation s = _
  simp only [execLinkReconciliation, hroute]
  exact if_neg (not_bnot_of_true (unsettled_of_open hfailed hopen))

theorem exec_spanBreak_of_open (hlate : t0 + 1000000 ≤ s.time) {lost : List Outgoing}
    (hlost : ((s.port s.input.port).doubtful s.input.part s.input.module).map (·.2) = lost) :
    exec .spanBreak s =
      .next (((lost.filter fun x => x.op.isSome || x.cls == 2 || x.cls == 4).foldl State.loseItem s.settledAlone).spanBroken s.input.part
        s.input.module) := by
  subst hlost
  exact if_neg (by simp [unsettled_of_open hfailed hopen, hfailed, hlate])
end

theorem exec_spanBreak_of_early (h : s.time < t0 + 1000000 ∨ ¬settledKey s.input.part s.input.module ∉ (s.port s.input.port).settled) :
    exec .spanBreak s = .next s := by
  refine if_pos ?_
  rw [Bool.or_eq_true, Bool.not_eq_true', ← Bool.not_eq_true, unsettled_iff, hfailed, decide_eq_true_iff]
  exact h.symm.imp (fun h h' => h h'.2) fun h => h
end

/-! ## The fate of an item in doubt (R316, R455) -/

theorem doubtful_of_sent {p : Port} {part m : Nat} {n : BitVec 12} {x : Outgoing} (h : p.sent = [(n, x)]) (hp : x.part = part)
    (hm : x.module = m) : p.doubtful part m = [(n, x)] := by
  simp [Port.doubtful, h, hp, hm]
theorem doubtful_of_nothing {p : Port} (h : p.sent = []) (part m : Nat) : p.doubtful part m = [] := by
  rw [Port.doubtful, h, List.filter_nil]
theorem lostItems_of_after {n last : BitVec 12} (hne : n ≠ last) (hlt : (n - last).toNat < 2048) (x : Outgoing) :
    lostItems last [(n, x)] = [x] := by
  rw [lostItems, List.filter_cons_of_pos (by rw [bne_iff_ne.mpr hne, decide_eq_true hlt]; rfl), List.filter_nil]
  rfl
theorem lostItems_of_delivered (last : BitVec 12) (x : Outgoing) : lostItems last [(last, x)] = [] := by simp [lostItems]

/-- The only message comes back LINK_LOST. -/
theorem loseItem_of_message {s : State} {x : Outgoing} {m : Message} (hop : x.op = none) (hcls : x.cls = 2) (hmsgs : s.messages = [m])
    (hm : m.module = some x.module) (hsts : m.sts = 0#4) (hbody : x.what.getD 2 0 = m.body)
    (hzone : s.zonePart (coreZone m.srcCore) = some x.part) : s.loseItem x = { s with messages := [m.back 4#4] } := by
  simp only [State.loseItem, hop, hcls, State.loseMessage, hmsgs, List.map_cons, List.map_nil, hm, hsts, hbody, hzone, beq_self_eq_true,
    Bool.and_self, Option.getD_some, if_true]
/-- The operation whose part was on its way ends LINK_LOST. -/
theorem loseItem_of_part {s : State} {x : Outgoing} {t : OpPart} {j : Nat} {o : Op} (hop : x.op = some t)
    (hj : s.opIndex t.core t.ch t.id = some j) (ho : s.ops[j]? = some o) (hasked : (o.asked.find? t.elem).isSome = true)
    (hgath : o.kind ≠ .gath) (hscat : o.kind ≠ .scat) : s.loseItem x = s.setOp j (o.endLost (t.elem / 128)) := by
  have hnone : (o.asked.find? t.elem).isNone = false := by rw [Option.isNone_eq_false_iff, hasked]
  simp only [State.loseItem, hop, State.loseOpPart, hj, State.withOp, ho, hnone, beq_eq_false_iff_ne.mpr hgath,
    beq_eq_false_iff_ne.mpr hscat, Bool.or_self, Bool.false_eq_true, if_false]

/-! ## What a broken span leaves (R457) -/

def KeepsTraffic (s t : State) : Prop := t.messages = s.messages ∧ t.ops = s.ops ∧ ∀ k, t.port k = s.port k

theorem KeepsTraffic.trans {s t u : State} (h : KeepsTraffic s t) (h' : KeepsTraffic t u) : KeepsTraffic s u := by
  obtain ⟨hm, ho, hp⟩ := h
  obtain ⟨hm', ho', hp'⟩ := h'
  exact ⟨hm'.trans hm, ho'.trans ho, fun k => (hp' k).trans (hp k)⟩

theorem hostReport_leaves (s : State) (what : Nat) (v : Word) :
    KeepsTraffic s (s.hostReport what v) ∧ Output.report what v ∈ (s.hostReport what v).outputs ∧
      (∀ q, (s.hostReport what v).part q = s.part q) ∧ (s.hostReport what v).input = s.input := by
  have hin : Output.report what v ∈ s.outputs ++ [Output.report what v] := List.mem_append_right _ List.mem_cons_self
  simp only [State.hostReport]
  split
  · exact ⟨⟨rfl, rfl, fun _ => rfl⟩, hin, fun _ => rfl, rfl⟩
  · simp only [State.ringPush]
    rw [onlyBytes_writePa]
    exact ⟨⟨rfl, rfl, fun _ => rfl⟩, List.mem_append_left _ hin, fun _ => rfl, rfl⟩
theorem orderDrain_leaves (s : State) (q : Nat) (sts : BitVec 4) :
    KeepsTraffic s (s.orderDrain q sts) ∧ (s.orderDrain q sts).outputs = s.outputs := by
  simp only [State.orderDrain]
  split
  · exact ⟨⟨rfl, rfl, fun _ => rfl⟩, rfl⟩
  · split <;> exact ⟨⟨rfl, rfl, fun _ => rfl⟩, rfl⟩
theorem spanBroken_leaves (s : State) (q m : Nat) :
    KeepsTraffic s (s.spanBroken q m) ∧ Output.report 5 (BitVec.ofNat 64 (q * 64 + m)) ∈ (s.spanBroken q m).outputs := by
  obtain ⟨hkeep, hin, -, -⟩ := hostReport_leaves s 5 (BitVec.ofNat 64 (q * 64 + m))
  simp only [State.spanBroken]
  split
  · obtain ⟨hdrain, hout⟩ := orderDrain_leaves (s.hostReport 5 (BitVec.ofNat 64 (q * 64 + m))) q 3#4
    exact ⟨hkeep.trans hdrain, hout ▸ hin⟩
  · exact ⟨hkeep, hin⟩

/-- A running partition that reaches neither side drains for LINK_LOST. -/
theorem spanBroken_drains {s : State} {q : Nat} (hflag : s.input.flag = true) (hlive : (s.part q).live = true)
    (hgang : (s.part q).gang = .running) (m : Nat) :
    ((s.spanBroken q m).part q).gang = .draining ∧ ((s.spanBroken q m).part q).drainSts = 3#4 := by
  obtain ⟨-, -, hpart, hinput⟩ := hostReport_leaves s 5 (BitVec.ofNat 64 (q * 64 + m))
  have h : s.spanBroken q m = (s.hostReport 5 (BitVec.ofNat 64 (q * 64 + m))).startDrain q 3#4 := by
    simp only [State.spanBroken, hinput, hpart, hflag, hlive, Bool.and_self, if_true, State.orderDrain, hgang]
    rfl
  rw [h, State.startDrain, State.part_setPart_self]
  exact ⟨rfl, rfl⟩

/-- Settles O49: flits, requests answered from the log, failures with what they settle, and widths, by the lemmas on each event. -/
theorem linkEventsComplete : Obligations.LinkEventsComplete := by
  refine ⟨?_, ?_, ?_, ?_⟩
  · intro s i p now
    refine ⟨fun f hout hf hup hflag hg hseq => ?_, fun f hout hf hup hg => ?_, fun f hout hf hup hflag hg hseq => ?_,
      exec_nakReplay_of_due, fun hout hup hlate hroom => ?_, exec_idleFlit_of_full⟩
    · refine ⟨_, exec_flitReceive_of_plain hout hf hup (.inr hflag), ?_⟩
      rw [receive_of_expected now hg hseq]
      refine ⟨rfl, rfl, rfl, rfl, rfl, rfl, fun x => ?_⟩
      rw [Port.acknowledge, List.mem_filter, decide_eq_true_iff]
    · rw [exec_flitReceive_of_plain hout hf hup (.inl hg), receive_of_bad s.time hg]
    · exact ⟨_, exec_flitReceive_of_plain hout hf hup (.inr hflag), receive_of_other now hg hseq⟩
    · obtain ⟨hseq, hack, hnak, hcls, hlen⟩ := fields_idleOf p
      exact ⟨idleOf p, length_bytes_idleOf p, good_idleOf p, hcls, hseq, hack, hnak, hlen, exec_idleFlit_of_silent hout hup hlate hroom⟩
  · intro s f x i u hout hf hup hg hseq hflag hcls hfor hfull htag
    have htag' : u.tagLog.find? (u.inputTag i) = some x := htag
    exact ⟨exec_flitReceive_of_logged hout hf hup hg hseq hflag hcls hfor hfull htag, respond_of_home htag',
      fun m hto hm hx => respond_of_push htag' hto hm hx⟩
  · intro s i p last sentMessage open_ sentPart
    refine ⟨exec_linkFailure_of_failing, exec_linkFailure_of_sound, fun t0 k hfailed hopen hroute => ?_,
      fun t0 hfailed hopen hlate => ?_, fun t0 hfailed => exec_spanBreak_of_early hfailed⟩
    · refine ⟨_, exec_linkReconciliation_of_open hfailed hopen hroute rfl, fun hnone => ?_, fun n m hmsg => ⟨fun hne hlt => ?_, fun hn => ?_⟩,
        fun n j e o hpart => ⟨fun hne hlt => ?_, fun hn => ?_⟩⟩
      · obtain ⟨hm, hp, -⟩ := traffic_flush (s.settledOver [])
        rw [doubtful_of_nothing hnone]
        exact ⟨hm, hp, fun hdown => (port_flush_of_down (port_settledOver s [] ▸ hdown)).trans (port_settledOver s [])⟩
      · obtain ⟨x, hsent, hp, hmod, hop, hcls, hbody, hmsgs, hm, hsts, hzone⟩ := hmsg
        rw [doubtful_of_sent hsent hp hmod, lostItems_of_after hne hlt, List.foldl_cons, List.foldl_nil,
          loseItem_of_message (s := s.settledOver [x]) hop hcls hmsgs (hmod ▸ hm) hsts hbody (hp ▸ hzone)]
        exact (traffic_flush _).1
      · obtain ⟨x, hsent, hp, hmod, -, -, -, hmsgs, -⟩ := hmsg
        rw [doubtful_of_sent hsent hp hmod, hn, lostItems_of_delivered]
        exact (traffic_flush _).1.trans hmsgs
      · obtain ⟨x, t, hsent, hp, hmod, hop, rfl, hj, ho, hasked, hgath, hscat⟩ := hpart
        rw [doubtful_of_sent hsent hp hmod, lostItems_of_after hne hlt, List.foldl_cons, List.foldl_nil,
          loseItem_of_part (s := s.settledOver [x]) hop hj ho hasked hgath hscat]
        exact (traffic_flush _).2.2
      · obtain ⟨x, t, hsent, hp, hmod, -⟩ := hpart
        rw [doubtful_of_sent hsent hp hmod, hn, lostItems_of_delivered]
        exact (traffic_flush _).2.2
    · refine ⟨_, exec_spanBreak_of_open hfailed hopen hlate rfl, fun hnone => ?_, fun n m hmsg => ?_, fun n j e o hpart => ?_,
        fun hnone hflag hlive hgang => ?_⟩
      · obtain ⟨⟨hm, -, hports⟩, hin⟩ := spanBroken_leaves s.settledAlone s.input.part s.input.module
        rw [doubtful_of_nothing hnone]
        exact ⟨hm, (hports _).trans (State.port_setPort_self ..), hin⟩
      · obtain ⟨x, hsent, hp, hmod, hop, hcls, hbody, hmsgs, hm, hsts, hzone⟩ := hmsg
        rw [doubtful_of_sent hsent hp hmod, List.map_cons, List.map_nil, List.filter_cons_of_pos (by simp [hcls]), List.filter_nil,
          List.foldl_cons, List.foldl_nil,
          loseItem_of_message (s := s.settledAlone) hop hcls hmsgs (hmod ▸ hm) hsts hbody (hp ▸ hzone)]
        exact (spanBroken_leaves _ _ _).1.1
      · obtain ⟨x, t, hsent, hp, hmod, hop, rfl, hj, ho, hasked, hgath, hscat⟩ := hpart
        rw [doubtful_of_sent hsent hp hmod, List.map_cons, List.map_nil, List.filter_cons_of_pos (by simp [hop]), List.filter_nil,
          List.foldl_cons, List.foldl_nil, loseItem_of_part (s := s.settledAlone) hop hj ho hasked hgath hscat]
        exact (spanBroken_leaves _ _ _).1.2.1
      · rw [doubtful_of_nothing hnone]
        exact spanBroken_drains (s := s.settledAlone) hflag hlive hgang _
  · intro s i p l becomes hk
    refine ⟨fun hup hshed hst hlanes habove hlate => exec_laneShed_of_short hk rfl hup hshed hst hlanes habove hlate,
      fun hshed => ⟨_, exec_laneShed_of_noshed hk rfl hshed, State.port_setPort_self ..⟩,
      fun hup hpast => ⟨exec_laneWiden_of_narrowing hk rfl hup hpast, exec_laneWiden_of_steady hk rfl hup hpast⟩,
      fun hst hlanes => ?_, fun hst hlanes => ?_, exec_laneTrainingComplete_of_widening hk rfl, exec_laneFault_of_whole hk rfl⟩
    · have h := exec_laneTrainingComplete_of_narrowing hk rfl hst
      rwa [hlanes] at h
    · have h := exec_laneTrainingComplete_of_narrowing hk rfl hst
      rwa [hlanes] at h

end Sys2Proof.Machine
end

section
/-! SUPPORT. LAUNCH, LAUNCHI and LAUNCH.Q: what becomes of the record that they have read (09 R227–R229). -/

namespace Sys2Proof.Machine

/-! ## The direct queue (R227, R228) -/

section
variable {s : State} (d : Reg) (va : Word) (indirect : Bool) (r : BitVec 1024)

theorem placeDirect_of_full (hfull : 64 ≤ (s.part s.selfPart).direct.length) :
    s.placeDirect d va indirect r = .next (s.setG d minusOne) := if_pos hfull
theorem placeDirect_of_room {l : Launch} (hroom : (s.part s.selfPart).direct.length < 64) (hl : s.selfLaunch = some l) :
    s.placeDirect d va indirect r = .next ((s.setPart s.selfPart { s.part s.selfPart with direct := (s.part s.selfPart).direct ++
      [{ record := r, indirect := indirect, addr := va, wdtUs := l.wdtUs, queue := l.wdtQueue }] }).setG d 0#64) := by
  simp only [State.placeDirect, if_neg (Nat.not_le.mpr hroom), hl, Option.map_some, Option.getD_some]
end

/-! ## A host queue (R229) -/

/-- Does selector `sel` name a queue that LAUNCH.Q of the issuing strand may fill? -/
def State.fillable (s : State) (sel : Nat) : Prop :=
  let part := s.part (bits sel 5 6)
  let q := s.queue (bits sel 5 6) (bits sel 0 5)
  sel < 2 ^ 11 ∧ part.live = true ∧ part.tenant = s.selfTenant ∧ q.st ≠ .off ∧ q.st ≠ .faulted ∧ q.st ≠ .frozen

/-- The test by which LAUNCH.Q refuses a selector. -/
theorem not_fillable_iff (s : State) (sel : Nat) : ¬s.fillable sel ↔
    (2 ^ 11 ≤ sel || !(s.part (bits sel 5 6)).live || (s.part (bits sel 5 6)).tenant != s.selfTenant ||
      (s.queue (bits sel 5 6) (bits sel 0 5)).st == .off || (s.queue (bits sel 5 6) (bits sel 0 5)).st == .faulted ||
      (s.queue (bits sel 5 6) (bits sel 0 5)).st == .frozen) = true := by
  simp only [State.fillable, Bool.or_eq_true, decide_eq_true_eq, Bool.not_eq_true', bne_iff_ne, beq_iff_eq, not_and_or, not_lt,
    Bool.not_eq_true, ne_eq, not_not, or_assoc]

section
variable {s w1 w2 w3 : State} {tenant p : Nat} {va : Word}

/-- A packet is in its slot once its two record lines and then its sealed header have been written. -/
theorem packetWrite_of_done {k : Nat} {r : BitVec 1024} (hlow : s.dispWrite tenant p (va + 64#64) 64 (r.toNat % 2 ^ 512) = .done w1)
    (hhigh : w1.dispWrite tenant p (va + 128#64) 64 (r.toNat / 2 ^ 512 % 2 ^ 512) = .done w2)
    (hseal : w2.dispWrite tenant p va 64 (sealOf k) = .done w3) : s.packetWrite tenant p va k r = .done w3 := by
  rw [State.packetWrite, bits_zero_low, hlow, DispWrite.bind]
  refine (congrArg (DispWrite.bind · _) hhigh).trans hseal
end

theorem onePacket_eq (s : State) (p qn : Nat) : s.onePacket p qn = { s with parts := (s.onePacket p qn).parts } := rfl
theorem queue_setQueue_self (s : State) (p qn : Nat) (x : Queue) : (s.setQueue p qn x).queue p qn = x := by
  rw [State.queue, part_setQueue, FMap.getD_set_self]
theorem pend_queue_onePacket (s : State) (p qn : Nat) : ((s.onePacket p qn).queue p qn).pend = (s.queue p qn).pend + 1 := by
  rw [State.onePacket, queue_setQueue_self, apply_ite Queue.pend]
  exact ite_self _

/-! ## The three instructions, once the record is read -/

section
variable {s v : State} {a : Src} {x : Nat} (hp : PlainStrand s) (halign : (s.g a).toNat % 128 = 0)
  (hread : (s.drainCore s.selfCore).readBack (s.g a) 8 16 = .data x v)
include hp halign hread

theorem withRecord_of_data (f : BitVec 1024 → State → Res) : s.withRecord (s.g a) f = f (BitVec.ofNat 1024 x) v := by
  simp only [State.withRecord, halign, ne_eq, not_true, if_false, hp.gated, State.readStruct, hread]

theorem exec_launch_of_data (d : Reg) : exec (.launch d a) s = v.placeDirect d (v.g a) false (BitVec.ofNat 1024 x) :=
  (hp.unless ..).trans (withRecord_of_data hp halign hread _)
theorem exec_launchi_of_data (d : Reg) : exec (.launchi d a) s = v.placeDirect d (v.g a) true (BitVec.ofNat 1024 x) :=
  (hp.unless ..).trans (withRecord_of_data hp halign hread _)

variable (d : Reg) {b : Src} {sel pn qn : Nat} (hsel : (v.g b).toNat = sel) (hpn : bits sel 5 6 = pn) (hqn : bits sel 0 5 = qn)
include hsel

theorem exec_launchQ_of_unfillable (hno : ¬v.fillable sel) : exec (.launchQ d a b) s = .next (v.setG d (minusOne - 1#64)) := by
  subst hsel
  exact ((hp.unless ..).trans (withRecord_of_data hp halign hread _)).trans (if_pos ((not_fillable_iff ..).mp hno))

variable (hfill : v.fillable sel)
include hpn hqn hfill

theorem exec_launchQ_of_full (hfull : (v.queue pn qn).pend = (v.queue pn qn).size) :
    exec (.launchQ d a b) s = .next (v.setG d minusOne) := by
  subst hsel hpn hqn
  exact ((hp.unless ..).trans (withRecord_of_data hp halign hread _)).trans
    ((if_neg fun h => (not_fillable_iff ..).mpr h hfill).trans (if_pos hfull))
theorem exec_launchQ_of_room (hroom : (v.queue pn qn).pend ≠ (v.queue pn qn).size) {k : Nat}
    (hk : (v.queue pn qn).head + (v.queue pn qn).pend = k) {w : State}
    (hwrite : v.packetWrite (v.part pn).tenant pn ((v.queue pn qn).slotVa k) k (BitVec.ofNat 1024 x) = .done w) :
    exec (.launchQ d a b) s = .next ((w.onePacket pn qn).setG d (BitVec.ofNat 64 (k % 2 ^ 32))) := by
  subst hsel hpn hqn hk
  refine ((hp.unless ..).trans (withRecord_of_data hp halign hread _)).trans
    ((if_neg fun h => (not_fillable_iff ..).mpr h hfill).trans ((if_neg hroom).trans ?_))
  simp only [hwrite]
end

/-! ## The obligation -/

/-- Settles O36: once the record is read, LAUNCH and LAUNCHI place it, and LAUNCH.Q judges its selector, its queue's room, and writes. -/
theorem launchInstructionsComplete : Obligations.LaunchInstructionsComplete := by
  rintro s u v d a b x hp halign rfl hread p placed
  refine ⟨fun hfull => ?_, fun l hroom hl => ?_, ?_⟩
  · rw [exec_launch_of_data hp halign hread, exec_launchi_of_data hp halign hread]
    exact ⟨placeDirect_of_full d _ false _ hfull, placeDirect_of_full d _ true _ hfull⟩
  · rw [exec_launch_of_data hp halign hread, exec_launchi_of_data hp halign hread]
    exact ⟨placeDirect_of_room d _ false _ hroom hl, placeDirect_of_room d _ true _ hroom hl⟩
  · intro sel pn qn part q usable
    refine ⟨exec_launchQ_of_unfillable hp halign hread d rfl, exec_launchQ_of_full hp halign hread d rfl rfl rfl,
      fun w1 w2 w3 hfill hroom => ?_⟩
    intro k slot hlow hhigh hseal
    exact ⟨w3.onePacket pn qn, exec_launchQ_of_room hp halign hread d rfl rfl rfl hfill hroom rfl (packetWrite_of_done hlow hhigh hseal),
      onePacket_eq .., pend_queue_onePacket ..⟩

end Sys2Proof.Machine
end

section
/-! SUPPORT. STL: the registers that its store reads, and a store whose data register the drain before it fills (12 R293). -/

namespace Sys2Proof.Machine

/-- Past its checks an STL outside any task issues a store, whose address and data are read once the core's earlier accesses have
completed. -/
theorem exec_stl_of_check_ok {s u s' : State} (ht : s.before.task = none) (hu : s.drainCore s.selfCore = u) (hstop : u.cur.stopped = false)
    {d : Reg} {base : Src} {sz : BitVec 2} {scope : BitVec 3} {off : Ext 6} {va : Word} {n pa : Nat} {cached : Option (Nat × Nat)}
    (hn : sizeOf sz = n) (hva : u.g base + offsetOf off n = va) (hcheck : u.check .store va n = .ok pa cached s') :
    exec (.stl d base sz scope off) s = .next (s'.issueStore va pa n ((u.gr d).toNat % 2 ^ (8 * n)) cached) := by
  subst hu hn hva
  have htask : (s.drainCore s.selfCore).before.task = none := (sameIssuer_drainCore s s.selfCore).task_eq.trans ht
  have hstl : exec (.stl d base sz scope off) s =
      (s.drainCore s.selfCore).store ((s.drainCore s.selfCore).g base + offsetOf off (sizeOf sz)) (sizeOf sz)
        ((s.drainCore s.selfCore).data d) :=
    if_neg (by simp [hstop])
  exact hstl.trans (store_of_check_ok htask hcheck _)

/-- Slot 0 of an atelier core issues while the word 1 is on its way into its g1, which still reads 0. -/
def awaitsData : State :=
  { State.reset with
    cur := { strand := strandOf atelierBase 0 }
    accesses := [{ strand := strandOf atelierBase 0, kind := .value, dest := .g 1#4, pa := 0, n := 0, data := 1 }] }
/-- The same once the word has come. -/
def hasData : State := awaitsData.drainCore awaitsData.selfCore

theorem gr_awaitsData : awaitsData.gr 1#4 = 0#64 := rfl
theorem gr_hasData : hasData.gr 1#4 = 1#64 := rfl
/-- An atelier strand's address is physical: a store to a byte of HBM that no cache holds passes its checks, which change nothing. -/
theorem check_hasData : hasData.check .store 0#64 1 = .ok 0 none hasData := rfl

/-- Refutes O20: STL reads its base and its data once the core's earlier accesses have completed, and the clause of STL reads them as
they were before; an earlier load of either register, which that clause does not shut out, tells the two apart. -/
theorem not_orderedAccessesFencesCacheComplete : ¬ Obligations.OrderedAccessesFencesCacheComplete := by
  intro ⟨hordered, _⟩
  obtain ⟨-, hstl⟩ := hordered awaitsData hasData 1#4 ⟨0#4, false⟩ 0#2 0#3 ⟨0#6, none⟩ 0 none rfl rfl
  have hissued := (hstl check_hasData).symm.trans (exec_stl_of_check_ok rfl rfl rfl rfl rfl check_hasData)
  injection hissued with hissued
  have hdata : (awaitsData.gr 1#4).toNat % 2 ^ 8 = (hasData.gr 1#4).toNat % 2 ^ 8 :=
    congrArg Access.data (List.head_eq_of_cons_eq (List.append_cancel_left (congrArg State.accesses hissued)))
  rw [gr_awaitsData, gr_hasData] at hdata
  exact absurd hdata (by decide)

end Sys2Proof.Machine
end

section
/-! SUPPORT. Pages: PGMIG, PGOWN and PLBINV past their checks, and PAGE_MIGRATION (10 R252, R258, R262, R263, 12 R308–R311). -/

namespace Sys2Proof.Machine

/-! ## PGMIG and PGOWN past their checks (R308) -/

/-- An ordinary strand that may store to the page, and whose wait for the answer has ended. -/
theorem pageOp_of_protect {s v : State} {a : Src} {rg : Region} {gr : Grant} (hp : PlainStrand s) (hg : s.before.grant = some gr)
    (hlow : (s.g a).toNat < 2 ^ 57) (hwin : ¬(0x1FE ≤ windowOf (s.g a) ∨ (0x100 ≤ windowOf (s.g a) ∧ windowOf (s.g a) < 0x180)))
    (hprot : s.protect s.who .store (s.g a) = .ok (rg, v)) (f : Word → State → Res) : s.pageOp a f = f (s.g a) v.useGrant := by
  have hgrant : v.before.grant = some gr := by rw [before_protect hprot, hg]
  have hok : ¬((s.g a).toNat ≥ 2 ^ 57 ∨ 0x1FE ≤ windowOf (s.g a) ∨ (0x100 ≤ windowOf (s.g a) ∧ windowOf (s.g a) < 0x180)) := by
    rintro (h | h)
    · omega
    · exact hwin h
  simp only [State.pageOp, hp.unless, hp.gated, hok, if_false, hprot, answered_of_grant hgrant]

theorem withLeaf_of_leaf {u : State} {va : Word} {l : Leaf} (h : u.walk va = .leaf l) (f : Leaf → Res) : u.withLeaf va f = f l := by
  simp only [State.withLeaf, h]
theorem unlessHeld_of_none {u : State} {lo hi : Nat} (h : u.heldIn lo hi = none) (f : State → Res) : u.unlessHeld lo hi f = f u := by
  simp only [State.unlessHeld, h]

section
variable {s u : State} {a : Src} {va : Word} (hop : ∀ f, s.pageOp a f = f va u) (d : Reg)
include hop

section
variable (m : BitVec 32)

theorem exec_pgown_of_busy (hbusy : u.pageBusy va = true) :
    exec (.pgownGive d a m) s = .next (u.setG d 4#64) ∧ exec (.pgownTake d a m) s = .next (u.setG d 4#64) := by
  show execPgownGive d a m s = _ ∧ execPgownTake d a m s = _
  simp only [execPgownGive, execPgownTake, hop, hbusy, if_true, and_self]

variable {l : Leaf} (hfree : u.pageBusy va = false) (hwalk : u.walk va = .leaf l)
include hfree hwalk

/-- OWN is judged before PIN. -/
theorem exec_pgownGive_of_leaf : exec (.pgownGive d a m) s =
    if !l.own then .next (u.setG d 0#64) else if l.pin then .next (u.setG d 1#64)
    else u.unlessHeld (l.lines va).1 (l.lines va).2 fun u => .next ((u.giveToHost va l).setG d 0#64) := by
  show execPgownGive d a m s = _
  simp only [execPgownGive, hop, hfree, withLeaf_of_leaf hwalk, Bool.false_eq_true, if_false]
theorem exec_pgownTake_of_leaf : exec (.pgownTake d a m) s =
    if l.own then .next (u.setG d 0#64) else .next ((u.toHost 2 va).setG d 3#64) := by
  show execPgownTake d a m s = _
  simp only [execPgownTake, hop, hfree, withLeaf_of_leaf hwalk, Bool.false_eq_true, if_false]
end

section
variable {b : Src} {w : Nat} (hw : (u.g b).toNat = w)
include hw

theorem exec_pgmig_of_badTarget (hbad : u.badTarget u.selfTenant w = true) : exec (.pgmig d a b) s = .next (u.setG d 2#64) := by
  show execPgmig d a b s = _
  simp only [execPgmig, hop, hw, hbad, if_true]

variable (hgood : u.badTarget u.selfTenant w = false)
include hgood

theorem exec_pgmig_of_busy (hbusy : u.pageBusy va = true) : exec (.pgmig d a b) s = .next (u.setG d 4#64) := by
  show execPgmig d a b s = _
  simp only [execPgmig, hop, hw, hgood, hbusy, Bool.false_eq_true, if_false, if_true]

variable (hfree : u.pageBusy va = false)
include hfree

/-- Without MF the granule is placed. -/
theorem exec_pgmig_place (hmf : tgtMf w = false) (hheld : u.heldIn (granuleLines va).1 (granuleLines va).2 = none) :
    exec (.pgmig d a b) s = .next ((u.place va w).setG d 0#64) := by
  show execPgmig d a b s = _
  simp only [execPgmig, hop, hw, hgood, hfree, hmf, unlessHeld_of_none hheld, Bool.false_eq_true, if_false]
/-- With MF the host is to move the frame, unless it is pinned. -/
theorem exec_pgmig_of_leaf (hmf : tgtMf w = true) {l : Leaf} (hwalk : u.walk va = .leaf l) : exec (.pgmig d a b) s =
    if l.pin then .next (u.setG d 1#64)
    else u.unlessHeld (granuleLines va).1 (granuleLines va).2 fun u =>
      .next (((u.place va w).toHost (1 + 64 * bits w 48 6) va).setG d 3#64) := by
  show execPgmig d a b s = _
  simp only [execPgmig, hop, hw, hgood, hfree, hmf, withLeaf_of_leaf hwalk, Bool.false_eq_true, if_false, if_true]
end
end

/-! ## PLBINV (R311) -/

theorem mem_plb_dropPlb (c : Core) (all : Bool) (va : Nat) (r : Region) :
    r ∈ (c.dropPlb all va).plb ↔ all = false ∧ r ∈ c.plb ∧ r.covers va = false := by
  cases all <;> simp [Core.dropPlb]
theorem dropPlb_dropPlb (c : Core) (all : Bool) (va : Nat) : (c.dropPlb all va).dropPlb all va = c.dropPlb all va := by
  cases all <;> simp [Core.dropPlb]

/-- PLBINV's drop on core `c`. -/
def State.dropRegions (a : Src) (m : BitVec 32) (s : State) (c : Nat) : State :=
  s.setCore c ((s.core c).dropPlb (m.getLsbD 1) (s.g a).toNat)

theorem core_foldl_dropRegions (a : Src) (m : BitVec 32) (l : List Nat) (s : State) (c : Nat) :
    (l.foldl (State.dropRegions a m) s).core c =
      if c ∈ l then (s.core c).dropPlb (m.getLsbD 1) (s.g a).toNat else s.core c := by
  induction l generalizing s with
  | nil => simp
  | cons j l ih =>
    have hg : (s.dropRegions a m j).g a = s.g a := rfl
    rw [List.foldl_cons, ih, hg, State.dropRegions, State.core_setCore]
    by_cases hj : c = j
    · subst hj
      simp [dropPlb_dropPlb]
    · simp [hj]

theorem PlainStrand.not_inShadow {s : State} (hp : PlainStrand s) : s.before.inShadow = false := by
  obtain ⟨-, -, hshadow, -, -⟩ := hp
  exact hshadow

section
variable {s : State} (hp : PlainStrand s) {a : Src} {m : BitVec 32}
include hp

/-- The form for the strand's own core. -/
theorem exec_plbinv_own (hm : m.getLsbD 0 = false) : exec (.plbinv a m) s = .next (s.dropRegions a m s.selfCore) := by
  show execPlbinv a m s = _
  simp only [execPlbinv, State.unless, hp.not_inShadow, hp.gated, hm, Bool.not_false, Bool.false_eq_true, if_false, if_true]
  rfl
/-- The form for the tenant. -/
theorem exec_plbinv_tenant (hm : m.getLsbD 0 = true) {gr : Grant} (hg : s.before.grant = some gr) :
    exec (.plbinv a m) s = .next ((s.tenantCores s.selfTenant).foldl (State.dropRegions a m) s.useGrant) := by
  show execPlbinv a m s = _
  simp only [execPlbinv, State.unless, hp.not_inShadow, hp.gated, hm, answered_of_grant hg, Bool.not_true, Bool.false_eq_true, if_false]
  rfl
end

/-! ## PAGE_MIGRATION (R263) -/

section
variable {s : State}

theorem exec_pageMigration_place (hframe : s.input.frame = none)
    (hheld : s.heldIn (granuleLines s.input.value).1 (granuleLines s.input.value).2 = none) :
    exec .pageMigration s = .next (s.place s.input.value (s.input.wide.extractLsb' 0 64).toNat) := by
  show execPageMigration s = _
  simp only [execPageMigration, hframe, hheld, Option.isSome_none, Bool.false_eq_true, if_false]

/-- To a frame that fits and is another than the leaf's: accesses settle, the page's lines are dropped, its bytes move, and the leaf
follows. -/
theorem exec_pageMigration_move {f : Nat} {l : Leaf} (hframe : s.input.frame = some f) (hwalk : s.walk s.input.value = .leaf l)
    (halign : f * 4096 % l.size = 0) (hfirst : badFrame (f * 4096) = false) (hlast : badFrame (f * 4096 + l.size - 1) = false)
    (hsys : paIsSystem (f * 4096) = false) (hother : f * 4096 ≠ l.pa)
    (hheld : s.heldIn (l.lines s.input.value).1 (l.lines s.input.value).2 = none) {t : State}
    (ht : (s.settlePages.dropLines (l.lines s.input.value).1 (l.lines s.input.value).2).moveFrame l.pa (f * 4096) l.size = t) :
    exec .pageMigration s = .next (t.writeShared none l.entryPa 8
      (t.readPa l.entryPa 8 - bits (t.readPa l.entryPa 8) 12 40 * 4096 + f * 4096 % 2 ^ 52)) := by
  subst ht
  show execPageMigration s = _
  simp only [execPageMigration, hframe, hwalk]
  exact if_neg (by simp [halign, hfirst, hlast, hsys, hother, hheld])
end

/-- Settles O22: PGMIG and PGOWN past their checks by the target word and the leaf, PLBINV by the cores that it names, and
PAGE_MIGRATION with a frame and without one. -/
theorem pagesAndMigrationComplete : Obligations.PagesAndMigrationComplete := by
  refine ⟨fun s v rg d a b m gr hp hg hlow hwin hprot => ?_, fun s a m => ⟨fun hp hm => ?_, fun gr hp hm hg => ?_,
    fun w hframe hw hlt hheld => ?_, fun f l hframe hwalk halign _ _ hfirst hlast hsys hother hheld =>
      ⟨_, _, exec_pageMigration_move hframe hwalk halign hfirst hlast hsys hother hheld rfl, rfl, rfl⟩⟩⟩
  · intro u va w done
    have hop : ∀ f, s.pageOp a f = f va u := pageOp_of_protect hp hg hlow hwin hprot
    have hw : (u.g b).toNat = w := congrArg BitVec.toNat (g_of_before_eq (before_protect hprot) b)
    refine ⟨exec_pgmig_of_badTarget hop d hw, exec_pgmig_of_busy hop d hw, exec_pgown_of_busy hop d m, exec_pgmig_place hop d hw,
      fun l hfree hwalk => ?_⟩
    have hgive := exec_pgownGive_of_leaf hop d m hfree hwalk
    have htake := exec_pgownTake_of_leaf hop d m hfree hwalk
    refine ⟨fun hgood hmf hpin => ?_, fun hgood hmf hpin hheld => ?_, fun hown => ⟨?_, ?_⟩, fun hown => htake.trans (if_pos hown),
      fun hown hpin => ?_, fun hown hpin hheld => ?_⟩
    · exact (exec_pgmig_of_leaf hop d hw hgood hfree hmf hwalk).trans (if_pos hpin)
    · exact (exec_pgmig_of_leaf hop d hw hgood hfree hmf hwalk).trans
        ((if_neg (ne_true_of_eq_false hpin)).trans (unlessHeld_of_none hheld _))
    · exact hgive.trans (by simp [hown])
    · exact htake.trans (by simp [hown])
    · exact hgive.trans (by simp [hown, hpin])
    · exact hgive.trans (by simp [hown, hpin, unlessHeld_of_none hheld])
  · refine ⟨_, exec_plbinv_own hp hm, rfl, fun c hc => State.core_setCore_ne s _ hc, ?_, fun r => ?_⟩
    · rw [State.dropRegions, State.core_setCore_self]; rfl
    · rw [State.dropRegions, State.core_setCore_self, mem_plb_dropPlb]
  · refine ⟨_, exec_plbinv_tenant hp hm hg, fun c hc r hr => ?_⟩
    rw [core_foldl_dropRegions, if_pos hc, mem_plb_dropPlb] at hr
    obtain ⟨hall, -, hcovers⟩ := hr
    exact ⟨hall, hcovers⟩
  · have hword : (s.input.wide.extractLsb' 0 64).toNat = w := by
      rw [hw, ← BitVec.setWidth_eq_extractLsb' (by decide), BitVec.setWidth_ofNat_of_le (by decide), BitVec.toNat_ofNat, Nat.mod_eq_of_lt hlt]
    rw [exec_pageMigration_place hframe hheld, hword]

end Sys2Proof.Machine
end

section
/-! SUPPORT. XFER and XFER.2d once their shape is known and once it has been read, XWAIT and XPOLL (13 R317, R318, R321, R322, 20 R450). -/

namespace Sys2Proof.Machine

/-! ## A shape that passes its checks (R321) -/

/-- The combination that a transfer's modifier names. -/
def xferOpcode (m : BitVec 32) : Nat := (m.extractLsb' 4 2).toNat
/-- The element type that it names. -/
def xferElem (m : BitVec 32) : Nat := (m.extractLsb' 6 2).toNat
/-- A combining transfer's addresses, row length and strides are multiples of its element. -/
def Shape.Aligned (x : Shape) (m : BitVec 32) : Prop :=
  let sz := elemSize (xferElem m)
  xferOpcode m = 0 ∨ xferElem m = 3 ∨ x.dst.toNat % sz = 0 ∧ x.src.toNat % sz = 0 ∧ x.len % sz = 0 ∧
    x.sstr.toNat % sz = 0 ∧ x.dstr.toNat % sz = 0
/-- The ranges that issue checks, row by row. -/
def Shape.uses (x : Shape) (m : BitVec 32) : List RangeUse :=
  (List.range x.rows).flatMap fun r =>
    ⟨.engineRead, (x.srcRow r).toNat, x.len, inScratch x.src.toNat⟩ ::
      (if xferOpcode m = 0 then [Acc.engineWrite] else [.engineRead, .engineWrite]).map fun q =>
        ⟨q, (x.dstRow r).toNat, x.len, inScratch x.dst.toNat⟩
/-- The modifier sets no reserved bit and combines elements only of a type that exists. -/
def XferDefined (m : BitVec 32) : Prop := m.extractLsb' 9 23 = 0#23 ∧ (xferOpcode m = 0 ∨ xferElem m ≠ 3)
/-- The transfer that the issuing strand asks for. -/
def State.xferOf (s : State) (x : Shape) (m : BitVec 32) : Op :=
  { s.newOp (modCh m) (.xfer (xferOpcode m) (xferElem m) (m.getLsbD 8)) m x.args with total := x.granules }

theorem withRoom_of_room {s : State} {ch : Nat} (h : HasRoom s ch) (r : Res) : s.withRoom ch r = r := if_pos h

/-- A modifier is refused exactly when it is not defined. -/
theorem not_xferDefined_iff (m : BitVec 32) :
    ¬XferDefined m ↔ (m.extractLsb' 9 23 != 0#23 || (xferElem m = 3 && xferOpcode m != 0)) = true := by
  simp only [XferDefined, not_and_or, not_or, ne_eq, not_not, Bool.or_eq_true, Bool.and_eq_true, bne_iff_ne, decide_eq_true_eq]
  exact or_congr_right and_comm

section
variable {s v : State} {x : Shape} {m : BitVec 32} (d : Reg) (two bad : Bool) (halign : x.Aligned m)
include halign

/-- An aligned shape takes none of the three alignment traps. -/
theorem issueXfer_of_aligned : s.issueXfer d x m two bad =
    if x.rows * x.len > 2 ^ 32 - 1 then s.withRoom (modCh m) (s.atOnce d (s.xferOf x m) 5)
    else match s.checkRanges s.who true (x.uses m) with
      | .error t => s.trap t
      | .ok v => v.withRoom (modCh m)
          (if m.extractLsb' 9 23 != 0#23 || bad || (xferElem m = 3 && xferOpcode m != 0) then v.atOnce d (s.xferOf x m) 5
           else if x.rows * x.len = 0 then v.atOnce d (s.xferOf x m) 0
           else v.fork d (s.xferOf x m)) := by
  have hno {P : Prop} (hP : xferOpcode m ≠ 0 → xferElem m ≠ 3 → ¬P) : ¬(xferOpcode m ≠ 0 ∧ xferElem m ≠ 3 ∧ P) :=
    fun ⟨hop, het, h⟩ => hP hop het h
  have hsizes (hop : xferOpcode m ≠ 0) (het : xferElem m ≠ 3) := (halign.resolve_left hop).resolve_left het
  refine (if_neg (hno fun hop het => ?_)).trans ((if_neg (hno fun hop het => ?_)).trans ((if_neg (hno fun hop het => ?_)).trans rfl))
  all_goals
    obtain ⟨hdst, hsrc, hlen, hsstr, hdstr⟩ := hsizes hop het
    unfold xferElem at hdst hsrc hlen hsstr hdstr
  · simp only [multiple, hdst, beq_self_eq_true, Bool.not_true, Bool.false_eq_true, not_false_eq_true]
  · simp only [multiple, hsrc, beq_self_eq_true, Bool.not_true, Bool.false_eq_true, not_false_eq_true]
  · simp only [multiple, hlen, hsstr, hdstr, beq_self_eq_true, Bool.not_true, Bool.false_eq_true, ne_eq, not_true, or_self, and_false,
      not_false_eq_true]

/-- 2^32 bytes or more end at once, before any range is checked. -/
theorem issueXfer_of_long (hlong : 2 ^ 32 ≤ x.rows * x.len) (hroom : HasRoom s (modCh m)) :
    ∃ t, s.issueXfer d x m two bad = .next t ∧ EndsAtOnce d (s.xferOf x m) 5 s t := by
  rw [issueXfer_of_aligned d two bad halign, if_pos (show x.rows * x.len > 2 ^ 32 - 1 by omega), withRoom_of_room hroom]
  exact State.endsAtOnce_atOnce ..

variable (hshort : x.rows * x.len < 2 ^ 32) (hok : s.checkRanges s.who true (x.uses m) = .ok v) (hroom : HasRoom v (modCh m))
include hshort hok hroom

/-- Past its range checks a short transfer ends at once or forks by its modifier and its size. -/
theorem issueXfer_of_checkRanges : s.issueXfer d x m two false =
    if m.extractLsb' 9 23 != 0#23 || (xferElem m = 3 && xferOpcode m != 0) then v.atOnce d (s.xferOf x m) 5
    else if x.rows * x.len = 0 then v.atOnce d (s.xferOf x m) 0
    else v.fork d (s.xferOf x m) := by
  simp only [issueXfer_of_aligned d two false halign, if_neg (show ¬x.rows * x.len > 2 ^ 32 - 1 by omega), hok, withRoom_of_room hroom,
    Bool.or_false]

theorem issueXfer_of_undefined (hbad : ¬XferDefined m) :
    ∃ t, s.issueXfer d x m two false = .next t ∧ EndsAtOnce d (s.xferOf x m) 5 v t := by
  rw [issueXfer_of_checkRanges d two halign hshort hok hroom, if_pos ((not_xferDefined_iff m).mp hbad)]
  exact State.endsAtOnce_atOnce ..

variable (hgood : XferDefined m)
include hgood

theorem issueXfer_of_empty (hzero : x.rows * x.len = 0) :
    ∃ t, s.issueXfer d x m two false = .next t ∧ EndsAtOnce d (s.xferOf x m) 0 v t := by
  rw [issueXfer_of_checkRanges d two halign hshort hok hroom, if_neg fun h => (not_xferDefined_iff m).mpr h hgood, if_pos hzero]
  exact State.endsAtOnce_atOnce ..
theorem issueXfer_of_bytes (hbytes : 0 < x.rows * x.len) :
    ∃ t, s.issueXfer d x m two false = .next t ∧ Forks d (s.xferOf x m) v t := by
  rw [issueXfer_of_checkRanges d two halign hshort hok hroom, if_neg fun h => (not_xferDefined_iff m).mpr h hgood, if_neg hbytes.ne']
  exact State.forks_fork ..
end

/-! ## The two instructions -/

/-- XFER's shape: one row of g[C] bytes. -/
def State.rowShape (s : State) (a b c : Src) : Shape := ⟨s.g a, s.g b, 1, (s.g c).toNat, 0#64, 0#64⟩
/-- XFER.2d's shape by its descriptor `x`. -/
def State.descShape (s : State) (a b : Src) (x : Nat) : Shape :=
  ⟨s.g a, s.g b, bits x 32 32, bits x 0 32, BitVec.ofNat 64 (bits x 128 64), BitVec.ofNat 64 (bits x 64 64)⟩

theorem rows_mul_len_rowShape (s : State) (a b c : Src) : (s.rowShape a b c).rows * (s.rowShape a b c).len = (s.g c).toNat := Nat.one_mul _

theorem exec_xfer {s : State} (hp : PlainStrand s) (d : Reg) (a b c : Src) (m : BitVec 32) :
    exec (.xfer d a b c m) s = s.issueXfer d (s.rowShape a b c) m false false :=
  (hp.unless ..).trans (hp.gated _)

/-- Where a shape's descriptor is read: here, or by the answer through another module's window (R321, R450). -/
def State.ShapeRead (u : State) (va : Word) (x : Nat) (v : State) : Prop :=
  (inWindow va = false ∨ windowOf va % 64 = u.ownModule u.selfPart) ∧ u.readBack va 8 4 = .data x v ∨
    inWindow va = true ∧ windowOf va % 64 ≠ u.ownModule u.selfPart ∧
      ∃ mo at' t gr, u.check .load va 8 = .remote mo at' t ∧ t.grant = some gr ∧ x = bits gr.value.toNat 0 256 ∧ v = t.useGrant

/-- An access that leaves for another module has left the pair as it was found. -/
theorem before_check_remote {s t : State} {acc : Acc} {va at' : Word} {n mo : Nat} (h : s.check acc va n = .remote mo at' t) :
    t.before = s.before := by
  simp only [State.check, State.checkAs] at h
  split at h
  · cases h
  · split at h
    · split at h <;> cases h
    · cases h
    · cases h
    · next hr =>
      split at h <;> cases h
      exact before_resolve hr
    · simp only [State.checkPlace] at h
      split_ifs at h

theorem readShape_of_shapeRead {u v : State} {va : Word} {x : Nat} (huser : coreIsAtelier u.selfCore = false) (h : u.ShapeRead va x v)
    (f : Nat → State → Res) : u.readShape va f = f x v := by
  obtain ⟨hhere, hread⟩ | ⟨hwin, hother, mo, at', t, gr, hcheck, hgrant, rfl, rfl⟩ := h
  · have hlocal : (coreIsAtelier u.selfCore || !inWindow va || windowOf va % 64 == u.ownModule u.selfPart) = true := by
      simpa [huser] using hhere
    exact (if_pos hlocal).trans (by simp only [State.readStruct, hread])
  · have haway : (coreIsAtelier u.selfCore || !inWindow va || windowOf va % 64 == u.ownModule u.selfPart) = false := by
      simp [huser, hwin, hother]
    have hcame : u.grant = some gr := (congrArg Strand.grant (before_check_remote hcheck)).symm.trans hgrant
    exact (if_neg (ne_true_of_eq_false haway)).trans (by simp only [hcheck, hcame])

theorem PlainStrand.coreIsAtelier_eq {s : State} (hp : PlainStrand s) : coreIsAtelier s.selfCore = false := by
  obtain ⟨-, -, -, -, huser⟩ := hp
  exact huser

theorem exec_xfer2d_of_shapeRead {s v : State} (hp : PlainStrand s) {d : Reg} {a b c : Src} {m : BitVec 32} {x : Nat}
    (halign : (s.g c).toNat % 8 = 0) (hread : (s.drainCore s.selfCore).ShapeRead (s.g c) x v) (hrest : bits x 192 64 = 0) :
    exec (.xfer2d d a b c m) s = v.issueXfer d (v.descShape a b x) m true false := by
  have huser : coreIsAtelier (s.drainCore s.selfCore).selfCore = false := by
    rw [(sameIssuer_drainCore s s.selfCore).selfCore_eq, hp.coreIsAtelier_eq]
  have hmultiple : ¬(!multiple (s.g c) 8) = true := by simp [multiple, halign]
  refine (hp.unless ..).trans ((hp.gated _).trans ((if_neg hmultiple).trans ((readShape_of_shapeRead huser hread _).trans ?_)))
  rw [hrest, bne_self_eq_false]
  rfl

/-! ## XWAIT and XPOLL (R318, R322) -/

/-- A word's top four bits are 0 when it is below 2^60: the record is OK. -/
theorem putRecord_eq (s : State) (d : Reg) (x : Word) : s.putRecord d x = .next ((s.setG d x).setP 7#3 (x.toNat / 2 ^ 60 == 0)) := by
  have hok : (x.extractLsb' 60 4 == 0#4) = (x.toNat / 2 ^ 60 == 0) := by
    rw [Bool.eq_iff_iff, beq_iff_eq, beq_iff_eq, ← BitVec.toNat_inj, BitVec.extractLsb'_toNat, Nat.shiftRight_eq_div_pow]
    have hlt := x.isLt
    change x.toNat / 2 ^ 60 % 2 ^ 4 = 0 ↔ _
    omega
  rw [State.putRecord, hok, State.setP7]

section
variable {s : State} (hp : PlainStrand s) (d : Reg) (a b : Src) {ch : Nat} {i : BitVec 32} (hch : (s.g a).toNat % 16 = ch)
  (hi : (s.g b).setWidth 32 = i)
include hp hch hi

theorem exec_xwait : exec (.xwait d a b) s =
    if issuedId (s.core s.selfCore) ch i = false then s.putRecord d 0xE000000000000000#64
    else if completeId (s.core s.selfCore) ch i = false then .next (s.hold (.completion ch i))
    else s.putRecord d (s.recordOf s.selfCore ch i) := by
  subst hch hi
  show execXwait d a b s = _
  simp only [execXwait, hp.unless, hp.gated, Bool.not_eq_true']
theorem exec_xpoll : exec (.xpoll d a b) s =
    if issuedId (s.core s.selfCore) ch i = true ∧ completeId (s.core s.selfCore) ch i = true then
      s.putRecord d (s.recordOf s.selfCore ch i)
    else s.putRecord d 0xE000000000000000#64 := by
  subst hch hi
  show execXpoll d a b s = _
  simp only [execXpoll, hp.unless, hp.gated, Bool.and_eq_true]

theorem exec_xwait_xpoll_of_unissued (hissued : issuedId (s.core s.selfCore) ch i = false) :
    exec (.xwait d a b) s = s.putRecord d 0xE000000000000000#64 ∧ exec (.xpoll d a b) s = s.putRecord d 0xE000000000000000#64 := by
  rw [exec_xwait hp d a b hch hi, exec_xpoll hp d a b hch hi]
  exact ⟨if_pos hissued, if_neg fun h => absurd (hissued.symm.trans h.1) Bool.false_ne_true⟩

variable (hissued : issuedId (s.core s.selfCore) ch i = true)
include hissued

theorem exec_xwait_xpoll_of_complete (hdone : completeId (s.core s.selfCore) ch i = true) :
    exec (.xwait d a b) s = s.putRecord d (s.recordOf s.selfCore ch i) ∧
      exec (.xpoll d a b) s = s.putRecord d (s.recordOf s.selfCore ch i) := by
  rw [exec_xwait hp d a b hch hi, exec_xpoll hp d a b hch hi]
  exact ⟨(if_neg (ne_false_of_eq_true hissued)).trans (if_neg (ne_false_of_eq_true hdone)), if_pos ⟨hissued, hdone⟩⟩
theorem exec_xwait_xpoll_of_outstanding (hdone : completeId (s.core s.selfCore) ch i = false) :
    exec (.xwait d a b) s = .next (s.hold (.completion ch i)) ∧ exec (.xpoll d a b) s = s.putRecord d 0xE000000000000000#64 := by
  rw [exec_xwait hp d a b hch hi, exec_xpoll hp d a b hch hi]
  exact ⟨(if_neg (ne_false_of_eq_true hissued)).trans (if_pos hdone), if_neg fun h => absurd (hdone.symm.trans h.2) Bool.false_ne_true⟩
end

/-! ## The obligation -/

/-- Settles O29: XFER and XFER.2d by the checks of their shape, XWAIT and XPOLL by where the identifier stands. -/
theorem transferCommandsComplete : Obligations.TransferCommandsComplete := by
  intro s v d a b c m hp op et ch aligned uses good o one
  refine ⟨fun halign hlt hok hroom => ?_, fun halign hlong hroom => ?_, fun x u w shape h8 hu hread hshape halign hlt hok hroom => ?_, ?_⟩
  · have hsize := rows_mul_len_rowShape s a b c
    have hshort := hsize.trans_lt hlt
    rw [exec_xfer hp]
    exact ⟨fun hgood hbytes => issueXfer_of_bytes d false halign hshort hok hroom hgood (hbytes.trans_eq hsize.symm),
      fun hgood hzero => issueXfer_of_empty d false halign hshort hok hroom hgood (hsize.trans hzero),
      issueXfer_of_undefined d false halign hshort hok hroom⟩
  · rw [exec_xfer hp]
    exact issueXfer_of_long d false false halign (hlong.trans_eq (rows_mul_len_rowShape s a b c).symm) hroom
  · subst hu hshape
    refine ⟨fun hgood hrest hbytes => ?_, fun hgood hrest hzero => ?_⟩ <;> rw [exec_xfer2d_of_shapeRead hp h8 hread hrest]
    · exact issueXfer_of_bytes d true halign hlt hok hroom hgood hbytes
    · exact issueXfer_of_empty d true halign hlt hok hroom hgood hzero
  · intro ch i k old word gives never
    have hword : s.recordOf s.selfCore ch i = word := by
      simp only [State.recordOf, hp.coreIsAtelier_eq, Bool.false_eq_true, if_false]
      rfl
    refine ⟨fun hissued => ?_, fun hissued hdone => ?_, fun hissued hdone => ?_⟩
    · simpa only [putRecord_eq] using exec_xwait_xpoll_of_unissued hp d a b rfl rfl hissued
    · have h := exec_xwait_xpoll_of_complete hp d a b rfl rfl hissued hdone
      rwa [hword, putRecord_eq] at h
    · simpa only [putRecord_eq] using exec_xwait_xpoll_of_outstanding hp d a b rfl rfl hissued hdone

end Sys2Proof.Machine
end

section
/-! SUPPORT. What a freeze and a release of a tenant make of a partition and of a queue (18 R429, R430). -/

namespace Sys2Proof.Machine

theorem FMap.getD_mapValues {α : Type} (m : FMap α) (f : Nat → α → α) (k : Nat) {d : α} (hd : f k d = d) :
    (m.mapValues f).getD k d = f k (m.getD k d) := by
  rw [FMap.getD, FMap.find?_mapValues, FMap.getD]
  cases m.find? k
  · exact hd.symm
  · rfl

theorem part_freezeTenant {s : State} {n : Nat} (h : (s.tenant n).frozen = false) (p : Nat) :
    (s.freezeTenant n).part p =
      if (s.part p).live && (s.part p).tenant == n then (s.part p).freeze else s.part p := by
  rw [State.freezeTenant, if_neg (ne_true_of_eq_false h)]
  exact FMap.getD_mapValues _ _ p rfl

section
variable {s : State} {n : Nat} (h : (s.tenant n).frozen = true)
include h

theorem releaseTenant_of_frozen : s.releaseTenant n = { s.releaseTenant n with tenants := s.tenants.set n { s.tenant n with frozen := false } } := by
  rw [State.releaseTenant, if_neg (by simp [h])]
  rfl
theorem frozen_releaseTenant : ((s.releaseTenant n).tenant n).frozen = false := by
  rw [releaseTenant_of_frozen h]
  exact congrArg Tenant.frozen (FMap.getD_set_self ..)
theorem part_releaseTenant (p : Nat) :
    (s.releaseTenant n).part p =
      if (s.part p).live && (s.part p).tenant == n then
        (s.part p).release (s.tenant n).frozenSince (s.time - (s.tenant n).frozenSince)
      else s.part p := by
  rw [State.releaseTenant, if_neg (by simp [h])]
  exact FMap.getD_mapValues _ _ p rfl
end

theorem st_freeze {q : Queue} (h : q.st ≠ .off) : q.freeze.st = .frozen := by
  by_cases hf : q.st = .frozen <;> simp [Queue.freeze, h, hf]
theorem st_release_freeze {q : Queue} (h : q.st ≠ .frozen) (stood : Nat) : (q.freeze.release stood).st = q.st := by
  by_cases hoff : q.st = .off <;> simp [Queue.freeze, Queue.release, h, hoff]

theorem FMap.getD_of_find? {α : Type} {m : FMap α} {k : Nat} {x : α} (h : m.find? k = some x) (d : α) : m.getD k d = x := by
  rw [FMap.getD, h]; rfl

/-- Settles O42: a freeze and a release act queue by queue on the tenant's own partitions. -/
theorem freezeAndReleaseAgree : Obligations.FreezeAndReleaseAgree := by
  intro s n p hten hlive hpart hqueues t u
  have ht := part_freezeTenant hten p
  have hfrozen : (t.tenant n).frozen = true := frozen_freezeTenant s n
  have hu := part_releaseTenant hfrozen p
  refine ⟨hfrozen, frozen_releaseTenant hfrozen, fun hown => ?_, fun hother => ?_, by rw [show t = _ from freezeTenant_eq s n],
    by rw [show t = _ from freezeTenant_eq s n]⟩
  · rw [if_pos (by simp [hlive, hown])] at ht
    rw [show t.part p = _ from ht, if_pos (by simp [Partition.freeze, hlive, hown])] at hu
    refine ⟨congrArg Partition.frozen ht, congrArg Partition.frozen hu, fun k q hq => ?_⟩
    have hnot : q.st ≠ .frozen := FMap.getD_of_find? hq {} ▸ hqueues k
    have hfroze := FMap.getD_mapValues (s.part p).queues (fun _ q => q.freeze) k (d := {}) rfl
    rw [FMap.getD_of_find? hq] at hfroze
    constructor
    · intro hoff
      rw [show t.part p = _ from ht]
      exact (congrArg Queue.st hfroze).trans (st_freeze hoff)
    · rw [show u.part p = _ from hu]
      refine (congrArg Queue.st (FMap.getD_mapValues _ _ k rfl)).trans ?_
      exact (congrArg (fun q : Queue => (q.release _).st) hfroze).trans (st_release_freeze hnot _)
  · rw [if_neg (by simp [hother])] at ht
    rw [show t.part p = _ from ht, if_neg (by simp [hother])] at hu
    exact ⟨ht, hu⟩

end Sys2Proof.Machine
end

section
/-! SUPPORT. RFT on an atelier core (17 R415). -/

namespace Sys2Proof.Machine

/-- Settles O39: the return is the lemma on it, and outside a trap the opcode is ILLEGAL. -/
theorem rftReturns : Obligations.RftReturns := by
  intro s m c back illegal ha
  refine ⟨fun hin hm => ?_, fun hin hm => ?_, fun hin => ?_⟩ <;> rw [exec_rft ha]
  · rw [if_pos hin, returnFromTrap_eq, hm]
    exact congrArg (fun x => Host.Outcome.next (back x)) (BitVec.add_zero c.atepc)
  · rw [if_pos hin, returnFromTrap_eq, hm]
    rfl
  · exact if_neg (ne_true_of_eq_false hin)

end Sys2Proof.Machine
end

section
/-! SUPPORT. Attestation requests before and after the connection is agreed (21 R470). -/

namespace Sys2Proof.Machine

section
variable {s : State}

theorem viaDoe_of_down (h : s.module.pcieUp = []) (t : State) : s.viaDoe t = .next s :=
  congrArg Host.Outcome.next (if_neg (by simp [State.answers, h]))
theorem viaDoe_of_up (h : s.module.pcieUp ≠ []) (t : State) : s.viaDoe t = .next t :=
  congrArg Host.Outcome.next (if_pos (answers_physicalFn h))

theorem agreed_of_down (h : s.module.pcieUp = []) (n : Nat) (t : State) : s.agreed n t = .next s := viaDoe_of_down h _

variable (h : s.module.pcieUp ≠ [])
include h

theorem agreed_of_early (hno : s.module.spdmVersion = false ∨ s.module.spdmCaps = false ∨ s.module.spdmAlgs = false) (n : Nat) (t : State) :
    s.agreed n t = .next (s.respondSpdm n unexpected) :=
  (viaDoe_of_up h _).trans (congrArg Host.Outcome.next (if_neg (by rcases hno with h | h | h <;> simp [h])))
theorem agreed_of_agreed (hv : s.module.spdmVersion = true) (hc : s.module.spdmCaps = true) (ha : s.module.spdmAlgs = true) (n : Nat)
    (t : State) : s.agreed n t = .next t :=
  (viaDoe_of_up h _).trans (congrArg Host.Outcome.next (if_pos (by simp [hv, hc, ha])))

theorem exec_getCapabilities_of_up : exec .getCapabilities s =
    if s.module.spdmVersion then .next ((s.setModule { s.module with spdmCaps := true }).respondSpdm 1 (spdmMessage 0x61 0 0 spdmCapabilities))
    else .next (s.respondSpdm 1 unexpected) := by
  show execGetCapabilities s = _
  cases hv : s.module.spdmVersion <;> simp only [execGetCapabilities, hv, viaDoe_of_up h] <;> rfl
theorem exec_negotiateAlgorithms_of_up : exec .negotiateAlgorithms s =
    if s.module.spdmVersion && s.module.spdmCaps then
      .next ((s.setModule { s.module with spdmAlgs := true }).respondSpdm 2 (spdmMessage 0x63 0 0 spdmAlgorithms))
    else .next (s.respondSpdm 2 unexpected) := by
  show execNegotiateAlgorithms s = _
  cases hv : s.module.spdmVersion && s.module.spdmCaps <;> simp only [execNegotiateAlgorithms, hv, viaDoe_of_up h] <;> rfl
end

theorem exec_attestation_of_down {s : State} (h : s.module.pcieUp = []) {e : Instr} (he : e ∈ [Instr.getVersion, .getCapabilities,
    .negotiateAlgorithms, .getDigests, .getCertificate, .challenge, .getMeasurements]) : exec e s = .next s := by
  simp only [List.mem_cons, List.not_mem_nil, or_false] at he
  rcases he with rfl | rfl | rfl | rfl | rfl | rfl | rfl
  · exact viaDoe_of_down h _
  · exact (ite_congr rfl (fun _ => viaDoe_of_down h _) fun _ => viaDoe_of_down h _).trans (ite_self _)
  · exact (ite_congr rfl (fun _ => viaDoe_of_down h _) fun _ => viaDoe_of_down h _).trans (ite_self _)
  all_goals exact agreed_of_down h _ _

/-! ## Signed responses -/

/-- A signed response holds its fields, the nonce and the summary, and ends with the signature over the transcript. -/
theorem signed_eq (s : State) (index code p1 p2 : Nat) (fields summary : List Byte) :
    ∃ b : List Byte, s.signed index code p1 p2 fields summary =
        State.respondSpdm { s with free := s.free + 1 } index
          (spdmMessage code p1 p2 (fields ++ toBytes 32 (Config.nonce s.free).toNat ++ summary ++ b)) ∧
      Config.signature 0 s.free <:+ b :=
  ⟨opaqueData (Config.signature 1 s.free) ++ toBytes 8 s.input.value.toNat ++ Config.signature 0 s.free,
    by simp only [State.signed, List.append_assoc], List.suffix_append ..⟩

/-- Settles O50: no answer without a port; with one the agreement's three steps, then what was asked for. -/
theorem attestationComplete : Obligations.AttestationComplete := by
  intro s m i told early
  refine ⟨fun h e he => exec_attestation_of_down h he, fun h => ⟨viaDoe_of_up h _, fun hv => ?_, fun hv => ?_, fun hno => ?_,
    fun hv hc => ?_, fun hno => ?_, fun hv hc ha => ⟨?_, fun hslot => ?_, fun hslot hsum => ?_, fun hlow hhigh => ?_⟩⟩⟩
  · exact (exec_getCapabilities_of_up h).trans (if_neg (ne_true_of_eq_false hv))
  · exact (exec_getCapabilities_of_up h).trans (if_pos hv)
  · exact (exec_negotiateAlgorithms_of_up h).trans (if_neg (by rcases hno with h | h <;> simp [m, h] at *))
  · exact (exec_negotiateAlgorithms_of_up h).trans (if_pos (Bool.and_eq_true_iff.mpr ⟨hv, hc⟩))
  · exact ⟨agreed_of_early h hno .., agreed_of_early h hno .., agreed_of_early h hno .., agreed_of_early h hno ..⟩
  · exact agreed_of_agreed h hv hc ha ..
  · exact ⟨_, (agreed_of_agreed h hv hc ha ..).trans (congrArg Host.Outcome.next (if_neg (Nat.not_lt.mpr (Nat.le_of_lt_succ hslot)))),
      length_toBytes ..⟩
  · have hgood : ¬(1 < i.item || (1 < i.index && i.index != 0xFF)) = true := by
      rcases hsum with hx | hx | hx <;> simp [hx] <;> omega
    obtain ⟨b, hb, hsig⟩ := signed_eq s 5 0x03 i.item 3 (digestBytes (Config.certDigest i.item)) (m.summaryFields i.index)
    exact ⟨b, (agreed_of_agreed h hv hc ha ..).trans (congrArg Host.Outcome.next ((if_neg hgood).trans hb)), hsig⟩
  · have hgood : ¬(5 < i.item && i.item != 0xFF) = true := by simp; omega
    have hone : (if i.item = 0 then 5 else 0) = 0 := if_neg (by omega)
    have hget : exec .getMeasurements s = .next
        (if i.flag then s.signed 6 0x60 0 0 (m.measurementFields i.item) []
         else State.respondSpdm { s with free := s.free + 1 } 6 (spdmMessage 0x60 0 0 (m.measurementFields i.item ++
           toBytes 32 (Config.nonce s.free).toNat ++ toBytes 2 0 ++ toBytes 8 i.value.toNat))) := by
      refine (agreed_of_agreed h hv hc ha ..).trans (congrArg Host.Outcome.next ((if_neg hgood).trans ?_))
      rw [hone]
    cases hf : i.flag
    · exact ⟨_, by rw [hget, hf]; simp only [List.append_assoc]; rfl, fun h => absurd h Bool.false_ne_true⟩
    · obtain ⟨b, hb, hsig⟩ := signed_eq s 6 0x60 0 0 (m.measurementFields i.item) []
      refine ⟨_, by rw [hget, hf]; simp only [if_true, hb, List.append_nil, List.append_assoc]; rfl, fun _ => hsig.trans ?_⟩
      exact List.suffix_append ..

end Sys2Proof.Machine
end

section
/-! SUPPORT. An atelier core's records, maps, routes and zone tokens, by the checks of each instruction (17 R409–R414). -/

namespace Sys2Proof.Machine

/-! ## Records (R409, R410) -/

theorem admitReport_of_no_report {s : State} (hw : s.reports = []) (zone slot : Nat) (standby : Bool) :
    s.admitReport zone slot standby = s := by
  simp only [State.admitReport, hw, List.find?_nil]

theorem exec_mbxack_eq (d : Reg) (a : Src) (m : BitVec 32) (s : State) : exec (.mbxack d a m) s = execMbxack d a m s := rfl

section
variable {s : State} (ha : s.inAtelier = true) (d : Reg) {a : Src} (m : BitVec 32)
include ha

theorem exec_mbxrd_of_none (halign : (s.g a).toNat % 64 = 0)
    (h : ((s.drainCore s.selfCore).ownMailbox s.selfCore).find? (fun r => !r.read) = none) : exec (.mbxrd d a m) s =
    .next (if m.getLsbD 0 then (s.drainCore s.selfCore).hold .record else (s.drainCore s.selfCore).setG d (BitVec.allOnes 64)) := by
  show execMbxrd d a m s = _
  rw [execMbxrd, privileged_of_atelier ha, if_neg (not_not.mpr halign)]
  simp only [h]
  split <;> rfl

theorem exec_mbxrd_of_some {r : MbxRecord} {v : State} (halign : (s.g a).toNat % 64 = 0)
    (h : ((s.drainCore s.selfCore).ownMailbox s.selfCore).find? (fun r => !r.read) = some r)
    (hv : (s.drainCore s.selfCore).storeWords ((s.drainCore s.selfCore).g a) r.body.toNat 8 0 (s.drainCore s.selfCore) = .ok v) :
    exec (.mbxrd d a m) s = .next ((v.setMailbox s.selfCore ((v.ownMailbox s.selfCore).map fun q =>
      if q.handle = r.handle then { q with read := true } else q)).setG d (BitVec.ofNat 64 r.handle)) := by
  show execMbxrd d a m s = _
  rw [execMbxrd, privileged_of_atelier ha, if_neg (not_not.mpr halign)]
  simp only [h, hv, beq_iff_eq]

theorem exec_mbxack_of_none (h : (s.ownMailbox s.selfCore).find? (fun r => r.read && BitVec.ofNat 64 r.handle == s.g a) = none) :
    exec (.mbxack d a m) s = .next (s.setG d 1#64) := by
  rw [exec_mbxack_eq, execMbxack, privileged_of_atelier ha]
  simp only [h]

variable {r : MbxRecord} (h : (s.ownMailbox s.selfCore).find? (fun r => r.read && BitVec.ofNat 64 r.handle == s.g a) = some r)
include h

theorem exec_mbxack_of_full (hm : m.getLsbD 0 = true) (hfull : (s.ring (forwardRing m r.body)).full = true) :
    exec (.mbxack d a m) s = .next (s.setG d 2#64) := by
  rw [exec_mbxack_eq, execMbxack, privileged_of_atelier ha]
  simp only [h, hm, hfull, Bool.and_self, if_true]

theorem exec_mbxack_of_kept (hm : m.getLsbD 0 = false) (hw : s.reports = []) : exec (.mbxack d a m) s =
    .next ((s.setMailbox s.selfCore ((s.ownMailbox s.selfCore).filter fun q => q.handle != r.handle)).setG d 0#64) := by
  have hkeep : (s.setMailbox s.selfCore ((s.ownMailbox s.selfCore).filter fun q => q.handle != r.handle)).reports = [] := by
    rw [State.setMailbox]
    split <;> exact hw
  rw [exec_mbxack_eq, execMbxack, privileged_of_atelier ha]
  simp only [h, hm, Bool.false_and, Bool.false_eq_true, if_false, admitReport_of_no_report hkeep]
end

/-! ## MAPSET (R411) -/

section
variable {s : State} (ha : s.inAtelier = true) (d : Reg) {a b : Src}
include ha

theorem exec_mapset_of_bad (h : s.badMap s.selfZone (s.g a) (s.g b) = true) : exec (.mapset d a b) s = .next (s.setG d 1#64) :=
  (privileged_of_atelier ha _).trans (if_pos h)

variable (h : s.badMap s.selfZone (s.g a) (s.g b) = false)
include h

theorem exec_mapset_of_busy (hb : s.mapBusy s.selfZone (s.g a).toNat (s.g b) = true) : exec (.mapset d a b) s = .next (s.setG d 2#64) :=
  (privileged_of_atelier ha _).trans ((if_neg (ne_true_of_eq_false h)).trans (if_pos hb))
theorem exec_mapset_of_granted (hb : s.mapBusy s.selfZone (s.g a).toNat (s.g b) = false) {gr : Grant} (hg : s.before.grant = some gr) :
    exec (.mapset d a b) s = .next ((s.useGrant.settlePages.mapRow s.selfZone (s.g a).toNat (s.g b)).setG d 0#64) :=
  (privileged_of_atelier ha _).trans ((if_neg (ne_true_of_eq_false h)).trans ((if_neg (ne_true_of_eq_false hb)).trans
    (answered_of_grant hg _)))
end

/-! ## ROUTESET (R412) -/

/-- A router's operands: its row and column alone, and both directions on or both off. -/
def RouteSiteOk (w v : Word) : Prop :=
  w &&& 0xFF00#64 = w ∧ bits w.toNat 12 4 < 12 ∧ bits w.toNat 8 4 < 12 ∧ (v.toNat = 0 ∨ v.toNat = 3)

theorem quarantine_of_dead {s : State} {site : Nat} (h : s.deadSite site = true) (cause : Nat) : s.quarantine site cause = s := if_pos h

theorem routePt_eq_routeDr {v : Word} (h : v.toNat < 4) : routePt v = routeDr v ↔ v.toNat = 0 ∨ v.toNat = 3 := by
  have hv : v = BitVec.ofNat 64 v.toNat := by simp
  generalize v.toNat = n at h hv
  subst hv
  interval_cases n <;> decide

theorem routeSiteOk_iff (w v : Word) : RouteSiteOk w v ↔
    ¬(w.toNat &&& 0xFF00 ≠ w.toNat ∨ 4 ≤ v.toNat ∨ 11 < bits w.toNat 12 4 ∨ 11 < bits w.toNat 8 4 ∨ routePt v ≠ routeDr v) := by
  have hmask : w &&& 0xFF00#64 = w ↔ w.toNat &&& 0xFF00 = w.toNat := by rw [← BitVec.toNat_inj, BitVec.toNat_and]; rfl
  rw [RouteSiteOk, hmask]
  constructor
  · rintro ⟨hw, hrow, hcol, hv⟩
    simp only [hw, (routePt_eq_routeDr (v := v) (by omega)).mpr hv, ne_eq, not_true, false_or, or_false]
    omega
  · intro h
    simp only [not_or, not_not, ne_eq, not_le, not_lt] at h
    obtain ⟨hw, hv, hrow, hcol, hdir⟩ := h
    exact ⟨hw, by omega, by omega, (routePt_eq_routeDr hv).mp hdir⟩

section
variable {s : State} (w : Word) {v : Word}

theorem routeSite_of_bad (h : ¬RouteSiteOk w v) : s.routeSite w v = (s, 1) := if_pos (not_not.mp (mt (routeSiteOk_iff w v).mpr h))

variable {w} (h : RouteSiteOk w v)
include h

theorem routeSite_of_off (hv : v.toNat = 3) :
    s.routeSite w v = (s.quarantine (siteOf s.selfZone (bits w.toNat 12 4) (bits w.toNat 8 4)) 0, 0) := by
  have hpt : routePt v = true := by rw [show v = 3#64 from BitVec.eq_of_toNat_eq hv]; rfl
  refine (if_neg ((routeSiteOk_iff w v).mp h)).trans ?_
  rw [if_pos hpt, if_pos hpt]
  split
  · next hdead => rw [quarantine_of_dead hdead]
  · rfl
theorem routeSite_of_on (hv : v.toNat = 0) :
    s.routeSite w v = (s, if s.deadSite (siteOf s.selfZone (bits w.toNat 12 4) (bits w.toNat 8 4)) then 1 else 0) := by
  have hpt : routePt v = false := by rw [show v = 0#64 from BitVec.eq_of_toNat_eq hv]; rfl
  refine (if_neg ((routeSiteOk_iff w v).mp h)).trans ?_
  simp only [hpt, Bool.false_eq_true, if_false]
  split <;> rfl
end

/-- A port's operands: bit 31 and a number below 96; a threshold of 1 to 63, and NOSHED in bit 8. -/
def RoutePortOk (w v : Nat) : Prop := w % 128 < 96 ∧ w = 2 ^ 31 + w % 128 ∧ 1 ≤ v % 64 ∧ (v < 64 ∨ 256 ≤ v ∧ v < 320)

theorem and_four_eq (q : Nat) : q &&& 4 = q ↔ q = 0 ∨ q = 4 := by
  by_cases hq : q ≤ 4
  · interval_cases q <;> decide
  · have hle : q &&& 4 ≤ 4 := Nat.and_le_right
    omega
theorem and_portMask_eq (v : Nat) : v &&& 0x13F = v ↔ v < 64 ∨ 256 ≤ v ∧ v < 320 := by
  have hhigh : (v &&& 0x13F) / 2 ^ 6 = v / 2 ^ 6 &&& 4 := Nat.and_div_two_pow
  have hlow : (v &&& 0x13F) % 2 ^ 6 = v % 2 ^ 6 := by
    rw [Nat.and_mod_two_pow, show 0x13F % 2 ^ 6 = 2 ^ 6 - 1 from rfl, Nat.and_two_pow_sub_one_eq_mod, Nat.mod_mod]
  have hq := and_four_eq (v / 2 ^ 6)
  rw [← hhigh] at hq
  omega
theorem bitAt_eight {v : Nat} (h : v < 64 ∨ 256 ≤ v ∧ v < 320) : bitAt v 8 = decide (256 ≤ v) := by
  rw [bitAt, bits, Bool.eq_iff_iff, beq_iff_eq, decide_eq_true_iff]
  omega

theorem routePortOk_iff (w v : Nat) : RoutePortOk w v ↔
    ¬(w ≠ 2 ^ 31 + bits w 0 7 ∨ 95 < bits w 0 7 ∨ v &&& 0x13F ≠ v ∨ bits v 0 6 = 0) := by
  simp only [RoutePortOk, bits_zero_low, not_or, ne_eq, not_not, and_portMask_eq]
  omega

section
variable {s : State} (ha : s.inAtelier = true) (d : Reg) {a b : Src}
include ha

theorem exec_routesetPort_of_bad (h : ¬RoutePortOk (s.g a).toNat (s.g b).toNat) : exec (.routesetPort d a b) s = .next (s.setG d 1#64) :=
  (privileged_of_atelier ha _).trans (if_pos (not_not.mp (mt (routePortOk_iff _ _).mpr h)))
theorem exec_routesetPort_of_good (h : RoutePortOk (s.g a).toNat (s.g b).toNat) : exec (.routesetPort d a b) s =
    .next ((s.setPort ((s.g a).toNat % 128) ((s.port ((s.g a).toNat % 128)).configure ((s.g b).toNat % 64)
      (decide (256 ≤ (s.g b).toNat)))).setG d 0#64) := by
  refine (privileged_of_atelier ha _).trans ((if_neg ((routePortOk_iff _ _).mp h)).trans ?_)
  obtain ⟨-, -, -, hv⟩ := h
  rw [bits_zero_low, bits_zero_low, bitAt_eight hv]
  rfl
end

/-! ## TOKSET (R414) -/

section
variable {s : State} (ha : s.inAtelier = true) (d : Reg) {a b : Src} (m : BitVec 32)
include ha

theorem exec_toksetCap_of_good (hz : (s.g a).toNat < 64) (hm : m.extractLsb' 0 2 = 0#2) (hv : (s.g b).toNat < 2 ^ 20) :
    exec (.toksetCap d a b m) s = .next ((s.setZone (s.g a).toNat { s.zone (s.g a).toNat with cap := (s.g b).toNat }).setG d 0#64) := by
  have hop : m.toNat % 4 = 0 := by simpa [← BitVec.toNat_inj] using hm
  exact (privileged_of_atelier ha _).trans (if_neg (by omega))
theorem exec_toksetClear_of_good (hz : (s.g a).toNat < 64) (hv : (s.g b).toNat < 32) : exec (.toksetClear d a b m) s =
    .next ((s.setZone (s.g a).toNat { s.zone (s.g a).toNat with
      clear := (s.zone (s.g a).toNat).clear ||| (s.g b).extractLsb' 0 5 }).setG d 0#64) :=
  (privileged_of_atelier ha _).trans (if_neg (by omega))
theorem exec_tokset_of_no_zone (hz : 64 ≤ (s.g a).toNat) :
    exec (.toksetCap d a b m) s = .next (s.setG d 1#64) ∧ exec (.toksetClear d a b m) s = .next (s.setG d 1#64) :=
  ⟨(privileged_of_atelier ha _).trans (if_pos (.inl hz)), (privileged_of_atelier ha _).trans (if_pos (.inl hz))⟩
end

/-- Settles O40: each clause by the lemma on that instruction. -/
theorem atelierRecordsRoutesComplete : Obligations.AtelierRecordsRoutesComplete := by
  intro s d a b m ha core u box
  have hsite : exec (.routesetSite d a b) s =
      .next ((s.routeSite (s.g a) (s.g b)).1.setG d (BitVec.ofNat 64 (s.routeSite (s.g a) (s.g b)).2)) := privileged_of_atelier ha _
  refine ⟨exec_mbxrd_of_none ha d m, fun r v => exec_mbxrd_of_some ha d m, exec_mbxack_of_none ha d m,
    fun r hr => ⟨exec_mbxack_of_full ha d m hr, exec_mbxack_of_kept ha d m hr⟩,
    fun gr hg => ?_,
    ⟨fun hbad => ?_, fun hgood hv => ?_, fun hgood hv => ?_⟩, ⟨exec_routesetPort_of_bad ha d, exec_routesetPort_of_good ha d⟩,
    ⟨exec_toksetCap_of_good ha d m, exec_toksetClear_of_good ha d m, exec_tokset_of_no_zone ha d m⟩⟩
  · exact ⟨exec_mapset_of_bad ha d, exec_mapset_of_busy ha d, fun hbad hbusy => exec_mapset_of_granted ha d hbad hbusy hg⟩
  · rw [hsite, routeSite_of_bad _ hbad]
  · rw [hsite, routeSite_of_off hgood hv]
  · rw [hsite, routeSite_of_on hgood hv]
    split <;> rfl

end Sys2Proof.Machine
end

section
/-! SUPPORT. A KVINV whose walk meets a malformed descriptor drops the whole sequence (10 R267, 12 R303). -/

namespace Sys2Proof.Machine

/-! ## What KVINV leaves (R303) -/

/-- Each of the tiles loses the blocks that KVINV names, and no other tile loses any. -/
theorem tile_kvDrop (s : State) (p : Nat) (tiles : List Nat) (c : Word) (range : Option (Nat × Nat)) (site : Nat) :
    (s.kvDrop p tiles c range).tile site =
      if site ∈ tiles then { s.tile site with kvtb := (s.tile site).kvtb.filter fun x => !kvDropped p c range x } else s.tile site := by
  unfold State.kvDrop
  induction tiles generalizing s with
  | nil => simp
  | cons t tiles ih =>
    rw [List.foldl_cons, ih, State.tile_setTile]
    by_cases ht : site = t
    · subst ht
      simp only [if_true, List.mem_cons, true_or, List.filter_filter, Bool.and_self, ite_self]
    · simp [ht]

/-- Past its checks, with its answer and its walk: the entries go, and the answer is 0. -/
theorem exec_kvinv_of_walk {s v : State} (hp : PlainStrand s) {gr : Grant} (hg : s.before.grant = some gr)
    (hv : v = (s.drainCore s.selfCore).useGrant) (d : Reg) (a b : Src) (hroot : bitAt (v.part v.selfPart).kvroot.toNat 0 = true)
    (hshadow : ((v.attentionTiles v.selfPart).any fun t => (v.tile t).shadow.isSome) = false) (hn : (v.g b).toNat ≠ 0)
    {w : KvWalk × State} (hw : (v.kvDesc v.who (v.g a) fun k _ s => (k, s)) = w) (hwait : w.1.wait = false) :
    exec (.kvinv d a b) s = .next ((w.2.kvDrop v.selfPart (v.attentionTiles v.selfPart) (v.g a)
      ((w.1.desc.filter fun x => !descMalformed x).map fun x => (coordPos (v.g a) / descB x, min (v.g b).toNat (2 ^ 27)))).setG d 0#64) := by
  subst hv hw
  obtain ⟨-, r, hbefore⟩ := sameIssuer_drainCore s s.selfCore
  have hgrant : (s.drainCore s.selfCore).before.grant = some gr := (congrArg Strand.grant hbefore).trans hg
  refine (hp.unless ..).trans ((hp.gated _).trans ((answered_of_grant hgrant _).trans ?_))
  simp only [hroot, hshadow, hn, hwait, Bool.not_true, Bool.false_eq_true, if_false]

/-- O21 keeps an entry of another layer than the coordinate's, and a malformed descriptor drops it. -/
theorem not_kvInstructionsComplete_of_malformed {s v : State} (hp : PlainStrand s) {gr : Grant} (hg : s.before.grant = some gr)
    (hv : v = (s.drainCore s.selfCore).useGrant) (d : Reg) (a b : Src) (hroot : bitAt (v.part v.selfPart).kvroot.toNat 0 = true)
    (hshadow : ((v.attentionTiles v.selfPart).any fun t => (v.tile t).shadow.isSome) = false) (hn : (v.g b).toNat ≠ 0)
    {w : KvWalk × State} (hw : (v.kvDesc v.who (v.g a) fun k _ s => (k, s)) = w) (hwait : w.1.wait = false) {dsc : Nat}
    (hdesc : w.1.desc = some dsc) (hbad : descMalformed dsc = true) {site : Nat} (hsite : site ∈ v.attentionTiles v.selfPart)
    {x : KvEntry} (hx : x ∈ (w.2.tile site).kvtb) (hpart : x.part = v.selfPart) (hseq : x.seq = coordSeq (v.g a))
    (hlayer : x.layer ≠ coordLayer (v.g a)) : ¬ Obligations.KvInstructionsComplete := by
  intro h
  obtain ⟨-, hinv, -⟩ := h s d a b 0#32
  subst hw
  obtain ⟨t, ht, -, -, htiles⟩ := ((hinv gr v hg hp hv).2 hroot hshadow).2.2 dsc hn hwait hdesc
  obtain ⟨-, hkvtb⟩ := htiles site hsite
  have hstays : x ∈ (t.tile site).kvtb := (hkvtb x).mpr ⟨hx, fun ⟨_, _, hnamed, _⟩ => hlayer hnamed⟩
  have hdrop := ht.symm.trans (exec_kvinv_of_walk hp hg hv d a b hroot hshadow hn rfl hwait)
  injection hdrop with hdrop
  have hgone : t.tile site = _ := (congrArg (State.tile · site) hdrop).trans (tile_kvDrop ..)
  rw [if_pos hsite] at hgone
  have hnone : (some dsc).filter (fun x => !descMalformed x) = none := by simp [Option.filter, hbad]
  rw [hgone, List.mem_filter, hdesc, hnone] at hstays
  simp [kvDropped, hpart, hseq] at hstays

/-! ## The counterexample -/

/-- A block of sequence 0 in the KVTB of an A tile, of a layer that the coordinate 0 does not name. -/
def otherLayer : KvEntry :=
  { part := 0, seq := 0, layer := 1, head := 0, block := 0, frame := 0, zone := 0, row := 7, col := 0, cow := false, bsize := 16
    dim := 0, kfmt := 0, vfmt := 0, kscl := false, vscl := false }

/-- A strand with its answer, in a partition whose sequence 0 has a descriptor with the reserved bit 0 set (R267), and whose A tile
84 holds `otherLayer`. -/
def meetsMalformed : State :=
  let s := State.reset.lone
  let s := s.setZone 0 { s.zone 0 with rows := (s.zone 0).rows.set 7 plainRow }
  let s := s.setPart 0 { s.part 0 with kvroot := 0x208001#64 }
  let s := ((s.writePa 0x208000 8 0x210001).writePa 0x210000 8 0x201001).writePa 0x201000 64 1
  let s := s.setTile 84 { s.tile 84 with kvtb := [otherLayer] }
  { s with cur := { strand := 16, before := { s.strand 16 with grant := some { value := 0#512 } } } }

/-- The state in which it walks. -/
def meetsMalformed.answered : State := (meetsMalformed.drainCore meetsMalformed.selfCore).useGrant

theorem plainStrand_meetsMalformed : PlainStrand meetsMalformed := ⟨rfl, rfl, rfl, rfl, rfl⟩
/-- Refutes O21: a malformed descriptor is one that the walk has read, and gives KVINV no block size (log 110), so KVINV drops the whole
sequence; the clause of a walk with a descriptor keeps what lies outside the named blocks, a malformed descriptor not shut out. -/
theorem not_kvInstructionsComplete : ¬ Obligations.KvInstructionsComplete :=
  not_kvInstructionsComplete_of_malformed (v := meetsMalformed.answered) (dsc := 1) (site := 84) (x := otherLayer)
    plainStrand_meetsMalformed (gr := { value := 0#512 }) rfl rfl 1#4 ⟨0#4, false⟩ ⟨14#4, false⟩ (by decide +kernel) (by decide +kernel)
    (by decide +kernel) rfl (by decide +kernel) (by decide +kernel) (by decide +kernel) (by decide +kernel) (by decide +kernel)
    (by decide +kernel) (by decide +kernel) (by decide +kernel)

end Sys2Proof.Machine
end

section
/-! SUPPORT. What the checks that engine commands share come to when they pass (13 R317, R321, 14 R331, 15 R351). -/

namespace Sys2Proof.Machine

theorem multiple_of_mod {x : Word} {n : Nat} (h : x.toNat % n = 0) : multiple x n = true := by rw [multiple, h]; rfl
theorem not_multiple_of_mod {x : Word} {n : Nat} (h : x.toNat % n = 0) : ¬(!multiple x n) = true := not_bnot_of_true (multiple_of_mod h)
theorem withEngine_of_room {room : Bool} (h : room = true) (s : State) (r : Res) : s.withEngine room r = r := if_pos h

theorem PlainStrand.inAtelier_eq {s : State} (hp : PlainStrand s) : s.inAtelier = false := by
  obtain ⟨-, -, -, -, huser⟩ := hp
  exact huser
theorem readStruct_of_data {s v : State} {va : Word} {n x : Nat} (h : s.readBack va 8 n = .data x v) (f : Nat → State → Res) :
    s.readStruct va n f = f x v := by
  simp only [State.readStruct, h]

/-- A command that passes its waits and is not refused forks. -/
theorem forks_of_good {s : State} {d : Reg} {o : Op} {bad : Prop} [Decidable bad] (h : ¬bad) :
    ∃ t, (if bad then s.atOnce d o 5 else s.fork d o) = .next t ∧ Forks d o s t := by
  rw [if_neg h]
  exact State.forks_fork d o s

/-! ## What the checks of ranges leave unchanged (13 R321) -/

/-- The issuing strand, the launches and every channel's next identifier are as they were. -/
def KeepsIssuer (s t : State) : Prop :=
  t.cur.strand = s.cur.strand ∧ t.before = s.before ∧ t.launches = s.launches ∧ ∀ c ch, (t.core c).next ch = (s.core c).next ch

namespace KeepsIssuer
variable {s t u : State}

theorem refl (s : State) : KeepsIssuer s s := ⟨rfl, rfl, rfl, fun _ _ => rfl⟩
theorem trans (h : KeepsIssuer s t) (h' : KeepsIssuer t u) : KeepsIssuer s u := by
  obtain ⟨hk, hb, hl, hn⟩ := h
  obtain ⟨hk', hb', hl', hn'⟩ := h'
  exact ⟨hk'.trans hk, hb'.trans hb, hl'.trans hl, fun c ch => (hn' c ch).trans (hn c ch)⟩
theorem setCore {c : Nat} {x : Core} (h : x.cnext = (s.core c).cnext) : KeepsIssuer s (s.setCore c x) := by
  refine ⟨rfl, rfl, rfl, fun k ch => ?_⟩
  rw [State.core_setCore]
  split
  · next hk => rw [hk, Core.next, h, Core.next]
  · rfl

/-- Operands are what they were. -/
theorem g_eq (h : KeepsIssuer s t) (a : Src) : t.g a = s.g a := by
  obtain ⟨-, hb, -, -⟩ := h
  exact congrArg (fun b => b.regs.readG a.r) hb
theorem selfCore_eq (h : KeepsIssuer s t) : t.selfCore = s.selfCore := by
  obtain ⟨hk, -, -, -⟩ := h
  exact congrArg strandCore hk
theorem selfLaunch_eq (h : KeepsIssuer s t) : t.selfLaunch = s.selfLaunch := by
  obtain ⟨-, hb, hl, -⟩ := h
  exact congrArg₂ (fun (m : FMap Launch) (b : Strand) => m.find? b.launch) hl hb
/-- An operation is numbered as it would have been. -/
theorem newOp_eq (h : KeepsIssuer s t) (ch : Nat) (kind : OpKind) (m : BitVec 32) (args : List Word) :
    t.newOp ch kind m args = s.newOp ch kind m args := by
  have hbefore : t.cur.before = s.cur.before := by obtain ⟨-, hb, -, -⟩ := h; exact hb
  have hstrand : t.cur.strand = s.cur.strand := by obtain ⟨hk, -, -, -⟩ := h; exact hk
  have hnext : (t.core s.selfCore).next ch = (s.core s.selfCore).next ch := by obtain ⟨-, -, -, hn⟩ := h; exact hn _ _
  simp only [State.newOp, State.selfTenant, State.selfPart, h.selfLaunch_eq, h.selfCore_eq, hbefore, hstrand, hnext]
end KeepsIssuer

section
variable {s t : State} {w : Who} {acc : Acc}

theorem keepsIssuer_protect {va : Word} {r : Region} (h : s.protect w acc va = .ok (r, t)) : KeepsIssuer s t := by
  simp only [State.protect] at h
  split at h
  · cases h
    exact .refl s
  · split at h
    · split at h <;> cases h
      exact .setCore rfl
    · cases h
    · cases h
theorem keepsIssuer_noteRegion (s : State) (r : Region) : KeepsIssuer s (s.noteRegion r) := by
  unfold State.noteRegion
  split
  · exact .refl s
  · exact ⟨rfl, rfl, rfl, fun _ _ => rfl⟩

variable {plb scratch windows : Bool} {a : Nat}

theorem keepsIssuer_checkPiece (h : s.checkPiece w acc plb scratch windows a = .ok t) : KeepsIssuer s t := by
  have hprotected {va : Word} {r : Region} {u : State} (hu : s.protect w acc va = .ok (r, u)) : KeepsIssuer s (u.noteRegion r) :=
    (keepsIssuer_protect hu).trans (keepsIssuer_noteRegion ..)
  have hsame {c : Bool} {e : TrapInfo} (h : (if c then .ok s else .error e) = Except.ok t) : KeepsIssuer s t := by
    split at h <;> cases h
    exact .refl s
  simp only [State.checkPiece] at h
  split at h
  · split at h <;> cases h
    exact .refl s
  · split at h
    · cases h
    · split at h
      · cases h
      · split at h
        · exact hsame h
        · split at h
          · split at h
            · cases h
            · split at h
              · cases h
                exact .refl s
              · split at h
                · exact hsame h
                · split at h
                  · split at h
                    · cases h
                    · next hu =>
                      cases h
                      exact hprotected hu
                  · cases h
                    exact .refl s
          · split at h
            · split at h
              · cases h
              · next hu =>
                cases h
                exact hprotected hu
            · cases h
              exact .refl s
theorem keepsIssuer_checkAfter {good : Nat} (h : s.checkAfter w acc plb scratch windows good a = .ok t) : KeepsIssuer s t := by
  unfold State.checkAfter at h
  split at h
  · cases h
  · next hu =>
    cases h
    exact keepsIssuer_checkPiece hu
theorem keepsIssuer_checkPieces {last : Nat} (fuel : Nat) {s : State} {good a : Nat}
    (h : State.checkPieces w acc plb scratch windows last fuel good a s = .ok t) : KeepsIssuer s t := by
  induction fuel generalizing s good a with
  | zero =>
    cases h
    exact .refl _
  | succ fuel ih =>
    simp only [State.checkPieces] at h
    split at h
    · cases h
    · next hu =>
      refine (keepsIssuer_checkAfter hu).trans ?_
      split at h
      · split at h
        · cases h
          exact .refl _
        · exact keepsIssuer_checkAfter h
      · exact ih h
theorem keepsIssuer_checkPass (us : List RangeUse) {s : State} (h : s.checkPass w windows plb us = .ok t) : KeepsIssuer s t := by
  induction us generalizing s with
  | nil =>
    cases h
    exact .refl _
  | cons u us ih =>
    unfold State.checkPass at h
    split at h
    · exact ih h
    · split at h
      · cases h
      · next hu => exact (keepsIssuer_checkPieces _ hu).trans (ih h)
theorem keepsIssuer_checkRanges {us : List RangeUse} (h : s.checkRanges w windows us = .ok t) : KeepsIssuer s t := by
  unfold State.checkRanges at h
  split at h
  · cases h
  · next hu => exact (keepsIssuer_checkPass us hu).trans (keepsIssuer_checkPass us h)
end

end Sys2Proof.Machine
end

section
/-! SUPPORT. The attention commands of an A tile once their checks pass (15 R352, R361–R364). -/

namespace Sys2Proof.Machine

section
variable {s : State} (hp : PlainStrand s)
include hp

theorem attAllowed_of_hasCarry (hc : hasCarry s.selfCore = true) : s.attAllowed = true := by
  rw [State.attAllowed, hc, hp.not_barred]; rfl

theorem forkSweep_of_room (hroom : s.attRoom = true) (kind : OpKind) (d : Reg) (a b : Src) :
    s.forkSweep kind d a b =
      let u := s.drainCore s.selfCore
      .next { u.mapRegs (fun r => r.markG d false) with
        ops := u.ops ++ [{ u.newOp 0 kind 0#32 [u.g a, u.g b] with id := 0#32, dest := d }] } :=
  (hp.gated _).trans (withEngine_of_room hroom _ _)

variable (hc : hasCarry s.selfCore = true) (d : Reg) {a : Src} (m : BitVec 32)
include hc

theorem exec_atts_of_carry (b : Src) : exec (.atts d a b) s = s.forkSweep .atts d a b := if_pos (attAllowed_of_hasCarry hp hc)

variable (halign : (s.g a).toNat % 64 = 0)
include halign

theorem exec_attm_aligned :
    exec (.attm d a m) s = s.issueAtt 0 d m 4 [use .engineRead (s.g a) carryBytes] [s.g a] 0 98 false :=
  (if_neg (not_bnot_of_true (attAllowed_of_hasCarry hp hc))).trans ((hp.gated _).trans (if_neg (not_multiple_of_mod halign)))
theorem exec_cbld_aligned :
    exec (.cbld d a m) s = s.issueAtt 3 d m 4 [use .engineRead (s.g a) carryBytes] [s.g a] 0 98 false :=
  (if_neg (not_bnot_of_true (attAllowed_of_hasCarry hp hc))).trans ((hp.gated _).trans (if_neg (not_multiple_of_mod halign)))
theorem exec_cbst_aligned :
    exec (.cbst d a m) s = s.issueAtt 4 d m 4 [use .engineWrite (s.g a) carryBytes] [s.g a] 0 98 false :=
  (if_neg (not_bnot_of_true (attAllowed_of_hasCarry hp hc))).trans ((hp.gated _).trans (if_neg (not_multiple_of_mod halign)))

theorem exec_cbinit_of_header {v : State} {h : Nat} (hread : (s.drainCore s.selfCore).readBack (s.g a) 8 8 = .data h v) :
    exec (.cbinit d a m) s = v.issueAtt 2 d m 4 [use .engineRead (v.g a) (64 + 2 * hdrD h * hdrRows h)] [v.g a] h
      (2 * hdrD h * hdrRows h / 64) (hdrReserved h ≠ 0) :=
  (if_neg (not_bnot_of_true (attAllowed_of_hasCarry hp hc))).trans ((hp.gated _).trans ((if_neg (not_multiple_of_mod halign)).trans
    (readStruct_of_data hread _)))

theorem exec_attn_of_block {b : Src} (hb : (s.g b).toNat % 64 = 0) (hfill : s.carryFilling s.cur.strand = false)
    (hok : (s.tile s.selfSite).carryOk s.cur.strand = true) {h row : Nat} (hh : h = (s.tile s.selfSite).header s.cur.strand)
    (hrow : row = hdrD h * (if m.getLsbD 4 then 2 else 4)) :
    exec (.attn d a b m) s = s.issueAtt 1 d m 5
      ((List.range (hdrRows h)).map fun r => use .engineWrite (s.g a + BitVec.ofNat 64 r * s.g b) row) [s.g a, s.g b] h
      (hdrRows h * (row / 64)) false := by
  rw [hh] at hrow
  rw [hrow, hh]
  show execAttn d a b m s = _
  rw [execAttn, if_neg (not_bnot_of_true (attAllowed_of_hasCarry hp hc)), hp.gated, if_neg (ne_true_of_eq_false hfill),
    if_neg (not_multiple_of_mod halign), if_neg (not_multiple_of_mod hb)]
  simp only [hok, if_true, Bool.not_true]
end

/-- Past its range checks, with room, a command whose modifier sets no reserved bit forks. -/
theorem issueAtt_forks {s v : State} {op : Nat} {d : Reg} {m : BitVec 32} {modBits : Nat} {uses : List RangeUse} {args : List Word}
    {desc total : Nat} {bad : Bool} (hbad : bad = false) (hm : m.toNat < 2 ^ modBits) (hok : s.checkRanges s.who false uses = .ok v)
    (hroom : HasRoom v (modCh m)) (hatt : v.attRoom = true) :
    ∃ t, s.issueAtt op d m modBits uses args desc total bad = .next t ∧
      Forks d { s.newOp (modCh m) (.att op) m args with desc := desc, total := total } v t := by
  simp only [State.issueAtt, hok]
  refine (forks_of_good (s := v) (bad := (bad || m.toNat / 2 ^ modBits ≠ 0) = true) ?_).imp fun t ht => ⟨?_, ht.2⟩
  · simp [hbad, Nat.div_eq_of_lt hm]
  · exact (withRoom_of_room hroom _).trans ((withEngine_of_room hatt v _).trans ht.1)

/-- Settles O31: the sweeps fork at once, the others by their checks. -/
theorem attentionCommandsComplete : Obligations.AttentionCommandsComplete := by
  intro s d a b m hp hroom ch u sweep forks free
  have hkvnext : exec (.kvnext d a b) s = s.forkSweep .kvnext d a b := if_neg (ne_true_of_eq_false (hp.not_barred ..))
  refine ⟨hkvnext.trans (forkSweep_of_room hp hroom ..), fun hc =>
    ⟨(exec_atts_of_carry hp hc d b).trans (forkSweep_of_room hp hroom ..), fun halign => ⟨?_, ?_, ?_, ?_⟩⟩⟩
  · intro v hm hok ⟨hch, hatt⟩
    refine ⟨?_, ?_⟩
    · show ∃ t, exec _ s = .next t ∧ Forks d _ v t
      rw [exec_attm_aligned hp hc d m halign]
      exact issueAtt_forks rfl hm hok hch hatt
    · show ∃ t, exec _ s = .next t ∧ Forks d _ v t
      rw [exec_cbld_aligned hp hc d m halign]
      exact issueAtt_forks rfl hm hok hch hatt
  · intro v hm hok ⟨hch, hatt⟩
    show ∃ t, exec _ s = .next t ∧ Forks d _ v t
    rw [exec_cbst_aligned hp hc d m halign]
    exact issueAtt_forks rfl hm hok hch hatt
  · intro v w h hm hread hres hok ⟨hch, hatt⟩
    show ∃ t, exec _ s = .next t ∧ Forks d _ w t
    rw [exec_cbinit_of_header hp hc d m halign hread]
    exact issueAtt_forks (by simp [hres]) hm hok hch hatt
  · intro v hm hb hfill hcarry h row hok ⟨hch, hatt⟩
    show ∃ t, exec _ s = .next t ∧ Forks d _ v t
    rw [exec_attn_of_block hp hc d m halign hb hfill hcarry rfl rfl]
    exact issueAtt_forks rfl hm hok hch hatt

end Sys2Proof.Machine
end

section
/-! SUPPORT. The copies between memory and tile store, the matrix engine's commands, and the semaphores (14 R323–R346, R336–R338). -/

namespace Sys2Proof.Machine

section
variable {s v : State} {d : Reg} {m : BitVec 32}

theorem inEngineTile_of_plain (hp : PlainStrand s) (ht : tileType s.selfSite ≠ .vector) :
    ¬(s.inAtelier || s.before.inShadow || tileType s.selfSite == .vector) = true := by
  simp [hp.inAtelier_eq, hp.not_inShadow, ht]

theorem rowsBad_of_fits {nr t n : Nat} (h : t + n ≤ nr) : rowsBad nr t n = false := by
  simp [rowsBad, Nat.not_lt.2 h]

/-- The range that a TS copy moves from or to memory. -/
def tsUses (op : Nat) (other count : Word) : List RangeUse :=
  if op = 0 then [use .engineRead other (256 * count.toNat)]
  else if op = 1 then [use .engineWrite other (256 * count.toNat)] else []
/-- What makes a TS copy end RANGE. -/
def tsBad (nr op : Nat) (row other count : Word) (m : BitVec 32) : Bool :=
  (if op = 1 then m.toNat / 16 else m.toNat / 128) ≠ 0 || (op ≠ 1 && 6 ≤ (m.extractLsb' 4 3).toNat) ||
    rowsBad nr row.toNat count.toNat || (op = 2 && rowsBad nr other.toNat count.toNat)

/-- A TS copy of at least one row that is not refused forks. -/
theorem issueTs_forks (hp : PlainStrand s) (ht : tileType s.selfSite ≠ .vector) {op : Nat} {row other count : Word}
    (halign : 1 < op ∨ other.toNat % 64 = 0) (hok : s.checkRanges s.who true (tsUses op other count) = .ok v)
    (hroom : HasRoom v (modCh m)) (hbad : tsBad (siteRows s.selfSite) op row other count m = false) (hn : count.toNat ≠ 0)
    {total : Nat} (htotal : total = tsBase op count.toNat + count.toNat) :
    ∃ t, s.issueTs op d row other count m = .next t ∧
      Forks d { s.newOp (modCh m) (.ts op) m [row, other, count] with total := total } v t := by
  subst htotal
  have hmis : ¬(op ≤ 1 && !multiple other 64) = true := by
    rcases halign with h | h
    · simp [Nat.not_le.2 h]
    · simp [multiple_of_mod h]
  refine (State.forks_fork d _ v).imp fun t h => ⟨?_, h.2⟩
  rw [State.issueTs, if_neg (inEngineTile_of_plain hp ht), hp.gated, if_neg hmis]
  show (match s.checkRanges s.who true (tsUses op other count) with | .error t => s.trap t | .ok s => _) = _
  rw [hok]
  refine (withRoom_of_room hroom _).trans ((if_neg ?_).trans ((if_neg hn).trans h.1))
  exact ne_true_of_eq_false hbad

theorem tsBad_elements {op nr : Nat} {row other count : Word} (hop : op ≠ 1) (hme : (m.extractLsb' 4 3).toNat < 6) (hm : m.toNat < 2 ^ 7)
    (hrow : row.toNat + count.toNat ≤ nr) (hother : op = 2 → other.toNat + count.toNat ≤ nr) :
    tsBad nr op row other count m = false := by
  have h : (decide (op = 2) && rowsBad nr other.toNat count.toNat) = false := by
    by_cases h2 : op = 2
    · simp [rowsBad_of_fits (hother h2)]
    · simp [h2]
  have hme' : ¬6 ≤ (m.extractLsb' 4 3).toNat := Nat.not_le.2 hme
  have hm' : m.toNat / 128 = 0 := Nat.div_eq_of_lt hm
  simp only [tsBad, if_neg hop, h, rowsBad_of_fits hrow, hm', hme', ne_eq, not_true_eq_false, decide_false, Bool.and_false, Bool.or_self]
theorem tsBad_store {nr : Nat} {row other count : Word} (hm : m.toNat < 16) (hrow : row.toNat + count.toNat ≤ nr) :
    tsBad nr 1 row other count m = false := by
  have hm' : m.toNat / 16 = 0 := Nat.div_eq_of_lt hm
  simp [tsBad, rowsBad_of_fits hrow, hm']
end

/-- The TS copies fork. -/
theorem tileStoreCopies_fork (s v : State) (d : Reg) (a b c : Src) (m : BitVec 32) (hp : PlainStrand s)
    (ht : tileType s.selfSite ≠ .vector) :
    let ch := (m.extractLsb' 0 4).toNat
    let n := (s.g c).toNat
    let fits := fun (x : Word) => x.toNat + n ≤ Config.storeRows (tileType s.selfSite)
    let o := fun (op : Nat) (other : Word) (total : Nat) => { s.newOp ch (.ts op) m [s.g a, other, s.g c] with total := total }
    let elements := (m.extractLsb' 4 3).toNat < 6 ∧ m.toNat < 2 ^ 7
    0 < n → fits (s.g a) →
    ((s.g b).toNat % 64 = 0 → elements → s.checkRanges s.who true [use .engineRead (s.g b) (256 * n)] = .ok v → HasRoom v ch →
      ∃ t, exec (.tsld d a b c m) s = .next t ∧ Forks d (o 0 (s.g b) (5 * n)) v t) ∧
    ((s.g b).toNat % 64 = 0 → m.toNat < 16 → s.checkRanges s.who true [use .engineWrite (s.g b) (256 * n)] = .ok v → HasRoom v ch →
      ∃ t, exec (.tsst d a b c m) s = .next t ∧ Forks d (o 1 (s.g b) (5 * n)) v t) ∧
    (elements → fits (s.g b) → HasRoom s ch → ∃ t, exec (.tscpy d a b c m) s = .next t ∧ Forks d (o 2 (s.g b) n) s t) ∧
    (elements → HasRoom s ch → ∃ t, exec (.tszero d a c m) s = .next t ∧ Forks d (o 3 0#64 n) s t) := by
  intro ch n fits o elements hn hrow
  have hfive : 5 * n = 4 * n + n := by omega
  have hnone : n = 0 + n := (Nat.zero_add n).symm
  refine ⟨fun halign ⟨hme, hm⟩ hok hroom => ?_, fun halign hm hok hroom => ?_, fun ⟨hme, hm⟩ hother hroom => ?_,
    fun ⟨hme, hm⟩ hroom => ?_⟩
  · exact issueTs_forks (op := 0) hp ht (.inr halign) hok hroom (tsBad_elements (by decide) hme hm hrow (by simp)) hn.ne' hfive
  · exact issueTs_forks (op := 1) hp ht (.inr halign) hok hroom (tsBad_store hm hrow) hn.ne' hfive
  · exact issueTs_forks hp ht (.inl (by decide)) rfl hroom (tsBad_elements (by decide) hme hm hrow fun _ => hother) hn.ne' hnone
  · exact issueTs_forks hp ht (.inl (by decide)) rfl hroom (tsBad_elements (by decide) hme hm hrow (by simp)) hn.ne' hnone

end Sys2Proof.Machine
end

section
/-! SUPPORT. The matrix engine's commands once their checks pass (14 R323, R328–R331, R339–R346). -/

namespace Sys2Proof.Machine

section
variable {s v : State} {d : Reg} {m : BitVec 32}

theorem not_mxeAllowed {sparseOnly : Bool} (h : s.mxeAllowed sparseOnly = true) : ¬(!s.mxeAllowed sparseOnly) = true :=
  not_bnot_of_true h
/-- On an S tile's CC what runs on any matrix engine may run on a sparse one's. -/
theorem mxeAllowed_sparse (h : s.mxeAllowed false = true) (ht : tileType s.selfSite = .sparse) : s.mxeAllowed true = true := by
  simpa [State.mxeAllowed, ht] using h

/-- An MXE instruction that is not refused forks where its channel and the engine's queue have room. -/
theorem issueMxe_forks {o : Op} {bad : Bool} (hroom : HasRoom v o.ch) (hmxe : v.mxeRoom = true) (hbad : bad = false) :
    ∃ t, v.issueMxe d o bad = .next t ∧ Forks d o v t :=
  (State.forks_fork d o v).imp fun _ h =>
    ⟨(withRoom_of_room hroom _).trans ((withEngine_of_room hmxe v _).trans ((if_neg (ne_true_of_eq_false hbad)).trans h.1)), h.2⟩

/-- The lines of one operand of MMAL, as the ranges that they read. -/
def mmalLines (base : Word) (str n l : Nat) : List RangeUse :=
  (List.range n).map fun i => use .engineRead (base + BitVec.ofNat 64 (i * str)) l
/-- Lines outside the scratch aperture are the ranges that MMAL checks. -/
theorem mmalLines_eq {base : Word} {str n l : Nat} (h : ∀ q ∈ mmalLines base str n l, inScratch q.a = false) :
    ((List.range n).map fun i => (⟨.engineRead, (base + BitVec.ofNat 64 (i * str)).toNat, l, false⟩ : RangeUse)) = mmalLines base str n l := by
  refine List.map_congr_left fun i hi => ?_
  have := h _ (List.mem_map_of_mem hi)
  simp only [use] at this ⊢
  rw [this]

theorem modifier_defined {n : Nat} (h : m.toNat < n) : decide (m.toNat / n ≠ 0) = false := by
  simp [Nat.div_eq_of_lt h]
theorem badMxK_of_multiple {f : BitVec 14} {k : Nat} (h : (isMx (fmtA f) || isMx (fmtB f)) = false ∨ k % 32 = 0) : badMxK f k = false := by
  rcases h with h | h <;> simp [badMxK, h]

variable (hp : PlainStrand s)
include hp

/-- MMA and BSMMA in a valid combination of formats. -/
theorem issueMma_issues {op : Nat} (a b : Src) (hmay : s.mxeAllowed (op = 1) = true)
    (hfmt : fmtOk (fmtA s.fmt) (fmtB s.fmt) (fmtAcc s.fmt) (tileType s.selfSite == .dense) = true)
    (hsparse : op = 1 → fmtSparseOk (fmtA s.fmt) (fmtB s.fmt) (fmtAcc s.fmt) = true) :
    s.issueMma op d a b m = s.issueMxe d (s.newOp (modCh m) (.mma op) m [s.g a, s.g b])
      (m.toNat / 2 ^ 18 ≠ 0 || badMxK s.fmt (modK m) || rowsBad (siteRows s.selfSite) (s.g a).toNat (64 * lineRows (fmtA s.fmt) (modK m))
        || rowsBad (siteRows s.selfSite) (s.g b).toNat (panelN (fmtAcc s.fmt) * lineRows (fmtB s.fmt) (modK m))) := by
  have hvalid : ¬(!fmtOk (fmtA s.fmt) (fmtB s.fmt) (fmtAcc s.fmt) (tileType s.selfSite == .dense) ||
      (op = 1 && !fmtSparseOk (fmtA s.fmt) (fmtB s.fmt) (fmtAcc s.fmt))) = true := by
    by_cases h1 : op = 1
    · simp [hfmt, hsparse h1]
    · simp [hfmt, h1]
  rw [State.issueMma, if_neg (not_mxeAllowed hmay), hp.gated, if_neg hvalid]

variable (hmay : s.mxeAllowed false = true)
include hmay

theorem exec_aczero_issues : exec (.aczero d m) s = s.issueMxe d (s.newOp (modCh m) (.acc 0) m []) (m.toNat / 64 ≠ 0) :=
  (if_neg (not_mxeAllowed hmay)).trans (hp.gated _)
theorem exec_acld_issues (a : Src) :
    exec (.acld d a m) s =
      s.issueMxe d (s.newOp (modCh m) (.acc 1) m [s.g a]) (m.toNat / 64 ≠ 0 || rowsBad (siteRows s.selfSite) (s.g a).toNat 64) :=
  (if_neg (not_mxeAllowed hmay)).trans (hp.gated _)
theorem exec_acst_issues (a : Src) (hwide : m.extractLsb' 6 2 = 0#2 ∨ fmtAcc s.fmt = 0) :
    exec (.acst d a m) s =
      s.issueMxe d (s.newOp (modCh m) (.acc 2) m [s.g a])
        (m.toNat / 256 ≠ 0 || (m.extractLsb' 6 2).toNat = 3 || rowsBad (siteRows s.selfSite) (s.g a).toNat 64) := by
  have hvalid : ¬(((m.extractLsb' 6 2).toNat = 1 ∨ (m.extractLsb' 6 2).toNat = 2) ∧ fmtAcc s.fmt ≠ 0) := by
    rcases hwide with h | h <;> simp [h]
  exact (if_neg (not_mxeAllowed hmay)).trans ((hp.gated _).trans (if_neg hvalid))

variable (hfmt : fmtOk (fmtA s.fmt) (fmtB s.fmt) (fmtAcc s.fmt) (tileType s.selfSite == .dense) = true)
include hfmt

theorem exec_mmal_issues {a b c : Src} {x : MmalShape} (hx : x = mmalShape [s.g a, s.g b, s.g c] s.fmt (modK m))
    (ha : x.a.toNat % 64 = 0) (hb : x.b.toNat % 64 = 0) (hastr : x.astr % 64 = 0) (hbstr : x.bstr % 64 = 0)
    (hout : ∀ q ∈ mmalLines x.a x.astr 64 x.la ++ mmalLines x.b x.bstr x.n x.lb, inScratch q.a = false)
    (hok : s.checkRanges s.who false (mmalLines x.a x.astr 64 x.la ++ mmalLines x.b x.bstr x.n x.lb) = .ok v) :
    exec (.mmal d a b c m) s =
      v.issueMxe d { s.newOp (modCh m) (.mma 2) m [s.g a, s.g b, s.g c] with total := x.total } (m.toNat / 2 ^ 18 ≠ 0 || badMxK s.fmt (modK m)) := by
  have hA : ¬((!multiple x.a 64) = true ∨ x.astr % 64 ≠ 0) := by simp [multiple_of_mod ha, hastr]
  have hB : ¬((!multiple x.b 64) = true ∨ x.bstr % 64 ≠ 0) := by simp [multiple_of_mod hb, hbstr]
  have hlinesA := mmalLines_eq fun q hq => hout q (List.mem_append_left _ hq)
  have hlinesB := mmalLines_eq fun q hq => hout q (List.mem_append_right _ hq)
  have hargs : [x.a, x.b, s.g c] = [s.g a, s.g b, s.g c] := by rw [hx]; rfl
  show execMmal d a b c m s = _
  rw [execMmal, if_neg (not_mxeAllowed hmay), hp.gated, if_neg (not_bnot_of_true hfmt)]
  simp only [← hx, if_neg hA, if_neg hB, hlinesA, hlinesB, hok, (keepsIssuer_checkRanges hok).newOp_eq,
    (keepsIssuer_checkRanges hok).g_eq, hargs]

theorem exec_gmm_issues {a : Src} {w : State} {x sizes : Nat} (halign : (s.g a).toNat % 32 = 0)
    (hread : (s.drainCore s.selfCore).readBack (s.g a) 8 4 = .data x v)
    (hsizes : v.readBack (BitVec.ofNat 64 (bits x 0 64)) 4 (bits x 64 8 + 1) = .data sizes w) :
    exec (.gmm d a m) s =
      w.issueMxe d { w.newOp (modCh m) (.mma 3) m [w.g a] with desc := x + sizes * 2 ^ 256 }
        (m.toNat / 16 ≠ 0 || gmmReserved x || (gmmShape (x + sizes * 2 ^ 256)).bad s.fmt (siteRows w.selfSite)) := by
  show execGmm d a m s = _
  rw [execGmm, if_neg (not_mxeAllowed hmay), hp.gated, if_neg (not_bnot_of_true hfmt), if_neg (not_multiple_of_mod halign),
    readStruct_of_data hread]
  simp only [hsizes]
end

end Sys2Proof.Machine
end

section
/-! SUPPORT. The semaphores (14 R336–R338). -/

namespace Sys2Proof.Machine

theorem exec_semp_granted {s : State} (hp : PlainStrand s) (d : Reg) (a : Src) (m : BitVec 32) {gr : Grant} (hg : s.before.grant = some gr) :
    exec (.semp d a m) s = .next (s.useGrant.setG d (gr.value.setWidth 64)) := by
  have hg' : s.grant = some gr := hg
  show execSemp d a m s = _
  rw [execSemp, State.semBarred, hp.not_barred, hp.1, Bool.or_false, State.unless, if_neg Bool.false_ne_true, hg']

section
variable {s : State} (hp : PlainStrand s) (d : Reg) (a : Src) (m : BitVec 32) {i v : Nat} (hi : i = semIndex (s.g a))
  (hv : v = (s.tile s.selfSite).sems.getD i 0)
include hp hi hv

theorem exec_semv_overflow (h : 65535 < v + modN m) :
    exec (.semv a m) s = s.trapWith causeSemOverflow 0#64 (BitVec.ofNat 64 v) := by
  subst hi hv
  show execSemv a m s = _
  rw [execSemv, State.semBarred, hp.unless, hp.gated, if_pos h]
theorem exec_semv_fits (h : v + modN m ≤ 65535) {u : State} (hu : u = s.drainCore s.selfCore) :
    exec (.semv a m) s = .next ((u.setTile u.selfSite { u.tile u.selfSite with
      sems := (u.tile u.selfSite).sems.set i (v + modN m) }).serveSem u.selfSite i ((u.tile u.selfSite).semWait.getD i [])) := by
  subst hi hv hu
  show execSemv a m s = _
  rw [execSemv, State.semBarred, hp.unless, hp.gated, if_neg (Nat.not_lt.2 h)]
  rfl

/-- A SEMP that no one has answered yet. -/
theorem exec_semp_fresh (hg : s.before.grant = none) :
    exec (.semp d a m) s =
      if ((s.tile s.selfSite).semWait.getD i []).isEmpty && modN m ≤ v then
        .next ((s.setTile s.selfSite { s.tile s.selfSite with sems := (s.tile s.selfSite).sems.set i (v - modN m) }).setG d
          (BitVec.ofNat 64 (v - modN m)))
      else
        .next ((s.setTile s.selfSite { s.tile s.selfSite with
          semWait := (s.tile s.selfSite).semWait.set i ((s.tile s.selfSite).semWait.getD i [] ++ [(s.cur.strand, modN m)]) }).hold
          (.semaphore i)) := by
  subst hi hv
  have hg' : s.grant = none := hg
  show execSemp d a m s = _
  rw [execSemp, State.semBarred, hp.not_barred, hp.1, Bool.or_false, State.unless, if_neg Bool.false_ne_true, hg']
  exact hp.gated _

theorem exec_semq_reads : exec (.semq d a) s = .next (s.setG d (BitVec.ofNat 64 v)) := by
  subst hi hv
  show execSemq d a s = _
  rw [execSemq, State.semBarred, hp.unless, hp.gated]
end

/-- The oldest waiter waits on while the value does not cover it. -/
theorem serveSem_of_lt {x : State} {site i k q : Nat} {rest : List (Nat × Nat)} (h : (x.tile site).sems.getD i 0 < q) :
    x.serveSem site i ((k, q) :: rest) = x := if_pos h
theorem serveSem_of_le {x : State} {site i k q w : Nat} {rest : List (Nat × Nat)} (hw : w = (x.tile site).sems.getD i 0) (h : q ≤ w) :
    x.serveSem site i ((k, q) :: rest) =
      State.serveSem ((x.setTile site { x.tile site with
          sems := (x.tile site).sems.set i (w - q), semWait := (x.tile site).semWait.set i rest }).release k
        { value := BitVec.ofNat 512 (w - q) }) site i rest := by
  subst hw
  exact if_neg (Nat.not_lt.2 h)

/-- Neither of two reasons for a refusal applies. -/
theorem neither {x y : Bool} (hx : x = false) (hy : y = false) : (x || y) = false := Bool.or_eq_false_iff.2 ⟨hx, hy⟩

/-- Settles O30: the copies and the matrix commands fork by their checks; the semaphores answer by their value. -/
theorem storeMatrixSemaphoreComplete : Obligations.StoreMatrixSemaphoreComplete := by
  refine ⟨tileStoreCopies_fork, ?_, ?_⟩
  · intro s d a b c m hp hmay ch f rows k n fmts mx panels
    refine ⟨fun hroom hmxe => ⟨?_, ?_, ?_, ?_⟩, ?_, ?_⟩
    · intro hf hmx ⟨ha, hb⟩ hm
      have hgood := neither (neither (neither (modifier_defined hm) (badMxK_of_multiple hmx)) (rowsBad_of_fits ha)) (rowsBad_of_fits hb)
      refine ⟨?_, fun hs hsparse => ?_⟩
      · show ∃ t, s.issueMma 0 d a b m = .next t ∧ Forks d _ s t
        rw [issueMma_issues (op := 0) hp a b hmay hf (fun h => absurd h (by decide))]
        exact issueMxe_forks hroom hmxe hgood
      · show ∃ t, s.issueMma 1 d a b m = .next t ∧ Forks d _ s t
        rw [issueMma_issues (op := 1) hp a b (mxeAllowed_sparse hmay hs) hf fun _ => hsparse]
        exact issueMxe_forks hroom hmxe hgood
    · intro hm
      rw [exec_aczero_issues hp hmay]
      exact issueMxe_forks hroom hmxe (modifier_defined hm)
    · intro hm hfit
      rw [exec_acld_issues hp hmay]
      exact issueMxe_forks hroom hmxe (neither (modifier_defined hm) (rowsBad_of_fits hfit))
    · intro hm hdef hwide hfit
      rw [exec_acst_issues hp hmay a hwide]
      exact issueMxe_forks hroom hmxe (neither (neither (modifier_defined hm) (decide_eq_false hdef)) (rowsBad_of_fits hfit))
    · intro hf hmx hm x lines us v ha hb hastr hbstr hout hok hroom hmxe
      rw [exec_mmal_issues hp hmay hf rfl ha hb hastr hbstr hout hok]
      exact issueMxe_forks hroom hmxe (neither (modifier_defined hm) (badMxK_of_multiple hmx))
    · rintro hf hm halign u v w x sizes rfl hread hsizes hres hgood hsite hroom hmxe
      rw [exec_gmm_issues hp hmay hf halign hread hsizes, hsite]
      exact issueMxe_forks hroom hmxe (neither (neither (modifier_defined hm) hres) hgood)
  · intro s d a m hp site i n t v u
    refine ⟨fun hfit hsite => ?_, fun hover => exec_semv_overflow hp a m rfl rfl hover, fun x => rfl, ?_, fun hg hw hn => ?_,
      fun hg hw => ?_, fun gr hg => exec_semp_granted hp d a m hg, ?_⟩
    · exact hsite ▸ exec_semv_fits hp a m rfl rfl hfit rfl
    · intro x k q rest w
      exact ⟨serveSem_of_lt, serveSem_of_le rfl⟩
    · refine (exec_semp_fresh hp d a m rfl rfl hg).trans (if_pos ?_)
      exact Bool.and_eq_true_iff.2 ⟨List.isEmpty_iff.2 hw, decide_eq_true hn⟩
    · refine (exec_semp_fresh hp d a m rfl rfl hg).trans (if_neg fun h => ?_)
      obtain ⟨hempty, hle⟩ := Bool.and_eq_true_iff.1 h
      exact hw.elim (fun hw => hw (List.isEmpty_iff.1 hempty)) (Nat.not_lt.2 (of_decide_eq_true hle))
    · exact ⟨_, exec_semq_reads hp d a rfl rfl, writesG_setG d _ s⟩

end Sys2Proof.Machine
end

section
/-! SUPPORT. The merge and the collectives once their checks pass (16 R383–R388). -/

namespace Sys2Proof.Machine

section
variable {s v : State} (hp : PlainStrand s) (hcc : coreIsCC s.selfCore = true)
include hp hcc

theorem exec_smerge_forks (d : Reg) {a b c : Src} {m : BitVec 32} (ht : tileType s.selfSite = .sparse) (ha : (s.g a).toNat % 64 = 0)
    (hb : (s.g b).toNat % 64 = 0) (hc : (s.g c).toNat % 64 = 0)
    (hok : s.checkRanges s.who false [use .engineWrite (s.g a) (64 * (m.extractLsb' 12 20).toNat)] = .ok v) (hroom : HasRoom v (modCh m))
    (hgood : ¬((m.extractLsb' 4 5).toNat = 0 || 16 < (m.extractLsb' 4 5).toNat || (m.extractLsb' 12 20).toNat = 0 ||
      (m.extractLsb' 9 3).toNat ≠ 0) = true) :
    ∃ t, exec (.smerge d a b c m) s = .next t ∧ Forks d (s.newOp (modCh m) .smerge m [s.g a, s.g b, s.g c]) v t := by
  have hmay : ¬(!s.sparseAllowed || !coreIsCC s.selfCore) = true := by
    simp [State.sparseAllowed, hp.inAtelier_eq, hp.not_inShadow, ht, hcc]
  have haligned : ([s.g a, s.g b, s.g c].find? fun x => !multiple x 64) = none := by
    simp [multiple_of_mod ha, multiple_of_mod hb, multiple_of_mod hc]
  refine (State.forks_fork d _ v).imp fun t h => ⟨?_, h.2⟩
  show execSmerge d a b c m s = _
  rw [execSmerge, if_neg hmay, hp.gated, haligned]
  show (match s.checkRanges s.who false [use .engineWrite (s.g a) (64 * (m.extractLsb' 12 20).toNat)] with | .error t => s.trap t | .ok s => _) = _
  rw [hok]
  exact (withRoom_of_room hroom _).trans ((if_neg hgood).trans h.1)

/-- What a member's collective asks of alignment, what it writes, and what makes it end RANGE. -/
def collAlign (op : Nat) (m : BitVec 32) : Nat := if op = 0 then valueBytes (m.extractLsb' 4 2).toNat else 64
def collWrites (op : Nat) (m : BitVec 32) : Nat :=
  if op = 1 then 64 * (m.extractLsb' 12 20).toNat
  else if op = 0 then (m.extractLsb' 8 24).toNat * valueBytes (m.extractLsb' 4 2).toNat else 64 * (m.extractLsb' 8 24).toNat
def collBad (op : Nat) (m : BitVec 32) : Bool :=
  match op with
  | 0 => (m.extractLsb' 4 2).toNat = 3 || (m.extractLsb' 6 2).toNat ≠ 0
  | 1 => (m.extractLsb' 4 5).toNat = 0 || 16 < (m.extractLsb' 4 5).toNat || (m.extractLsb' 12 20).toNat = 0 ||
      m.getLsbD 9 || m.getLsbD 10 || m.getLsbD 11
  | _ => (m.extractLsb' 4 4).toNat ≠ 0
/-- Only the root of a COLL.sr writes. -/
def collRootWrites (op rank : Nat) : Bool := op ≠ 1 || rank = 0
/-- A member's collective passes its alignment and its ranges, and `v` is what they leave. -/
structure CollPasses (s v : State) (op : Nat) (a b : Src) (m : BitVec 32) (rank : Nat) : Prop where
  alignedA : collRootWrites op rank = true → (s.g a).toNat % collAlign op m = 0
  alignedB : (s.g b).toNat % collAlign op m = 0
  ranges : s.checkRanges s.who false (if collRootWrites op rank then [use .engineWrite (s.g a) (collWrites op m)] else []) = .ok v
/-- The operation of a member of rank `rank` whose number is `n`. -/
def State.collOpOf (s : State) (op : Nat) (a b : Src) (m : BitVec 32) (index rank n : Nat) : Op :=
  { s.newOp (modCh m) (.coll op) m [] with args := [s.g a, s.g b, BitVec.ofNat 64 index, BitVec.ofNat 64 rank, BitVec.ofNat 64 n] }
/-- The rank's next number counts up. -/
def State.numbered (v : State) (index rank n : Nat) : State :=
  v.mapLaunch v.before.launch fun l => l.mapGroup index fun g => { g with collCount := g.collCount.set rank (n + 1) }

theorem issueColl_forks {op : Nat} (d : Reg) {a b c : Src} {m : BitVec 32} {l : Launch} {g : Group} {rank n : Nat}
    (hl : s.selfLaunch = some l) (hg : s.selfGslot ((s.g c).toNat % 4) = some g) (hq : g.quarantined = false)
    (hr : g.rank? (s.cidWord l s.selfCore) = some rank) (hn : n = g.collCount.getD rank 0)
    (hpass : CollPasses s v op a b m rank) (hroom : HasRoom v (modCh m)) (hgood : collBad op m = false) :
    ∃ t, s.issueColl op d a b c m = .next t ∧
      Forks d (s.collOpOf op a b m g.index rank n) ((v.numbered g.index rank n).tellIssue (s.collOpOf op a b m g.index rank n)) t := by
  obtain ⟨hA, hB, hok⟩ := hpass
  have hmay : ¬(s.barred true false true true || !coreIsCC s.selfCore) = true := by
    simp [hp.not_barred, hcc]
  have hA' : ¬(collRootWrites op rank && !multiple (s.g a) (collAlign op m)) = true := by
    intro h
    obtain ⟨hw, hm⟩ := Bool.and_eq_true_iff.1 h
    exact not_multiple_of_mod (hA hw) hm
  refine (State.forks_fork d _ _).imp fun t h => ⟨?_, h.2⟩
  subst hn
  rw [State.issueColl, if_neg hmay, hp.gated]
  simp only [hl, hg, hr, Option.getD_some]
  refine (if_neg hA').trans ((if_neg (not_multiple_of_mod hB)).trans ?_)
  show (match s.checkRanges s.who false (if collRootWrites op rank then [use .engineWrite (s.g a) (collWrites op m)] else []) with
    | .error t => s.trap t | .ok s => _) = _
  rw [hok]
  simp only [(keepsIssuer_checkRanges hok).g_eq b]
  refine (withRoom_of_room hroom _).trans ((if_neg (ne_true_of_eq_false hq)).trans ((if_neg ?_).trans h.1))
  exact ne_true_of_eq_false hgood
end

/-- The modifier of a merge that is defined refuses nothing. -/
theorem merges_defined {m : BitVec 32}
    (h : 1 ≤ (m.extractLsb' 4 5).toNat ∧ (m.extractLsb' 4 5).toNat ≤ 16 ∧ 0 < (m.extractLsb' 12 20).toNat ∧ m.extractLsb' 9 3 = 0#3) :
    collBad 1 m = false ∧ ¬((m.extractLsb' 4 5).toNat = 0 || 16 < (m.extractLsb' 4 5).toNat || (m.extractLsb' 12 20).toNat = 0 ||
      (m.extractLsb' 9 3).toNat ≠ 0) = true := by
  obtain ⟨h1, h16, hcap, hzero⟩ := h
  have hbit (i : Nat) (hi : i < 3) : m.getLsbD (9 + i) = false := by
    have := congrArg (fun x : BitVec 3 => x.getLsbD i) hzero
    simpa [BitVec.getLsbD_extractLsb', hi] using this
  have hthr : ¬(m.extractLsb' 4 5).toNat = 0 := by omega
  have hthr' : ¬16 < (m.extractLsb' 4 5).toNat := by omega
  have hcap' : ¬(m.extractLsb' 12 20).toNat = 0 := by omega
  refine ⟨?_, ?_⟩
  · simp only [collBad, hthr, hthr', hcap', hbit 0 (by decide), hbit 1 (by decide), hbit 2 (by decide), decide_false, Bool.or_self]
  · simp only [hzero, hthr, hthr', hcap', decide_false]
    decide

/-- Settles O33: alignment and ranges pass, and the modifier is defined, so the command is numbered, told and forked. -/
theorem mergeCollectivesComplete : Obligations.MergeCollectivesComplete := by
  intro s v d a b c m hp hcc ch thr cap merges hroom
  refine ⟨fun ht ha hb hc hmerge hok => exec_smerge_forks hp hcc d ht ha hb hc hok hroom (merges_defined hmerge).2, ?_⟩
  intro l g rank n hl hg hq hr hn numbered o size count
  refine ⟨?_, ?_, ?_⟩
  · intro hvt hres ha hb hok
    have hgood : collBad 0 m = false := by simp only [collBad, hvt, hres, decide_false]; rfl
    exact issueColl_forks hp hcc d hl hg hq hr hn ⟨fun _ => ha, hb, hok⟩ hroom hgood
  · intro hmerge hb
    refine ⟨fun hroot ha hok => ?_, fun hne hv => ?_⟩
    · have hw : collRootWrites 1 rank = true := by simp [collRootWrites, hroot]
      exact issueColl_forks hp hcc d hl hg hq hr hn ⟨fun _ => ha, hb, by rw [hw]; exact hok⟩ hroom (merges_defined hmerge).1
    · have hw : collRootWrites 1 rank = false := by simp [collRootWrites, hne]
      exact issueColl_forks hp hcc d hl hg hq hr hn ⟨fun h => absurd (hw.symm.trans h) (by decide), hb, by rw [hw, hv]; rfl⟩ hroom
        (merges_defined hmerge).1
  · intro hres ha hb hok
    have hgood : collBad 2 m = false := by simp only [collBad, hres]; rfl
    exact issueColl_forks hp hcc d hl hg hq hr hn ⟨fun _ => ha, hb, hok⟩ hroom hgood

end Sys2Proof.Machine
end

section
/-! SUPPORT. The index engine's commands once their checks pass, and the fault queue's answers (16 R365–R377). -/

namespace Sys2Proof.Machine

theorem sparseAllowed_of_plain {s : State} (hp : PlainStrand s) (ht : tileType s.selfSite = .sparse) : ¬(!s.sparseAllowed) = true := by
  simp [State.sparseAllowed, hp.inAtelier_eq, hp.not_inShadow, ht]

/-! ## GATH and SCAT (R367, R368, R374, R375) -/

/-- The operation of a GATH or SCAT whose descriptor reads `x`. -/
def State.elemsOp (s : State) (scat : Bool) (lo table : Word) (m : BitVec 32) (x : Nat) : Op :=
  { s.newOp (modCh m) (if scat then .scat else .gath) m [lo, table] with desc := x, total := (elemShape x).count }
/-- What makes a GATH or SCAT end RANGE. -/
def elemsBad (scat : Bool) (m : BitVec 32) (x : Nat) : Bool :=
  let e := elemShape x
  let op := if scat then (m.extractLsb' 4 2).toNat else 0
  let et := (m.extractLsb' 6 2).toNat
  (m.toNat / 2 ^ 14 ≠ 0 || (!scat && (m.extractLsb' 4 4).toNat ≠ 0) || (!m.getLsbD 13 && (m.extractLsb' 8 5).toNat ≠ 0))
    || (scat && (et == 3 || (op == 0 && et != 0) || (op != 0 && e.esize % elemSize et != 0)))
    || bits x 193 63 != 0 || !e.sizeOk scat || !multiple e.idxa e.iw

/-- Reading the descriptor and checking the ranges leave the issuing core. -/
theorem selfCore_of_elems {s v w : State} (hp : PlainStrand s) {va : Word} {x : Nat}
    (hread : (s.drainCore s.selfCore).readBack va 8 4 = .data x v) {us : List RangeUse} (hok : v.checkRanges v.who false us = .ok w) :
    w.selfCore = s.selfCore := by
  have hdrain := sameIssuer_drainCore s s.selfCore
  have htask : s.before.task = none := by obtain ⟨-, -, -, h, -⟩ := hp; exact h
  have hback := sameIssuer_readBack (hdrain.task_eq.trans htask) hread
  exact (keepsIssuer_checkRanges hok).selfCore_eq.trans (hback.selfCore_eq.trans hdrain.selfCore_eq)

section
variable {s v w : State} (hp : PlainStrand s) (ht : tileType s.selfSite = .sparse) {c : Src} {lo table : Word} {x : Nat}
  (hc : (s.g c).toNat % 32 = 0) (hlo : lo.toNat % 4 = 0) (htab : table.toNat % 4 = 0)
  (hread : (s.drainCore s.selfCore).readBack (s.g c) 8 4 = .data x v)
include hp ht hc hlo htab hread

theorem issueElems_issues (scat : Bool) (d : Reg) {m : BitVec 32} (hsize : scat = true → table.toNat % (elemShape x).esize = 0)
    (hok : v.checkRanges v.who false [use .engineRead (elemShape x).idxa ((elemShape x).count * (elemShape x).iw),
      use (if scat then .engineRead else .engineWrite) lo ((elemShape x).count * (elemShape x).esize)] = .ok w)
    (hroom : HasRoom w (modCh m)) (hgood : elemsBad scat m x = false) :
    s.issueElems scat d lo table c m =
      if (elemShape x).count = 0 then w.atOnceArriving d (w.elemsOp scat lo table m x) 0 else w.fork d (w.elemsOp scat lo table m x) := by
  have htable : ¬(scat && (elemShape x).sizeOk true && !multiple table (elemShape x).esize) = true := by
    cases scat
    · simp
    · simp [multiple_of_mod (hsize rfl)]
  rw [State.issueElems, if_neg (sparseAllowed_of_plain hp ht), hp.gated, if_neg (not_multiple_of_mod hc), if_neg (not_multiple_of_mod hlo),
    if_neg (not_multiple_of_mod htab), readStruct_of_data hread]
  refine (if_neg htable).trans ?_
  simp only [hok]
  refine (withRoom_of_room hroom _).trans (if_neg ?_)
  exact ne_true_of_eq_false hgood

variable (scat : Bool) (d : Reg) {m : BitVec 32} (hsize : scat = true → table.toNat % (elemShape x).esize = 0)
    (hok : v.checkRanges v.who false [use .engineRead (elemShape x).idxa ((elemShape x).count * (elemShape x).iw),
      use (if scat then .engineRead else .engineWrite) lo ((elemShape x).count * (elemShape x).esize)] = .ok w)
    (hroom : HasRoom w (modCh m)) (hgood : elemsBad scat m x = false)
include hsize hok hroom hgood

theorem issueElems_forks (hcount : 0 < (elemShape x).count) :
    ∃ t, s.issueElems scat d lo table c m = .next t ∧ Forks d (w.elemsOp scat lo table m x) w t := by
  rw [issueElems_issues hp ht hc hlo htab hread scat d hsize hok hroom hgood, if_neg hcount.ne']
  exact State.forks_fork ..
theorem issueElems_ends (hcount : (elemShape x).count = 0) :
    ∃ t, s.issueElems scat d lo table c m =
        .next (if m.getLsbD 13 = true then t.signal s.selfSite (m.extractLsb' 8 5).toNat else t) ∧
      EndsAtOnce d (w.elemsOp scat lo table m x) 0 w t := by
  rw [issueElems_issues hp ht hc hlo htab hread scat d hsize hok hroom hgood, if_pos hcount]
  obtain ⟨t, heq, hends⟩ := State.endsAtOnce_atOnce d (w.elemsOp scat lo table m x) 0 w
  cases heq
  refine ⟨_, ?_, hends⟩
  rw [State.selfSite, ← selfCore_of_elems hp hread hok]
  rfl
end

theorem modifier_arrival {m : BitVec 32} (hm : m.toNat < 2 ^ 14) (harr : m.getLsbD 13 = true ∨ m.extractLsb' 8 5 = 0#5) :
    decide (m.toNat / 2 ^ 14 ≠ 0) = false ∧ (!m.getLsbD 13 && decide ((m.extractLsb' 8 5).toNat ≠ 0)) = false := by
  have hzero : m.toNat / 2 ^ 14 = 0 := Nat.div_eq_of_lt hm
  refine ⟨by rw [hzero]; rfl, ?_⟩
  rcases harr with h | h
  · rw [h]; rfl
  · rw [h]; exact Bool.and_false _
theorem reserved_of_lt {x : Nat} (hx : x < 2 ^ 193) : (bits x 193 63 != 0) = false := by
  rw [bits, Nat.div_eq_of_lt hx]; rfl

section
variable {m : BitVec 32} {x : Nat} (hm : m.toNat < 2 ^ 14) (harr : m.getLsbD 13 = true ∨ m.extractLsb' 8 5 = 0#5) (hx : x < 2 ^ 193)
  (hidx : (elemShape x).idxa.toNat % (elemShape x).iw = 0)
include hm harr hx hidx

theorem elemsBad_gath (hres : m.extractLsb' 4 4 = 0#4) (hlow : 4 ≤ (elemShape x).esize) (hhigh : (elemShape x).esize ≤ 4096)
    (hfour : (elemShape x).esize % 4 = 0) : elemsBad false m x = false := by
  obtain ⟨hhi, hev⟩ := modifier_arrival hm harr
  have hsize : (elemShape x).sizeOk false = true := by simp [ElemShape.sizeOk, hlow, hhigh, hfour]
  simp only [elemsBad, hhi, hev, hres, reserved_of_lt hx, hsize, multiple_of_mod hidx]
  rfl
theorem elemsBad_scat (hsize : (elemShape x).esize ∈ [4, 8, 16, 32, 64]) (het : (m.extractLsb' 6 2).toNat ≠ 3)
    (hplain : (m.extractLsb' 4 2).toNat = 0 → (m.extractLsb' 6 2).toNat = 0)
    (hdiv : (m.extractLsb' 4 2).toNat ≠ 0 → (elemShape x).esize % elemSize (m.extractLsb' 6 2).toNat = 0) :
    elemsBad true m x = false := by
  obtain ⟨hhi, hev⟩ := modifier_arrival hm harr
  have hsize' : (elemShape x).sizeOk true = true := List.contains_iff_mem.2 hsize
  have hop : ((m.extractLsb' 6 2).toNat == 3 || ((m.extractLsb' 4 2).toNat == 0 && (m.extractLsb' 6 2).toNat != 0) ||
      ((m.extractLsb' 4 2).toNat != 0 && (elemShape x).esize % elemSize (m.extractLsb' 6 2).toNat != 0)) = false := by
    by_cases h : (m.extractLsb' 4 2).toNat = 0
    · simp only [h, hplain h]; rfl
    · simp only [beq_false_of_ne het, beq_false_of_ne h, hdiv h]; exact Bool.and_false _
  simp only [elemsBad, hhi, hev, if_true, hop, reserved_of_lt hx, hsize', multiple_of_mod hidx]
  rfl
end

/-! ## The fault queue (R372, R376, R377) -/

section
variable {s : State} (hp : PlainStrand s) (ht : tileType s.selfSite = .sparse) (d : Reg) (a b : Src)
include hp ht

theorem onEntries_of_none {f : State → Nat → NatSet → State × Bool}
    (h : s.queueEntries ((s.g a).toNat % 16) ((s.g b).setWidth 32) = []) : s.onEntries d a b f = .next (s.setG d 0#64) := by
  rw [State.onEntries, if_neg (sparseAllowed_of_plain hp ht), hp.gated]
  simp only [h, List.isEmpty_nil, if_true]

variable {es : List FaultEntry} (hes : es = s.queueEntries ((s.g a).toNat % 16) ((s.g b).setWidth 32)) (hne : es ≠ [])
include hes hne

theorem onEntries_of_no_grant (hg : (s.drainCore s.selfCore).before.grant = none) (f : State → Nat → NatSet → State × Bool) :
    s.onEntries d a b f = .next ((s.drainCore s.selfCore).hold .answer) := by
  have hg' : (s.drainCore s.selfCore).grant = none := hg
  subst hes
  rw [State.onEntries, if_neg (sparseAllowed_of_plain hp ht), hp.gated]
  simp only [State.answered, hg']
  exact if_neg fun h => hne (List.isEmpty_iff.1 h)

variable {gr : Grant} (hg : (s.drainCore s.selfCore).before.grant = some gr) {u : State} (hu : u = (s.drainCore s.selfCore).useGrant)
include hg hu

theorem onEntries_of_no_op (hop : u.opIndex u.selfCore ((s.g a).toNat % 16) ((s.g b).setWidth 32) = none)
    (f : State → Nat → NatSet → State × Bool) :
    s.onEntries d a b f =
      .next ((u.dropEntries ((s.g a).toNat % 16) ((s.g b).setWidth 32)).setG d (BitVec.ofNat 64 es.length)) := by
  subst hes hu
  rw [State.onEntries, if_neg (sparseAllowed_of_plain hp ht), hp.gated]
  refine (if_neg fun h => hne (List.isEmpty_iff.1 h)).trans ((answered_of_grant hg _).trans ?_)
  simp only [hop]
/-- Once the answer's time has come, the elements are worked on; the pair waits again where one of them must. -/
theorem onEntries_acts {i : Nat} (hop : u.opIndex u.selfCore ((s.g a).toNat % 16) ((s.g b).setWidth 32) = some i)
    (f : State → Nat → NatSet → State × Bool) {r : State × Bool}
    (hr : r = f (u.dropEntries ((s.g a).toNat % 16) ((s.g b).setWidth 32)) i (sortedElems es)) :
    s.onEntries d a b f = if r.2 then .next (r.1.setG d (BitVec.ofNat 64 es.length)) else .next ((u.raised r.1).hold .answer) := by
  subst hes hu hr
  rw [State.onEntries, if_neg (sparseAllowed_of_plain hp ht), hp.gated]
  refine (if_neg fun h => hne (List.isEmpty_iff.1 h)).trans ((answered_of_grant hg _).trans ?_)
  simp only [hop]
end

/-! ## Cancelled elements (R376) -/

/-- What GCANCEL does to the elements that it takes out of the queue, in their order. -/
def State.cancelElements (s : State) (i : Nat) (m : BitVec 32) (ks : NatSet) (ok : Bool) : State × Bool :=
  ks.foldl (fun r k => ((r.1.cancelElement i m k).1, r.2 && (r.1.cancelElement i m k).2)) (s, ok)

theorem exec_gcancel_eq (s : State) (d : Reg) (a b : Src) (m : BitVec 32) :
    exec (.gcancel d a b m) s = s.onEntries d a b fun s i ks => s.cancelElements i m ks true := rfl

theorem cancelElement_of_scat {s : State} {i : Nat} {o : Op} (ho : s.ops[i]? = some o) (hs : o.isScat = true) (m : BitVec 32) (k : Nat) :
    s.cancelElement i m k = (s.setOp i { o.settle k with st := { o.st with cancelled := true } }, true) := by
  simp only [State.cancelElement, ho, if_pos hs]

/-- Every element of a SCAT is settled as cancelled without a wait. -/
theorem cancelElements_of_scat {i : Nat} (m : BitVec 32) (ks : NatSet) {s : State} {o : Op} (ho : s.ops[i]? = some o)
    (hs : o.isScat = true) :
    (s.cancelElements i m ks true).2 = true ∧
      ∃ o' : Op, (s.cancelElements i m ks true).1.ops[i]? = some o' ∧ (∀ k, k ∈ ks ∨ k ∈ o.done → k ∈ o'.done) ∧
        (ks ≠ [] ∨ o.st.cancelled = true → o'.st.cancelled = true) := by
  induction ks generalizing s o with
  | nil => exact ⟨rfl, o, ho, by simp, by simp⟩
  | cons k ks ih =>
    have hstep : s.cancelElements i m (k :: ks) true =
        (s.setOp i { o.settle k with st := { o.st with cancelled := true } }).cancelElements i m ks true := by
      simp only [State.cancelElements, List.foldl_cons, cancelElement_of_scat ho hs, Bool.and_self]
    have hat : (s.setOp i { o.settle k with st := { o.st with cancelled := true } }).ops[i]? =
        some { o.settle k with st := { o.st with cancelled := true } } := by
      obtain ⟨hlt, -⟩ := List.getElem?_eq_some_iff.1 ho
      exact List.getElem?_set_self hlt
    obtain ⟨hok, o', ho', hdone, hcan⟩ := ih hat hs
    rw [hstep]
    refine ⟨hok, o', ho', fun j hj => hdone j ?_, fun _ => hcan (.inr rfl)⟩
    rcases hj with hj | hj
    · rcases List.mem_cons.1 hj with rfl | hj
      · exact .inr ((mem_setInsert ..).2 (.inl rfl))
      · exact .inl hj
    · exact .inr ((mem_setInsert ..).2 (.inr hj))

theorem foldl_setInsert_ne_nil (es : List FaultEntry) {t : NatSet} (h : t ≠ []) : es.foldl (fun t e => setInsert e.elem t) t ≠ [] := by
  induction es generalizing t with
  | nil => exact h
  | cons e es ih => exact ih (List.ne_nil_of_mem ((mem_setInsert e.elem e.elem t).2 (.inl rfl)))
theorem sortedElems_ne_nil {es : List FaultEntry} (h : es ≠ []) : sortedElems es ≠ [] := by
  obtain ⟨e, es, rfl⟩ := List.exists_cons_of_ne_nil h
  exact foldl_setInsert_ne_nil es (List.cons_ne_nil e.elem [])

theorem exec_fqpeek_of_settlement {s : State} (hp : PlainStrand s) (ht : tileType s.selfSite = .sparse) (d : Reg) (a b : Src) {m : BitVec 32}
    (hw : (m.extractLsb' 0 2).toNat = 3) :
    exec (.fqpeek d a b m) s = .next (s.setG d (s.settlement ((s.g a).toNat % 16) ((s.g b).setWidth 32))) := by
  show execFqpeek d a b m s = _
  rw [execFqpeek, if_neg (sparseAllowed_of_plain hp ht), hp.gated, hw, if_pos rfl]
theorem exec_fqpeek_of_word {s : State} (hp : PlainStrand s) (ht : tileType s.selfSite = .sparse) (d : Reg) (a b : Src) {m : BitVec 32}
    (hw : (m.extractLsb' 0 2).toNat ≠ 3) :
    exec (.fqpeek d a b m) s =
      .next (s.setG d (((s.tile s.selfSite).faultq[(s.g a).toNat % 256]?.map (·.word (m.extractLsb' 0 2).toNat)).getD 0#64)) := by
  show execFqpeek d a b m s = _
  rw [execFqpeek, if_neg (sparseAllowed_of_plain hp ht), hp.gated]
  refine (if_neg hw).trans ?_
  cases (s.tile s.selfSite).faultq[(s.g a).toNat % 256]? <;> rfl

/-- Settles O32: the descriptor's checks pass, so the operation forks or ends at once; the fault queue answers by its entries. -/
theorem gatherScatterQueueComplete : Obligations.GatherScatterQueueComplete := by
  refine ⟨?_, ?_⟩
  · rintro s u v w d a b c m x hp ht hc ha hb rfl hread ch e op et arriving hm harr hx hidx hroom
    refine ⟨fun hres hlow hhigh hfour hok => ?_, fun hsize htab het hplain hdiv hok => ?_⟩
    · have hgood := elemsBad_gath hm harr hx hidx hres hlow hhigh hfour
      have hsize : false = true → (s.g b).toNat % (elemShape x).esize = 0 := fun h => absurd h (by decide)
      exact ⟨issueElems_forks hp ht hc ha hb hread false d hsize hok hroom hgood,
        issueElems_ends hp ht hc ha hb hread false d hsize hok hroom hgood⟩
    · have hgood := elemsBad_scat hm harr hx hidx hsize het hplain hdiv
      exact ⟨issueElems_forks hp ht hc hb ha hread true d (fun _ => htab) hok hroom hgood,
        issueElems_ends hp ht hc hb ha hread true d (fun _ => htab) hok hroom hgood⟩
  · intro s d a b m hp ht ch id es
    rw [exec_gcancel_eq]
    refine ⟨fun h => ⟨onEntries_of_none hp ht d a b h, onEntries_of_none hp ht d a b h⟩, ?_, ?_, fun hg hne =>
      ⟨onEntries_of_no_grant hp ht d a b rfl hne hg _, onEntries_of_no_grant hp ht d a b rfl hne hg _⟩, fun hw => ⟨fun e he => ?_, fun he => ?_⟩,
      exec_fqpeek_of_settlement hp ht d a b⟩
    · intro gr i hne _ hg u hop n formed filled
      have hreplay : exec (.greplay d a b) s = if formed.2 then .next (formed.1.setG d n) else .next ((u.raised formed.1).hold .answer) :=
        onEntries_acts hp ht d a b rfl hne hg rfl hop _ rfl
      have hcancel := onEntries_acts hp ht d a b rfl hne hg rfl hop (fun s i ks => s.cancelElements i m ks true) (r := filled) rfl
      refine ⟨fun h => hreplay.trans (if_pos h), fun h => hreplay.trans (if_neg (ne_true_of_eq_false h)), fun h => hcancel.trans (if_pos h),
        fun h => hcancel.trans (if_neg (ne_true_of_eq_false h)), fun o ho hs => ?_⟩
      obtain ⟨hok, o', ho', hdone, hcan⟩ := cancelElements_of_scat m (sortedElems es) (s := u.dropEntries ch id) ho hs
      exact ⟨_, hcancel.trans (if_pos hok), o', ho', hcan (.inl (sortedElems_ne_nil hne)), fun k hk => hdone k (.inl hk)⟩
    · intro gr hne _ hg u hop
      exact ⟨onEntries_of_no_op hp ht d a b rfl hne hg rfl hop _, onEntries_of_no_op hp ht d a b rfl hne hg rfl hop _⟩
    · rw [exec_fqpeek_of_word hp ht d a b hw, he]
      rfl
    · rw [exec_fqpeek_of_word hp ht d a b hw, he]
      rfl

end Sys2Proof.Machine
end

section
/-! SUPPORT. The control messages of a span: once each, and what each one leaves (20 R446–R448, R456). -/

namespace Sys2Proof.Machine

section
variable {s : State} {p : Nat}

/-- A control message whose tag is not in the log and finds it not full. -/
def State.Fresh (s : State) (p : Nat) : Prop :=
  s.tagLog.find? (s.controlTag p) = none ∧ s.logFull (s.spanNo p) s.input.module = false
/-- Its tag goes into the log. -/
def State.logged (s : State) (p : Nat) : State := { s with tagLog := s.tagLog.set (s.controlTag p) 0 }

theorem controlled_of_fresh (h : s.Fresh p) (f : State → State) : s.controlled p f = (f (s.logged p)).answerControl p := by
  obtain ⟨hnew, hfull⟩ := h
  rw [State.controlled, hnew, if_neg (by decide), if_neg (ne_true_of_eq_false hfull)]
  rfl
theorem controlled_of_logged {x : Nat} (h : s.tagLog.find? (s.controlTag p) = some x) (f : State → State) :
    s.controlled p f = s.answerControl p := by
  rw [State.controlled, h, if_pos (by rfl)]

variable {l : Launch} (hl : s.launch? s.input.launch = some l)
include hl

theorem exec_spanLaunchSequence_of_launch (hm : s.input.mbox ≠ 1) :
    exec .spanLaunchSequence s = .next (s.controlled l.part fun s => s.spanTold l) := by
  show execSpanLaunchSequence s = _
  rw [execSpanLaunchSequence, if_neg hm, hl]
theorem exec_spanShareComplete_of_launch :
    exec .spanShareComplete s = .next (s.controlled l.part fun s => s.shareTold s.input.launch l) := by
  show execSpanShareComplete s = _
  rw [execSpanShareComplete, hl]
end

/-- The launch that another module's share becomes. -/
def State.shareOf (s : State) (i : Input) : Launch := { s.remoteShare i with spanSeq := some (s.shareNumber i).2, spanAsked := true }

theorem exec_spanLaunchSequence_of_share {s : State} (hm : s.input.mbox = 1) (hlive : (s.part s.input.part).live = true)
    (hmem : s.input.module ∈ s.otherMembers s.input.part) :
    exec .spanLaunchSequence s = .next (s.controlled s.input.part fun s =>
      { (s.shareNumber s.input).1.setLaunch s.nextLaunch (s.shareOf s.input) with nextLaunch := s.nextLaunch + 1 }) := by
  have hknown : ¬(!(s.part s.input.part).live || !(s.otherMembers s.input.part).contains s.input.module) = true := by
    simp [hlive, hmem]
  show execSpanLaunchSequence s = _
  rw [execSpanLaunchSequence, if_pos hm, if_neg hknown]
  rfl

theorem tagLog_sendControl (s : State) (p m : Nat) (what : List Nat) : (s.sendControl p m what).tagLog = s.tagLog := by
  rw [State.sendControl, transmitted_transmit { s with nextTag := s.nextTag + 1 }]
theorem tagLog_tellMembers (s : State) (p : Nat) (what : List Nat) : (s.tellMembers p what).tagLog = s.tagLog := by
  rw [State.tellMembers]
  generalize s.otherMembers p = ms
  induction ms generalizing s with
  | nil => rfl
  | cons m ms ih => exact (ih _).trans (tagLog_sendControl ..)

/-- What a share's number leaves of the state. -/
theorem shareNumber_leaves (s : State) (i : Input) :
    (s.shareNumber i).1.tagLog = s.tagLog ∧ (s.shareNumber i).1.launches = s.launches ∧
      (s.shareNumber i).2 = if s.ownModule i.part = 0 then (s.part i.part).nextSpan else i.value.toNat := by
  by_cases h : s.ownModule i.part = 0
  · rw [State.shareNumber, if_neg (not_not_intro h), if_pos h]
    obtain ⟨hl, -, -, -⟩ := keepsLaunches_tellMembers (s.takeNumber i.part).1 i.part [ctlNumber, (s.takeNumber i.part).2, i.module]
    exact ⟨tagLog_tellMembers .., hl, rfl⟩
  · rw [State.shareNumber, if_pos h, if_neg h]
    exact ⟨rfl, rfl, rfl⟩

/-- A status operand that is a number below 16 is 0 as a field exactly when it is 0. -/
theorem status_of_lt {n : Nat} (h : n < 16) (sts : BitVec 4) :
    (if BitVec.ofNat 4 n = 0#4 then sts else BitVec.ofNat 4 n) = if n = 0 then sts else BitVec.ofNat 4 n := by
  have hzero : BitVec.ofNat 4 n = 0#4 ↔ n = 0 := by
    rw [← BitVec.toNat_inj, BitVec.toNat_ofNat, Nat.mod_eq_of_lt h]
    rfl
  simp only [hzero]

section
variable {s : State} {l : Launch}

theorem spanTold_number (hm : s.input.mbox = 0) (hb : l.bound = false) (hseq : l.spanSeq = none) (hask : l.spanAsked = true) :
    s.spanTold l = s.startSpan s.input.launch l s.input.value.toNat := by
  have hne : ¬s.input.mbox = 2 := by rw [hm]; decide
  rw [State.spanTold, if_neg hne, hb, hseq, hask]
  exact if_neg (by decide)
theorem startSpan_leaves (n k : Nat) (hask : l.spanAsked = true) :
    (s.startSpan n l k).tagLog = s.tagLog ∧ (s.startSpan n l k).launches =
      s.launches.set n { l with spanSeq := some k, spanLeft := s.otherMembers l.part, spanUnbound := s.otherMembers l.part } := by
  obtain ⟨hl, -, -, -⟩ := keepsLaunches_tellMembers (s.setLaunch n
    { l with spanSeq := some k, spanAsked := true, spanLeft := s.otherMembers l.part, spanUnbound := s.otherMembers l.part }) l.part
    [ctlNumber, k, l.record.toNat, l.count.toNat, l.wdtUs]
  exact ⟨tagLog_tellMembers .., hl.trans (by rw [← hask]; rfl)⟩

theorem spanTold_bound (hm : s.input.mbox = 2) (hf : s.input.flag = false) (hb : l.bound = false) :
    s.spanTold l = s.setLaunch s.input.launch
      { l.learnCores [(s.input.module, s.input.item)] with spanUnbound := setRemove s.input.module l.spanUnbound } := by
  have hb' : (l.learnCores [(s.input.module, s.input.item)]).bound = false := hb
  rw [State.spanTold, if_pos hm]
  simp only [hf, Bool.false_eq_true, if_false, hb', Bool.false_and]

theorem shareTold_returned (n : Nat) (hf : s.input.flag = true) :
    s.shareTold n l = s.setLaunch n (l.returned s.input.module s.input.item (BitVec.ofNat 4 s.input.off)) := if_pos hf
theorem shareTold_rejected (n : Nat) (hf : s.input.flag = false) (ho : s.input.off = 5) (hb : l.bound = true) (horg : l.origin ≠ none) :
    s.shareTold n l = s.setLaunch n { l with toWake := [], spanLeft := [], spanUnbound := [], sts := 5#4 } := by
  have horg' : ¬l.origin.isNone = true := fun h => horg (Option.isNone_iff_eq_none.1 h)
  rw [State.shareTold, if_neg (ne_true_of_eq_false hf), ho, if_pos rfl, if_neg horg', if_pos hb]
theorem shareTold_completed (n : Nat) (hf : s.input.flag = false) (hlt : s.input.off < 16) (ho : s.input.off ≠ 5) (horg : l.origin = none)
    (hmem : s.input.module ∈ l.spanLeft) :
    s.shareTold n l = s.setLaunch n
      { l with
        spanLeft := setRemove s.input.module l.spanLeft
        sts := if s.input.off = 0 then l.sts else BitVec.ofNat 4 s.input.off } := by
  have hfive : ¬BitVec.ofNat 4 s.input.off = 5#4 := by
    rw [← BitVec.toNat_inj, BitVec.toNat_ofNat, Nat.mod_eq_of_lt hlt]
    exact ho
  have hhere : ¬(l.origin.isSome || !l.spanLeft.contains s.input.module) = true := by simp [horg, hmem]
  rw [State.shareTold, if_neg (ne_true_of_eq_false hf), if_neg hfive, if_neg hhere, status_of_lt hlt]
end

/-- Settles O48: each message takes effect once, as the lemma of its kind says. -/
theorem spanEventsComplete : Obligations.SpanEventsComplete := by
  intro s i fresh noted
  refine ⟨fun l hm hl hfresh hb hseq hask => ?_, fun hm hlive hmem hfresh => ?_, fun l hm hf hl hfresh hb => ?_,
    fun l hl hfresh hf hlt ho horg hmem => ?_, fun l hl hfresh hf ho hb horg => ?_, fun l hl hfresh hf hlt => ?_,
    fun l x hl hx hm => ?_, fun x hm hlive hmem hx => ?_⟩
  · have hne : i.mbox ≠ 1 := by rw [hm]; decide
    obtain ⟨htags, hlaunches⟩ := startSpan_leaves (s := s.logged l.part) i.launch i.value.toNat hask
    refine ⟨_, ?_, htags, hlaunches⟩
    rw [exec_spanLaunchSequence_of_launch hl hne, controlled_of_fresh hfresh, spanTold_number (s := s.logged l.part) hm hb hseq hask]
    rfl
  · obtain ⟨htags, hlaunches, hnumber⟩ := shareNumber_leaves (s.logged i.part) i
    refine ⟨_, (s.logged i.part).shareOf i,
      (exec_spanLaunchSequence_of_share hm hlive hmem).trans (congrArg _ (controlled_of_fresh hfresh _)), htags,
      congrArg (fun m : FMap Launch => m.set s.nextLaunch ((s.logged i.part).shareOf i)) hlaunches,
      rfl, rfl, rfl, rfl, rfl, rfl, congrArg some hnumber⟩
  · have hne : i.mbox ≠ 1 := by rw [hm]; decide
    refine ⟨{ l.learnCores [(i.module, i.item)] with spanUnbound := setRemove i.module l.spanUnbound }, ?_, rfl, fun h => if_pos h⟩
    rw [exec_spanLaunchSequence_of_launch hl hne, controlled_of_fresh hfresh, spanTold_bound (s := s.logged l.part) hm hf hb]
    rfl
  · rw [exec_spanShareComplete_of_launch hl, controlled_of_fresh hfresh,
      shareTold_completed (s := s.logged l.part) _ hf hlt ho horg hmem]
    rfl
  · rw [exec_spanShareComplete_of_launch hl, controlled_of_fresh hfresh, shareTold_rejected (s := s.logged l.part) _ hf ho hb horg]
    rfl
  · intro k
    rw [exec_spanShareComplete_of_launch hl, controlled_of_fresh hfresh, shareTold_returned (s := s.logged l.part) _ hf, Launch.returned]
    simp only [status_of_lt (n := (s.logged l.part).input.off) hlt]
    rfl
  · rw [exec_spanLaunchSequence_of_launch hl hm, exec_spanShareComplete_of_launch hl, controlled_of_logged hx, controlled_of_logged hx]
    exact ⟨rfl, rfl⟩
  · rw [exec_spanLaunchSequence_of_share hm hlive hmem, controlled_of_logged hx]

end Sys2Proof.Machine
end

section
/-! SUPPORT. Start-up, module reset and power loss (21 R463, R464, R468, R469, 22 R471). -/

namespace Sys2Proof.Machine

theorem mem_mergeSets (k : Nat) (a b : NatSet) : k ∈ mergeSets a b ↔ k ∈ a ∨ k ∈ b := by
  rw [mergeSets]
  induction a generalizing b with
  | nil => simp
  | cons x a ih => rw [List.foldl_cons, ih, mem_setInsert, List.mem_cons]; tauto
theorem Memory.read_filter (p : Nat → Bool) (a : Nat) (m : Memory) :
    Memory.read (m.filter fun c => p c.1) a = if p a then m.read a else 0#8 := by
  induction m with
  | nil => simp [Memory.read]
  | cons c m ih =>
    obtain ⟨b, x⟩ := c
    by_cases hp : p b = true
    · rw [List.filter_cons_of_pos (p := fun c : Host.Cell => p c.1) hp]
      simp only [Memory.read, ih]
      by_cases hab : a = b
      · rw [if_pos hab, if_pos hab, hab, if_pos hp]
      · rw [if_neg hab, if_neg hab]
    · rw [List.filter_cons_of_neg (p := fun c : Host.Cell => p c.1) hp, ih]
      by_cases hab : a = b
      · rw [hab, if_neg hp, if_neg hp]
      · simp only [Memory.read, if_neg hab]

/-! ## Power-good, firmware, the stored results -/

section
variable {s : State}

theorem exec_powerGood_of_unpowered (h : s.module.powered = false) :
    exec .powerGood s =
      .next ({ s with time := 0, zeroed := [] }.setModule { s.module with powered := true, sensors := s.module.loadWear }) :=
  if_neg (ne_true_of_eq_false h)
theorem loadWear_of_stored {m : Module} {f : FlashRecord} (hf : m.copies.head? = some f) {n : Nat} {c : BitVec 32} (hn : n < 104)
    (hc : f.wear.find? n = some c) : (m.loadWear.getD n {}).c = c := by
  obtain ⟨fs, hfs⟩ := List.head?_eq_some_iff.1 hf
  have hget : (f.wear.getD n (Config.storedWear n)) = c := by rw [FMap.getD, hc]; rfl
  rw [Module.loadWear, FMap.getD, FMap.find?, entryGet_range_map, if_pos hn, hfs]
  exact hget

section
variable (hp : s.module.powered = true) (hok : s.module.fwOk = false) (hfail : s.module.fwfail = false)
include hp hok hfail

theorem not_verified : ¬(!s.module.powered || s.module.fwOk || s.module.fwfail) = true := by simp [hp, hok, hfail]
theorem exec_firmwareVerification_of_none (h : s.offeredImage = none) :
    exec .firmwareVerification s = .next (s.setModule { s.module with fwfail := true }) := by
  show execFirmwareVerification s = _
  rw [execFirmwareVerification, if_neg (not_verified hp hok hfail), h]
theorem exec_firmwareVerification_of_image {g : FirmwareImage} (h : s.offeredImage = some g) :
    exec .firmwareVerification s = .next (s.setModule (s.module.judge g)) := by
  show execFirmwareVerification s = _
  rw [execFirmwareVerification, if_neg (not_verified hp hok hfail), h]
end

theorem accepts_iff (m : Module) (g : FirmwareImage) :
    m.accepts g = true ↔ g.hashOk = true ∧ g.rsaOk = true ∧ g.slhOk = true ∧ m.fwsvn.toNat ≤ g.svn.toNat := by
  simp only [Module.accepts, Bool.and_eq_true, BitVec.ule, decide_eq_true_eq, and_assoc]
theorem offeredImage_of_empty (h : s.recoveryBytes = []) : s.offeredImage = s.input.image := by rw [State.offeredImage, h]

theorem exec_storedResultsCheck_of_copy (hfw : s.module.fwOk = true) (hck : s.module.recordChecked = false) {f : FlashRecord}
    {fs : List FlashRecord} (hc : s.module.copies = f :: fs) {r : StoredResults} (hr : s.input.record = some r) :
    exec .storedResultsCheck s = .next (s.setModule (s.module.useRecord f r)) := by
  have hwait : ¬(!s.module.fwOk || s.module.recordChecked) = true := by simp [hfw, hck]
  show execStoredResultsCheck s = _
  rw [execStoredResultsCheck, if_neg hwait, hc, hr]
  rfl

theorem mem_fullTrain_useRecord (m : Module) (f : FlashRecord) (r : StoredResults) (k : Nat) :
    k ∈ (m.useRecord f r).fullTrain ↔ k < 40 ∧ (r.sigOk = false ∨ k ∈ r.badStacks ∨ f.training.find? k = none) := by
  simp only [Module.useRecord, List.mem_filter, List.mem_range, FlashRecord.staleStack, Bool.or_eq_true, Bool.not_eq_true',
    List.contains_iff_mem, Option.isNone_iff_eq_none, or_assoc]
theorem mem_fullTrainPorts_useRecord (m : Module) (f : FlashRecord) (r : StoredResults) (k : Nat) :
    k ∈ (m.useRecord f r).fullTrainPorts ↔ k < 96 ∧ (r.sigOk = false ∨ k ∈ r.badPorts ∨ f.equalisation.find? k = none) := by
  simp only [Module.useRecord, List.mem_filter, List.mem_range, FlashRecord.stalePort, Bool.or_eq_true, Bool.not_eq_true',
    List.contains_iff_mem, Option.isNone_iff_eq_none, or_assoc]
theorem mem_selfTestSites (k : Nat) :
    k ∈ selfTestSites ↔ k < 9216 ∧ Config.selfTestDead (siteZone k) (siteRow k) (siteCol k) = true := by
  rw [selfTestSites, List.mem_filter, List.mem_range]
theorem mem_defects_of_good {m : Module} {f : FlashRecord} {r : StoredResults} (hs : r.sigOk = true) (hd : r.defectsOk = true) (k : Nat) :
    k ∈ (m.useRecord f r).defects ↔ k ∈ m.defects ∨ k ∈ f.defects := by
  simp only [Module.useRecord, hs, hd, Bool.and_self, if_true, mem_mergeSets]
theorem mem_defects_of_bad {m : Module} {f : FlashRecord} {r : StoredResults} (h : r.sigOk = false ∨ r.defectsOk = false) (k : Nat) :
    k ∈ (m.useRecord f r).defects ↔ k ∈ m.defects ∨ k ∈ selfTestSites := by
  have hbad : ¬(r.sigOk && r.defectsOk) = true := by rcases h with h | h <;> simp [h]
  simp only [Module.useRecord, if_neg hbad, mem_mergeSets]

/-! ## Training -/

/-- A stack that is trained. -/
def Module.stackUp (m : Module) (k : Nat) : Module :=
  { m with stacksTrained := setInsert k m.stacksTrained, fullTrain := m.fullTrain.filter (· != k) }
theorem exec_hbmTraining_of_checked (hck : s.module.recordChecked = true) (hk : s.input.stack < 40)
    (hnew : s.input.stack ∉ s.module.stacksTrained) :
    exec .hbmTrainingComplete s =
      .next (if s.input.stack ∈ s.module.fullTrain then
        (s.setModule { s.module.stackUp s.input.stack with
          training := s.module.training.set s.input.stack s.input.value
          serials := s.module.serials.set s.input.stack (BitVec.ofNat 64 s.input.off) }).writeRecord
        else s.setModule (s.module.stackUp s.input.stack)) := by
  have hgo : ¬(!s.module.recordChecked || decide (40 ≤ s.input.stack) || s.module.stacksTrained.contains s.input.stack) = true := by
    simp [hck, Nat.not_le.2 hk, hnew]
  show execHbmTrainingComplete s = _
  rw [execHbmTrainingComplete, if_neg hgo]
  simp only [List.contains_iff_mem, Module.stackUp]

theorem exec_portTraining_of_pcie (hp : s.module.powered = true) (hk : s.input.port = 96 ∨ s.input.port = 97) :
    exec .portTrainingComplete s = .next (s.setModule { s.module with pcieUp := setInsert (s.input.port - 96) s.module.pcieUp }) := by
  show execPortTrainingComplete s = _
  rw [execPortTrainingComplete, if_pos hk, if_pos hp]

theorem notPcie_of_lt (hk : s.input.port < 96) : ¬(s.input.port = 96 ∨ s.input.port = 97) := by omega
theorem exec_portTraining_of_early (hr : s.module.ready = false) (hk : s.input.port < 96) (hfull : s.input.port ∈ s.module.fullTrainPorts) :
    exec .portTrainingComplete s = .next s := by
  have hwait : (!s.module.recordChecked || decide (96 ≤ s.input.port) || (s.port s.input.port).trained ||
      (s.module.fullTrainPorts.contains s.input.port && !s.module.ready)) = true := by
    simp [hr, hfull]
  show execPortTrainingComplete s = _
  rw [execPortTrainingComplete, if_neg (notPcie_of_lt hk)]
  exact if_pos hwait

/-- A port as its training leaves it. -/
def Port.trainedAt (p : Port) (now : Nat) : Port :=
  { p with up := true, trained := true, lastArrival := now, lastSent := now, failedAt := none, settled := [] }
theorem exec_portTraining_of_checked (hck : s.module.recordChecked = true) (hk : s.input.port < 96)
    (htr : (s.port s.input.port).trained = false) (hfull : s.input.port ∈ s.module.fullTrainPorts → s.module.ready = true)
    (hout : s.outbox = []) {u : State} (hu : u = s.setPort s.input.port ((s.port s.input.port).trainedAt s.time)) :
    exec .portTrainingComplete s = .next (if s.input.port ∈ s.module.fullTrainPorts then u.equalise s.input.port else u) := by
  have hgo : ¬(!s.module.recordChecked || decide (96 ≤ s.input.port) || (s.port s.input.port).trained ||
      (s.module.fullTrainPorts.contains s.input.port && !s.module.ready)) = true := by
    by_cases h : s.input.port ∈ s.module.fullTrainPorts
    · simp [hck, Nat.not_le.2 hk, htr, hfull h]
    · simp [hck, Nat.not_le.2 hk, htr, h]
  have hflush : u.flush = u := by
    have houtbox : u.outbox = [] := by rw [hu]; exact hout
    rw [State.flush, houtbox]
    exact congrArg (fun b => { u with outbox := b }) houtbox.symm
  show execPortTrainingComplete s = _
  rw [execPortTrainingComplete, if_neg (notPcie_of_lt hk)]
  refine (if_neg hgo).trans ?_
  show Host.Outcome.next (if s.module.fullTrainPorts.contains s.input.port then
    ((s.setPort s.input.port ((s.port s.input.port).trainedAt s.time)).flush).equalise s.input.port
    else (s.setPort s.input.port ((s.port s.input.port).trainedAt s.time)).flush) = _
  simp only [← hu, hflush, List.contains_iff_mem]
end

/-! ## READY -/

theorem exec_moduleReady_of_built {s : State} (hat : s.module.ateliersStarted = true) (hr : s.module.ready = false)
    (hst : ∀ k, k < 40 → k ∈ s.module.stacksTrained)
    (hz : ∀ z, z < 64 → (s.zone z).outOfService = true ∨ ∀ r, r < 12 → r ∈ (s.zone z).mapped) :
    exec .moduleReady s = .next (s.setModule
      { s.module with
        ready := true, bootSt := .running, cycle := ceilDiv s.time 10000, armPhase := 0
        fwsvn := s.module.commitSvn.getD s.module.fwsvn, commitSvn := none }) := by
  have hstacks : ((List.range 40).all fun k => s.module.stacksTrained.contains k) = true := by
    simpa [List.all_eq_true] using hst
  have hbuilt : s.allBuilt = true := by simpa [State.allBuilt, List.all_eq_true] using hz
  have hgo : ¬(!s.module.ateliersStarted || s.module.ready || !((List.range 40).all fun k => s.module.stacksTrained.contains k) ||
      !s.allBuilt) = true := by rw [hstacks, hbuilt, hat, hr]; decide
  exact if_neg hgo
theorem exec_moduleReady_of_waiting {s : State} (h : s.module.ateliersStarted = false ∨ ∃ k, k < 40 ∧ k ∉ s.module.stacksTrained) :
    exec .moduleReady s = .next s := by
  refine if_pos ?_
  rcases h with h | ⟨k, hk, hno⟩
  · simp [h]
  · have hstacks : ((List.range 40).all fun k => s.module.stacksTrained.contains k) = false := by
      rw [List.all_eq_false]
      exact ⟨k, List.mem_range.2 hk, by simpa using hno⟩
    rw [hstacks]
    simp

end Sys2Proof.Machine
end

section
/-! SUPPORT. The start of the atelier cores and the maquettes as firmware builds them (21 R463, 19 R439, 22 R473). -/

namespace Sys2Proof.Machine

/-- With no line in a cache and no write that stands by, a step leaves strands as they are, caches empty, and how far start-up has come. -/
structure LeavesStrands (s t : State) : Prop where
  of_empty : s.l2.entries = [] → s.slotWrites = [] →
    t.l2.entries = [] ∧ t.slotWrites = [] ∧ t.strands = s.strands ∧ t.module.ateliersStarted = s.module.ateliersStarted ∧
      t.module.bootSt = s.module.bootSt

namespace LeavesStrands
variable {s t u : State}

theorem refl (s : State) : LeavesStrands s s := ⟨fun hl hw => ⟨hl, hw, rfl, rfl, rfl⟩⟩
theorem trans (h : LeavesStrands s t) (h' : LeavesStrands t u) : LeavesStrands s u := by
  refine ⟨fun hl hw => ?_⟩
  obtain ⟨hl', hw', hs, ha, hb⟩ := h.of_empty hl hw
  obtain ⟨hl'', hw'', hs', ha', hb'⟩ := h'.of_empty hl' hw'
  exact ⟨hl'', hw'', hs'.trans hs, ha'.trans ha, hb'.trans hb⟩
theorem foldl {α : Type} {f : State → α → State} (hf : ∀ s x, LeavesStrands s (f s x)) (l : List α) (s : State) :
    LeavesStrands s (l.foldl f s) := by
  induction l generalizing s with
  | nil => exact refl s
  | cons x l ih => exact (hf s x).trans (ih _)
theorem setZone (s : State) (z : Nat) (x : Zone) : LeavesStrands s (s.setZone z x) := ⟨fun hl hw => ⟨hl, hw, rfl, rfl, rfl⟩⟩
end LeavesStrands

theorem leavesStrands_writeRecord (s : State) : LeavesStrands s s.writeRecord := by
  refine ⟨fun hl hw => ?_⟩
  rw [State.writeRecord]
  split <;> exact ⟨hl, hw, rfl, rfl, rfl⟩
theorem leavesStrands_recordRetired (s : State) (site : Nat) : LeavesStrands s (s.recordRetired site) :=
  LeavesStrands.trans (t := s.setModule { s.module with defects := setInsert site s.module.defects })
    ⟨fun hl hw => ⟨hl, hw, rfl, rfl, rfl⟩⟩ (leavesStrands_writeRecord _)
theorem leavesStrands_retireSite (s : State) (site : Nat) : LeavesStrands s (s.retireSite site) := by
  rw [State.retireSite]
  split
  · exact (LeavesStrands.setZone s (siteZone site) _).trans (leavesStrands_recordRetired _ site)
  · exact .refl s
theorem leavesStrands_emptySlice (s : State) (tile : Nat) : LeavesStrands s (s.emptySlice tile) := by
  refine ⟨fun hl hw => ?_⟩
  rw [State.emptySlice, hl]
  exact ⟨hl, hw, rfl, rfl, rfl⟩
theorem leavesStrands_rehome (s : State) (p : Nat → L2Line → Bool) : LeavesStrands s (s.rehome p) :=
  ⟨fun hl hw => ⟨by rw [State.rehome, FMap.mapValues, hl]; rfl, hw, rfl, rfl, rfl⟩⟩
theorem leavesStrands_returnCopies (s : State) (tile : Nat) : LeavesStrands s (s.returnCopies tile) :=
  ⟨fun hl hw => ⟨by rw [State.returnCopies, FMap.mapValues, hl]; rfl, hw, rfl, rfl, rfl⟩⟩
theorem leavesStrands_prepareSite (s : State) (site : Nat) (old : Option Nat) : LeavesStrands s (s.prepareSite site old) := by
  refine ⟨fun hl hw => ?_⟩
  simp only [State.prepareSite]
  split <;> exact ⟨hl, hw, rfl, rfl, rfl⟩
theorem leavesStrands_settleNew (s : State) (n : Nat) (old : Option Nat) :
    LeavesStrands s
      (let u := match old with
        | some o => (s.prepareSite n old).redirect o n
        | none => s.prepareSite n old
       if u.hosts n then u.beginHosting n else u) := by
  have hmoved (t : State) : LeavesStrands t (if t.hosts n then t.beginHosting n else t) := by
    split
    · exact ⟨fun hl hw => ⟨hl, hw, rfl, rfl, rfl⟩⟩
    · exact .refl t
  refine LeavesStrands.trans ?_ (hmoved _)
  cases old with
  | none => exact leavesStrands_prepareSite ..
  | some o => exact (leavesStrands_prepareSite ..).trans ⟨fun hl hw => ⟨hl, hw, rfl, rfl, rfl⟩⟩
theorem leavesStrands_forgetNode (s : State) (tile : Nat) : LeavesStrands s (s.forgetNode tile) := ⟨fun hl hw => ⟨hl, hw, rfl, rfl, rfl⟩⟩
theorem leavesStrands_moveColumn (s : State) (tile : Nat) (old new : Option Nat) : LeavesStrands s (s.moveColumn tile old new) := by
  have hgone : LeavesStrands s (match old with
      | some o => (if s.quarantined o then s.returnCopies tile else s.emptySlice tile).retireSite o
      | none => (s.emptySlice tile).rehome fun k x => s.newHome k x == tile) := by
    cases old with
    | none => exact (leavesStrands_emptySlice ..).trans (leavesStrands_rehome ..)
    | some o =>
      refine LeavesStrands.trans ?_ (leavesStrands_retireSite ..)
      split
      · exact leavesStrands_returnCopies ..
      · exact leavesStrands_emptySlice ..
  unfold State.moveColumn
  cases new with
  | none => exact hgone.trans ((leavesStrands_forgetNode ..).trans (leavesStrands_rehome ..))
  | some n => exact hgone.trans ((leavesStrands_forgetNode ..).trans (leavesStrands_settleNew ..))
theorem leavesStrands_retryWrites (s : State) : LeavesStrands s s.retryWrites := by
  refine ⟨fun hl hw => ?_⟩
  rw [State.retryWrites, hw]
  exact ⟨hl, rfl, rfl, rfl, rfl⟩
theorem leavesStrands_mapRow (s : State) (zone r : Nat) (word : Word) : LeavesStrands s (s.mapRow zone r word) :=
  (LeavesStrands.setZone ..).trans ((LeavesStrands.foldl (fun _ _ => leavesStrands_moveColumn ..) _ _).trans (leavesStrands_retryWrites _))
theorem leavesStrands_buildZone (s : State) (z : Nat) : LeavesStrands s (s.buildZone z) :=
  .foldl (fun _ _ => leavesStrands_mapRow ..) _ s
theorem leavesStrands_mergeDefects (s : State) : LeavesStrands s s.mergeDefects :=
  (LeavesStrands.foldl (fun s _ => LeavesStrands.setZone s _ _) s.module.defects s).trans ⟨fun hl hw => ⟨hl, hw, rfl, rfl, rfl⟩⟩

/-! ## The atelier cores' strands -/

/-- The strand that an atelier core begins with. -/
def atelierStart (a : Nat) : Strand := { st := .ready, birth := .atelier, pc := Config.atelierEntry a &&& ~~~7#64 }
/-- The first `n` atelier cores begin. -/
def State.startAteliers (s : State) (n : Nat) : State := (List.range n).foldl (fun s i => s.startAtelier (atelierBase + i)) s
theorem startAteliers_succ (s : State) (n : Nat) : s.startAteliers (n + 1) = (s.startAteliers n).startAtelier (atelierBase + n) := by
  rw [State.startAteliers, List.range_succ, List.foldl_append]
  rfl
theorem strand_startAtelier (s : State) (n k : Nat) :
    (s.startAtelier (atelierBase + n)).strand k = if k = strandOf (atelierBase + n) 0 then atelierStart n else s.strand k := by
  have hcore : atelierBase + n - atelierBase = n := Nat.add_sub_cancel_left ..
  rw [State.startAtelier, hcore]
  exact FMap.getD_set ..
/-- Only strand 0 of each of them changes, and the rest of the state only by their cores. -/
theorem strand_startAteliers (s : State) (n : Nat) {a : Nat} (ha : a < n) :
    (s.startAteliers n).strand (strandOf (atelierBase + a) 0) = atelierStart a := by
  induction n with
  | zero => exact absurd ha (Nat.not_lt_zero a)
  | succ n ih =>
    rw [startAteliers_succ, strand_startAtelier]
    by_cases h : a = n
    · rw [if_pos (by rw [h]), h]
    · rw [if_neg (by simp only [strandOf]; omega)]
      exact ih (by omega)
theorem startAteliers_leaves (s : State) (n : Nat) :
    s.startAteliers n = { s with cores := (s.startAteliers n).cores, strands := (s.startAteliers n).strands } := by
  induction n with
  | zero => rfl
  | succ n ih =>
    rw [startAteliers_succ, ih]
    rfl

/-- The start as firmware's own steps: the defects, the cores, and then the maquettes unless firmware builds them itself. -/
theorem exec_atelierCoresStart_of_replayed {s : State} (hck : s.module.recordChecked = true) (hat : s.module.ateliersStarted = false)
    (hst : ∀ k, k < 40 → k ∈ s.module.fullTrain ∨ k ∈ s.module.stacksTrained) {u v : State} (hu : u = s.mergeDefects.startAteliers 128)
    (hv : v = u.setModule { u.module with ateliersStarted := true, bootSt := .building, beatFrom := u.time / 50000 + 1 }) :
    exec .atelierCoresStart s =
      .next (if v.input.flag then v else (List.range 64).foldl (fun s z => s.buildZone z) v) := by
  have hstacks : ((List.range 40).all fun k => s.module.fullTrain.contains k || s.module.stacksTrained.contains k) = true := by
    simpa [List.all_eq_true] using hst
  have hgo : ¬(!s.module.recordChecked || s.module.ateliersStarted ||
      !((List.range 40).all fun k => s.module.fullTrain.contains k || s.module.stacksTrained.contains k)) = true := by
    rw [hstacks, hck, hat]; decide
  subst hv hu
  exact if_neg hgo

end Sys2Proof.Machine
end

section
/-! SUPPORT. What reset and loss of power leave, and start-up as a whole (21 R463, R464, R468, R469, 22 R471). -/

namespace Sys2Proof.Machine

/-- Each atelier core's strand stands at its entry once start-up has begun it, whether or not firmware builds the maquettes. -/
theorem atelierCoresStart_leaves {s : State} (hck : s.module.recordChecked = true) (hat : s.module.ateliersStarted = false)
    (hst : ∀ k, k < 40 → k ∈ s.module.fullTrain ∨ k ∈ s.module.stacksTrained) (hl : s.l2.entries = []) (hw : s.slotWrites = []) :
    ∃ t : State, exec .atelierCoresStart s = .next t ∧ t.module.ateliersStarted = true ∧ t.module.bootSt = .building ∧
      ∀ a, a < 128 → t.strand (strandOf (atelierBase + a) 0) = atelierStart a := by
  generalize hu : s.mergeDefects.startAteliers 128 = u
  generalize hv : u.setModule { u.module with ateliersStarted := true, bootSt := .building, beatFrom := u.time / 50000 + 1 } = v
  have hmerged := (leavesStrands_mergeDefects s).of_empty hl hw
  obtain ⟨hlm, hwm, -, -, -⟩ := hmerged
  have hlu : u.l2.entries = [] := by rw [← hu, startAteliers_leaves]; exact hlm
  have hwu : u.slotWrites = [] := by rw [← hu, startAteliers_leaves]; exact hwm
  have hlv : v.l2.entries = [] := by rw [← hv]; exact hlu
  have hwv : v.slotWrites = [] := by rw [← hv]; exact hwu
  have hstv : v.module.ateliersStarted = true ∧ v.module.bootSt = .building := by rw [← hv]; exact ⟨rfl, rfl⟩
  have hbegun (a : Nat) (ha : a < 128) : v.strand (strandOf (atelierBase + a) 0) = atelierStart a := by
    have h := strand_startAteliers s.mergeDefects 128 ha
    rw [hu] at h
    rw [← hv]
    exact h
  have hbuilt : LeavesStrands v (if v.input.flag then v else (List.range 64).foldl (fun s z => s.buildZone z) v) := by
    split
    · exact .refl v
    · exact .foldl (fun s z => leavesStrands_buildZone s z) _ v
  obtain ⟨-, -, hstrands, hats, hboot⟩ := hbuilt.of_empty hlv hwv
  refine ⟨_, exec_atelierCoresStart_of_replayed hck hat hst hu.symm hv.symm, hats.trans hstv.1, hboot.trans hstv.2, fun a ha => ?_⟩
  rw [State.strand, hstrands]
  exact hbegun a ha

theorem writeRecord_setModule (s : State) {x : Module} (h : x.recordChecked = true) :
    (s.setModule x).writeRecord = s.setModule
      { x with recordWrites := x.recordWrites + 1, copies := (x.newRecord :: x.copies).take 2 } := if_pos h

/-- A stack that comes up, with the new record where it trained in full. -/
theorem hbmTraining_leaves {s : State} (hck : s.module.recordChecked = true) (hk : s.input.stack < 40)
    (hnew : s.input.stack ∉ s.module.stacksTrained) :
    ∃ t : State, exec .hbmTrainingComplete s = .next t ∧ s.input.stack ∈ t.module.stacksTrained ∧
      s.input.stack ∉ t.module.fullTrain ∧
      t.module.recordWrites = s.module.recordWrites + (if s.input.stack ∈ s.module.fullTrain then 1 else 0) ∧
      (s.input.stack ∈ s.module.fullTrain →
        ∃ f : FlashRecord, t.module.copies.head? = some f ∧ f.training.find? s.input.stack = some s.input.value) := by
  have hin : s.input.stack ∈ setInsert s.input.stack s.module.stacksTrained := (mem_setInsert ..).2 (.inl rfl)
  have hout : s.input.stack ∉ s.module.fullTrain.filter (· != s.input.stack) := by simp
  refine ⟨_, exec_hbmTraining_of_checked hck hk hnew, ?_⟩
  by_cases hfull : s.input.stack ∈ s.module.fullTrain
  · rw [if_pos hfull, if_pos hfull, writeRecord_setModule]
    · exact ⟨hin, hout, rfl, fun _ => ⟨_, rfl, (FMap.find?_set ..).trans (if_pos rfl)⟩⟩
    · exact hck
  · rw [if_neg hfull, if_neg hfull]
    exact ⟨hin, hout, rfl, fun h => absurd h hfull⟩

/-- A port that comes up. -/
theorem portTraining_leaves {s : State} (hck : s.module.recordChecked = true) (hk : s.input.port < 96)
    (htr : (s.port s.input.port).trained = false) (hfull : s.input.port ∈ s.module.fullTrainPorts → s.module.ready = true)
    (hout : s.outbox = []) :
    ∃ t : State, exec .portTrainingComplete s = .next t ∧ t.port s.input.port = (s.port s.input.port).trainedAt s.time ∧
      s.input.port ∉ t.module.fullTrainPorts := by
  refine ⟨_, exec_portTraining_of_checked hck hk htr hfull hout rfl, ?_⟩
  by_cases h : s.input.port ∈ s.module.fullTrainPorts
  · rw [if_pos h, State.equalise, writeRecord_setModule]
    · exact ⟨State.port_setPort_self .., by simp [State.setModule]⟩
    · exact hck
  · rw [if_neg h]
    exact ⟨State.port_setPort_self .., h⟩

/-- Settles O46: each step of start-up, and what reset and loss of power leave. -/
theorem startUpAndResetComplete : Obligations.StartUpAndResetComplete := by
  refine ⟨?_, ?_⟩
  · intro s i m
    refine ⟨exec_powerGood_of_unpowered, fun f hf n c hn hc => loadWear_of_stored hf hn hc, ?_, ?_, hbmTraining_leaves,
      exec_portTraining_of_pcie, portTraining_leaves, exec_portTraining_of_early, ?_, exec_moduleReady_of_built,
      exec_moduleReady_of_waiting⟩
    · intro hp hok hfail
      refine ⟨exec_firmwareVerification_of_none hp hok hfail, offeredImage_of_empty, fun g hg => ?_⟩
      rw [exec_firmwareVerification_of_image hp hok hfail hg, ← accepts_iff]
      refine ⟨fun h => ?_, fun h => ?_⟩
      · exact congrArg (fun x => Host.Outcome.next (s.setModule x)) (if_pos h)
      · exact congrArg (fun x => Host.Outcome.next (s.setModule x)) (if_neg h)
    · intro hfw hck f fs r hc hr selfTest
      refine ⟨_, exec_storedResultsCheck_of_copy hfw hck hc hr, rfl, rfl, mem_fullTrain_useRecord m f r, mem_fullTrainPorts_useRecord m f r,
        mem_defects_of_good, fun h k => (mem_defects_of_bad h k).trans (or_congr_right (mem_selfTestSites k))⟩
    · intro hck hat hst hl hw
      obtain ⟨t, hex, hats, hboot, hstrand⟩ := atelierCoresStart_leaves hck hat hst hl hw
      refine ⟨t, hex, hats, hboot, fun a ha => ?_⟩
      rw [hstrand a ha]
      exact ⟨rfl, rfl⟩
  · intro s
    refine ⟨⟨_, rfl, rfl, rfl, rfl, rfl, rfl, rfl, rfl, rfl, rfl, rfl, rfl⟩, ⟨_, rfl, rfl, rfl, rfl, rfl, rfl, rfl, rfl, rfl, fun a => ?_⟩⟩
    refine (Memory.read_filter outlives a s.mem).trans ?_
    simp only [outlives, Bool.or_eq_true, Bool.and_eq_true, decide_eq_true_eq, and_assoc]

end Sys2Proof.Machine
end

section
/-! SUPPORT. Heartbeats, dead cores, the takeover, and a zone that leaves service (19 R434, R435). -/

namespace Sys2Proof.Machine

section
variable {s : State}

theorem exec_heartbeat_of_beating (h : s.sendsBeat s.input.core = true) :
    exec .heartbeat s = .next (s.setCore s.input.core { s.core s.input.core with lastBeat := s.time / 50000 + 1 }) :=
  congrArg Host.Outcome.next (if_pos h)

theorem silentCore_iff (s : State) (c : Nat) : s.silentCore c = true ↔ max (s.core c).lastBeat s.module.beatFrom + 3 ≤ s.time / 50000 :=
  decide_eq_true_iff
theorem exec_coreDead_of_silent (hat : s.module.ateliersStarted = true) (hc : s.input.core < 18432)
    (hsite : s.deadSite (s.input.core / 2) = false) (hd : (s.core s.input.core).dead = false)
    (hsil : max (s.core s.input.core).lastBeat s.module.beatFrom + 3 ≤ s.time / 50000)
    (hout : (s.zone (coreZone s.input.core)).outOfService = false) :
    exec .coreDead s = .next ((s.setCore s.input.core { s.core s.input.core with dead := true }).siteReport s.input.core 0) := by
  have hat' : coreIsAtelier s.input.core = false := decide_eq_false (Nat.not_le.2 hc)
  have hc' : decide (2 * 9216 ≤ s.input.core) = false := decide_eq_false (Nat.not_le.2 hc)
  have hgo : (!s.module.ateliersStarted || coreIsAtelier s.input.core || decide (2 * 9216 ≤ s.input.core) ||
      s.deadSite (coreSite s.input.core) || (s.core s.input.core).dead || !s.silentCore s.input.core ||
      (s.zone (coreZone s.input.core)).outOfService) = false := by
    rw [hat, hat', hc', coreSite, hsite, hd, (silentCore_iff ..).2 hsil, hout]; rfl
  exact if_neg (ne_true_of_eq_false hgo)
theorem exec_coreDead_of_beating (h : s.time / 50000 < max (s.core s.input.core).lastBeat s.module.beatFrom + 3) :
    exec .coreDead s = .next s := by
  have hsil : s.silentCore s.input.core = false :=
    Bool.eq_false_iff.2 fun h' => Nat.not_lt.2 ((silentCore_iff ..).1 h') h
  refine if_pos ?_
  rw [hsil, Bool.not_false, Bool.or_true, Bool.true_or]

/-- The records that the new primary has stand first. -/
theorem prefix_moveRecords (zone : Nat) (old recs : List MbxRecord) : recs <+: (moveRecords zone old recs).1 := by
  induction old generalizing recs with
  | nil => exact List.prefix_refl recs
  | cons r old ih =>
    unfold moveRecords
    split
    · exact (List.prefix_append recs _).trans (ih _)
    · exact ih recs
theorem exec_atelierTakeover_of_lost {z : Zone} (hz : z = s.zone s.input.zone) (hlt : s.input.zone < 64)
    (hat : s.module.ateliersStarted = true) (hsb : z.hasStandby = true) (hrun : (s.core (z.standbyCore s.input.zone)).stopped = false)
    (hlost : s.silentCore (z.primaryCore s.input.zone) = true ∨ ∃ r, r ∈ z.mbxStandby ∧ r.slot = 290) :
    exec .atelierTakeover s = .next (s.takeover s.input.zone) := by
  subst hz
  have hgone : (s.silentCore ((s.zone s.input.zone).primaryCore s.input.zone) || (s.zone s.input.zone).stopRecord) = true := by
    rcases hlost with h | ⟨r, hr, hs⟩
    · rw [h, Bool.true_or]
    · have : (s.zone s.input.zone).stopRecord = true := List.any_eq_true.2 ⟨r, hr, by rw [hs]; rfl⟩
      rw [this, Bool.or_true]
  have hgo : (decide (64 ≤ s.input.zone) || !s.module.ateliersStarted || !(s.zone s.input.zone).hasStandby ||
      (s.core ((s.zone s.input.zone).standbyCore s.input.zone)).stopped ||
      !(s.silentCore ((s.zone s.input.zone).primaryCore s.input.zone) || (s.zone s.input.zone).stopRecord)) = false := by
    rw [decide_eq_false (Nat.not_le.2 hlt), hat, hsb, hrun, hgone]; rfl
  exact if_neg (ne_true_of_eq_false hgo)
theorem takeover_leaves (s : State) (zone : Nat) :
    ((s.takeover zone).core ((s.zone zone).primaryCore zone)).stopped = true ∧
      ((s.takeover zone).zone zone).primary = 1 - (s.zone zone).primary ∧ ((s.takeover zone).zone zone).hasStandby = false ∧
      ((s.takeover zone).zone zone).mbxStandby = [] ∧ (s.zone zone).mbxStandby <+: ((s.takeover zone).zone zone).mbx := by
  have hzone : (s.takeover zone).zone zone =
      { s.zone zone with
        primary := 1 - (s.zone zone).primary, hasStandby := false
        mbx := (moveRecords zone (s.zone zone).mbx (s.zone zone).mbxStandby).1, mbxStandby := [] } := State.zone_setZone_self ..
  have hcore : (s.takeover zone).core ((s.zone zone).primaryCore zone) =
      { s.core ((s.zone zone).primaryCore zone) with stopped := true } := State.core_setCore_self ..
  rw [hzone, hcore]
  exact ⟨rfl, rfl, rfl, rfl, prefix_moveRecords ..⟩

/-- A report to the host leaves zones and partitions as they are. -/
theorem hostReport_keeps (s : State) (what : Nat) (v : Word) :
    (s.hostReport what v).zones = s.zones ∧ (s.hostReport what v).parts = s.parts := by
  simp only [State.hostReport]
  split
  · exact ⟨rfl, rfl⟩
  · simp only [State.ringPush]
    rw [onlyBytes_writePa]
    exact ⟨rfl, rfl⟩
theorem zones_orderDrain (s : State) (p : Nat) (sts : BitVec 4) : (s.orderDrain p sts).zones = s.zones := by
  simp only [State.orderDrain]
  split
  · rfl
  · split <;> rfl
/-- A partition begins to drain, at once or after a save that has begun. -/
theorem part_orderDrain (s : State) (p : Nat) (sts : BitVec 4) :
    (¬((s.part p).gang = .saving ∨ (s.part p).gang = .stopping) → ((s.orderDrain p sts).part p).gang = .draining) ∧
      ((s.part p).gang = .saving ∨ (s.part p).gang = .stopping →
        ((s.orderDrain p sts).part p).resetDue = true ∧ ((s.orderDrain p sts).part p).gang = (s.part p).gang) := by
  refine ⟨fun h => ?_, fun h => ?_⟩
  · have hsave : ¬((s.part p).gang == .saving || (s.part p).gang == .stopping) = true := by simpa using h
    by_cases hd : (s.part p).gang = .draining
    · rw [State.orderDrain, if_pos (by rw [hd]; rfl)]
      exact hd
    · rw [State.orderDrain, if_neg (by simpa using hd), if_neg hsave, State.startDrain, State.part_setPart_self]
  · have hsave : ((s.part p).gang == .saving || (s.part p).gang == .stopping) = true := by simpa using h
    have hd : ¬((s.part p).gang == .draining) = true := by rcases h with h | h <;> rw [h] <;> decide
    rw [State.orderDrain, if_neg hd, if_pos hsave, State.part_setPart_self]
    exact ⟨rfl, rfl⟩

theorem exec_zoneOutOfService_of_lost {z : Zone} (hz : z = s.zone s.input.zone) (hlt : s.input.zone < 64)
    (hat : s.module.ateliersStarted = true) (hin : z.outOfService = false) (hpri : s.lostAtelier (z.primaryCore s.input.zone) = true)
    (hsb : z.hasStandby = true → s.lostAtelier (z.standbyCore s.input.zone) = true) {u : State}
    (hu : u = (s.setZone s.input.zone { z with outOfService := true }).hostReport 4 (BitVec.ofNat 64 s.input.zone)) :
    exec .zoneOutOfService s =
      .next (match u.zonePart s.input.zone with
        | some p => u.orderDrain p 4#4
        | none => u) := by
  subst hz hu
  have hlost : (!(s.zone s.input.zone).hasStandby || s.lostAtelier ((s.zone s.input.zone).standbyCore s.input.zone)) = true := by
    cases hs : (s.zone s.input.zone).hasStandby
    · rfl
    · exact hsb hs
  have hgo : (decide (64 ≤ s.input.zone) || !s.module.ateliersStarted || (s.zone s.input.zone).outOfService ||
      !(s.lostAtelier ((s.zone s.input.zone).primaryCore s.input.zone) &&
        (!(s.zone s.input.zone).hasStandby || s.lostAtelier ((s.zone s.input.zone).standbyCore s.input.zone)))) = false := by
    rw [decide_eq_false (Nat.not_le.2 hlt), hat, hin, hpri, hlost]; rfl
  exact if_neg (ne_true_of_eq_false hgo)
end

/-- The zone is out of service, and its partition drains. -/
theorem zoneOutOfService_leaves {s : State} {z : Zone} (hz : z = s.zone s.input.zone) (hlt : s.input.zone < 64)
    (hat : s.module.ateliersStarted = true) (hin : z.outOfService = false) (hpri : s.lostAtelier (z.primaryCore s.input.zone) = true)
    (hsb : z.hasStandby = true → s.lostAtelier (z.standbyCore s.input.zone) = true) :
    ∃ t : State, exec .zoneOutOfService s = .next t ∧ (t.zone s.input.zone).outOfService = true ∧
      ∀ p, s.zonePart s.input.zone = some p →
        (¬((s.part p).gang = .saving ∨ (s.part p).gang = .stopping) → (t.part p).gang = .draining) ∧
          ((s.part p).gang = .saving ∨ (s.part p).gang = .stopping → (t.part p).resetDue = true ∧ (t.part p).gang = (s.part p).gang) := by
  generalize hu : (s.setZone s.input.zone { z with outOfService := true }).hostReport 4 (BitVec.ofNat 64 s.input.zone) = u
  obtain ⟨hzones, hparts⟩ := hostReport_keeps (s.setZone s.input.zone { z with outOfService := true }) 4 (BitVec.ofNat 64 s.input.zone)
  rw [hu] at hzones hparts
  have hpart (p : Nat) : u.part p = s.part p := by rw [State.part, hparts]; rfl
  have hzonePart : u.zonePart s.input.zone = s.zonePart s.input.zone := by
    simp only [State.zonePart, hpart, hparts]
    rfl
  have hzone : u.zone s.input.zone = { z with outOfService := true } := by
    rw [State.zone, hzones]
    exact State.zone_setZone_self ..
  refine ⟨_, exec_zoneOutOfService_of_lost hz hlt hat hin hpri hsb hu.symm, ?_⟩
  rw [hzonePart]
  cases hp : s.zonePart s.input.zone with
  | none => exact ⟨by rw [hzone], fun p h => absurd h (by simp)⟩
  | some q =>
    refine ⟨?_, fun p h => ?_⟩
    · show ((u.orderDrain q 4#4).zone s.input.zone).outOfService = true
      rw [State.zone, zones_orderDrain]
      exact congrArg Zone.outOfService hzone
    · cases h
      exact hpart q ▸ part_orderDrain u q 4#4

end Sys2Proof.Machine
end

section
/-! SUPPORT. Errors in a tile's state, storage errors, mesh retries and error counters (17 R398, 19 R431–R436, 27 R487). -/

namespace Sys2Proof.Machine

section
variable {s : State}

/-! ## Tile state -/

theorem exec_tileStateError_of_site (hlt : s.input.site < 9216) (hf : s.input.flag = false) (hlv : s.input.level ≠ 1)
    (hsil : s.silent s.input.site = false) : exec .tileStateError s = .next (s.quarantine s.input.site 0x0B) := by
  show execTileStateError s = _
  rw [execTileStateError, if_neg hlv]
  simp only [hf, Bool.false_eq_true, if_false, hsil, Bool.false_and]
  exact if_neg (Nat.not_le.2 hlt)
theorem exec_tileStateError_of_silent (hf : s.input.flag = false) (hlv : s.input.level ≠ 1) (hsil : s.silent s.input.site = true) :
    exec .tileStateError s = .next s := by
  show execTileStateError s = _
  rw [execTileStateError, if_neg hlv]
  simp only [hf, Bool.false_eq_true, if_false, hsil, if_true]
theorem exec_tileStateError_of_pinned (hf : s.input.flag = true) (hlv : s.input.level ≠ 1)
    (hsil : s.silent (strandSite s.input.strand) = false) (hh : (s.strand s.input.strand).inHandler = true)
    (hst : (s.strand s.input.strand).st ≠ .dormant) : exec .tileStateError s = .next (s.pinnedError s.input.strand) := by
  show execTileStateError s = _
  rw [execTileStateError, if_neg hlv]
  simp only [hf, if_true, hsil, Bool.false_eq_true, if_false, hh, Bool.true_or, Bool.true_and]
  exact if_pos (by simpa using hst)
/-- The strand of a mailbox handler parks, its cause in TCAUSE. -/
theorem pinnedError_parks {k : Nat} (hh : (s.strand k).inHandler = true) (hsh : (s.strand k).inShadow = false) :
    ((s.pinnedError k).strand k).st = .parked ∧ ((s.pinnedError k).strand k).tcause = 0x238#10 := by
  simp only [State.pinnedError, hsh, Bool.false_eq_true, if_false, hh, if_true, State.strand_setStrand_self]
  exact ⟨trivial, rfl⟩

/-! ## Corrected reads -/

/-- The zone of a site with the counter of storage `w` counted up. -/
def Zone.counted (z : Zone) (item : Nat) : Zone :=
  if item < 4 ∨ item = 5 then { z with sramce := satInc z.sramce } else { z with parrf := satInc z.parrf }
/-- Data and tile stores count as SRAM, and the rest as parity. -/
theorem parity_storageOf (n : Nat) : (storageOf n).parity = true ↔ ¬(n < 4 ∨ n = 5) := by
  match n with
  | 0 | 1 | 2 | 3 | 4 | 5 | 6 => decide
  | n + 7 =>
    exact iff_of_true rfl (by omega)
theorem counted_eq (z : Zone) (n : Nat) : (if (storageOf n).parity then z.countParity else z.countSram) = z.counted n := by
  by_cases h : n < 4 ∨ n = 5
  · rw [if_neg fun hp => (parity_storageOf n).1 hp h, Zone.counted, if_pos h]; rfl
  · rw [if_pos ((parity_storageOf n).2 h), Zone.counted, if_neg h]; rfl
theorem exec_sramPatrolRead_of_correctable (hlt : s.input.site < 9216) (hf : s.input.found = .correctable) {u : State}
    (hu : u = s.setZone (siteZone s.input.site) ((s.zone (siteZone s.input.site)).counted s.input.item)) :
    exec .sramPatrolRead s = .next (u.refetch s.input.site (storageOf s.input.item) s.input.off s.input.level) := by
  show execSramPatrolRead s = _
  rw [execSramPatrolRead, if_neg (Nat.not_le.2 hlt), hf, hu, ← counted_eq]
/-- Only L1s and PLBs refetch. -/
theorem refetch_of_other {n : Nat} (h4 : n ≠ 4) (h6 : n ≠ 6) (site off level : Nat) :
    s.refetch site (storageOf n) off level = s := by
  match n with
  | 0 | 1 | 2 | 3 | 5 => rfl
  | 4 => exact absurd rfl h4
  | 6 => exact absurd rfl h6
  | n + 7 => rfl

/-! ## Uncorrectable granules -/

/-- While no access is outstanding and no task is speculative, poison leaves all but poison, the granule's own mark and zeroed frames. -/
def QuietStorage (s : State) : Prop := s.accesses = [] ∧ AllIrrevocable s

theorem poisonAt_of_quiet (h : QuietStorage s) (pa : Nat) : s.poisonAt pa = s.setPoison pa := by
  obtain ⟨hacc, hirr⟩ := h
  rw [State.poisonAt, hacc]
  show (s.touchLine none (pa / 64)).setPoison pa = _
  rw [touchLine_of_allIrrevocable hirr]
theorem onlyBytes_setPoison (s : State) (pa : Nat) : OnlyBytes s (s.setPoison pa) := by
  unfold State.setPoison OnlyBytes
  simp only
  rw [onlyBytes_touch s pa]

/-- What a lost granule leaves: tiles, zones and accesses. -/
def LosesBytes (s t : State) : Prop := t.tiles = s.tiles ∧ t.zones = s.zones ∧ t.accesses = s.accesses

theorem OnlyBytes.losesBytes {s t : State} (h : OnlyBytes s t) : LosesBytes s t := by rw [h]; exact ⟨rfl, rfl, rfl⟩
theorem LosesBytes.quiet {s t : State} (h : LosesBytes s t) (hs : QuietStorage s) : QuietStorage t := by
  obtain ⟨-, hz, ha⟩ := h
  exact ⟨ha.trans hs.1, fun z x hx => hs.2 z x (by rwa [State.zone, ← hz])⟩
theorem losesBytes_poisonAt (h : QuietStorage s) (pa : Nat) : LosesBytes s (s.poisonAt pa) := by
  rw [poisonAt_of_quiet h]
  exact (onlyBytes_setPoison s pa).losesBytes
theorem losesBytes_poisonLine (h : QuietStorage s) (line : Nat) : LosesBytes s (s.poisonLine line) := by
  unfold State.poisonLine
  split
  · exact losesBytes_poisonAt h _
  · exact ⟨rfl, rfl, rfl⟩
theorem losesBytes_loseGranule (h : QuietStorage s) (site g : Nat) : LosesBytes s (s.loseGranule site g) := by
  simp only [State.loseGranule]
  split
  · exact losesBytes_poisonAt h _
  · split
    · split
      · exact losesBytes_poisonAt h _
      · exact ⟨rfl, rfl, rfl⟩
    · have hfree : QuietStorage { s with free := s.free + 1 } := h
      split
      · exact losesBytes_poisonLine hfree _
      · exact ⟨rfl, rfl, rfl⟩
theorem losesBytes_loseGranules (site : Nat) (gs : List Nat) (h : QuietStorage s) :
    LosesBytes s (gs.foldl (fun s g => s.loseGranule site g) s) := by
  induction gs generalizing s with
  | nil => exact ⟨rfl, rfl, rfl⟩
  | cons g gs ih =>
    have hg := losesBytes_loseGranule h site g
    obtain ⟨ht', hz', ha'⟩ := ih (hg.quiet h)
    obtain ⟨ht, hz, ha⟩ := hg
    exact ⟨ht'.trans ht, hz'.trans hz, ha'.trans ha⟩

/-- Scratch is no frame of HBM, so that it bears no mark. -/
theorem not_marked_sramPa (s : State) (site off : Nat) : s.marked (sramPa site off / 4096) = false := by
  have h : paIsHbm (sramPa site off / 4096 * 4096) = false := by
    refine decide_eq_false (Nat.not_lt.2 ?_)
    have : 2 ^ 48 ≤ sramPa site off := by unfold sramPa; omega
    omega
  rw [State.marked, h, Bool.false_and]
theorem setPoison_sramPa (s : State) (site off : Nat) :
    s.setPoison (sramPa site off) = { s with poison := setInsert (granuleOf (sramPa site off)) s.poison } := by
  have h : s.touch (sramPa site off) = s := if_neg (ne_true_of_eq_false (not_marked_sramPa s site off))
  rw [State.setPoison, h]

/-- A granule of user scratch that is lost is poisoned. -/
theorem sramPatrolRead_poisons (hlt : s.input.site < 9216) (hf : s.input.found = .uncorrectable) (hitem : s.input.item = 0)
    (hoff : s.input.off < 49152) (huser : 64 * s.input.off < s.userScratch s.input.site) (hs : QuietStorage s) :
    ∃ t : State, exec .sramPatrolRead s = .next t ∧ t.poisoned (sramPa s.input.site (64 * s.input.off)) = true ∧
      t.zones = s.zones ∧ t.mem = s.mem := by
  generalize hu : s.setTile s.input.site { s.tile s.input.site with sramBad := setInsert s.input.off (s.tile s.input.site).sramBad } = u
  have husable : u.userScratch s.input.site = s.userScratch s.input.site := by
    rw [← hu]
    simp only [State.userScratch, State.tile_setTile_self]
    rfl
  have hsu : QuietStorage u := by rw [← hu]; exact hs
  have hgran : ¬sramGranules ≤ s.input.off := Nat.not_le.2 hoff
  have hex : exec .sramPatrolRead s = .next (u.setPoison (sramPa s.input.site (64 * s.input.off))) := by
    show execSramPatrolRead s = _
    rw [execSramPatrolRead, if_neg (Nat.not_le.2 hlt), hf, hitem]
    show Host.Outcome.next (if sramGranules ≤ s.input.off then s else
      (s.setTile s.input.site { s.tile s.input.site with sramBad := setInsert s.input.off (s.tile s.input.site).sramBad }).loseGranule
        s.input.site s.input.off) = _
    rw [if_neg hgran, hu, State.loseGranule, if_pos (husable ▸ huser), poisonAt_of_quiet hsu]
  refine ⟨_, hex, ?_, ?_, ?_⟩
  · have hin : (setInsert (granuleOf (sramPa s.input.site (64 * s.input.off))) u.poison).contains
        (granuleOf (sramPa s.input.site (64 * s.input.off))) = true := List.contains_iff_mem.2 ((mem_setInsert ..).2 (.inl rfl))
    rw [State.poisoned, not_marked_sramPa, setPoison_sramPa, hin]
    rfl
  · rw [setPoison_sramPa, ← hu]; rfl
  · rw [setPoison_sramPa, ← hu]; rfl

/-! ## The sweep of a bank (R487) -/

theorem tiles_stopTile (s : State) (site : Nat) : (s.stopTile site).tiles = s.tiles := rfl
/-- The granules of a bank that a sweep has found beyond those known. -/
def State.foundBad (s : State) : List Nat :=
  (s.input.bad.filter fun g => g < sramGranules && sramBank g == s.input.item &&
    !((s.tile s.input.site).sramBad.filter fun g => sramBank g == s.input.item).contains g).dedup
/-- The bank's known granules. -/
def State.knownBad (s : State) : List Nat := (s.tile s.input.site).sramBad.filter fun g => sramBank g == s.input.item
/-- The tile after a sweep, failed or not. -/
def State.swept (s : State) (failed : Bool) : State :=
  s.setTile s.input.site { s.tile s.input.site with
    sramBad := (s.tile s.input.site).sramBad.filter fun g => sramBank g != s.input.item, sramFailed := failed }
theorem exec_sramBankSweep_of_known (hlt : s.input.site < 9216) (hfail : (s.tile s.input.site).sramFailed = false)
    (hne : s.knownBad ≠ []) {failed : Bool} (hbad : failed = decide (8 ≤ s.knownBad.length + s.foundBad.length)) {u : State}
    (hu : u = s.foundBad.foldl (fun t g => t.loseGranule s.input.site g) (s.swept failed)) :
    exec .sramBankSweep s = .next (if failed then u.stopTile s.input.site else u) := by
  have hgo : (decide (9216 ≤ s.input.site) || (s.tile s.input.site).sramFailed || s.knownBad.isEmpty) = false := by
    rw [decide_eq_false (Nat.not_le.2 hlt), hfail]
    exact Bool.eq_false_iff.2 fun h => hne (List.isEmpty_iff.1 h)
  subst hbad hu
  exact if_neg (ne_true_of_eq_false hgo)
theorem sramBankSweep_leaves (hlt : s.input.site < 9216) (hfail : (s.tile s.input.site).sramFailed = false)
    (hne : s.knownBad ≠ []) (hs : QuietStorage s) :
    ∃ t : State, exec .sramBankSweep s = .next t ∧
      ((t.tile s.input.site).sramFailed = true ↔ 8 ≤ s.knownBad.length + s.foundBad.length) := by
  refine ⟨_, exec_sramBankSweep_of_known hlt hfail hne rfl rfl, ?_⟩
  generalize hfd : decide (8 ≤ s.knownBad.length + s.foundBad.length) = failed
  have hswept : QuietStorage (s.swept failed) := hs
  obtain ⟨htiles, -, -⟩ := losesBytes_loseGranules s.input.site s.foundBad hswept
  have htile : (if failed then (s.foundBad.foldl (fun t g => t.loseGranule s.input.site g) (s.swept failed)).stopTile s.input.site
      else s.foundBad.foldl (fun t g => t.loseGranule s.input.site g) (s.swept failed)).tiles = (s.swept failed).tiles := by
    split
    · exact (tiles_stopTile ..).trans htiles
    · exact htiles
  have hfailed : ((s.swept failed).tile s.input.site).sramFailed = failed := congrArg Tile.sramFailed (State.tile_setTile_self ..)
  rw [State.tile, htile]
  exact (congrArg (· = true) hfailed).to_iff.trans (hfd ▸ decide_eq_true_iff)

/-! ## Mesh links and counters (R431, R432) -/

theorem exec_meshFlitRetry_of_live (hz : s.input.zone < 64) (hlink : s.input.item ∉ (s.zone s.input.zone).deadLinks) :
    exec .meshFlitRetry s =
      .next (s.setZone s.input.zone ((s.zone s.input.zone).retryLink s.input.item s.input.flag)) := by
  refine if_neg ?_
  simp [Nat.not_le.2 hz, hlink]
theorem retryLink_good (z : Zone) (link : Nat) :
    z.retryLink link false = { z with meshrt := satInc z.meshrt, linkFails := z.linkFails.erase link } := rfl
theorem retryLink_failed (z : Zone) (link : Nat) (h : z.linkFails.getD link 0 < 15) :
    z.retryLink link true =
      { z with meshrt := satInc z.meshrt, linkFails := z.linkFails.set link (z.linkFails.getD link 0 + 1) } := by
  have hlt : z.linkFails.getD link 0 + 1 < 16 := by omega
  simp only [Zone.retryLink, if_true, if_pos hlt, Nat.add_eq_zero_iff, one_ne_zero, and_false, if_false]
theorem retryLink_sixteenth (z : Zone) (link : Nat) (h : z.linkFails.getD link 0 = 15) :
    z.retryLink link true =
      { z with
        meshrt := satInc z.meshrt, meshrl := satInc z.meshrl, linkFails := z.linkFails.erase link
        deadLinks := setInsert link z.deadLinks } := by
  simp only [Zone.retryLink, if_true, h]
  rfl

theorem exec_errorCounterClear_of_zero (hz : s.input.zone < 64) (hv : s.input.value = 0#64) (hfw : s.module.fwfail = false) :
    exec .errorCounterClear s = .next (s.setZone s.input.zone ((s.zone s.input.zone).clearCounter s.input.off)) := by
  have hgo : ¬(decide (64 ≤ s.input.zone) || s.module.fwfail) = true := by simp [Nat.not_le.2 hz, hfw]
  show execErrorCounterClear s = _
  rw [execErrorCounterClear, if_neg hgo, State.errorWrite, if_pos hv]
theorem exec_errorCounterClear_of_nonzero (hv : s.input.value ≠ 0#64) : exec .errorCounterClear s = .next s := by
  show execErrorCounterClear s = _
  rw [execErrorCounterClear, State.errorWrite, if_neg hv, ite_self]
end

end Sys2Proof.Machine
end

section
/-! SUPPORT. Zeroing, the scrubber and wear, and the events of errors and wear as a whole (21 R465–R468). -/

namespace Sys2Proof.Machine

/-! ## Zeroing (R465, R466) -/

theorem not_marked_zeroFrame (s : State) (f : Nat) : (s.zeroFrame f).marked f = false := by
  rw [marked_zeroFrame, bne_self_eq_false, Bool.and_false]
/-- Every byte of a frame that is zeroed reads 0, and is not poisoned. -/
theorem zeroFrame_clears {s : State} {f : Nat} (h : s.marked f = true) {a : Nat} (ha : a / 4096 = f) :
    (s.zeroFrame f).readPa a 1 = 0 ∧ (s.zeroFrame f).poisoned a = false := by
  have hm := not_marked_zeroFrame s f
  have hbyte : (s.mem.clear (f * 4096) 4096).read a = 0#8 := by
    have hin : (!(decide (f * 4096 ≤ a) && decide (a < f * 4096 + 4096))) = false := by
      rw [decide_eq_true (by omega : f * 4096 ≤ a), decide_eq_true (by omega : a < f * 4096 + 4096)]
      rfl
    exact (Memory.read_filter (fun a => !(decide (f * 4096 ≤ a) && decide (a < f * 4096 + 4096))) a s.mem).trans
      (if_neg (ne_true_of_eq_false hin))
  have hgone : (s.poison.filter fun g => g / 64 != f).contains (granuleOf a) = false := by
    have hg : granuleOf a / 64 = f := by rw [granuleOf, Nat.div_div_eq_div_mul]; exact ha
    simp [hg]
  refine ⟨?_, ?_⟩
  · rw [State.readPa, ha, hm, if_neg Bool.false_ne_true, State.zeroFrame, if_pos h]
    show ((s.mem.clear (f * 4096) 4096).read a).toNat + 256 * 0 = 0
    rw [hbyte]
    rfl
  · rw [State.poisoned, State.zeroFrame, if_pos h]
    show (_ && (s.poison.filter fun g => g / 64 != f).contains (granuleOf a)) = false
    rw [hgone, Bool.and_false]

section
variable {s : State}

theorem scrubDone_iff (s : State) (k : Nat) : s.scrubDone k = true ↔ (k + 1) * 2 ^ 24 ≤ s.scrubNext k := decide_eq_true_iff

theorem exec_scrubZeroingPass_of_marked (hr : s.module.ready = true) (hk : s.input.stack < 40)
    (hf : s.scrubNext s.input.stack < (s.input.stack + 1) * 2 ^ 24) :
    exec .scrubZeroingPass s = .next ((s.zeroFrame (s.scrubNext s.input.stack)).setModule { s.module with
      scrubNext := s.module.scrubNext.set s.input.stack (s.scrubNext s.input.stack + 1 - s.input.stack * 2 ^ 24) }) := by
  have hdone : s.scrubDone s.input.stack = false := Bool.eq_false_iff.2 fun h => Nat.not_lt.2 ((scrubDone_iff ..).1 h) hf
  have hgo : (!s.module.ready || decide (40 ≤ s.input.stack) || s.scrubDone s.input.stack) = false := by
    rw [hr, decide_eq_false (Nat.not_le.2 hk), hdone]; rfl
  have hmod : (s.zeroFrame (s.scrubNext s.input.stack)).module = s.module := by
    unfold State.zeroFrame
    split <;> rfl
  refine (if_neg (ne_true_of_eq_false hgo)).trans ?_
  rw [hmod]

section
variable (hr : s.module.ready = true) (hk : s.input.stack < 40) (hf : (s.input.stack + 1) * 2 ^ 24 ≤ s.scrubNext s.input.stack)
  (hpa : 64 * s.input.off / Config.hbmStackBytes = s.input.stack) (hflag : s.input.flag = false)
include hr hk hf hpa hflag

theorem scrubs_of_done : ¬(40 ≤ s.input.stack || 64 * s.input.off / Config.hbmStackBytes ≠ s.input.stack ||
    (!s.input.flag && (!s.module.ready || !s.scrubDone s.input.stack))) = true := by
  rw [decide_eq_false (Nat.not_le.2 hk), hpa, hflag, hr, (scrubDone_iff ..).2 hf]
  simp
theorem exec_scrubReadPass_of_correct (hfound : s.input.found ≠ .uncorrectable) : exec .scrubReadPass s = .next s := by
  show execScrubReadPass s = _
  rw [execScrubReadPass, if_neg (scrubs_of_done hr hk hf hpa hflag)]
  split
  · next h => exact absurd h hfound
  · rfl
theorem exec_scrubReadPass_of_uncorrectable (hfound : s.input.found = .uncorrectable) {u : State} (hu : u = s.loseHbm (64 * s.input.off)) :
    exec .scrubReadPass s = .next (u.setModule { u.module with scrubErrors := u.module.scrubErrors + 1 }) := by
  show execScrubReadPass s = _
  rw [execScrubReadPass, if_neg (scrubs_of_done hr hk hf hpa hflag), hfound, hflag, hu]
  rfl
end

theorem loseHbm_of_uncached {pa : Nat} (hm : s.marked (pa / 4096) = false) (hc : s.cachedAt pa = none) : s.loseHbm pa = s.poisonAt pa := by
  rw [State.loseHbm, if_neg (ne_true_of_eq_false hm), hc]
  rfl
theorem loseHbm_of_cached {pa : Nat} {c : Nat × Nat} (hm : s.marked (pa / 4096) = false) (hc : s.cachedAt pa = some c) :
    s.loseHbm pa = { s with l2 := s.l2.mapValues fun _ x => if x.frame = pa / 64 then { x with below := true } else x } := by
  rw [State.loseHbm, if_neg (ne_true_of_eq_false hm), hc]
  rfl

/-! ## Wear (R467, R468) -/

theorem exec_wearSensorSample_of_lt (h : s.input.item < 104) :
    exec .wearSensorSample s = .next (s.setModule { s.module with
      sensors := s.module.sensors.set s.input.item ((s.module.sensors.getD s.input.item {}).sample s.input.temp) }) :=
  if_neg (Nat.not_le.2 h)
end

section
variable {w : Sensor} {t x : Int}

theorem sample_first (h : w.x = none) : w.sample t = { w with x := some t } := by rw [Sensor.sample, h]
theorem sample_rise (hx : w.x = some x) (hl : w.high = false) (h : x + 4000 ≤ t) :
    w.sample t = { c := satInc w.c, high := true, x := some t } := by
  have hmin : min x t + 4000 ≤ t := by omega
  simp only [Sensor.sample, hx, hl, Bool.false_eq_true, if_false, if_pos hmin]
theorem sample_low (hx : w.x = some x) (hl : w.high = false) (h : t < x + 4000) : w.sample t = { w with x := some (min x t) } := by
  have hmin : ¬min x t + 4000 ≤ t := by omega
  simp only [Sensor.sample, hx, hl, Bool.false_eq_true, if_false, if_neg hmin]
theorem sample_fall (hx : w.x = some x) (hl : w.high = true) (h : t ≤ x - 4000) : w.sample t = { w with high := false, x := some t } := by
  have hmax : t ≤ max x t - 4000 := by omega
  simp only [Sensor.sample, hx, hl, if_true, if_pos hmax]
theorem sample_high (hx : w.x = some x) (hl : w.high = true) (h : x - 4000 < t) : w.sample t = { w with x := some (max x t) } := by
  have hmax : ¬t ≤ max x t - 4000 := by omega
  simp only [Sensor.sample, hx, hl, if_true, if_neg hmax]
end

theorem exec_wearRecordWrite_of_off {s : State} (h : s.module.powered = false ∨ s.module.fwfail = true ∨ s.module.recordChecked = false) :
    exec .wearRecordWrite s = .next s := by
  refine congrArg Host.Outcome.next ?_
  rcases h with h | h | h
  · exact if_neg (by simp [h])
  · exact if_neg (by simp [h])
  · rw [State.writeRecord, h, if_neg Bool.false_ne_true, ite_self]
theorem exec_wearRecordWrite_of_checked {s : State} (hp : s.module.powered = true) (hf : s.module.fwfail = false)
    (hck : s.module.recordChecked = true) :
    exec .wearRecordWrite s = .next (s.setModule { s.module with
      recordWrites := s.module.recordWrites + 1, copies := (s.module.newRecord :: s.module.copies).take 2 }) :=
  congrArg Host.Outcome.next ((if_pos (by simp [hp, hf])).trans (if_pos hck))

/-- The bank of a granule as the statement of a sweep divides it. -/
theorem knownBad_eq (s : State) : s.knownBad = (s.tile s.input.site).sramBad.filter fun g => 64 * g / 196608 = s.input.item := rfl
theorem foundBad_eq (s : State) : s.foundBad =
    (s.input.bad.filter fun g => (g < 49152 ∧ 64 * g / 196608 = s.input.item) ∧ g ∉ s.knownBad).dedup := by
  refine congrArg List.dedup (List.filter_congr fun g _ => ?_)
  simp only [Bool.decide_and, decide_not]
  refine congrArg₂ and rfl (congrArg not ?_)
  rw [Bool.eq_iff_iff, List.contains_iff_mem, decide_eq_true_iff]
  exact Iff.rfl

/-- Settles O45: each event has the effect that the lemma of its kind says. -/
theorem errorAndWearEventsComplete : Obligations.ErrorAndWearEventsComplete := by
  refine ⟨?_, ?_, ?_⟩
  · intro s i z
    refine ⟨exec_heartbeat_of_beating, exec_coreDead_of_silent, exec_coreDead_of_beating, fun hlt hat hsb hrun hlost => ?_,
      fun hlt hat hin hpri hsb => ?_⟩
    · exact ⟨_, exec_atelierTakeover_of_lost rfl hlt hat hsb hrun hlost, takeover_leaves s i.zone⟩
    · exact zoneOutOfService_leaves rfl hlt hat hin hpri hsb
  · intro s i z
    refine ⟨exec_tileStateError_of_site, exec_tileStateError_of_silent, fun hf hlv hsil run _ hh hsh hst => ?_,
      fun hlt hf => ⟨fun h4 h6 => ?_, fun h6 => ?_, fun h4 => ?_⟩, fun hlt hf hitem hoff huser hacc hirr => ?_,
      fun hlt hfail hne hacc hirr => ?_, fun hz hlink => ⟨fun hf => ?_, fun hf hn => ?_, fun hf hn => ?_⟩,
      fun hz hv hfw => ⟨fun ho => ?_, fun ho => ?_, fun ho => ?_, fun ho => ?_⟩, fun _ hv => exec_errorCounterClear_of_nonzero hv⟩
    · exact ⟨_, exec_tileStateError_of_pinned hf hlv hsil hh hst, pinnedError_parks hh hsh⟩
    · rw [exec_sramPatrolRead_of_correctable hlt hf rfl, refetch_of_other h4 h6]
      rfl
    · rw [exec_sramPatrolRead_of_correctable hlt hf rfl, h6]
      rfl
    · rw [exec_sramPatrolRead_of_correctable hlt hf rfl, h4]
      rfl
    · exact sramPatrolRead_poisons hlt hf hitem hoff huser ⟨hacc, hirr⟩
    · have h := sramBankSweep_leaves hlt hfail hne ⟨hacc, hirr⟩
      rw [foundBad_eq] at h
      exact h
    · rw [exec_meshFlitRetry_of_live hz hlink, hf]
      rfl
    · rw [exec_meshFlitRetry_of_live hz hlink, hf, retryLink_failed _ _ hn]
    · rw [exec_meshFlitRetry_of_live hz hlink, hf, retryLink_sixteenth _ _ hn]
    · rw [exec_errorCounterClear_of_zero hz hv hfw, ho]
      rfl
    · rw [exec_errorCounterClear_of_zero hz hv hfw, ho]
      rfl
    · rw [exec_errorCounterClear_of_zero hz hv hfw, ho]
      rfl
    · rw [exec_errorCounterClear_of_zero hz hv hfw, ho]
      rfl
  · intro s i m w f
    refine ⟨⟨_, rfl, not_marked_zeroFrame s i.off, fun h a ha => zeroFrame_clears h ha, fun h => if_neg (ne_true_of_eq_false h)⟩,
      exec_scrubZeroingPass_of_marked, fun hr hk hf hpa hflag => ⟨exec_scrubReadPass_of_correct hr hk hf hpa hflag,
        fun hfound hm => ⟨fun hc => ?_, fun c hc => ?_⟩⟩, fun hlt => ?_, exec_wearRecordWrite_of_off, fun hp hfw hck => ?_⟩
    · exact exec_scrubReadPass_of_uncorrectable hr hk hf hpa hflag hfound (loseHbm_of_uncached hm hc).symm
    · exact ⟨_, exec_scrubReadPass_of_uncorrectable hr hk hf hpa hflag hfound (loseHbm_of_cached hm hc).symm, rfl, rfl, rfl⟩
    · exact ⟨_, exec_wearSensorSample_of_lt hlt, sample_first, fun x => sample_rise, fun x => sample_low, fun x => sample_fall,
        fun x => sample_high⟩
    · exact ⟨_, rfl, exec_wearRecordWrite_of_checked hp hfw hck⟩

end Sys2Proof.Machine
end

section
/-! SUPPORT. Granules of transfers: what holds them, ends them, or writes their pieces (13 R315, R316, R319, R320). -/

namespace Sys2Proof.Machine

/-- The operation at a place may run, and its turn has come. -/
theorem runningOp?_of_turn {s : State} {i : Nat} {o : Op} (ho : s.ops[i]? = some o) (hrun : s.opRuns o = true) (hturn : s.tileTurn i o = true) :
    s.runningOp? i = some o := by
  rw [State.runningOp?, ho]
  exact if_pos (by rw [hrun, hturn]; rfl)
theorem holdPart_of_free {s : State} {i k : Nat} {o : Op} (h : o.held.contains k = false) (t : TrapInfo) :
    s.holdPart i o k t = (s.engineFault o t 0#64).setOp i { o.unask k with held := setInsert k o.held } := if_neg (ne_true_of_eq_false h)

/-- The turn of granule `k` of a transfer has come: source `src`, destination `dst`, `n` bytes. -/
structure TransferTurn (s : State) (i k : Nat) (o : Op) (op et : Nat) (sq : Bool) (src dst : Word) (n : Nat) : Prop where
  index : s.input.index = i
  item : s.input.item = k
  runs : s.runningOp? i = some o
  kind : o.kind = .xfer op et sq
  goes : (o.st.cancelled || o.done.contains k || o.held.contains k || !s.inOrder o k || (s.ops.take i).any fun p => s.transferHolds p o k) = false
  free : o.held.contains k = false
  granule : o.shape.granule o.shape.rows 0 k = some (src, dst, n)

section
variable {s : State} {i k : Nat} {o : Op} {op et : Nat} {sq : Bool} {src dst : Word} {n : Nat}
  (h : TransferTurn s i k o op et sq src dst n) {parts : List (Nat × Nat × Nat)} (hparts : parts = destParts dst.toNat n)
  {rd all : List (Reach × Nat × Nat)} (hrd : rd = s.reachAll o .engineWrite parts) (hall : all = (s.reach o .engineRead src, 0, n) :: rd)
include h hparts hrd hall

/-- A translation fault holds the granule, with a report. -/
theorem exec_xfer_of_fault {t : TrapInfo} (hf : reachFault all = some t) :
    exec .xferGranuleDelivery s = .next ((s.engineFault o t 0#64).setOp i { o.unask k with held := setInsert k o.held }) := by
  subst hparts hrd hall
  show execXferGranuleDelivery s = _
  rw [execXferGranuleDelivery]
  simp only [h.index, h.item, h.runs, h.kind, h.goes, Bool.false_eq_true, if_false, h.granule, hf]
  rw [holdPart_of_free h.free]

variable (hf : reachFault all = none) (hg : reachGone all = none)
include hf hg

/-- System space, or host space under a combination, ends the transfer RANGE. -/
theorem exec_xfer_of_range (hr : reachSpace all paIsSystem = true ∨ op ≠ 0 ∧ reachSpace rd paIsHost = true) :
    exec .xferGranuleDelivery s =
      .next (s.setOp i { o with done := setInsert k o.done, st := { o.st with range := true } }) := by
  have hr' : (reachSpace all paIsSystem || (op != 0 && reachSpace rd paIsHost)) = true := by
    rcases hr with hr | ⟨hop, hr⟩
    · rw [hr, Bool.true_or]
    · rw [hr, bne_iff_ne.2 hop, Bool.and_self, Bool.or_true]
  subst hparts hrd hall
  show execXferGranuleDelivery s = _
  rw [execXferGranuleDelivery]
  simp only [h.index, h.item, h.runs, h.kind, h.goes, Bool.false_eq_true, if_false, h.granule, hf, hg, hr', if_true]

/-- Else every piece is written from the source's bytes. -/
theorem exec_xfer_of_here {pa : Nat} {c : Option (Nat × Nat)} {s' : State} (hsrc : s.reach o .engineRead src = .at pa c s')
    (haway : reachesAway all = false) (hsys : reachSpace all paIsSystem = false) (hhost : op = 0 ∨ reachSpace rd paIsHost = false)
    (hsent : o.sentFor k = none) {u : State}
    (hu : u = parts.foldl (fun s p => s.markReach o .engineWrite p.1) (s.markReach o .engineRead src.toNat)) {r : State × Op}
    (hr : r = (rd.zip (parts.mapIdx fun j p => (j, p.1))).foldl
      (fun so e => State.deliverPart so op et (u.readPa pa n) (u.poisonedIn pa n) e.2 e.1)
      (u.engineTouch o pa c false, { o with done := setInsert k o.done })) :
    exec .xferGranuleDelivery s = .next (r.1.setOp i { r.2 with dcnt := r.2.dcnt + n }) := by
  have hspace : (reachSpace all paIsSystem || (op != 0 && reachSpace rd paIsHost)) = false := by
    rcases hhost with hop | hhost
    · rw [hsys, hop]; rfl
    · rw [hsys, hhost, Bool.and_false]; rfl
  subst hr hu hparts hrd hall
  rw [hsrc] at hf hg haway hspace
  show execXferGranuleDelivery s = _
  rw [execXferGranuleDelivery]
  simp only [h.index, h.item, h.runs, h.kind, h.goes, Bool.false_eq_true, if_false, h.granule, hsrc, hf, hg, hspace, haway, Bool.false_and,
    hsent]
end

/-! ## The pieces of a destination -/

section
variable (u : State) (p : Op) {op : Nat} (et pa off len data : Nat) (at_ : Nat × Nat) (c : Option (Nat × Nat)) (w : State)
theorem deliverPart_plain :
    State.deliverPart (u, p) 0 et data false at_ (.at pa c w, off, len) =
      ((u.engineTouch p pa c true).writePa pa len (data / 2 ^ (8 * off) % 2 ^ (8 * len)), p) := by
  simp only [State.deliverPart, Bool.false_eq_true, if_false, if_true, bits]
theorem deliverPart_poisoned :
    State.deliverPart (u, p) op et data true at_ (.at pa c w, off, len) =
      ((u.engineTouch p pa c true).poisonAt pa, p.poisonAtDest (at_.2 / 64)) := by
  simp only [State.deliverPart, if_true]
theorem deliverPart_at_poison (hop : op ≠ 0) (h : (u.engineTouch p pa c true).poisoned pa = true) :
    (State.deliverPart (u, p) op et data false at_ (.at pa c w, off, len)).1 = u.engineTouch p pa c true := by
  simp only [State.deliverPart, Bool.false_eq_true, if_false, if_neg hop, h, if_true]
theorem deliverPart_combined (hop : op ≠ 0) (h : (u.engineTouch p pa c true).poisoned pa = false) :
    (State.deliverPart (u, p) op et data false at_ (.at pa c w, off, len)).1 =
      (u.engineTouch p pa c true).writePa pa len
        (combineAll op et (len / elemSize et) ((u.engineTouch p pa c true).readPa pa len) (data / 2 ^ (8 * off) % 2 ^ (8 * len))).1 := by
  simp only [State.deliverPart, Bool.false_eq_true, if_false, if_neg hop, h, bits]
end

section
variable (p : Op) (g : Nat)
theorem poisoned_poisonAtDest : (p.poisonAtDest g).st.poisoned = true := by
  unfold Op.poisonAtDest
  simp only
  split <;> rfl
theorem pcnt_poisonAtDest_of_new (h : p.data.find? (2 ^ 60 + g) = none) : (p.poisonAtDest g).pcnt = p.pcnt + 1 := by
  simp only [Op.poisonAtDest, h, Option.isSome_none, Bool.false_eq_true, if_false]
theorem pcnt_poisonAtDest_of_counted (h : (p.data.find? (2 ^ 60 + g)).isSome = true) : (p.poisonAtDest g).pcnt = p.pcnt := by
  simp only [Op.poisonAtDest, h, if_true]
theorem counted_poisonAtDest : ((p.poisonAtDest g).data.find? (2 ^ 60 + g)).isSome = true := by
  by_cases h : (p.data.find? (2 ^ 60 + g)).isSome = true
  · simp only [Op.poisonAtDest, h, if_true]
  · simp only [Op.poisonAtDest, h, Bool.false_eq_true, if_false, FMap.find?_set, if_true, Option.isSome_some]
/-- A destination granule counts once. -/
theorem pcnt_poisonAtDest_twice : ((p.poisonAtDest g).poisonAtDest g).pcnt = (p.poisonAtDest g).pcnt :=
  pcnt_poisonAtDest_of_counted _ _ (counted_poisonAtDest p g)
end

end Sys2Proof.Machine
end

section
/-! SUPPORT. Granules between memory and a tile's engine (14 R327, R335, R340, R343, 15 R361). -/

namespace Sys2Proof.Machine

theorem marked512_eq (x : Nat) (psn : Bool) : marked512 x psn = x % 2 ^ 512 + (if psn then 2 ^ 512 else 0) := by
  cases psn
  · rw [marked512, b2n, if_neg Bool.false_ne_true, if_neg Bool.false_ne_true, Nat.zero_mul]
  · rw [marked512, b2n, if_pos rfl, if_pos rfl, Nat.one_mul]

section
variable {s : State} {i k : Nat} {o : Op} {va : Word} {n : Nat} {f : State → Op → Nat → Bool → Op}

theorem granuleIn_of_data {x : Nat} {psn : Bool} {v : State} (h : s.fetchPiece o (tagElem k 0) va n = .data x psn v) :
    s.granuleIn i o k va n f = v.setOp i (f v o x psn) := by rw [State.granuleIn, h]
theorem granuleIn_of_fault {t : TrapInfo} (h : s.fetchPiece o (tagElem k 0) va n = .fault t) :
    s.granuleIn i o k va n f = s.holdPart i o k t := by rw [State.granuleIn, h]
theorem granuleOut_of_done {o' : Op} {x : Nat} {psn : Bool} {v : State} (h : s.putPiece o (tagElem k 0) va n x psn = .done v) :
    s.granuleOut i o o' k va n x psn = v.setOp i (if psn then o'.poisoned else o') := by rw [State.granuleOut, h]
end

/-- Part `k` of the operation at place `i` is still to move. -/
structure PartTurn (s : State) (i k : Nat) (o : Op) : Prop where
  index : s.input.index = i
  item : s.input.item = k
  runs : s.runningOp? i = some o
  lt : k < o.total
  todo : o.done.contains k = false
  free : o.held.contains k = false

section
variable {s : State} {i k : Nat} {o : Op} (h : PartTurn s i k o)
include h

theorem part_goes : ¬(o.total ≤ k || o.done.contains k || o.held.contains k) = true := by
  rw [decide_eq_false (Nat.not_le.2 h.lt), h.todo, h.free]; decide

theorem exec_granule_of_ts {op : Nat} (hk : o.kind = .ts op) : exec .engineMemoryGranule s = .next (s.tsPart i k o op) := by
  show execEngineMemoryGranule s = _
  rw [execEngineMemoryGranule]
  simp only [h.index, h.item, h.runs, hk]
theorem exec_granule_of_mma {op : Nat} (hk : o.kind = .mma op) : exec .engineMemoryGranule s = .next (s.mxePart i k o) := by
  show execEngineMemoryGranule s = _
  rw [execEngineMemoryGranule]
  simp only [h.index, h.item, h.runs, hk]
theorem exec_granule_of_att {op : Nat} (hk : o.kind = .att op) : exec .engineMemoryGranule s = .next (s.attGranule i k o op) := by
  show execEngineMemoryGranule s = _
  rw [execEngineMemoryGranule]
  simp only [h.index, h.item, h.runs, hk]

/-- A granule of a TSLD comes from memory. -/
theorem tsPart_load (hlt : k < 4 * (o.arg 2).toNat) :
    s.tsPart i k o 0 = s.granuleIn i o k (o.arg 1 + BitVec.ofNat 64 (64 * k)) 64 fun _ o x psn => o.take k (marked512 x psn) := by
  have hbase : k < tsBase 0 (o.arg 2).toNat := hlt
  refine (if_neg (part_goes h)).trans ((if_pos hbase).trans ?_)
  rfl
/-- A granule of a TSST goes to memory. -/
theorem tsPart_store (hlt : k < 4 * (o.arg 2).toNat) {x : Nat} (hx : o.data.find? k = some x) :
    s.tsPart i k o 1 = s.granuleOut i o { o with done := setInsert k o.done, dcnt := o.dcnt + 64 } k
      (o.arg 1 + BitVec.ofNat 64 (64 * k)) 64 (x % 2 ^ 512) (bitAt x 512) := by
  have hbase : k < tsBase 1 (o.arg 2).toNat := hlt
  refine (if_neg (part_goes h)).trans ((if_pos hbase).trans ((if_neg (by decide)).trans ?_))
  rw [hx]
/-- A row of a copy takes effect in the tile store, after the copy's rows before it and the core's earlier copies. -/
theorem tsPart_row {op r : Nat} (hrun : s.partRuns o.part = true) (hk : k = tsBase op (o.arg 2).toNat + r)
    (hprev : r = 0 ∨ o.done.contains (k - 1) = true) (hrow : op = 0 → ∀ j, j < 4 → o.done.contains (4 * r + j) = true)
    (hearly : ∀ p, p ∈ s.ops.take i → p.core = o.core → ∀ q, p.kind = .ts q → p.rowsDone q = true) :
    s.tsPart i k o op =
      (s.setTile (coreSite o.core) (tsRow (s.tile (coreSite o.core)) o op r).1).setOp i (tsRow (s.tile (coreSite o.core)) o op r).2 := by
  have hbase : ¬k < tsBase op (o.arg 2).toNat := by omega
  have hr : k - tsBase op (o.arg 2).toNat = r := by omega
  have hnone : ((s.ops.take i).any fun p => p.core == o.core && (match p.kind with
      | .ts op' => !p.rowsDone op' && !p.st.cancelled
      | _ => false)) = false := by
    rw [List.any_eq_false]
    intro p hp
    by_cases hcore : p.core = o.core
    · split
      · next q hq => simp [hearly p hp hcore q hq]
      · simp
    · simp [hcore]
  have hready : ((r = 0 || o.done.contains (k - 1)) && (op ≠ 0 || (List.range 4).all fun j => o.done.contains (4 * r + j))) = true := by
    refine Bool.and_eq_true_iff.2 ⟨?_, ?_⟩
    · rcases hprev with h0 | h1
      · simp [h0]
      · rw [h1, Bool.or_true]
    · by_cases hop : op = 0
      · refine Bool.or_eq_true_iff.2 (.inr (List.all_eq_true.2 fun j hj => hrow hop j (List.mem_range.1 hj)))
      · simp [hop]
  refine (if_neg (part_goes h)).trans ((if_neg hbase).trans ?_)
  simp only [hr]
  have hgo := Bool.or_eq_false_iff.2 ⟨Bool.or_eq_false_iff.2 ⟨hnone, congrArg not hready⟩, congrArg not hrun⟩
  exact if_neg (ne_true_of_eq_false hgo)

/-- A granule of an MMAL comes from memory. -/
theorem mxePart_granule : s.mxePart i k o = s.mmalGranule i k o := by
  have hgo : ¬(o.done.contains k || o.held.contains k) = true := by rw [h.todo, h.free]; decide
  exact (if_pos h.lt).trans (if_neg hgo)
/-- A granule of an ATTM comes from memory. -/
theorem attGranule_attm (hb : s.attBlocked i o = false) {x : Nat} {v : State}
    (hx : s.fetchPiece o (tagElem k 0) (o.arg 0 + BitVec.ofNat 64 (64 * k)) 64 = .data x false v) :
    s.attGranule i k o 0 = v.setOp i { o.take k x with dcnt := 0 } := by
  have hva : (if (0 : Nat) = 2 then 64 else 0) + 64 * k = 64 * k := Nat.zero_add _
  refine (if_neg (part_goes h)).trans ((if_neg (by decide)).trans ((if_neg (ne_true_of_eq_false hb)).trans ?_))
  simp only [hva]
  rw [granuleIn_of_data hx]
  rfl
end

end Sys2Proof.Machine
end

section
/-! SUPPORT. Completion of an engine's operation (13 R317–R319, 14 R331, 16 R374, R390). -/

namespace Sys2Proof.Machine

/-- An operation has ended: its record stands, and no operation holds its identifier. -/
def HasEnded (t : State) (o : Op) : Prop :=
  (∀ q, q ∈ t.ops → q.is o.core o.ch o.id = false) ∧
    (t.core o.core).records.find? (32 * o.ch + o.id.toNat % 32) =
      some { id := o.id, word := BitVec.ofNat 64 (o.st.code * 2 ^ 61 + o.pcnt % 2 ^ 26 * 2 ^ 32 + o.dcnt % 2 ^ 32) }

theorem hasEnded_finishOp (s : State) (o : Op) : HasEnded (s.finishOp o) o := by
  refine ⟨fun q hq => ?_, ?_⟩
  · have hmem : q ∈ s.ops.filter fun q => !q.is o.core o.ch o.id := hq
    obtain ⟨-, hno⟩ := List.mem_filter.1 hmem
    exact Bool.not_eq_true' _ ▸ hno
  · rw [State.finishOp, State.complete]
    simp only [State.core_setCore_self, FMap.find?_set, if_true]
    rfl
theorem mem_finishOp (s : State) (o : Op) : (s.finishOp o).mem = s.mem := rfl
theorem tiles_finishOp (s : State) (o : Op) : (s.finishOp o).tiles = s.tiles := rfl

theorem allDone_of_contains {o : Op} {n : Nat} (h : ∀ j, j < n → o.done.contains j = true) : o.allDone n = true :=
  List.all_eq_true.2 fun j hj => h j (List.mem_range.1 hj)
theorem isColl_of_isMxe {k : OpKind} (h : k.isMxe = true) : k.isColl = false := by
  cases k with
  | coll op => exact absurd h Bool.false_ne_true
  | _ => rfl
/-- The first status of the list that applies. -/
theorem code_eq (t : OpStatus) :
    t.code = (match t.cancelled, t.linkLost, t.range, t.poisoned, t.overflow with
      | true, _, _, _, _ => 4 | _, true, _, _, _ => 3 | _, _, true, _, _ => 5 | _, _, _, true, _ => 1 | _, _, _, _, true => 6
      | _, _, _, _, _ => 0) := by
  obtain ⟨poisoned, linkLost, cancelled, range, overflow⟩ := t
  cases cancelled
  · cases linkLost
    · cases range
      · cases poisoned
        · cases overflow <;> rfl
        · rfl
      · rfl
    · rfl
  · rfl

section
variable {s : State} {i : Nat} {o : Op} (hi : s.input.index = i) (hrun : s.runningOp? i = some o)
include hi hrun

/-- A cancelled operation ends at once. -/
theorem exec_complete_of_dropped (h : o.dropped = true) (hm : o.kind.isMxe = false) :
    exec .engineOperationComplete s = .next (s.finishOp o) := by
  show execEngineOperationComplete s = _
  rw [execEngineOperationComplete]
  simp only [hi, hrun, h, if_true, hm, Bool.false_and, Bool.false_eq_true, if_false]
/-- One whose parts have all taken place ends with what is left of its work. -/
theorem exec_complete_of_mayFinish (h : o.dropped = false) (hf : s.mayFinish i o = true) (hc : o.kind.isColl = false) :
    exec .engineOperationComplete s =
      .next (((s.finalEffect o).1.finishOp (s.finalEffect o).2).afterFinish (s.finalEffect o).2) := by
  show execEngineOperationComplete s = _
  rw [execEngineOperationComplete]
  simp only [hi, hrun, h, hf, hc, Bool.false_eq_true, if_false, Bool.not_true]
/-- The members of a collective complete together. -/
theorem exec_complete_of_coll (h : o.dropped = false) (hf : s.mayFinish i o = true) (hc : o.kind.isColl = true) :
    exec .engineOperationComplete s = .next ((s.collMates o).foldl (fun s p => s.finishOp p) s) := by
  show execEngineOperationComplete s = _
  rw [execEngineOperationComplete]
  simp only [hi, hrun, h, hf, hc, Bool.false_eq_true, if_false, Bool.not_true, if_true]

/-- An operation with no work left ends as it is. -/
theorem complete_plain (h : o.dropped = false) (hf : s.mayFinish i o = true) (hc : o.kind.isColl = false)
    (hfinal : s.finalEffect o = (s, o)) (hafter : (s.finishOp o).afterFinish o = s.finishOp o) :
    ∃ t, exec .engineOperationComplete s = .next t ∧ HasEnded t o ∧ t.mem = s.mem ∧ t.tiles = s.tiles := by
  refine ⟨_, exec_complete_of_mayFinish hi hrun h hf hc, ?_⟩
  rw [hfinal]
  simp only [hafter]
  exact ⟨hasEnded_finishOp s o, rfl, rfl⟩
theorem complete_dropped (h : o.dropped = true) (hm : o.kind.isMxe = false) :
    ∃ t, exec .engineOperationComplete s = .next t ∧ HasEnded t o ∧ t.mem = s.mem ∧ t.tiles = s.tiles :=
  ⟨_, exec_complete_of_dropped hi hrun h hm, hasEnded_finishOp s o, rfl, rfl⟩

theorem complete_xfer {op et : Nat} {sq : Bool} (hk : o.kind = .xfer op et sq) (hall : ∀ j, j < o.total → o.done.contains j = true)
    (hcan : o.st.cancelled = false) :
    ∃ t, exec .engineOperationComplete s = .next t ∧ HasEnded t o ∧ t.mem = s.mem ∧ t.tiles = s.tiles := by
  refine complete_plain hi hrun ?_ ?_ ?_ ?_ ?_
  · rw [Op.dropped, hcan, Bool.false_and]
  · rw [State.mayFinish, hk]; exact allDone_of_contains hall
  · rw [hk]; rfl
  · rw [State.finalEffect, hk]
  · rw [State.afterFinish, hk]
theorem complete_ts {op : Nat} (hk : o.kind = .ts op) (h : (∀ j, j < o.total → o.done.contains j = true) ∨ o.st.cancelled = true) :
    ∃ t, exec .engineOperationComplete s = .next t ∧ HasEnded t o ∧ t.mem = s.mem ∧ t.tiles = s.tiles := by
  cases hcan : o.st.cancelled
  · have hall := h.resolve_right (ne_true_of_eq_false hcan)
    refine complete_plain hi hrun ?_ ?_ ?_ ?_ ?_
    · rw [Op.dropped, hcan, Bool.false_and]
    · rw [State.mayFinish, hk]; exact allDone_of_contains hall
    · rw [hk]; rfl
    · rw [State.finalEffect, hk]
    · rw [State.afterFinish, hk]
  · refine complete_dropped hi hrun ?_ ?_
    · rw [Op.dropped, hcan, hk]; rfl
    · rw [hk]; rfl
theorem complete_elements (hk : o.kind = .gath ∨ o.kind = .scat) (hall : o.done.length = o.total) (harr : o.mod.getLsbD 13 = false) :
    ∃ t, exec .engineOperationComplete s = .next t ∧ HasEnded t o ∧ t.mem = s.mem ∧ t.tiles = s.tiles := by
  have hnone (t : State) : t.gatherArrival o = t := if_neg (ne_true_of_eq_false harr)
  rcases hk with hk | hk
  · refine complete_plain hi hrun ?_ ?_ ?_ ?_ ?_
    · rw [Op.dropped, hk]; exact Bool.and_false _
    · rw [State.mayFinish, hk]; exact beq_iff_eq.2 hall
    · rw [hk]; rfl
    · rw [State.finalEffect, hk]
    · rw [State.afterFinish, hk]; exact hnone _
  · refine complete_plain hi hrun ?_ ?_ ?_ ?_ ?_
    · rw [Op.dropped, hk]; exact Bool.and_false _
    · rw [State.mayFinish, hk]; exact beq_iff_eq.2 hall
    · rw [hk]; rfl
    · rw [State.finalEffect, hk]
    · rw [State.afterFinish, hk]; exact hnone _
theorem complete_smerge (hk : o.kind = .smerge) (h : o.get kOver = 1 ∨ o.st.cancelled = true) :
    ∃ t, exec .engineOperationComplete s = .next t ∧ HasEnded t o ∧ t.mem = s.mem ∧ t.tiles = s.tiles := by
  cases hcan : o.st.cancelled
  · have hover := h.resolve_right (ne_true_of_eq_false hcan)
    refine complete_plain hi hrun ?_ ?_ ?_ ?_ ?_
    · rw [Op.dropped, hcan, Bool.false_and]
    · rw [State.mayFinish, hk]; exact beq_iff_eq.2 hover
    · rw [hk]; rfl
    · rw [State.finalEffect, hk]
    · rw [State.afterFinish, hk]
  · refine complete_dropped hi hrun ?_ ?_
    · rw [Op.dropped, hcan, hk]; rfl
    · rw [hk]; rfl

/-- An MXE instruction does the rest of its work as it ends. -/
theorem complete_mxe {r : Tile × Op} (hk : o.kind.isMxe = true) (hcan : o.st.cancelled = false) (hf : s.mayFinish i o = true)
    (hfinal : s.finalEffect o = (s.setTile (coreSite o.core) r.1, r.2)) (hkr : ∀ t : State, t.afterFinish r.2 = t) :
    ∃ t, exec .engineOperationComplete s = .next t ∧ t.tile (coreSite o.core) = r.1 ∧ HasEnded t r.2 := by
  refine ⟨_, exec_complete_of_mayFinish hi hrun (by rw [Op.dropped, hcan, Bool.false_and]) hf (isColl_of_isMxe hk), ?_⟩
  rw [hfinal, hkr]
  exact ⟨State.tile_setTile_self .., hasEnded_finishOp ..⟩
end
end Sys2Proof.Machine
end

section
/-! SUPPORT. What an MXE instruction's work keeps, and the members of a collective that complete together (14 R331, R335, 16 R390). -/

namespace Sys2Proof.Machine

/-! ## An operation keeps its kind through the engine's work -/

theorem kind_poisonedIf (b : Bool) (o : Op) (n : Nat) : (if b then o.poisonedBy n else o).kind = o.kind := by
  cases b <;> rfl
theorem kind_gmmRead (x : GmmShape) (t : Tile) (o : Op) (g base : Nat) : (gmmRead x t o g base).kind = o.kind := rfl
theorem kind_gmmStep (x : GmmShape) (a : Tile × Op) : (gmmStep x a).2.kind = a.2.kind := by
  refine (kind_poisonedIf _ _ _).trans (show (ite _ _ _ : Op).kind = _ from ?_)
  split <;> rfl
theorem kind_gmm (t : Tile) (o : Op) (lines : Nat) : (t.gmm o lines).2.kind = o.kind :=
  List.foldlRecOn (motive := fun a : Tile × Op => a.2.kind = o.kind) _ _ rfl fun _ ha _ _ => (kind_gmmStep _ _).trans ha
theorem kind_multiply (t : Tile) (o : Op) (chunks : Nat) : (t.multiply o chunks).2.kind = o.kind := rfl
theorem kind_multiplyRest (t : Tile) (o : Op) : (t.multiplyRest o).2.kind = o.kind := by
  rw [Tile.multiplyRest]
  split
  · exact kind_gmm ..
  · exact kind_multiply ..
theorem kind_accOp (t : Tile) (o : Op) (op : Nat) : (t.accOp o op).2.kind = o.kind := by
  match op with
  | 0 => rfl
  | 1 => exact List.foldlRecOn (motive := fun a : Tile × Op => a.2.kind = o.kind) _ _ rfl fun a ha _ _ => ha
  | n + 2 =>
    show (ite _ _ _ : Op).kind = _
    split
    · exact List.foldlRecOn (motive := fun a : Tile × Op × Flags => a.2.1.kind = o.kind) _ _ rfl
        fun _ ha _ _ => (kind_poisonedIf _ _ _).trans ha
    · exact List.foldlRecOn (motive := fun a : Tile × Op × Flags => a.2.1.kind = o.kind) _ _ rfl
        fun _ ha _ _ => (kind_poisonedIf _ _ _).trans ha
theorem afterFinish_of_mxe {o : Op} (h : o.kind.isMxe = true) (t : State) : t.afterFinish o = t := by
  rw [State.afterFinish]
  cases hk : o.kind with
  | gath => rw [hk] at h; exact absurd h Bool.false_ne_true
  | scat => rw [hk] at h; exact absurd h Bool.false_ne_true
  | _ => rfl

section
variable {s : State} {i : Nat} {o : Op} (hi : s.input.index = i) (hrun : s.runningOp? i = some o) {op : Nat}
  (hfree : s.mxeBlocked i o = false) (hcan : o.st.cancelled = false)
include hi hrun hfree hcan

/-- A multiplying instruction does the rest of its work as it ends. -/
theorem complete_mma (hk : o.kind = .mma op) (hall : ∀ j, j < o.total → o.done.contains j = true) :
    ∃ t, exec .engineOperationComplete s = .next t ∧ t.tile (coreSite o.core) = ((s.tile (coreSite o.core)).multiplyRest o).1 ∧
      HasEnded t ((s.tile (coreSite o.core)).multiplyRest o).2 := by
  refine complete_mxe hi hrun (by rw [hk]; rfl) hcan ?_ ?_ ?_
  · rw [State.mayFinish, hk, allDone_of_contains hall, hfree]; rfl
  · rw [State.finalEffect, hk]
    simp only [State.mxeFinish, hcan, Bool.false_eq_true, if_false, hk]
  · exact afterFinish_of_mxe (by rw [kind_multiplyRest, hk]; rfl)
/-- An accumulator instruction does its work as it ends. -/
theorem complete_acc (hk : o.kind = .acc op) :
    ∃ t, exec .engineOperationComplete s = .next t ∧ t.tile (coreSite o.core) = ((s.tile (coreSite o.core)).accOp o op).1 ∧
      HasEnded t ((s.tile (coreSite o.core)).accOp o op).2 := by
  refine complete_mxe hi hrun (by rw [hk]; rfl) hcan ?_ ?_ ?_
  · rw [State.mayFinish, hk, hfree]; rfl
  · rw [State.finalEffect, hk]
    simp only [State.mxeFinish, hcan, Bool.false_eq_true, if_false, hk]
  · exact afterFinish_of_mxe (by rw [kind_accOp, hk]; rfl)
/-- A multiplying instruction goes on by one chunk, k step or line. -/
theorem exec_granule_of_step (hk : o.kind = .mma op) (hall : ∀ j, j < o.total → o.done.contains j = true) (hpast : o.total ≤ s.input.item)
    {r : Tile × Op} (hr : r = if op = 3 then (s.tile (coreSite o.core)).gmm o 1 else (s.tile (coreSite o.core)).multiply o 1) :
    exec .engineMemoryGranule s = .next ((s.setTile (coreSite o.core) r.1).setOp i r.2) := by
  have hgo : ¬(s.mxeBlocked i o || o.st.cancelled || !o.allDone o.total) = true := by
    rw [hfree, hcan, allDone_of_contains hall]; decide
  have hstep : (if o.kind == .mma 3 then (s.tile (coreSite o.core)).gmm o 1 else (s.tile (coreSite o.core)).multiply o 1) = r := by
    rw [hr, hk]
    by_cases hop : op = 3
    · rw [hop]; rfl
    · rw [if_neg hop, if_neg (by simpa using hop)]
  show execEngineMemoryGranule s = _
  rw [execEngineMemoryGranule]
  simp only [hi, hrun, hk]
  rw [State.mxePart, if_neg (Nat.not_lt.2 hpast), State.mxeStep, if_neg hgo]
  simp only [hstep]
end

/-! ## The members of a collective complete together -/

section
variable (l : List Op)
theorem mem_finishAll (s : State) : (l.foldl (fun s p => s.finishOp p) s).mem = s.mem :=
  List.foldlRecOn (motive := fun t : State => t.mem = s.mem) l _ rfl fun _ ht _ _ => ht
theorem ops_finishAll_subset (s : State) : (l.foldl (fun s p => s.finishOp p) s).ops ⊆ s.ops :=
  List.foldlRecOn (motive := fun t : State => t.ops ⊆ s.ops) l _ (List.Subset.refl _) fun _ ht _ _ _ hq => ht (List.mem_filter.1 hq).1
/-- None of those that complete holds its identifier afterwards. -/
theorem none_is_finishAll (s : State) {p q : Op} (hp : p ∈ l) (hq : q ∈ (l.foldl (fun s p => s.finishOp p) s).ops) :
    q.is p.core p.ch p.id = false := by
  induction l generalizing s with
  | nil => exact absurd hp List.not_mem_nil
  | cons a l ih =>
    rcases List.mem_cons.1 hp with rfl | hp
    · exact (hasEnded_finishOp s p).1 q (ops_finishAll_subset l _ hq)
    · exact ih _ hp hq
end

theorem complete_coll {s : State} {i : Nat} {o : Op} (hi : s.input.index = i) (hrun : s.runningOp? i = some o) {op : Nat}
    (hk : o.kind = .coll op) (hpos : o.pos = 1) :
    ∃ t, exec .engineOperationComplete s = .next t ∧ t.mem = s.mem ∧
      ∀ p, p ∈ s.ops → p.matches o = true → p.pos = 1 → ∀ q, q ∈ t.ops → q.is p.core p.ch p.id = false := by
  have hmates : s.collMates o = s.ops.filter fun p => p.matches o && p.pos == o.pos := if_neg (by simp [hpos])
  refine ⟨_, exec_complete_of_coll hi hrun ?_ ?_ ?_, mem_finishAll .., fun p hp hm h1 q hq => none_is_finishAll _ s ?_ hq⟩
  · rw [Op.dropped, hk]; exact Bool.and_false _
  · rw [State.mayFinish, hk]
    simp only [State.collDone, hpos, beq_self_eq_true, Bool.true_or]
  · rw [hk]; rfl
  · rw [hmates]
    exact List.mem_filter.2 ⟨hp, by rw [hm, h1, hpos]; rfl⟩

end Sys2Proof.Machine
end

section
/-! SUPPORT. The engines' events have their effects (13 R315–R320, 14 R327–R343, 15 R361, 16 R374, R390). -/

namespace Sys2Proof.Machine

theorem goes_of_transferTurn {s : State} {i k : Nat} {o : Op} (hcan : o.st.cancelled = false) (hdone : o.done.contains k = false)
    (hheld : o.held.contains k = false) (hord : s.inOrder o k = true)
    (hbefore : ((s.ops.take i).any fun p => s.transferHolds p o k) = false) :
    (o.st.cancelled || o.done.contains k || o.held.contains k || !s.inOrder o k || (s.ops.take i).any fun p => s.transferHolds p o k) = false := by
  rw [hcan, hdone, hheld, hord, hbefore]; rfl

/-- Settles O34: a granule's delivery by the first of its pieces' answers, an operation's end by its kind. -/
theorem engineEventsComplete : Obligations.EngineEventsComplete := by
  unfold Obligations.EngineEventsComplete
  refine ⟨?transfers, ?granules, ?completions⟩
  case transfers =>
    intro s i k o op et sq src dst n hi hk ho hrun hturn hkind hcan hdone hheld hord hbefore hgr parts rd all o'
    have h : TransferTurn s i k o op et sq src dst n :=
      ⟨hi, hk, runningOp?_of_turn ho hrun hturn, hkind, goes_of_transferTurn hcan hdone hheld hord hbefore, hheld, hgr⟩
    refine ⟨fun t hf => exec_xfer_of_fault h rfl rfl rfl hf, fun hf hg hr => exec_xfer_of_range h rfl rfl rfl hf hg hr, ?_, ?_, ?_⟩
    · intro pa c s' hsrc hf hg haway hsys hhost hsent u r
      exact exec_xfer_of_here h rfl rfl rfl hf hg hsrc haway hsys hhost hsent rfl rfl
    · intro u p pa off len data at_ c w v x
      exact ⟨deliverPart_plain u p et pa off len data at_ c w, deliverPart_poisoned u p et pa off len data at_ c w,
        fun hop hv => deliverPart_at_poison u p et pa off len data at_ c w hop hv,
        fun hop hv => deliverPart_combined u p et pa off len data at_ c w hop hv⟩
    · exact fun p g => ⟨poisoned_poisonAtDest p g, pcnt_poisonAtDest_twice p g, pcnt_poisonAtDest_of_new p g⟩
  case granules =>
    intro s i k o hi hk ho hrun hturn hlt hdone hheld n gets marked
    have h : PartTurn s i k o := ⟨hi, hk, runningOp?_of_turn ho hrun hturn, hlt, hdone, hheld⟩
    refine ⟨?_, ?_, ?_, ?_, ?_, ?_⟩
    · intro x psn v hkind hload hx
      show exec .engineMemoryGranule s = _
      rw [exec_granule_of_ts h hkind, tsPart_load h hload, granuleIn_of_data hx, marked512_eq]
    · intro t hkind hload hx
      show exec .engineMemoryGranule s = _
      rw [exec_granule_of_ts h hkind, tsPart_load h hload, granuleIn_of_fault hx, holdPart_of_free hheld]
    · intro x v hkind hstore hdata hx o'
      show exec .engineMemoryGranule s = _
      rw [exec_granule_of_ts h hkind, tsPart_store h hstore hdata, show bitAt x 512 = (x / 2 ^ 512 % 2 == 1) from rfl, granuleOut_of_done hx]
      rfl
    · intro op r hkind hruns hrow hprev hcol hearly x
      show exec .engineMemoryGranule s = _
      rw [exec_granule_of_ts h hkind, tsPart_row h hruns hrow hprev hcol hearly]
    · intro hkind p x psn v hx
      show exec .engineMemoryGranule s = _
      rw [exec_granule_of_mma h hkind, mxePart_granule h, State.mmalGranule, granuleIn_of_data hx, marked512_eq]
    · intro x v hkind hb hx
      show exec .engineMemoryGranule s = _
      rw [exec_granule_of_att h hkind, attGranule_attm h hb hx]
  case completions =>
    intro s i o hi ho hrun hturn ended allDone
    have hgo := runningOp?_of_turn ho hrun hturn
    refine ⟨code_eq, ?_, ?_, ?_, ?_, ?_, ?_, ?_⟩
    · intro op et sq hkind hall hcan
      obtain ⟨t, ht, hend, hmem, -⟩ := complete_xfer hi hgo hkind hall hcan
      exact ⟨t, ht, hend, hmem⟩
    · exact fun op hkind hall => complete_ts hi hgo hkind hall
    · intro op hkind hall hfree hcan
      exact ⟨complete_mma hi hgo hfree hcan hkind hall, fun hpast => exec_granule_of_step hi hgo hfree hcan hkind hall hpast rfl⟩
    · exact fun op hkind hfree hcan => complete_acc hi hgo hfree hcan hkind
    · intro hkind hall harr
      obtain ⟨t, ht, hend, hmem, -⟩ := complete_elements hi hgo hkind hall harr
      exact ⟨t, ht, hend, hmem⟩
    · intro hkind hover
      obtain ⟨t, ht, hend, hmem, -⟩ := complete_smerge hi hgo hkind hover
      exact ⟨t, ht, hend, hmem⟩
    · exact fun op hkind hpos => complete_coll hi hgo hkind hpos

end Sys2Proof.Machine
end

section
/-! SUPPORT. Sweeps of the attention engine, and the shadow handler that one starts (12 R305, 15 R353, R355, R363). -/

namespace Sys2Proof.Machine

/-- The sweep at place `i` has started, and its turn has come. -/
structure SweepRuns (s : State) (i : Nat) (o : Op) : Prop where
  index : s.input.index = i
  runs : s.runningOp? i = some o
  kind : o.kind = .atts ∨ o.kind = .kvnext
  first : s.attBlocked i o = false
  free : o.held = []
  started : o.total = 1

section
variable {s : State} {i : Nat} {o : Op} (h : SweepRuns s i o)
include h

theorem sweepAt_of_runs (f : Nat → Op → State → Res) : s.sweepAt f = f i o s := by
  have hsweep : o.kind.isSweep = true := by
    rcases h.kind with hk | hk
    · rw [hk]; rfl
    · rw [hk]; rfl
  have hgo : ¬(!o.kind.isSweep || s.attBlocked i o || !o.held.isEmpty) = true := by
    rw [hsweep, h.first, h.free]; decide
  have hstart : s.startSweep i o = (s, o) := if_pos (by rw [h.started]; decide)
  rw [State.sweepAt]
  simp only [h.index, h.runs, if_neg hgo, hstart]

theorem exec_blockFold_of_move {p : Nat} {v : State} {fl : Nat} {psn : Bool} {home : Nat} (hm : s.sweepTurn o = .move p v fl psn home) :
    exec .blockFold s =
      .next (v.setOp i { o with pos := p, flags := o.flags ||| fl, psn := o.psn || psn, shadowed := false, desc := home }) := by
  show execBlockFold s = _
  rw [execBlockFold, sweepAt_of_runs h]
  simp only [hm]
theorem exec_blockFold_of_hold {t : TrapInfo} {v : State} (hm : s.sweepTurn o = .hold t v) :
    exec .blockFold s = .next ((v.engineFault { o with ch := 0, id := 0#32 } t 0#64).setOp i { o with held := [0], shadowed := false }) := by
  show execBlockFold s = _
  rw [execBlockFold, sweepAt_of_runs h]
  simp only [hm]

/-- The state in which a sweep that stops delivers its result: an ATTS has written its header. -/
def State.sweepHeadered (v : State) (o : Op) (next : Nat) (finished : Bool) : State :=
  let site := coreSite o.core
  let t := v.tile site
  if o.kind == .atts && t.carryOk o.strand && !o.st.cancelled then
    v.setTile site (t.setHeader o.strand (sweepHeader (t.header o.strand) o.coord next (!finished)))
  else v
omit h in
theorem ops_sweepHeadered (v : State) (o : Op) (next : Nat) (finished : Bool) : (v.sweepHeadered o next finished).ops = v.ops := by
  simp only [State.sweepHeadered]
  split <;> rfl
omit h in
theorem sweepHeadered_kvnext (v : State) {o : Op} (hk : o.kind = .kvnext) (next : Nat) (finished : Bool) :
    v.sweepHeadered o next finished = v := by
  simp only [State.sweepHeadered, hk]
  rfl

theorem exec_sweepStop {reason next home : Nat} {finished : Bool} {v : State} (hm : s.sweepTurn o = .stop reason next home finished v) :
    exec .attentionSweepStop s =
      .next (State.fill { v.sweepHeadered o next finished with ops := v.ops.eraseIdx i } o.strand
        (if o.dest = 0#4 then .none else .g o.dest) (sweepWord reason o.flags o.psn next home)) := by
  show execAttentionSweepStop s = _
  rw [execAttentionSweepStop, sweepAt_of_runs h]
  simp only [hm]
  rw [← ops_sweepHeadered v o next finished]
  rfl
omit h in
theorem sweepWord_eq (reason flags : Nat) (psn : Bool) (next home : Nat) :
    sweepWord reason flags psn next home =
      reason * 2 ^ 60 + flags % 64 * 2 ^ 54 + (if psn then 2 ^ 53 else 0) + next % 2 ^ 24 * 2 ^ 24 + home % 2 ^ 22 := by
  cases psn
  · rw [sweepWord, b2n, if_neg Bool.false_ne_true, if_neg Bool.false_ne_true, Nat.zero_mul]
  · rw [sweepWord, b2n, if_pos rfl, if_pos rfl, Nat.one_mul]
omit h in
theorem ops_fill (v : State) (k : Nat) (d : Dest) (x : Nat) : (v.fill k d x).ops = v.ops := by
  obtain ⟨st, c, hfill⟩ := fill_eq v k d x
  rw [hfill]
  rfl
omit h in
/-- A destination other than g0 is full with the value afterwards. -/
theorem fill_delivers (v : State) (k : Nat) {d : Reg} (hd : d ≠ 0#4) (x : Nat) :
    ((v.fill k (if d = 0#4 then .none else .g d) x).strand k).regs.fullG d = true ∧
      ((v.fill k (if d = 0#4 then .none else .g d) x).strand k).regs.readG d = BitVec.ofNat 64 x := by
  rw [if_neg hd, regs_fill]
  exact Dest.delivered_g hd x _

theorem exec_shadowStart {site : Nat} {w : KvWalk} {v : State} (hsite : s.walkTile o = some site) (hm : s.sweepTurn o = .deferred w v)
    (hfree : (v.tile site).shadow = none) :
    exec .shadowHandlerStart s = .next (v.startShadow site i o (withPos o.coord o.pos) w) := by
  show execShadowHandlerStart s = _
  rw [execShadowHandlerStart, sweepAt_of_runs h]
  simp only [hsite, hm, hfree, Option.isSome_none, Bool.false_eq_true, if_false]
end

section
variable (v : State) (site i : Nat) (o : Op) (c : Word) (w : KvWalk)
theorem op_startShadow : (v.startShadow site i o c w).ops[i]? = (v.ops[i]?).map fun _ => { o with shadowed := true } := by
  show (v.ops.set i _)[i]? = _
  rw [List.getElem?_set_self']
  rfl
theorem shadow_startShadow :
    ((v.startShadow site i o c w).tile site).shadow =
      some { coord := c, desc := BitVec.ofNat 512 (w.desc.getD 0), tenant := o.tenant, part := o.part, core := o.core, walker := o.strand } := by
  show ((v.setTile site _).tile site).shadow = _
  rw [State.tile_setTile_self]
theorem strand_startShadow :
    (v.startShadow site i o c w).strand (strandOf (2 * site + 1) 8) =
      { st := .ready, birth := .shadow, launch := o.launch, pc := kvshHpc (v.part o.part).kvsh
        regs := shadowRegs c w.entryVa w.descVa (v.part o.part).kvsharg } :=
  State.strand_setStrand_self _ _ _
end

end Sys2Proof.Machine
end

section
/-! SUPPORT. Elements of gathers and scatters: formed, parked with BADINDEX, applied (16 R368–R371, R379). -/

namespace Sys2Proof.Machine

/-- Element `k` of the operation at place `i` is chosen, and the operation may run. -/
structure ElementTurn (s : State) (i k : Nat) (o : Op) : Prop where
  index : s.input.index = i
  item : s.input.item = k
  runs : s.runningOp? i = some o

section
variable {s : State} {i k : Nat} {o : Op} (h : ElementTurn s i k o)
include h

theorem exec_gather_forms (hk : o.kind = .gath) (hform : s.canForm o k = true) : exec .gatherElementArrival s = .next (s.formElement i o k) := by
  have hkind : ¬(o.kind != .gath) = true := by rw [hk]; decide
  show execGatherElementArrival s = _
  rw [execGatherElementArrival]
  simp only [h.index, h.item, h.runs, if_neg hkind, hform, if_true]
theorem exec_scatter_forms (hk : o.kind = .scat) (hform : s.canForm o k = true) : exec .scatterElementApply s = .next (s.formElement i o k) := by
  have hkind : ¬(o.kind != .scat) = true := by rw [hk]; decide
  show execScatterElementApply s = _
  rw [execScatterElementApply]
  simp only [h.index, h.item, h.runs, if_neg hkind, hform, if_true]
theorem exec_scatter_applies (hk : o.kind = .scat) (hform : s.canForm o k = false) (hfly : o.inFlight k = true) (hmay : o.mayApply k = true)
    (hord : s.scatOrder i o (o.tableAt (o.index k) / 64) = true) : exec .scatterElementApply s = .next (s.scatApply i o k) := by
  have hkind : ¬(o.kind != .scat) = true := by rw [hk]; decide
  show execScatterElementApply s = _
  rw [execScatterElementApply]
  simp only [h.index, h.item, h.runs, if_neg hkind, hform, hfly, hmay, hord, Bool.and_self, if_true, Bool.false_eq_true, if_false]
end

section
variable {s v : State} {i k : Nat} {o : Op} {x : Nat} {psn : Bool}
  (hx : s.fetchPiece o (tagElem k 0) (o.elems.idxa + BitVec.ofNat 64 (k * o.elems.iw)) o.elems.iw = .data x psn v)
include hx

/-- A gather's element is formed once its table element passes the checks. -/
theorem formElement_gather {w : State} (hk : o.kind = .gath) (hbad : badIndex o.elems x (o.tableAt x) = false)
    (hok : v.checkTable o (o.tableAt x) o.elems.esize = .ok w) :
    s.formElement i o k =
      w.setOp i { o.advance k with data := (o.advance k).data.set (idxKey k) (x + if psn then 2 ^ 64 else 0) } := by
  have hgath : (!o.isScat) = true := by rw [Op.isScat, hk]; rfl
  have hmark : b2n psn * 2 ^ 64 = if psn then 2 ^ 64 else 0 := by cases psn <;> rfl
  simp only [State.formElement, hx, hbad, Bool.false_eq_true, if_false, hok, hgath, if_true, hmark]
/-- A bad index parks its element. -/
theorem formElement_bad (hbad : badIndex o.elems x (o.tableAt x) = true) :
    s.formElement i o k = v.parkElement i o k 1 (BitVec.ofNat 64 x) := by
  simp only [State.formElement, hx, hbad, if_true]
end

/-- BADINDEX stands at the end of the tile's fault queue, with the index. -/
theorem faultq_parkElement_badIndex {v : State} {o : Op} (i k : Nat) (x : Word) (hroom : (v.tile (coreSite o.core)).faultq.length < 256) :
    ((v.parkElement i o k 1 x).tile (coreSite o.core)).faultq = (v.tile (coreSite o.core)).faultq ++
      [{ cause := 1, ch := o.ch, scat := o.isScat, cc := coreIsCC o.core, id := o.id, elem := k, addr := x }] := by
  simp only [State.parkElement, if_neg (Nat.not_le.2 hroom), if_true]
  show ((v.setTile (coreSite o.core) _).tile (coreSite o.core)).faultq = _
  rw [State.tile_setTile_self]

theorem bitAt_of_lt {x n : Nat} (h : x < 2 ^ n) : bitAt x n = false := by
  simp [bitAt, bits, Nat.div_eq_of_lt h]
/-- A plain scatter element writes its table element. -/
theorem scatApply_plain {s v : State} {i k : Nat} {o : Op} {pa : Nat} {c : Option (Nat × Nat)} (hop : o.scatOp = 0)
    (hreach : s.reach o .engineWrite (BitVec.ofNat 64 (o.tableAt (o.index k))) = .at pa c v) (hsys : paIsSystem pa = false)
    (hidx : o.data.getD (idxKey k) 0 < 2 ^ 64) (hsrc : o.data.getD (srcKey k) 0 < 2 ^ 512) :
    s.scatApply i o k =
      ((v.engineTouch o pa c true).writePa pa o.elems.esize (o.data.getD (srcKey k) 0)).setOp i { o.settle k with dcnt := o.dcnt + 1 } := by
  have hspace : ¬(paIsSystem pa || (paIsHost pa && (0 : Nat) != 0)) = true := by rw [hsys]; simp
  have hclean : ¬(bitAt (o.data.getD (srcKey k) 0) 512 || bitAt (o.data.getD (idxKey k) 0) 64) = true := by
    rw [bitAt_of_lt hidx, bitAt_of_lt hsrc]; decide
  simp only [State.scatApply, hreach, if_neg hspace, if_neg hclean, hop, if_true, Nat.mod_eq_of_lt hsrc]
  rfl

end Sys2Proof.Machine
end

section
/-! SUPPORT. Windows of an SMERGE, and turns of a collective's member (16 R379, R380, R383–R386). -/

namespace Sys2Proof.Machine

section
variable {s v : State} {i : Nat} {o : Op} {d : Side} {x y : Head}

theorem passWindow_of_segment {g : Seg} (h : s.readSeg o (o.sideAddr d) x = .ok (some g, v)) :
    s.passWindow i o d x = v.emitSeg i o (o.consume d g) g := by simp only [State.passWindow, h]
theorem passWindow_of_none (h : s.readSeg o (o.sideAddr d) x = .ok (none, v)) : s.passWindow i o d x = v.setOp i (o.endMerge true) := by
  simp only [State.passWindow, h]
theorem ok_of_segment {a : Nat} {g : Seg} (h : s.readSeg o a x = .ok (some g, v)) : x.ok = true := by
  by_contra hno
  rw [State.readSeg, if_pos (by simpa using hno)] at h
  cases h
theorem joinWindow_of_segments {g k : Seg} {z : State} (hx : s.readSeg o (o.sideAddr leftSide) x = .ok (some g, v))
    (hy : v.readSeg o (o.sideAddr rightSide) y = .ok (some k, z)) :
    s.joinWindow i o x y = z.emitSeg i o ((o.consume leftSide g).consume rightSide k) (mergeSegs o.thr g k) := by
  simp only [State.joinWindow, ok_of_segment hy, Bool.not_true, Bool.false_eq_true, if_false, hx, hy]
/-- A segment that passes the capacity ends the merge RANGE. -/
theorem emitSeg_of_full {o' : Op} {g : Seg} (h : 64 * o.cap < o.get kOut + g.size) : s.emitSeg i o o' g = s.setOp i (o.endMerge true) := if_pos h
end

/-- The turn of the SMERGE at place `i` has come. -/
structure MergeTurn (s : State) (i : Nat) (o : Op) : Prop where
  index : s.input.index = i
  runs : s.runningOp? i = some o
  here : s.input.level = 0
  kind : o.kind = .smerge
  first : s.smergeBlocked i o = false
  free : o.held = []
  goes : o.get kOver ≠ 1

theorem exec_mergeNode_of_smerge {s : State} {i : Nat} {o : Op} (h : MergeTurn s i o) : exec .mergeNode s = .next (s.mergeWindow i o) := by
  have hgo : ¬((s.smergeBlocked i o || !o.held.isEmpty || decide (o.get kOver = 1)) = true) := by
    rw [h.first, h.free, decide_eq_false h.goes]; decide
  show execMergeNode s = _
  rw [execMergeNode, if_neg (not_not.2 h.here)]
  simp only [h.index, h.runs, h.kind, if_neg hgo]

/-! ## The next window, once both heads are read -/

section
variable {s u w : State} {i : Nat} {o : Op} {x y : Head}

theorem mergeWindow_of_ends (hl : s.nextHead o leftSide = .ok (none, u)) (hr : u.nextHead o rightSide = .ok (none, w)) :
    s.mergeWindow i o = w.setOp i (o.endMerge false) := by simp only [State.mergeWindow, hl, hr]
theorem mergeWindow_of_left (hl : s.nextHead o leftSide = .ok (some x, u)) (hr : u.nextHead o rightSide = .ok (none, w)) :
    s.mergeWindow i o = w.passWindow i o leftSide x := by simp only [State.mergeWindow, hl, hr]
theorem mergeWindow_of_right (hl : s.nextHead o leftSide = .ok (none, u)) (hr : u.nextHead o rightSide = .ok (some y, w)) :
    s.mergeWindow i o = w.passWindow i o rightSide y := by simp only [State.mergeWindow, hl, hr]

variable (hl : s.nextHead o leftSide = .ok (some x, u)) (hr : u.nextHead o rightSide = .ok (some y, w))
include hl hr

theorem mergeWindow_of_heads :
    s.mergeWindow i o = (if o.get kVt = 0 ∧ x.vt ≠ y.vt then w.setOp i (o.endMerge true)
      else if x.win < y.win then w.passWindow i o leftSide x
      else if y.win < x.win then w.passWindow i o rightSide y
      else w.joinWindow i o x y) := by simp only [State.mergeWindow, hl, hr]
/-- The streams' value types differ. -/
theorem mergeWindow_of_types (hvt : o.get kVt = 0) (hne : x.vt ≠ y.vt) : s.mergeWindow i o = w.setOp i (o.endMerge true) := by
  rw [mergeWindow_of_heads hl hr, if_pos ⟨hvt, hne⟩]

variable (hvt : o.get kVt ≠ 0 ∨ x.vt = y.vt)
include hvt

theorem mergeWindow_of_lower_left (hlt : x.win < y.win) : s.mergeWindow i o = w.passWindow i o leftSide x := by
  rw [mergeWindow_of_heads hl hr, if_neg (fun h => hvt.elim (· h.1) h.2), if_pos hlt]
theorem mergeWindow_of_lower_right (hlt : y.win < x.win) : s.mergeWindow i o = w.passWindow i o rightSide y := by
  rw [mergeWindow_of_heads hl hr, if_neg (fun h => hvt.elim (· h.1) h.2), if_neg (Nat.lt_asymm hlt), if_pos hlt]
theorem mergeWindow_of_same (heq : x.win = y.win) : s.mergeWindow i o = w.joinWindow i o x y := by
  rw [mergeWindow_of_heads hl hr, if_neg (fun h => hvt.elim (· h.1) h.2), if_neg (by omega), if_neg (by omega)]
end

/-! ## A collective's member -/

/-- A member of a collective that goes on. -/
structure CollTurn (s : State) (i op : Nat) (o : Op) (g : Group) : Prop where
  index : s.input.index = i
  runs : s.runningOp? i = some o
  here : s.input.level = 0
  kind : o.kind = .coll op
  goes : o.pos ≠ 1
  group : s.collGroupOf o = some g
  unended : g.collEnd.find? o.collNumber = none
  whole : g.quarantined = false
  agrees : s.collDiffers o g = false

section
variable {s : State} {i op : Nat} {o : Op} {g : Group} (h : CollTurn s i op o g)
include h

theorem exec_mergeNode_of_coll :
    exec .mergeNode s =
      .next (if s.input.flag then s.partArrives i o g
        else if op = 1 then s.mergeTurn i o g
        else if !o.contributed then (if o.held.isEmpty then s.contribute i o else s)
        else if !o.computed then s.computeColl i o g
        else s.collGranule i s.input.item o) := by
  have hop : o.collOp = op := by rw [Op.collOp, h.kind]
  have hends : ¬((g.collEnd.find? o.collNumber).isSome || s.collDiffers o g) = true := by rw [h.unended, h.agrees]; decide
  have hturn : s.collTurn i o = _ := if_neg h.goes
  simp only [h.group, if_neg hends, h.whole, Bool.false_eq_true, if_false, hop] at hturn
  rw [← hturn]
  show execMergeNode s = _
  rw [execMergeNode, if_neg (not_not.2 h.here)]
  simp only [h.index, h.runs, h.kind]
theorem exec_coll_arrives (hflag : s.input.flag = true) : exec .mergeNode s = .next (s.partArrives i o g) := by
  rw [exec_mergeNode_of_coll h, if_pos hflag]

variable (hflag : s.input.flag = false)
include hflag
theorem exec_coll_merges (hop : op = 1) : exec .mergeNode s = .next (s.mergeTurn i o g) := by
  rw [exec_mergeNode_of_coll h, if_neg (ne_true_of_eq_false hflag), if_pos hop]

variable (hop : op ≠ 1)
include hop
theorem exec_coll_contributes (hc : o.contributed = false) (hfree : o.held = []) : exec .mergeNode s = .next (s.contribute i o) := by
  rw [exec_mergeNode_of_coll h, if_neg (ne_true_of_eq_false hflag), if_neg hop, if_pos (by rw [hc]; rfl), if_pos (by rw [hfree]; rfl)]
theorem exec_coll_computes (hc : o.contributed = true) (hr : o.computed = false) : exec .mergeNode s = .next (s.computeColl i o g) := by
  rw [exec_mergeNode_of_coll h, if_neg (ne_true_of_eq_false hflag), if_neg hop, if_neg (by rw [hc]; decide), if_pos (by rw [hr]; rfl)]
theorem exec_coll_writes (hc : o.contributed = true) (hr : o.computed = true) :
    exec .mergeNode s = .next (s.collGranule i s.input.item o) := by
  rw [exec_mergeNode_of_coll h, if_neg (ne_true_of_eq_false hflag), if_neg hop, if_neg (by rw [hc]; decide), if_neg (by rw [hr]; decide)]
end

end Sys2Proof.Machine
end

section
/-! SUPPORT. Sweeps, gathers, scatters and merges take place (15 R353–R363, 16 R368–R371, R379–R388). -/

namespace Sys2Proof.Machine

/-- Settles O35: each event by the answer of its own turn: a sweep's, an element's, a window's, a member's. -/
theorem sweepGatherMergeEventsComplete : Obligations.SweepGatherMergeEventsComplete := by
  unfold Obligations.SweepGatherMergeEventsComplete
  refine ⟨?sweeps, ?elements⟩
  case sweeps =>
    intro s i o hi ho hrun hturn hkind hfirst hfree hstarted
    have h : SweepRuns s i o := ⟨hi, runningOp?_of_turn ho hrun hturn, hkind, hfirst, hfree, hstarted⟩
    refine ⟨fun p v fl psn home hm => exec_blockFold_of_move h hm, fun t v hm => exec_blockFold_of_hold h hm, ?_, ?_, ?_⟩
    · intro reason next home finished v hm hk
      rw [exec_sweepStop h hm, sweepHeadered_kvnext v hk, sweepWord_eq]
    · intro reason next home finished v hm
      exact ⟨_, exec_sweepStop h hm, ops_fill .., fun hd => fill_delivers _ _ hd _⟩
    · intro site w v hsite hm hnone
      refine ⟨_, exec_shadowStart h hsite hm hnone, op_startShadow .., shadow_startShadow .., ?_⟩
      rw [strand_startShadow]
      exact ⟨rfl, rfl, rfl, rfl, rfl⟩
  case elements =>
    intro s i k o hi hk ho hrun hturn e at_
    have hgo := runningOp?_of_turn ho hrun hturn
    have h : ElementTurn s i k o := ⟨hi, hk, hgo⟩
    refine ⟨?_, ?_, ?_, ?_, fun v o' g hfull => emitSeg_of_full hfull, ?_⟩
    · intro x psn v w hkind hform hx hbad hok
      rw [exec_gather_forms h hkind hform, formElement_gather hx hkind hbad hok]
    · intro x psn v hkind hform hx hbad hroom
      refine ⟨v.parkElement i o k 1 (BitVec.ofNat 64 x), ?_, faultq_parkElement_badIndex i k _ hroom⟩
      rcases hkind with hkind | hkind
      · rw [if_pos hkind, exec_gather_forms h hkind hform, formElement_bad hx hbad]
      · rw [if_neg (by rw [hkind]; decide), exec_scatter_forms h hkind hform, formElement_bad hx hbad]
    · intro pa c v hkind hform hfly hmay hord hop hreach hsys hidx hsrc
      rw [exec_scatter_applies h hkind hform hfly hmay hord, scatApply_plain hop hreach hsys hidx hsrc]
    · intro hlevel hkind hfirst hfree hover goes
      have hexec := exec_mergeNode_of_smerge ⟨hi, hgo, hlevel, hkind, hfirst, hfree, hover⟩
      refine ⟨?ends, ?left, ?right, ?both⟩
      case ends => exact fun u w hl hr => hexec.trans (congrArg _ (mergeWindow_of_ends hl hr))
      case left =>
        exact fun x u w hl hr g v hg => hexec.trans (congrArg _ ((mergeWindow_of_left hl hr).trans (passWindow_of_segment hg)))
      case right =>
        exact fun y u w hl hr g v hg => hexec.trans (congrArg _ ((mergeWindow_of_right hl hr).trans (passWindow_of_segment hg)))
      case both =>
        intro x y u w hl hr
        refine ⟨fun hvt hne => hexec.trans (congrArg _ (mergeWindow_of_types hl hr hvt hne)), fun hvt => ⟨?_, ?_, ?_, ?_⟩⟩
        · exact fun g v hlt hg =>
            hexec.trans (congrArg _ ((mergeWindow_of_lower_left hl hr hvt hlt).trans (passWindow_of_segment hg)))
        · exact fun g v hlt hg =>
            hexec.trans (congrArg _ ((mergeWindow_of_lower_right hl hr hvt hlt).trans (passWindow_of_segment hg)))
        · exact fun v hlt hg => hexec.trans (congrArg _ ((mergeWindow_of_lower_left hl hr hvt hlt).trans (passWindow_of_none hg)))
        · exact fun g f v z heq hg hf =>
            hexec.trans (congrArg _ ((mergeWindow_of_same hl hr hvt heq).trans (joinWindow_of_segments hg hf)))
    · intro op g hlevel hkind hpos hgroup hend hwhole hdiff
      have hc : CollTurn s i op o g := ⟨hi, hgo, hlevel, hkind, hpos, hgroup, hend, hwhole, hdiff⟩
      refine ⟨exec_coll_arrives hc, exec_coll_merges hc, fun hflag hop => ⟨exec_coll_contributes hc hflag hop,
        exec_coll_computes hc hflag hop, fun h1 h2 => ?_⟩⟩
      rw [exec_coll_writes hc hflag hop h1 h2, hk]

end Sys2Proof.Machine
end
